-- ==== Sys2Proof/Word.lean ====
section
/-! DEFINITION. Bytes, words and the small plain types that both the commands and the state are written with. -/

namespace Sys2Proof

/-- One byte, the smallest addressable unit of every memory of the module (R2). -/
abbrev Byte := BitVec 8

/-- A sparse table: (index, entry) pairs, indexes strictly rising. Its operations stand in Machine/Ops.lean. -/
abbrev FMap (α : Type) := List (Nat × α)

/-- The five inputs of a router, in the round-robin order of R222. -/
inductive Dir where
  | north | east | south | west | loc
  deriving DecidableEq, Repr

/-- Where an instruction issues: a sequence context of the tile that serves a logical coordinate (R20, R123),
or a firmware core numbered as in CORE_ALIVE (R49, R197). -/
inductive Place where
  | tile (x y ctx : Nat)
  | core (n : Nat)
  deriving DecidableEq, Repr

/-- The tags of R154. Tags 10 to 15 are reserved and never written. -/
inductive Tag where
  | empty | int | float | pack | addr | desc | tally | seq | pred | pending
  deriving DecidableEq, Repr

/-- A register word or a tile-store word: 64 data bits and a tag (R154). -/
structure TWord where
  tag : Tag := .empty
  data : BitVec 64 := 0
  deriving DecidableEq, Repr

/-- A mesh packet (R204): its header fields and its payload, one (data, tag) word for each 8 bytes. `more` says that another request of the same GET
follows (R206), and `core` which firmware core a class-0 request of firmware comes from: its path gives these, no header field does. -/
structure Packet where
  dstX : Nat := 0
  dstY : Nat := 0
  srcX : Nat := 0
  srcY : Nat := 0
  kind : Nat := 0
  cls : Nat := 0
  guest : Nat := 0
  fw : Bool := false
  units : Nat := 0
  ctx : Nat := 0
  age : Nat := 0
  addr : Nat := 0
  retAddr : Nat := 0
  operand : BitVec 32 := 0
  paddr : Nat := 0
  more : Bool := false
  core : Nat := 0
  payload : List TWord := []
  deriving DecidableEq, Repr

/-- What a completion from the far end of a link carries (R352, R417): successful completion, or a failure. -/
inductive CplStatus where
  | success | ur | ca | rrs | poisoned
  deriving DecidableEq, Repr

/-- A guest's page of BAR2, and the upstream link on which a request for it arrives: both links reach every page (R340, R393). -/
structure Page where
  link : Nat
  guest : Nat
  deriving DecidableEq, Repr

/-- The kinds of upstream request that are answered with Unsupported Request or discarded (R348). -/
inductive BadRequest where
  | ioRead | ioWrite | cfgType1 | memOutside (write : Bool) | atomicOp | readLocked | deferrableWrite
  | vendorType0 | vendorType1 | bar0Read | bar2 (write : Bool)
  deriving DecidableEq, Repr

/-- A register of a sequence context: s, v, p, d or t with its number (R123). -/
inductive RegName where
  | s (r : Nat)
  | v (r : Nat)
  | p (r : Nat)
  | d (r : Nat)
  | t (r : Nat)
  deriving DecidableEq, Repr

/-- An error that arises in the hardware (notes/assumptions/83.md): in a tile-store word or its tag, of one bit or of two; in a register; in a
router; in a symbol of a stored line of stack memory; in a word of burst-queue SRAM, beyond correction; in a line of cellar memory, whose data
arrives with CXL poison, or which its device fails to read; and on a PCI Express link, correctable or not, with its bit of AER (0 and 1 are UP_0
and UP_1, 2 + n is DN_n). -/
inductive Upset where
  | store (tile word : Nat) (double : Bool)
  | register (tile ctx : Nat) (r : RegName)
  | router (tile : Nat)
  | symbol (line sym : Nat) (flip : BitVec 16)
  | sram (word : Nat)
  | cellar (line : Nat) (failed : Bool)
  | link (n bit : Nat) (correctable : Bool)
  deriving DecidableEq, Repr

end Sys2Proof
end

