-- ==== Sys2Proof/Syntax.lean ====
section
/-! DEFINITION. The commands of the block: one constructor for each row of spec/opcode_table.json, in the table's
order, with the operands that say which object the command concerns. A tile instruction names the place that issues
it and its own operand fields (R170, R172, R176, R177); a Chealm message names the pigeonhole that holds it (R50). -/

namespace Sys2Proof

inductive Instr where
  /-- REGISTER_WRITE (R4). A write to a BAR0 register field that has no row of its own acts as its access code gives. -/
  | registerWrite (link offset size : Nat) (value : BitVec 64)
  /-- MAIN_48V_RISE (R47). MAIN_48V rises above 45.0 V in AUX_ONLY and the module leaves AUX_ONLY for COLD_START. -/
  | main48vRise
  /-- START_STEP_DONE (R44). A timed step of a cold or warm start completes and the next step begins, or its failure action applies. -/
  | startStepDone (failing : List Nat)
  /-- WARM_START_HOLD_END (R552). MAIN_48V has stood at or above 45.0 V for 20 ms and a warm start held before its step 2 proceeds. -/
  | warmStartHoldEnd
  /-- PH_GO (R50). A write of 1 to GO of a request pigeonhole submits the message in the slot to the dispatcher. -/
  | phGo (slot : Nat)
  /-- REQUEST_BEGIN (R63). A core takes a request from the dispatcher's queue, which begins it. -/
  | requestBegin (core : Nat)
  /-- PH_DONE_CLEAR (R57). A write of 1 to DONE of a pigeonhole releases the slot, letting the next pending event be written. -/
  | phDoneClear (slot : Nat)
  /-- EVENT_POST (R56). A pending event is written into event slot 30 or 31 once that slot's DONE reads 0. -/
  | eventPost (slot : Nat)
  /-- HELLO (R66). HELLO opens a new session, negotiates the minor version and resets the negotiated feature map. -/
  | hello (slot : Nat)
  /-- FEATURES (R67). FEATURES grants the wanted features that the module offers, refusing to withdraw features in use. -/
  | features (slot : Nat)
  /-- MODULE_STATUS (R49). MODULE_STATUS returns copies of the module state, core liveness, releases and counts. -/
  | moduleStatus (slot : Nat)
  /-- MODULE_RESTART (R69). MODULE_RESTART accepts a cold or warm restart and schedules it 10 ms later. -/
  | moduleRestart (slot : Nat)
  /-- RESTART_DELAY_EXPIRE (R69). The 10 ms after an accepted MODULE_RESTART elapse and the cold or warm start begins. -/
  | restartDelayExpire
  /-- COLD_RESTART (R49). A write of 1 to MODULE_CTL.COLD_RESTART with CONFIRM 0xC01D starts a cold start without any core. -/
  | coldRestart (value : BitVec 32)
  /-- FW_STAGE (R70). FW_STAGE starts copying a new image into the flash device that does not hold the running image. -/
  | fwStage (slot : Nat)
  /-- FW_STAGE_DONE (R71). The staging copy is written and the Doorkeeper verifies it, reporting staged or erasing it. -/
  | fwStageDone
  /-- FW_ACTIVATE (R72). FW_ACTIVATE accepts an activation of the staged image, starting it or deferring it during an emergency. -/
  | fwActivate (slot : Nat)
  /-- ACTIVATION_START (R73). EMERGENCY has read 0 for 1,000 ms and a deferred activation starts swapping cores. -/
  | activationStart
  /-- CORE_SWAP_DONE (R74). A core finishes its swap onto the new image and the next core in order begins its swap. -/
  | coreSwapDone (core : Nat)
  /-- HEARTH_SWAP_START (R77). EMERGENCY has read 0 for 1,000 ms and the waiting Hearth swap begins. -/
  | hearthSwapStart
  /-- SWAP_TIMEOUT (R79). A swapped core fails to report alive within its longest swap time and the activation reverts. -/
  | swapTimeout (core : Nat)
  /-- WATCHDOG_EXPIRE (R36). A core's hardware watchdog expires, which counts as a crash of that core. -/
  | watchdogExpire (core : Nat)
  /-- CORE_RESTART_DONE (R82). A restarting core reports alive within its restart time and resumes service. -/
  | coreRestartDone (core : Nat)
  /-- CORE_RESTART_TIMEOUT (R82). A restart fails to report alive in time and the module retries, or after three failures takes the out-of-service action. -/
  | coreRestartTimeout (core : Nat)
  /-- RECORD_WRITE_DONE (R43). A record write to one flash device completes and the write to the other device begins. -/
  | recordWriteDone
  /-- RESULT_PRODUCED (R127). A long-latency result is produced, letting a context that waited on its commit become ready. -/
  | resultProduced (tile : Nat)
  /-- REST_POINT_REACHED (R135). A halted tile reaches a rest point and the actors waiting on it proceed. -/
  | restPointReached (tile : Nat)
  /-- RETIREMENT_BEGIN (R145). The Innkeeper takes a retirement trigger and halts the rooms whose logical tiles will move. -/
  | retirementBegin (cluster : Nat)
  /-- IMAGE_MOVE_DONE (R143). A tile image finishes moving; once records and all images are done the routers switch and parked packets are delivered. -/
  | imageMoveDone (cluster : Nat)
  /-- TILE_RETIRE (R152). TILE_RETIRE asks for the in-service retirement of a named physical tile. -/
  | tileRetire (slot : Nat)
  /-- JOB_LAUNCH (R611). JOB_LAUNCH checks, numbers, loads and assigns a program to the contexts of a guest's tiles. -/
  | jobLaunch (slot : Nat)
  /-- EPOCH_JOB_START (R277). At the first epoch edge after a timed launch, the job's contexts become ready to issue. -/
  | epochJobStart
  /-- JOB_END (R612). JOB_END halts every tile of a job, ends it at the rest points and reports JOB_EVENT. -/
  | jobEnd (slot : Nat)
  /-- ADD (R170). ADD writes ra + rb as INT or ADDR. -/
  | add (p : Place) (rd ra rb : BitVec 6)
  /-- ADDI (R170). ADDI writes ra plus the immediate. -/
  | addi (p : Place) (rd ra : BitVec 6) (imm : BitVec 14)
  /-- SUB (R170). SUB writes ra − rb. -/
  | sub (p : Place) (rd ra rb : BitVec 6)
  /-- AND (R170). AND writes the bitwise AND of two INT words. -/
  | andOp (p : Place) (rd ra rb : BitVec 6)
  /-- OR (R170). OR writes the bitwise OR of two INT words. -/
  | orOp (p : Place) (rd ra rb : BitVec 6)
  /-- XOR (R170). XOR writes the bitwise XOR of two INT words. -/
  | xor (p : Place) (rd ra rb : BitVec 6)
  /-- SHL (R170). SHL shifts an INT left by the immediate. -/
  | shl (p : Place) (rd ra : BitVec 6) (imm : BitVec 14)
  /-- SHR (R170). SHR shifts an INT right logically by the immediate. -/
  | shr (p : Place) (rd ra : BitVec 6) (imm : BitVec 14)
  /-- SAR (R170). SAR shifts an INT right arithmetically by the immediate. -/
  | sar (p : Place) (rd ra : BitVec 6) (imm : BitVec 14)
  /-- CMPLT (R170). CMPLT writes 1 if ra is below rb, else 0. -/
  | cmplt (p : Place) (rd ra rb : BitVec 6)
  /-- CMPEQ (R170). CMPEQ writes 1 if ra equals rb, else 0. -/
  | cmpeq (p : Place) (rd ra rb : BitVec 6)
  /-- MIN (R170). MIN writes the signed minimum of two INT words. -/
  | min (p : Place) (rd ra rb : BitVec 6)
  /-- MAX (R170). MAX writes the signed maximum of two INT words. -/
  | max (p : Place) (rd ra rb : BitVec 6)
  /-- MUL (R170). MUL writes the low 64 bits of the product at distance 2. -/
  | mul (p : Place) (rd ra rb : BitVec 6)
  /-- DIV (R171). DIV writes the quotient toward zero, trapping DIVIDE on a zero divisor. -/
  | div (p : Place) (rd ra rb : BitVec 6)
  /-- REM (R171). REM writes the remainder, trapping DIVIDE on a zero divisor. -/
  | rem (p : Place) (rd ra rb : BitVec 6)
  /-- FADD (R90). FADD writes the FP32 sum. -/
  | fadd (p : Place) (rd ra rb : BitVec 6)
  /-- FSUB (R90). FSUB writes the FP32 difference. -/
  | fsub (p : Place) (rd ra rb : BitVec 6)
  /-- FMUL (R90). FMUL writes the FP32 product. -/
  | fmul (p : Place) (rd ra rb : BitVec 6)
  /-- FFMA (R170). FFMA writes ra × rb + rd with one rounding. -/
  | ffma (p : Place) (rd ra rb : BitVec 6)
  /-- FMAX (R170). FMAX writes the larger FP32 value, NaN if either is NaN. -/
  | fmax (p : Place) (rd ra rb : BitVec 6)
  /-- FMIN (R170). FMIN writes the smaller FP32 value, NaN if either is NaN. -/
  | fmin (p : Place) (rd ra rb : BitVec 6)
  /-- ITOF (R170). ITOF converts an INT to FP32 with round to nearest even. -/
  | itof (p : Place) (rd ra : BitVec 6)
  /-- FTOI (R170). FTOI converts FP32 to INT toward zero, saturating. -/
  | ftoi (p : Place) (rd ra : BitVec 6)
  /-- MOV (R170). MOV copies a word with its tag. -/
  | mov (p : Place) (rd ra : BitVec 6)
  /-- TAGOF (R170). TAGOF writes the tag number of ra without a tag check. -/
  | tagof (p : Place) (rd ra : BitVec 6)
  /-- RETAG (R158). RETAG keeps the data bits and gives a permitted new tag. -/
  | retag (p : Place) (rd ra : BitVec 6) (imm : BitVec 14)
  /-- SLD (R170). SLD loads a tagged word from the tile store. -/
  | sld (p : Place) (rd ra : BitVec 6) (imm : BitVec 14)
  /-- SST (R170). SST stores a word with its tag into the tile store. -/
  | sst (p : Place) (ra rb : BitVec 6) (imm : BitVec 14)
  /-- MARKP (R170). MARKP sets the tag of a tile-store word to PENDING. -/
  | markp (p : Place) (ra : BitVec 6) (imm : BitVec 14)
  /-- WAIT (R185). WAIT puts the context in WAIT if the named word reads PENDING. -/
  | wait (p : Place) (ra : BitVec 6) (imm : BitVec 14)
  /-- BR (R169). BR branches relative after one shadow bundle. -/
  | br (p : Place) (imm : BitVec 14)
  /-- BZ (R169). BZ branches if ra is 0, after one shadow bundle. -/
  | bz (p : Place) (ra : BitVec 6) (imm : BitVec 14)
  /-- BNZ (R169). BNZ branches if ra is not 0, after one shadow bundle. -/
  | bnz (p : Place) (ra : BitVec 6) (imm : BitVec 14)
  /-- CALL (R169). CALL writes the return address and branches after one shadow bundle. -/
  | call (p : Place) (rd : BitVec 6) (imm : BitVec 14)
  /-- JMP (R169). JMP branches to the ADDR in ra after one shadow bundle. -/
  | jmp (p : Place) (ra : BitVec 6)
  /-- REPI (R189). REPI makes the next bundle issue a register-given number of times, interruptibly. -/
  | repi (p : Place) (ra : BitVec 6)
  /-- REPX (R190). REPX makes the next bundle issue 1 to 4,096 times without stopping for a halt. -/
  | repx (p : Place) (imm : BitVec 14)
  /-- STEP (R253). STEP holds the context at the guest's step barrier. -/
  | step (p : Place)
  /-- END (R170). END stops issue, commits due results and returns the context to the Steward. -/
  | endOp (p : Place)
  /-- SETH (R170). SETH sets or clears the context's trap handler. -/
  | seth (p : Place) (ra : BitVec 6)
  /-- RTE (R195). RTE returns from a trap handler to TRAP_PC with the saved repeat state, or on a firmware core from an interrupt. -/
  | rte (p : Place)
  /-- BRK (R192). BRK takes full effect and then takes the BREAK trap. -/
  | brk (p : Place) (imm : BitVec 14)
  /-- RDT (R194). RDT reads a trap state word. -/
  | rdt (p : Place) (rd : BitVec 6) (imm : BitVec 14)
  /-- LDI (R160). LDI writes the 64-bit tagged immediate of an FMT 1 bundle. -/
  | ldi (p : Place) (rd : BitVec 6) (tag : BitVec 4) (value : BitVec 64)
  /-- DGET (R170). DGET reads one word of a descriptor tagged DESC. -/
  | dget (p : Place) (rd : BitVec 6) (dk : BitVec 4) (w : BitVec 2)
  /-- DPUT (R170). DPUT writes one word of a descriptor. -/
  | dput (p : Place) (dk : BitVec 4) (w : BitVec 2) (rb : BitVec 6)
  /-- DLD (R170). DLD loads a descriptor from 32 bytes of the tile store. -/
  | dld (p : Place) (dk : BitVec 4) (ra : BitVec 6) (imm : BitVec 14)
  /-- DST (R170). DST stores a descriptor as four DESC words. -/
  | dst (p : Place) (dk : BitVec 4) (ra : BitVec 6) (imm : BitVec 14)
  /-- PGET (R170). PGET reads a predicate register into a PRED word. -/
  | pget (p : Place) (rd : BitVec 6) (pk : BitVec 3)
  /-- PPUT (R170). PPUT writes a predicate register from a word. -/
  | pput (p : Place) (pk : BitVec 3) (ra : BitVec 6)
  /-- SLD4 (R197). SLD4 on a firmware core reads 4 bytes tagged INT. -/
  | sld4 (p : Place) (rd ra : BitVec 6) (imm : BitVec 14)
  /-- SST4 (R197). SST4 on a firmware core writes the low 4 bytes of a word. -/
  | sst4 (p : Place) (ra rb : BitVec 6) (imm : BitVec 14)
  /-- WFI (R570). WFI stops a firmware core's issue until an enabled interrupt source is pending. -/
  | wfi (p : Place)
  /-- VADD (R173). VADD adds two vectors lane by lane under the predicate. -/
  | vadd (p : Place) (vd va vb : BitVec 5) (pr : BitVec 3) (pz : Bool)
  /-- VSUB (R173). VSUB subtracts two vectors lane by lane. -/
  | vsub (p : Place) (vd va vb : BitVec 5) (pr : BitVec 3) (pz : Bool)
  /-- VMUL (R173). VMUL multiplies two vectors lane by lane. -/
  | vmul (p : Place) (vd va vb : BitVec 5) (pr : BitVec 3) (pz : Bool)
  /-- VFMA (R173). VFMA computes va × vb + vc per lane with one rounding. -/
  | vfma (p : Place) (vd va vb vc : BitVec 5) (pr : BitVec 3) (pz : Bool)
  /-- VMAX (R172). VMAX writes the lane-wise maximum. -/
  | vmax (p : Place) (vd va vb : BitVec 5) (pr : BitVec 3) (pz : Bool)
  /-- VMIN (R172). VMIN writes the lane-wise minimum. -/
  | vmin (p : Place) (vd va vb : BitVec 5) (pr : BitVec 3) (pz : Bool)
  /-- VSEL (R173). VSEL writes va or vb in every lane as the predicate selects. -/
  | vsel (p : Place) (vd va vb : BitVec 5) (pr : BitVec 3)
  /-- VADDS (R172). VADDS adds a scalar FLOAT to every lane. -/
  | vadds (p : Place) (vd va : BitVec 5) (sb : BitVec 6) (pr : BitVec 3) (pz : Bool)
  /-- VMULS (R172). VMULS multiplies every lane by a scalar FLOAT. -/
  | vmuls (p : Place) (vd va : BitVec 5) (sb : BitVec 6) (pr : BitVec 3) (pz : Bool)
  /-- VBCAST (R172). VBCAST broadcasts a scalar's low 32 bits to every lane. -/
  | vbcast (p : Place) (vd : BitVec 5) (sb : BitVec 6) (pr : BitVec 3) (pz : Bool)
  /-- VCMPLT (R172). VCMPLT writes a predicate of lane-wise less-than results. -/
  | vcmplt (p : Place) (pd : BitVec 3) (va vb : BitVec 5) (pr : BitVec 3)
  /-- VCMPEQ (R172). VCMPEQ writes a predicate of lane-wise equality results. -/
  | vcmpeq (p : Place) (pd : BitVec 3) (va vb : BitVec 5) (pr : BitVec 3)
  /-- VRMAX32 (R173). VRMAX32 writes the maximum of each 32-lane half. -/
  | vrmax32 (p : Place) (vd va : BitVec 5) (pr : BitVec 3) (pz : Bool)
  /-- VRSUM32 (R174). VRSUM32 writes the pairwise-tree sum of each 32-lane half. -/
  | vrsum32 (p : Place) (vd va : BitVec 5) (pr : BitVec 3) (pz : Bool)
  /-- VFN (R175). VFN queues a function-unit operation whose result follows by the reference algorithms. -/
  | vfn (p : Place) (vd va fn : BitVec 5) (pr : BitVec 3) (pz : Bool)
  /-- MMA (R119). MMA performs one matrix step into t0–t47 and advances both cursors. -/
  | mma (p : Place) (da db : BitVec 4)
  /-- MMAC_I (R176). MMAC.I clears the tallies with an immediate anchor and performs a matrix step. -/
  | mmacI (p : Place) (da db : BitVec 4) (anchor : BitVec 11)
  /-- MMAC_R (R176). MMAC.R clears the tallies with a register anchor and performs a matrix step. -/
  | mmacR (p : Place) (da db : BitVec 4) (sr : BitVec 6)
  /-- MMAC_A (R98). MMAC.A clears the tallies with the auto anchor from a pre-pass and performs a matrix step. -/
  | mmacA (p : Place) (da db : BitVec 4)
  /-- TCLR (R176). TCLR clears t0–t47 with an immediate anchor. -/
  | tclr (p : Place) (anchor : BitVec 11)
  /-- TGET (R114). TGET adds a stored tally wire form into a tally. -/
  | tget (p : Place) (da : BitVec 4) (t : BitVec 6)
  /-- VLD (R177). VLD loads 256 bytes into a vector register and advances the cursor. -/
  | vld (p : Place) (vr : BitVec 5) (dk : BitVec 4)
  /-- VST (R177). VST stores a vector register as PACK and advances the cursor. -/
  | vst (p : Place) (vr : BitVec 5) (dk : BitVec 4)
  /-- VSTMX (R178). VSTMX converts each vector half into an MX block with its scale byte. -/
  | vstmx (p : Place) (vr : BitVec 5) (dk : BitVec 4) (n : BitVec 8)
  /-- TRD (R105). TRD reads eight tallies out into vector lanes as FP32 or BF16. -/
  | trd (p : Place) (g : BitVec 3) (bf16 : Bool) (vr : BitVec 5) (lb : BitVec 3)
  /-- TPUT (R111). TPUT stores a tally's wire form as seven TALLY words. -/
  | tput (p : Place) (t : BitVec 6) (dk : BitVec 4)
  /-- TXMX (R108). TXMX writes 32 tallies out as one MX block. -/
  | txmx (p : Place) (dk : BitVec 4) (h : BitVec 1)
  /-- PUT (R179). PUT sends units from the local tile store to a remote tile in mesh packets. -/
  | put (p : Place) (dk : BitVec 4) (sr : BitVec 6) (n : BitVec 8)
  /-- GET (R179). GET marks local words PENDING and requests units from a remote tile. -/
  | get (p : Place) (dk : BitVec 4) (sr : BitVec 6) (n : BitVec 8)
  /-- ASTREAM (R244). ASTREAM starts the attention-streaming engine to stream a ledger block or append a token. -/
  | astream (p : Place) (dk : BitVec 4) (sr : BitVec 6)
  /-- PACKET_HOP (R209). A mesh packet advances to the next router once the buffer it needs has room. -/
  | packetHop (tile : Nat) (port : Dir)
  /-- PUT_ARRIVE (R179). A PUT packet arrives and its units are written into the destination tile store with their tags. -/
  | putArrive (tile : Nat)
  /-- GET_REQ_ARRIVE (R179). A GET_REQ reaches the source tile, which reads the words and sends a GET_REPLY. -/
  | getReqArrive (tile : Nat)
  /-- GET_REPLY_ARRIVE (R156). A GET_REPLY is written into the requester's tile store, replacing PENDING tags. -/
  | getReplyArrive (tile : Nat)
  /-- ACK_ARRIVE (R214). An ACK arrives at a source tile and releases its unacknowledged counts per class. -/
  | ackArrive (tile : Nat)
  /-- ACK_TIMER_EXPIRE (R215). 32 TCLK pass since the earliest unacknowledged delivery from a source and the router sends an ACK. -/
  | ackTimerExpire (tile source : Nat)
  /-- TMAX_UP_ARRIVE (R226). A TMAX_UP anchor arrives at a parent, which combines it and sends up or down once all are in. -/
  | tmaxUpArrive (tile : Nat)
  /-- TMAX_DOWN_ARRIVE (R226). A TMAX_DOWN combined anchor arrives and the waiting MMAC.A bundle issues with it. -/
  | tmaxDownArrive (tile : Nat)
  /-- FND_RD_ARRIVE (R302). A foundation read reaches its memory, which reads the lines and returns a FND_REPLY. -/
  | fndRdArrive (pkt : Packet)
  /-- FND_WR_ARRIVE (R305). A foundation write reaches its memory and is stored directly or merged. -/
  | fndWrArrive (pkt : Packet)
  /-- FND_REPLY_ARRIVE (R304). A FND_REPLY is written into the tile store, with failed words tagged EMPTY. -/
  | fndReplyArrive (tile : Nat)
  /-- IMAGE_ARRIVE (R143). An IMAGE packet of a moving tile image is written at its new position. -/
  | imageArrive (tile : Nat)
  /-- CTRL_ARRIVE (R205). A firmware CTRL packet reaches its destination and acts as firmware defines. -/
  | ctrlArrive (tile : Nat)
  /-- FLIT_CRC_FAIL (R201). A receiver finds a bad flit CRC, discards it and the link direction replays. -/
  | flitCrcFail (tile : Nat) (side : Dir) (flit : Nat)
  /-- AGE_TICK (R221). An age tick occurs every 8 TCLK and ages the packets held in routers. -/
  | ageTick
  /-- ASTREAM_STREAM_DONE (R247). The engine finishes placing a ledger block in the staging area and writes the flag word. -/
  | astreamStreamDone (tile : Nat)
  /-- ASTREAM_APPEND_DONE (R248). The engine writes a token into the open position, sets its mark and writes the flag word. -/
  | astreamAppendDone (tile : Nat)
  /-- STEP_BARRIER_COMPLETE (R253). Every group context is held at STEP with its ASTREAMs done and the Steward starts the ledger advance. -/
  | stepBarrierComplete (guest : Nat)
  /-- BARRIER_RELEASE (R253). BARRIER_DELAY has passed and the advance has ended, and every held context is released in one TCLK. -/
  | barrierRelease (guest : Nat)
  /-- RUN_MOVE_DONE (R258). A span run's copy to the other tier completes and the directory entry switches. -/
  | runMoveDone (ledger span : Nat)
  /-- LEDGER_POOL (R263). LEDGER_POOL carves a region of guest memory into a ledger pool. -/
  | ledgerPool (slot : Nat)
  /-- LEDGER_CREATE (R264). LEDGER_CREATE makes a ledger and delivers its SEQ handle to a tile. -/
  | ledgerCreate (slot : Nat)
  /-- LEDGER_DELETE (R265). LEDGER_DELETE withdraws the handle, waits for outstanding streams and frees the ledger. -/
  | ledgerDelete (slot : Nat)
  /-- LEDGER_MOVE (R266). LEDGER_MOVE starts a prefetch or demotion of a ledger's runs. -/
  | ledgerMove (slot : Nat)
  /-- LEDGER_QUERY (R238). LEDGER_QUERY returns a ledger's tokens, appends, state and run counts. -/
  | ledgerQuery (slot : Nat)
  /-- LEDGER_IDLE (R257). LEDGER_IDLE sets the guest's IDLE_STEPS for demotion. -/
  | ledgerIdle (slot : Nat)
  /-- LEDGER_EXPORT (R267). LEDGER_EXPORT starts writing a ledger's export form to guest memory. -/
  | ledgerExport (slot : Nat)
  /-- LEDGER_EXPORT_DONE (R267). A ledger export completes and LEDGER_EVENT kind 6 is reported. -/
  | ledgerExportDone (ledger : Nat)
  /-- LEDGER_IMPORT (R268). LEDGER_IMPORT starts creating a ledger from an export form. -/
  | ledgerImport (slot : Nat)
  /-- LEDGER_IMPORT_DONE (R268). An import finishes copying, gives runs and delivers the handle, or fails its digest. -/
  | ledgerImportDone (guest : Nat)
  /-- DRAW_DONE (R284). The random generator finishes a draw request, writing its blocks and then the flag word. -/
  | drawDone (tile : Nat)
  /-- PASSPORT_DIGEST (R293). PASSPORT_DIGEST starts a flat or Merkle digest of regions, optionally copying them. -/
  | passportDigest (slot : Nat)
  /-- DIGEST_DONE (R294). A digest completes, fills its slot and reports PASSPORT_EVENT kind 0. -/
  | digestDone (guest digestSlot : Nat)
  /-- PASSPORT_SEAL (R295). PASSPORT_SEAL starts hashing a result buffer for a job's passport record. -/
  | passportSeal (slot : Nat)
  /-- SEAL_DONE (R295). The seal completes, the record is written and PASSPORT_EVENT kind 1 is reported. -/
  | sealDone (guest : Nat)
  /-- RTM_LIMIT_EXPIRE (R279). A reproducible-timing job has run 3,600 s and scrub resumes, breaking the promise for later steps. -/
  | rtmLimitExpire (job : Nat)
  /-- REFRESH (R311). A pseudo-channel's refresh interval expires and it is closed for a refresh. -/
  | refresh (stack pc : Nat)
  /-- SCRUB_LINE (R310). The scrubber reads a line and writes back a corrected line or poisons an uncorrectable one. -/
  | scrubLine (stack : Nat)
  /-- MERGE_TIMEOUT (R306). A merge-buffer entry has been open 256 FCLK and is written back. -/
  | mergeTimeout (stack line : Nat)
  /-- MEM_RETIRE_PC (R337). MEM_RETIRE_PC starts retiring a pseudo-channel into the next give-up area. -/
  | memRetirePc (slot : Nat)
  /-- PC_RETIRE_DONE (R319). All granules of a retiring pseudo-channel are copied and the retirement is recorded. -/
  | pcRetireDone
  /-- CELLAR_FILL_DONE (R325). A cellar region's zero-fill completes and the region becomes filled, completing held writes. -/
  | cellarFillDone (port region : Nat)
  /-- CELLAR_RELEASE (R338). CELLAR_RELEASE reserves targets and starts evacuating a cellar device. -/
  | cellarRelease (slot : Nat)
  /-- EVACUATION_DONE (R330). Every region of a releasing device has switched and the slot is powered down. -/
  | evacuationDone (port : Nat)
  /-- CELLAR_MEDIA_EVENT (R327). A cellar device's media event record is read and reported as MEM_EVENT kind 9. -/
  | cellarMediaEvent (port address : Nat)
  /-- CONFIG_ACCESS (R342). A configuration request to an upstream function is served from ROM and overlay values. -/
  | configAccess (link : Nat) (write : Bool) (offset size : Nat) (value : BitVec 32)
  /-- BAR4_ACCESS (R346). A BAR4 access reaches stack memory through the link's aperture. -/
  | bar4Access (link : Nat) (write : Bool) (offset length : Nat) (bytes : List Byte)
  /-- COMPLETION_ARRIVE (R352). A completion arrives for an outstanding module request, finishing it or failing it. -/
  | completionArrive (link tag : Nat) (status : CplStatus) (bytes : List Byte)
  /-- COMPLETION_TIMEOUT (R350). A request times out, fails, is logged and its tag enters quarantine. -/
  | completionTimeout (link tag : Nat)
  /-- QUARANTINE_EXPIRE (R351). A quarantined tag returns to the pool T after its timeout. -/
  | quarantineExpire (link tag : Nat)
  /-- LINK_RESET (R353). An upstream link goes down or is reset and its outstanding requests fail. -/
  | linkReset (link : Nat) (down : Bool)
  /-- SLOT_PRESENCE_CHANGE (R360). A debounced presence change moves a slot-mode port to OFF or EMPTY. -/
  | slotPresenceChange (port : Nat) (present : Bool)
  /-- SLOT_BUTTON_PRESS (R360). A debounced slot attention-button press enters or cancels BUTTON_WAIT. -/
  | slotButtonPress (port : Nat)
  /-- SLOT_BUTTON_TIMEOUT (R360). 5 s pass in BUTTON_WAIT and the slot powers on or requests removal. -/
  | slotButtonTimeout (port : Nat)
  /-- SLOT_POWER_GOOD (R363). DN_n_PWR_GOOD rises during power-on and the 100 ms reset hold begins. -/
  | slotPowerGood (port : Nat)
  /-- SLOT_PERST_RELEASE (R363). The 100 ms after power good or a reset pass and DN_n_PERST_L rises for link training. -/
  | slotPerstRelease (port : Nat)
  /-- SLOT_LINK_UP (R363). A downstream link comes up and enumeration begins 100 ms later. -/
  | slotLinkUp (port speed width : Nat)
  /-- SLOT_ENUMERATED (R363). A device is enumerated and the port enters ON. -/
  | slotEnumerated (port capacity : Nat)
  /-- SLOT_POWER_TIMEOUT (R360). No power good within 100 ms or no link within 1 s and the slot enters FAULT or stays FROZEN. -/
  | slotPowerTimeout (port : Nat)
  /-- SLOT_POWER_FAULT (R361). DN_n_PWR_FLT_L goes low and the slot enters FAULT, cutting power and failing requests. -/
  | slotPowerFault (port : Nat)
  /-- FREEZE_TRIGGER (R366). A freeze trigger freezes a contained port or sends a slot-mode port into RESETTING. -/
  | freezeTrigger (port cause : Nat)
  /-- PEER_REQUEST (R368). An inbound downstream request is translated through the active peer windows or refused. -/
  | peerRequest (port : Nat) (write : Bool) (address length : Nat) (bytes : List Byte)
  /-- WINDOW_COMMIT (R371). A write of 1 to WIN_CTL_n.COMMIT stops inbound requests and starts the drain. -/
  | windowCommit (port : Nat)
  /-- WINDOW_SWAP (R371). The drain ends, the shadow windows are copied to the active set and inbound requests resume. -/
  | windowSwap (port : Nat)
  /-- PORT_CONFIG (R374). PORT_CONFIG sets a downstream port's mode and protocol and records them. -/
  | portConfig (slot : Nat)
  /-- SLOT_CONTROL (R375). SLOT_CONTROL powers a slot on or off, declines removal or sets the attention hold. -/
  | slotControl (slot : Nat)
  /-- PORT_RELEASE (R376). PORT_RELEASE resets and re-enumerates a frozen port. -/
  | portRelease (slot : Nat)
  /-- OVERLAY_SET (R377). OVERLAY_SET starts writing new subsystem IDs to both flash devices. -/
  | overlaySet (slot : Nat)
  /-- OVERLAY_WRITE_DONE (R377). The overlay is written to flash and PORT_EVENT kind 10 is reported. -/
  | overlayWriteDone
  /-- GUEST_CREATE (R381). GUEST_CREATE creates a guest holding the named rooms. -/
  | guestCreate (slot : Nat)
  /-- GUEST_DESTROY (R382). GUEST_DESTROY starts tearing down a guest's queues, connections, keys and memory. -/
  | guestDestroy (slot : Nat)
  /-- GUEST_DESTROY_DONE (R383). A destroy finishes zeroing the guest's memory, releases its rooms and reports GUEST_EVENT kind 1. -/
  | guestDestroyDone (guest : Nat)
  /-- GUEST_GRANT (R388). GUEST_GRANT grants a stack or cellar range to a guest. -/
  | guestGrant (slot : Nat)
  /-- GUEST_REVOKE (R389). GUEST_REVOKE makes a grant a hole and starts its optional zeroing. -/
  | guestRevoke (slot : Nat)
  /-- GUEST_REVOKE_DONE (R389). A revoke finishes and GUEST_EVENT kind 2 is reported. -/
  | guestRevokeDone (guest : Nat)
  /-- SQ_TAIL (R412). A guest writes a submission-queue tail doorbell. -/
  | sqTail (page : Page) (queue : Nat) (value : BitVec 32)
  /-- CQ_HEAD (R412). A guest writes a completion-queue head doorbell, releasing entries. -/
  | cqHead (page : Page) (queue : Nat) (value : BitVec 32)
  /-- COURIER_DB (R450). A guest writes COURIER_DB with a new producer index for a connection ring. -/
  | courierDb (page : Page) (value : BitVec 64)
  /-- PARLOUR_RING (R395). A guest rings the manager, setting its PARLOUR_PEND bit and raising the parlour interrupt. -/
  | parlourRing (page : Page)
  /-- PARLOUR_WINDOW_ACCESS (R391). An access to the parlour window reads or writes the home room's share, or reads 0 and drops. -/
  | parlourWindowAccess (page : Page) (write : Bool) (offset length : Nat) (bytes : List Byte)
  /-- GUEST_RING (R396). The manager writes GUEST_RING and the guest's parlour vector is raised. -/
  | guestRing (guest : Nat)
  /-- LOG_START (R399). LOG_START begins dirty-page logging of a guest into bitmap A. -/
  | logStart (slot : Nat)
  /-- LOG_FENCE (R403). LOG_FENCE swaps the active bitmap and starts draining the other. -/
  | logFence (slot : Nat)
  /-- LOG_STOP (R403). LOG_STOP runs a fence and then ends the log. -/
  | logStop (slot : Nat)
  /-- LOG_FENCE_DONE (R403). The drained bitmap is written back and flushed, and GUEST_EVENT kind 3 or 4 is reported. -/
  | logFenceDone (guest : Nat)
  /-- SQ_FETCH (R413). The module fetches the next submission entry from a guest queue by round-robin. -/
  | sqFetch
  /-- CQ_POST (R414). A completion is posted to its ring once an entry is free. -/
  | cqPost (pair : Nat)
  /-- GET_LOG_PAGE (R407). Get Log Page returns log 01h or 04h. -/
  | getLogPage (pair cid : Nat)
  /-- IDENTIFY (R407). Identify returns controller or namespace data for CNS 00h, 01h or 02h. -/
  | identify (pair cid : Nat)
  /-- ABORT (R418). Abort completes with success and aborts no command. -/
  | abort (pair cid : Nat)
  /-- SET_FEATURES (R407). Set Features sets feature 0Bh. -/
  | setFeatures (pair cid : Nat)
  /-- GET_FEATURES (R407). Get Features returns feature 07h or 0Bh. -/
  | getFeatures (pair cid : Nat)
  /-- ASYNCHRONOUS_EVENT_REQUEST (R407). An Asynchronous Event Request waits for a Namespace Attribute Changed notice. -/
  | asynchronousEventRequest (pair cid : Nat)
  /-- FLUSH (R415). Flush completes once earlier completed writes of the namespace are durable. -/
  | flush (pair cid : Nat)
  /-- WRITE (R409). Write sends blocks to the namespace's backing, split at extents and optionally encrypted. -/
  | write (pair cid : Nat)
  /-- READ (R409). Read fetches blocks from the namespace's backing, split at extents and optionally decrypted. -/
  | read (pair cid : Nat)
  /-- WRITE_ZEROES (R407). Write Zeroes zeroes up to 65,536 blocks. -/
  | writeZeroes (pair cid : Nat)
  /-- DATASET_MANAGEMENT (R407). Dataset Management deallocates up to 256 ranges. -/
  | datasetManagement (pair cid : Nat)
  /-- BACKING_COMPLETE (R409). A part of a command completes at its drive or remote target, completing the command when all parts are done. -/
  | backingComplete (pair cid part sct sc : Nat) (dnr : Bool) (bytes : List Byte)
  /-- BACKING_TIMEOUT (R417). A drive part does not complete within 8 s and ends with Internal Error. -/
  | backingTimeout (pair cid part : Nat)
  /-- STORAGE_NS_CREATE (R422). STORAGE_NS_CREATE creates a guest namespace from extents. -/
  | storageNsCreate (slot : Nat)
  /-- STORAGE_NS_DELETE (R421). STORAGE_NS_DELETE starts deleting a namespace. -/
  | storageNsDelete (slot : Nat)
  /-- NS_DELETE_DONE (R421). A namespace's commands finish, it is removed and STORAGE_EVENT kind 3 is reported. -/
  | nsDeleteDone (guest nsid : Nat)
  /-- STORAGE_QUEUE_CREATE (R423). STORAGE_QUEUE_CREATE enables a queue pair for a guest. -/
  | storageQueueCreate (slot : Nat)
  /-- STORAGE_QUEUE_DELETE (R419). STORAGE_QUEUE_DELETE starts deleting or resetting a queue pair. -/
  | storageQueueDelete (slot : Nat)
  /-- QUEUE_DELETE_DONE (R419). A pair's commands finish, the pair is disabled or reset and STORAGE_EVENT kind 0 or 1 is reported. -/
  | queueDeleteDone (pair : Nat)
  /-- FRAME_RECEIVE (R430). A frame arrives on a port and goes to the courier or is classified. -/
  | frameReceive (port : Nat) (fcsOk : Bool) (frame : List Byte)
  /-- COURIER_PACKET_RECEIVE (R441). A courier packet is checked and placed at its own address, completing its message when the count reaches LENGTH. -/
  | courierPacketReceive (port : Nat) (sumOk ce : Bool) (packet : List Byte)
  /-- COURIER_ACK_RECEIVE (R443). An ACK completes a SEND or WRITE and adjusts the in-flight limit. -/
  | courierAckReceive (port : Nat) (sumOk ce : Bool) (packet : List Byte)
  /-- COURIER_NACK_RECEIVE (R448). A NACK ends the request with its status. -/
  | courierNackReceive (port : Nat) (sumOk ce : Bool) (packet : List Byte)
  /-- COURIER_RTO_EXPIRE (R443). RTO_US passes without an answer and the message is resent, or after RETRIES the request times out. -/
  | courierRtoExpire (conn msn : Nat)
  /-- WR_FETCH (R450). The module fetches work requests of a connection ring into its store. -/
  | wrFetch (conn : Nat) (recv : Bool)
  /-- COURIER_REQUEST_START (R451). The head send request of a connection starts with the next MSN. -/
  | courierRequestStart (conn : Nat)
  /-- FRAME_RX_TAIL (R437). The manager posts receive descriptors of a frame ring. -/
  | frameRxTail (ring : Nat) (value : BitVec 32)
  /-- FRAME_TX_TAIL (R437). The manager posts transmit descriptors, and the module reads and queues their frames. -/
  | frameTxTail (ring : Nat) (value : BitVec 32)
  /-- RULE_COMMIT (R433). A write to RULE_DATA word 31 commits the staged rule into the table in one BCLK. -/
  | ruleCommit (value : BitVec 32)
  /-- NET_CONFIG (R455). NET_CONFIG changes the port configuration and retrains every link. -/
  | netConfig (slot : Nat)
  /-- NET_PORT_SET (R430). NET_PORT_SET configures and enables or disables a port. -/
  | netPortSet (slot : Nat)
  /-- NET_PROFILE (R436). NET_PROFILE replaces an extraction profile in one BCLK. -/
  | netProfile (slot : Nat)
  /-- NET_RING (R456). NET_RING creates or deletes a frame ring. -/
  | netRing (slot : Nat)
  /-- NET_TIME (R444). NET_TIME sets or adjusts the courier time. -/
  | netTime (slot : Nat)
  /-- NET_LINK_CHANGE (R429). An Ethernet link comes up or goes down and NET_EVENT reports it. -/
  | netLinkChange (port : Nat) (up : Bool)
  /-- COURIER_KEY (R457). COURIER_KEY creates or destroys a memory key. -/
  | courierKey (slot : Nat)
  /-- COURIER_OPEN (R458). COURIER_OPEN opens a native or RoCE v2 connection with a new generation. -/
  | courierOpen (slot : Nat)
  /-- COURIER_CLOSE (R459). COURIER_CLOSE flushes a connection's requests and closes it. -/
  | courierClose (slot : Nat)
  /-- EGRESS_ENQUEUE (R464). A frame enters an egress queue once limit and buffer allow, after policing. -/
  | egressEnqueue (port index : Nat)
  /-- SCHEDULER_DECIDE (R470). At a frame boundary the scheduler chooses the next frame by timetable, minimum, strict and weighted order. -/
  | schedulerDecide (port : Nat)
  /-- TOKEN_UPDATE (R465). Every 10 ns each token bucket gains its rate's tokens up to its size. -/
  | tokenUpdate
  /-- GATE_ENTRY_ADVANCE (R476). A gate-list entry's interval ends and the next entry comes into force. -/
  | gateEntryAdvance (port : Nat)
  /-- TIMETABLE_SLOT_START (R474). A timetable slot begins and grants its flow one frame. -/
  | timetableSlotStart (port : Nat)
  /-- SCHEDULE_SWITCH (R477). A pending gate list or timetable takes effect at its cycle boundary and TRAFFIC_EVENT is reported. -/
  | scheduleSwitch (port : Nat) (gates : Bool)
  /-- QUEUE_SAMPLE (R478). At each courier µs edge every queue's depth and head delay are sampled. -/
  | queueSample
  /-- TRAFFIC_QUEUE (R481). TRAFFIC_QUEUE sets a queue's weight, limits, policer and shaper. -/
  | trafficQueue (slot : Nat)
  /-- TRAFFIC_PORT (R482). TRAFFIC_PORT sets a port's group minimum and DSCP map. -/
  | trafficPort (slot : Nat)
  /-- TRAFFIC_TIMETABLE (R483). TRAFFIC_TIMETABLE loads a pending timetable for a port. -/
  | trafficTimetable (slot : Nat)
  /-- TRAFFIC_GATES (R483). TRAFFIC_GATES loads a pending gate control list for a port. -/
  | trafficGates (slot : Nat)
  /-- KEY_IDENTITY (R495). KEY_IDENTITY returns the module's identity public key. -/
  | keyIdentity (slot : Nat)
  /-- KEK_INSTALL (R493). KEK_INSTALL derives and installs a KEK by ECDH and HKDF. -/
  | kekInstall (slot : Nat)
  /-- KEY_LOAD (R494). KEY_LOAD unwraps a data key into a slot or slot pair. -/
  | keyLoad (slot : Nat)
  /-- KEY_CLEAR (R496). KEY_CLEAR zeroises a slot and invalidates cached copies. -/
  | keyClear (slot : Nat)
  /-- KEY_CLEAR_DONE (R496). No running operation holds the cleared key any longer and KEY_CLEAR returns OK. -/
  | keyClearDone (slot : Nat)
  /-- KEY_FETCH_DONE (R490). A key fetch over the key lane completes into an engine cache. -/
  | keyFetchDone (engine : Nat)
  /-- CIPHER_RUN (R503). CIPHER_RUN starts a GCM or XTS operation on one engine. -/
  | cipherRun (slot : Nat)
  /-- CIPHER_RUN_DONE (R501). A cipher operation ends, checking the GCM tag, and CIPHER_EVENT kind 0 is reported. -/
  | cipherRunDone (engine : Nat)
  /-- CIPHER_BLOCK_DONE (R488). An engine finishes a storage block and takes the next. -/
  | cipherBlockDone (engine : Nat)
  /-- ALARM (R498). An alarm cause passes its filter and the key store and caches are zeroised. -/
  | alarm (cause : Nat)
  /-- ALARM_REZEROISE (R500). Every 2 µs while a cause stands, the key store is zeroised again. -/
  | alarmRezeroise (cause : Nat)
  /-- CKPT_CONFIG (R536). CKPT_CONFIG sets a job's checkpoint group, areas, peers and region table. -/
  | ckptConfig (slot : Nat)
  /-- CKPT_START (R508). CKPT_START begins an image save or arms a shard save. -/
  | ckptStart (slot : Nat)
  /-- CKPT_QUIET (R508). The job becomes quiet and CKPT_EVENT kind 0 is reported. -/
  | ckptQuiet (job : Nat)
  /-- CKPT_QUIET_TIMEOUT (R509). QUIET_MS passes without quiet and the save ends. -/
  | ckptQuietTimeout (job : Nat)
  /-- CKPT_CAPTURE (R510). CKPT_CAPTURE starts the capture of a quiet multi-module image save. -/
  | ckptCapture (slot : Nat)
  /-- CKPT_CAPTURED (R508). The tile images and engine state are copied, the halts are withdrawn and the background copy begins. -/
  | ckptCaptured (job : Nat)
  /-- CKPT_PAGE_COPY (R511). The background copy copies the next marked page and clears its mark. -/
  | ckptPageCopy (job : Nat)
  /-- COPY_AHEAD (R512). A write to a marked page waits while the Porter copies that page first. -/
  | copyAhead (job page : Nat)
  /-- CKPT_SAVE_COMPLETE (R523). Every unit and catalogue entry of a rank is written and CKPT_EVENT kind 2 is reported. -/
  | ckptSaveComplete (job : Nat)
  /-- CKPT_RESTORE (R527). CKPT_RESTORE reads catalogues and chooses a complete step to restore or report. -/
  | ckptRestore (slot : Nat)
  /-- CKPT_RESTORE_DONE (R529). A restore finishes writing state and regions and reports CKPT_EVENT kind 3. -/
  | ckptRestoreDone (guest : Nat)
  /-- CKPT_DRAIN (R535). CKPT_DRAIN starts writing a step's units to a storage namespace. -/
  | ckptDrain (slot : Nat)
  /-- CKPT_DRAIN_DONE (R535). A drain completes and CKPT_EVENT kind 4 is reported. -/
  | ckptDrainDone (guest : Nat)
  /-- SHED_STAGE_ENTER (R547). MAIN_48V stays below a stage's entry threshold for 5 µs and that stage's actions apply. -/
  | shedStageEnter (stage : Nat)
  /-- SHED_STAGE_LEAVE (R547). MAIN_48V stands at the leave threshold for the whole dwell and the stage clears. -/
  | shedStageLeave (stage : Nat)
  /-- MAIN_OVERVOLTAGE (R542). MAIN_48V stays above 62.0 V for 10 µs and the module acts as at S5. -/
  | mainOvervoltage
  /-- MAIN_RECOVER (R542). MAIN_48V stands within 45 to 60 V for 100 ms after overvoltage and a cold start begins. -/
  | mainRecover
  /-- AUX_LOSS (R541). AUX_3V3 stays below 2.70 V for 1 µs and every domain loses state. -/
  | auxLoss
  /-- AUX_APPLY (R541). AUX_3V3 stands in range for 10 ms and the always-on domain starts afresh. -/
  | auxApply
  /-- HEARTH_LOOP (R545). The Hearth's 1 ms loop compares input power with the cap and moves the loop divisor. -/
  | hearthLoop (averageWatts : Nat)
  /-- THERMAL_THROTTLE (R554). A die sensor reaches its throttle threshold and the S2 actions apply. -/
  | thermalThrottle (sensor : Nat)
  /-- THERMAL_TRIP (R554). A die sensor reaches its trip threshold and the S4 actions apply. -/
  | thermalTrip (sensor : Nat)
  /-- THERMAL_CLEAR (R554). Sensors stay below the clear thresholds for the clear time and the throttle or trip clears. -/
  | thermalClear (trip : Bool)
  /-- DIVISOR_CHANGE (R557). A decided TCLK divisor change takes effect at the next epoch edge. -/
  | divisorChange
  /-- REFCLK_FAIL (R558). REFCLK stops or glitches and AON switches to the backup oscillator. -/
  | refclkFail (stopped : Bool)
  /-- PLL_LOCK_TIMEOUT (R558). The root PLL stays out of lock for 10 µs and the Hearth applies S5. -/
  | pllLockTimeout
  /-- PLL_LOCK_HELD (R558). The root PLL holds lock for 100 ms and MAIN_48V is treated as newly risen. -/
  | pllLockHeld
  /-- AON_RETURN (R558). REFCLK has run cleanly for 100 ms and AON returns to REFCLK / 4. -/
  | aonReturn
  /-- CROSSING_FALLBACK (R559). A crossing's pointer check fails and it runs on the fall-back path. -/
  | crossingFallback (crossing : Nat)
  /-- CROSSING_RESYNC (R563). A crossing resynchronises its pointers and returns to the main path. -/
  | crossingResync (crossing : Nat)
  /-- POWER_PROFILE (R566). POWER_PROFILE selects a new power profile from the next loop period. -/
  | powerProfile (slot : Nat)
  /-- FIC_SOURCE_FIRE (R568). A firmware interrupt source fires and becomes pending. -/
  | ficSourceFire (core source : Nat)
  /-- FIC_TICK (R567). Every 1 ms of AON time source 2 fires on every core. -/
  | ficTick
  /-- FIC_CLAIM (R568). A read of FIC_CLAIM makes the lowest enabled pending source active and returns it. -/
  | ficClaim (core : Nat)
  /-- FIC_COMPLETE (R571). A write to FIC_COMPLETE retires an active source and restarts the watchdog. -/
  | ficComplete (core source : Nat)
  /-- FIC_INTERRUPT_TAKE (R569). With MASK 0 and a source pending, the core saves its PC and enters its handler. -/
  | ficInterruptTake (core : Nat)
  /-- IMS_WRITE (R578). The manager writes an interrupt message store entry, and clearing MASK releases a pending message. -/
  | imsWrite (vector offset size : Nat) (value : BitVec 64)
  /-- HOLDOFF_EXPIRE (R578). A group's hold-off timer expires and its unmasked pending messages are sent. -/
  | holdoffExpire (group : Nat)
  /-- L1_EXIT_DONE (R580). A guest link reaches L0 and held messages are sent. -/
  | l1ExitDone (link : Nat)
  /-- PME_REPEAT (R581). PME_Status stays 1 for 100 ms and PM_PME is sent again. -/
  | pmeRepeat (link : Nat)
  /-- SENSOR_SAMPLE (R584). Every 1 ms the sampler refreshes every sensor register. -/
  | sensorSample (mainTenMv auxMv watts : BitVec 16) (temps : List (BitVec 16))
  /-- TELE_QUEUE_BATCH (R586). At each QUEUE_US edge the module writes queue records for the selected ports. -/
  | teleQueueBatch
  /-- TELE_SENSOR_BATCH (R586). Every SENSOR_MS the module writes temperature and supply records. -/
  | teleSensorBatch
  /-- TELE_RING (R589). TELE_RING starts or stops the telemetry ring. -/
  | teleRing (slot : Nat)
  /-- MODULE_BUTTON_PRESS (R601). A debounced press of the module attention button releases a failed flash or reports SERVICE_EVENT kind 0. -/
  | moduleButtonPress
  /-- LOCATE_BLINK_EXPIRE (R600). 60 s after a button press LOC_IND stops its 4 Hz blink. -/
  | locateBlinkExpire
  /-- FLASH_RELEASE (R607). FLASH_RELEASE releases a flash device for replacement. -/
  | flashRelease (slot : Nat)
  /-- FLASH_PRESENCE (R605). A new flash device's presence is debounced and its fill begins. -/
  | flashPresence (device : Nat)
  /-- FLASH_FILL_DONE (R605). The copy onto a new flash device is checked and the device enters service or failed. -/
  | flashFillDone (device : Nat) (copied : Bool)
  /-- FLASH_REMOVED (R606). A flash device in service is removed without release and the module enters DEGRADED. -/
  | flashRemoved (device : Nat)
  /-- SERVICE_LOCATE (R607). SERVICE_LOCATE sets the locate indicator off, on or blinking. -/
  | serviceLocate (slot : Nat)
  /-- UNSUPPORTED_HOST_REQUEST (R348). An upstream request of an unsupported kind (I/O, Configuration Type 1, AtomicOp, a memory request outside every BAR or while Memory Space Enable is 0, a vendor-defined message) is answered with Unsupported Request or discarded and counted. -/
  | unsupportedHostRequest (link : Nat) (request : BadRequest)
  /-- UPSTREAM_LINK_UP (R339). UP_n completes training and reaches DL_Active, so LINK_UP reads 1 and requests named for that link can be sent again. -/
  | upstreamLinkUp (link speed width : Nat)
  /-- ASPM_L1_ENTRY (R580). An idle upstream link enters ASPM L1, after which expiring hold-off timers must first bring the link back to L0. -/
  | aspmL1Entry (link : Nat)
  /-- ALARM_CAUSE_CLEAR (R500). An alarm cause stops standing, its ACTIVE bit clears, re-zeroisation stops, and KEK_INSTALL and KEY_LOAD are accepted again. -/
  | alarmCauseClear (cause : Nat)
  /-- MAIN_HIGH_CHANGE (R543). MAIN_48V crosses 60.0 V upward or downward without a stage action, and POWER_STAT.HIGH follows. -/
  | mainHighChange (high : Bool)
  /-- PLL_LOCK_ACQUIRED (R556). The root PLL gains lock on a valid REFCLK, so ROOT_LOCK reads 1 and a pending 10 µs loss-of-lock count stops. -/
  | pllLockAcquired
  deriving DecidableEq, Repr

end Sys2Proof
end

