-- ==== Sys2Proof/Decode.lean ====
section
/-! DEFINITION. The command a word spells. The opcode table gives no row any bits: commands come from outside the module as
register accesses, packets, messages and events, each with an encoding of its own. A tile instruction's bundle encoding
is read where bundles issue, in Machine/Issue.lean, since a bundle is four instructions and no single one. -/

namespace Sys2Proof

/-- No row of the opcode table has bits, so no word spells a command. -/
def decodeTableWord (_nbits _w : Nat) : Option Instr := none

end Sys2Proof
end

