-- ==== Sys2Proof/Config.lean ====
section
/-! DEFINITION. What the spec leaves to the part or leaves open, as constants without a body: no proof can see their
values, so a claim holds whatever they are. -/

namespace Sys2Proof.Config

/-- A free byte (notes/assumptions/2.md): what the spec leaves undefined and the machine goes on with. -/
opaque freeByte : Nat → Byte

/-- A free word (notes/assumptions/2.md). -/
opaque freeWord : Nat → BitVec 64

/-- The module serial number that HELLO reports (HELLO's block in chapter 02). -/
opaque serial : BitVec 64

/-- The identity private key, which derives from the 384-bit secret fused at manufacture (chapter 15). -/
opaque identityKey : Nat

/-- Whether a signature over the given bytes verifies against the Uluran public key in ROM (R39). -/
opaque signatureOk : List Byte → List Byte → Bool

/-- What a downstream NVMe drive reports of its namespace: whether it uses a 4,096-byte format without metadata, and its
size in blocks (R422); arguments: port and namespace. -/
opaque driveNamespace : Nat → Nat → Bool × Nat

/-- What a remote target reports of its namespace (R422); arguments: module connection and namespace. -/
opaque targetNamespace : Nat → Nat → Bool × Nat

/-- What the Identify and Get Log Page pages hold beyond the fields this manual gives (R406, R407); arguments: a page
number and a byte offset. -/
opaque nvmePage : Nat → Nat → Byte

/-- What an Engine of chapter 10's configuration ROM holds beyond the values of R342; argument: dword number. -/
opaque configRom : Nat → BitVec 32

/-- The bits of that ROM's dwords that software may write (R342). -/
opaque configMask : Nat → BitVec 32

/-- How far behind the header a capability of that ROM lies, in dwords: 0 Power Management, 1 PCI Express, 2 MSI-X, 3 Advanced Error
Reporting, 4 PASID, 5 Device Serial Number, 6 Device 3, 7 Data Link Feature, 8 and 9 Physical Layer 16 and 32 GT/s, 10 Physical Layer
64 GT/s, 11 Lane Margining (R342). -/
opaque capabilityOffset : Nat → Nat

/-- The dword number of a capability: the standard's header takes the first 16 dwords (PRESUMED, notes/assumptions/18.md). -/
def capability (k : Nat) : Nat := 16 + capabilityOffset k

/-- The row of a stack-memory line, by line index: the stack's row geometry is the part's (R312). -/
opaque rowOf : Nat → Nat

/-- The bank of a row (R313). -/
opaque bankOf : Nat → Nat

/-- Spare rows of a bank when it leaves the factory (R313). -/
opaque spareRows : Nat → Nat

/-- The error that arises in an AON cycle, if one does (notes/assumptions/83.md). -/
opaque upset : Nat → Option Upset

end Sys2Proof.Config
end

