-- ==== Sys2Proof/Machine/State.lean ====
section
/-! DEFINITION. The state of the module: every register, buffer, queue, counter, mode and pin that the spec gives it,
as plain data. Each record's default values are its values at State.reset, the module that has just reported READY
after a cold start (R4's Cold column); a value the spec leaves open is named in notes/assumptions. -/

namespace Sys2Proof.Machine

/-! ## The tile (chapters 04 to 06) -/

/-- A tally (R91): T, the anchor and the six sticky flags. -/
structure Tally where
  t : BitVec 384 := 0
  anchor : BitVec 11 := 0
  ovf : Bool := false
  low : Bool := false
  nan : Bool := false
  pinf : Bool := false
  ninf : Bool := false
  mixed : Bool := false
  deriving DecidableEq, Repr

/-- A descriptor register: its four words (R181). -/
structure Desc where
  w0 : BitVec 64 := 0
  w1 : BitVec 64 := 0
  w2 : BitVec 64 := 0
  w3 : BitVec 64 := 0
  deriving DecidableEq, Repr

/-- A write to the tile store: bytes at a byte offset; every word touched takes the tag (R165, R178). -/
structure StoreWrite where
  addr : Nat
  bytes : List Byte
  tag : Tag
  deriving DecidableEq, Repr

/-- What a due result changes (R164, R165). `mark` is MARKP's tag write, which keeps the data bits, `pend` that of a GET, and `cursor` the advance
of a descriptor's cursor (R168). -/
inductive Effect where
  | sreg (r : Nat) (w : TWord)
  | lanes (v : Nat) (vals : List (Nat × BitVec 32))
  | pred (p : Nat) (bits : BitVec 64)
  | desc (d : Nat) (value : Desc)
  | descWord (d w : Nat) (value : BitVec 64)
  | store (ws : List StoreWrite)
  | store4 (addr : Nat) (value : BitVec 32)
  | mark (addr : Nat)
  | pend (addr : Nat)
  | cursor (d n : Nat)
  | handler (h : Option Nat)
  deriving DecidableEq, Repr

/-- An entry of the commit queue: the position at which it falls due, the position that issued it, whether its
result has been produced (R127), and what it changes. -/
structure Commit where
  due : Nat
  issued : Nat
  produced : Bool := true
  eff : Effect
  deriving DecidableEq, Repr

/-- The trap state words of R194. -/
structure TrapState where
  number : Nat := 0
  slot : Nat := 0
  index : Nat := 0
  pc : Nat := 0
  count : Nat := 0
  isX : Bool := false
  value : BitVec 64 := 0
  target : Option Nat := none
  deriving DecidableEq, Repr

/-- The repeat state of a context: issues left of the next bundle, and whether the prefix was REPX (R189, R190). -/
structure Repeat where
  left : Nat
  isX : Bool
  deriving DecidableEq, Repr

/-- The part a grouped context plays in the anchor exchange of R226: children's anchors that have arrived by exchange number, those of other
modules' roots by exchange number and rank (R228), whether its own went up, and the combined anchor once it is known. `none` inside is NONE. -/
structure Exchange where
  number : Nat := 0
  started : Bool := false
  own : Option Int := none
  up : List (Nat × Nat × Option Int) := []
  mods : List (Nat × Nat × Option Int) := []
  combined : Option Int := none
  deriving DecidableEq, Repr

/-- One sequence context (R123). -/
structure Ctx where
  assigned : Bool := false
  job : Nat := 0
  ready : Bool := false
  s : FMap TWord := []
  v : FMap (List (BitVec 32)) := []
  t : FMap Tally := []
  d : FMap Desc := []
  p : FMap (BitVec 64) := []
  pc : Nat := 0
  pos : Nat := 0
  rep : Option Repeat := none
  shadow : Option (Option Nat) := none
  queue : List Commit := []
  waiting : Option Nat := none
  atStep : Bool := false
  stopped : Bool := false
  handler : Option Nat := none
  inHandler : Bool := false
  trap : TrapState := {}
  streaming : Bool := false
  ending : Bool := false
  exch : Exchange := {}
  deriving DecidableEq, Repr

/-- Who asked a tile to halt (R135, R139, R145, R508, R612). -/
inductive Halter where
  | retirement (cluster : Nat)
  | crash (core : Nat)
  | safeHold
  | stage3
  | porter (job : Nat)
  | jobEnd (job : Nat)
  | start
  deriving DecidableEq, Repr

/-- A stream or append that the attention-streaming engine holds (R244 to R249). -/
structure StreamOp where
  ctx : Nat
  ledger : Nat
  generation : Nat
  append : Bool
  block : Nat
  pair : Nat
  fmt : Nat
  width : Nat
  base : Nat
  scaleBase : Nat
  stride : Nat
  scaleStride : Nat
  deriving DecidableEq, Repr

/-- A captured draw request (R283): its context and job, and the three words of the draw area as the commit found them. -/
structure DrawRequest where
  ctx : Nat
  job : Nat
  w0 : TWord
  w1 : TWord
  w2 : TWord
  deriving DecidableEq, Repr

/-- One physical tile (R118): its tile store, contexts, engines and the local port of its router. `latent`, `soft` and `regErrs` are the double and
single errors of store words and the errors of registers, by context, that no read has found yet (R133). `streamed` and `drawn`
say that its streaming engine or its generator has finished, under the halt that stands, what was in progress (R251, R287); `flying` are the unacknowledged packets in order, by destination, class and,
for a PUT, context (R179); `gets` is, by source tile and context, the class of a GET whose next
request is still to come (R206). -/
structure Tile where
  words : FMap TWord := []
  poison : List Nat := []
  latent : List Nat := []
  soft : List Nat := []
  softCount : FMap (List Nat) := []
  regErrs : List (Nat × RegName) := []
  ctxs : FMap Ctx := []
  last : Nat := 7
  halts : List Halter := []
  atRest : Bool := false
  fnQueue : List (Nat × Nat) := []
  streams : List StreamOp := []
  streamed : Bool := false
  handles : List (BitVec 64) := []
  draws : List DrawRequest := []
  drawn : Bool := false
  outq : List Packet := []
  unacked : FMap Nat := []
  toAck : FMap (List Nat) := []
  flying : List (Nat × Nat × Option Nat) := []
  gets : FMap Nat := []
  imageIn : List (Nat × TWord) := []
  deriving DecidableEq, Repr

/-- One router's shared state: its input buffers by (input, class, reply), and for each output port the units
used by each class in the running window, the round-robin pointer and the choice counts (R209, R219, R222). -/
structure Router where
  bufs : FMap (List Packet) := []
  used : FMap Nat := []
  rr : FMap Nat := []
  deriving DecidableEq, Repr

/-- One link between two routers: for each direction, 1 towards the higher-index tile, the flit being sent and its bad CRCs in a row, and the AON
times of the replays of the last millisecond in both (R201). -/
structure LinkErr where
  fails : FMap (Nat × Nat) := []
  times : List Nat := []
  faulted : Bool := false
  deriving DecidableEq, Repr

/-- The retirement that an Innkeeper carries out, or that waits (R144, R145). -/
structure Retirement where
  tile : Nat
  cause : Nat
  seq : Nat := 0
  deriving DecidableEq, Repr

/-- A retirement in progress (R145): its ACTION as SHIFT_STAT_c numbers it; whether the die column shifts; the stand-ins given, by logical
index; the reserve rows that stay lent where ACTION is 5; the coordinates for which no stand-in is left; the tiles halted and the rooms that own a moving
coordinate; the coordinates that move; the image moves still to make, (from, to) in order; the sequence number of the record
that holds the new mapping once it is asked for; whether the retiring tile's image could not be read; and when the halt was requested. -/
structure Moving where
  what : Retirement
  action : Nat
  shift : Bool := false
  given : FMap Nat := []
  lent : Nat := 0
  closes : List Nat := []
  halted : List Nat := []
  rooms : List Nat := []
  coords : List (Nat × Nat) := []
  moves : List (Nat × Nat) := []
  record : Option (BitVec 32) := none
  unreadable : Bool := false
  since : Nat := 0
  deriving DecidableEq, Repr

/-- The tile registers of one cluster (R150) and its Innkeeper's retirement queue. -/
structure Cluster where
  corrected : BitVec 16 := 0
  poisoned : BitVec 8 := 0
  lastTile : BitVec 9 := 0x1FF
  lastAction : BitVec 4 := 0
  queue : List Retirement := []
  moving : Option Moving := none
  parked : List Packet := []
  replays : BitVec 16 := 0
  isolation : BitVec 8 := 0
  linkFaults : BitVec 4 := 0
  maxAge : BitVec 10 := 0
  ageWins : BitVec 16 := 0
  deriving DecidableEq, Repr

/-- The mapping of the logical mesh (R14 to R27), the clusters out of service, whose reserve tiles do not work (R81), the halts requested
of every tile at once (R48, R548), and the mesh registers of R234. -/
structure Mesh where
  retired : List Nat := []
  dead : List Nat := []
  skip : FMap Nat := []
  standIns : FMap Nat := []
  closed : List Nat := []
  closing : List Nat := []
  emptying : List (Nat × Nat) := []
  lentRows : Nat := 0
  lentTo : Option Nat := none
  halts : List Halter := []
  ageLimit : BitVec 10 := 64
  ticks : Nat := 0
  epoch : Nat := 0
  deriving DecidableEq, Repr

/-! ## Jobs and determinism (chapters 04, 06, 08) -/

/-- A reduction group (R225); `armed` are the ranks to whose connections a pre-posted anchor request is armed (R228). -/
structure Group where
  x0 : Nat
  y0 : Nat
  x1 : Nat
  y1 : Nat
  ctx : Nat
  modules : Nat := 1
  rank : Nat := 0
  peers : Nat := 0
  send : Nat := 0
  recv : Nat := 0
  armed : List Nat := []
  deriving DecidableEq, Repr

/-- The checkpoint layout that CKPT_CONFIG or CKPT_RESTORE gives (R536): bytes 4 to 119 of its payload. -/
structure Layout where
  modules : Nat := 1
  rank : Nat := 0
  quietMs : Nat := 1
  group : Nat := 0
  area : Nat := 0
  areaLen : Nat := 0
  image : Nat := 0
  imageLen : Nat := 0
  peers : Nat := 0
  regions : Nat := 0
  regionCount : Nat := 0
  shapes : List Nat := []
  deriving DecidableEq, Repr

/-- A save in progress (R508, R537): how far it has come (`wanted`: its capture is to begin), the pages still marked, the step saved, the bytes of each saved
region at the mark (R514), and the units of this rank once they are on their way. -/
structure Save where
  kind : Nat
  stop : Bool := false
  atStep : Nat := 0
  seq : Nat := 0
  quiet : Bool := false
  wanted : Bool := false
  capturing : Bool := false
  copying : Bool := false
  marks : List Nat := []
  step : Nat := 0
  data : List (List Byte) := []
  packed : Bool := false
  units : Nat := 0
  deriving DecidableEq, Repr

/-- An entry of the Steward's table of 4,096 jobs (R609 to R613) with its settings of R270. -/
structure Job where
  guest : Nat
  live : Bool := true
  order : Nat := 0
  program : Nat := 0
  programLen : Nat := 0
  load : Nat := 0
  entry : Nat := 0
  x0 : Nat := 0
  y0 : Nat := 0
  x1 : Nat := 0
  y1 : Nat := 0
  ctxMask : BitVec 8 := 0
  lend : Bool := false
  lentRows : Nat := 0
  level : Nat := 0
  timed : Bool := false
  limitPassed : Bool := false
  genKey : BitVec 128 := 0
  drawOffset : Nat := 0
  args : List TWord := []
  groups : List Group := []
  started : Bool := true
  answer : Option Nat := none
  steps : Nat := 0
  broken : Bool := false
  everBroken : Bool := false
  downgraded : Bool := false
  activated : Bool := false
  divisor : Nat := 4
  profile : Nat := 0
  release : BitVec 32 := 0
  stopped : Nat := 0
  ending : Option Nat := none
  endCause : Nat := 1
  endedAt : Option Nat := none
  config : Option Layout := none
  save : Option Save := none
  deriving DecidableEq, Repr

/-- A digest slot of a guest (R293 to R295). -/
structure DigestSlot where
  mode : Nat := 0
  filling : Bool := false
  full : Bool := false
  digest : List Byte := []
  regions : List (Nat × Nat × Nat) := []
  seq : Nat := 0
  deriving DecidableEq, Repr

/-- A PASSPORT_SEAL in progress, with LEVEL, FLAGS and PROFILE as the request found them (R295). -/
structure Sealing where
  job : Nat
  program : Nat
  weights : Nat
  inputs : Nat
  result : Nat
  resultLen : Nat
  record : Nat
  level : Nat
  flags : Nat
  profile : Nat
  seq : Nat
  deriving DecidableEq, Repr

/-! ## Ledgers (chapter 07) -/

/-- A pool of LEDGER_POOL (R263): its region, shape, and the directory pages and runs still free. -/
structure Pool where
  base : Nat
  length : Nat
  cellar : Bool
  layers : Nat
  heads : Nat
  width : Nat
  fmt : Nat
  freeDirs : List Nat := []
  freeRuns : List Nat := []
  deriving DecidableEq, Repr

/-- A directory entry (R242): the run of one span. `fresh` is the run the span moves to, while MOVING is 1. -/
structure Run where
  addr : Nat
  pool : Nat
  moving : Bool := false
  fresh : Option (Nat × Nat) := none
  restarts : Nat := 0
  deriving DecidableEq, Repr

/-- A ledger (R235 to R243). `deleting` holds the pigeonhole of a LEDGER_DELETE that waits for its streams, or 32 for a destroy
of its guest (R265, R383). -/
structure Ledger where
  guest : Nat
  pool : Nat
  dir : Nat
  layers : Nat
  heads : Nat
  width : Nat
  fmt : Nat
  tokens : Nat := 0
  marks : List Nat := []
  runs : FMap Run := []
  idle : Nat := 0
  named : Bool := false
  full : Bool := false
  demoted : Bool := false
  moveTo : Option Bool := none
  moveSeq : Option Nat := none
  exportTo : Option Nat := none
  exportSeq : Nat := 0
  deleting : Option Nat := none
  deriving DecidableEq, Repr

/-- A LEDGER_IMPORT in progress (R268). -/
structure Import where
  source : Nat
  pool : Nat
  x : Nat
  y : Nat
  addr : Nat
  seq : Nat
  deriving DecidableEq, Repr

/-! ## Guests (chapter 11) -/

/-- A grant (R388); `revoking` holds ZERO and the sequence number of the GUEST_REVOKE being served (R389). -/
structure Grant where
  base : Nat
  length : Nat
  revoking : Option (Bool × Nat) := none
  deriving DecidableEq, Repr

/-- A bitmap word that the logger holds (R402): its map, its index, its bits, and whether the host's own word has been
read and ORed in. -/
structure LogWord where
  mapB : Bool
  word : Nat
  bits : BitVec 64 := 0
  read : Bool := false
  deriving DecidableEq, Repr

/-- A dirty-page log (R399 to R404). `dirty` lists the pages marked in each map since its last fence; `stage` says how far
a fence has come: 0 the first read is out, 1 bitmap words are still to be read, 2 the second read is out, 3 finished. -/
structure DirtyLog where
  base : Nat
  pages : Nat
  mapA : Nat
  mapB : Nat
  activeB : Bool := false
  overflow : Bool := false
  dirty : List (Bool × Nat) := []
  words : List LogWord := []
  fence : Option (Bool × Nat) := none
  stage : Nat := 0
  fenceFailed : Bool := false
  deriving DecidableEq, Repr

/-- A CKPT_RESTORE in progress (R526 to R529). -/
structure Restore where
  kind : Nat
  reportOnly : Bool
  step : Nat
  layout : Layout
  report : Nat
  reportLen : Nat
  seq : Nat
  deriving DecidableEq, Repr

/-- A CKPT_DRAIN in progress (R535). -/
structure Drain where
  group : Nat
  step : Nat
  nsid : Nat
  start : Nat
  seq : Nat
  deriving DecidableEq, Repr

/-- An entry of a controller's Error Information log (R407): its number, the queue and the command, its Status field, and the command's LBA and NSID. -/
structure ErrorEntry where
  count : Nat
  sqid : Nat
  cid : Nat
  status : Nat
  lba : Nat
  nsid : Nat
  deriving DecidableEq, Repr

/-- A guest (R378, R379): the rooms named at its creation, those of them now closed, and what hangs on it; `restored` is the step of a shard restore
that its next job goes on from (R507). -/
structure Guest where
  rooms : List Nat := []
  closedRooms : List Nat := []
  pasid : Nat := 0
  link : Nat := 0
  destroying : Option Nat := none
  grants : List Grant := []
  pools : FMap Pool := []
  poolGiven : Bool := false
  idleSteps : Nat := 0
  lastHome : Nat := 0
  digests : FMap DigestSlot := []
  seals : List Sealing := []
  imports : List Import := []
  log : Option DirtyLog := none
  barrier : Bool := false
  barrierWait : Bool := false
  restore : Option Restore := none
  restored : Option Nat := none
  drain : Option Drain := none
  aers : List Nat := []
  log04 : List Nat := []
  log01 : List ErrorEntry := []
  errorCount : Nat := 0
  asyncConfig : BitVec 32 := 0
  lastQueue : Nat := 0
  deriving DecidableEq, Repr

/-! ## Memory (chapter 09) -/

/-- What a write stores: bytes, or zeros over a range of that length. -/
inductive WriteData where
  | bytes (b : List Byte)
  | zeros (n : Nat)
  deriving DecidableEq, Repr

/-- A region of a cellar window (R324 to R332): its backing device or stack range, and how it stands; `port` is that of the device that backs it or
backed it last. -/
structure Region where
  device : Option Nat := none
  devRegion : Nat := 0
  stackBase : Option Nat := none
  filled : Bool := false
  written : Bool := false
  lost : Bool := false
  hole : Bool := false
  vacated : Bool := false
  port : Nat := 0
  held : List (Nat × WriteData) := []
  deriving DecidableEq, Repr

/-- A cellar device on a downstream port (R336). Under an evacuation, `targets` pairs each written region with its target, `switched` counts those whose
map entry has switched, and `copied` is the copy pointer in the next one, in units of 64 KiB (R329). -/
structure Cellar where
  present : Bool := false
  capacity : Nat := 0
  releasing : Bool := false
  released : Bool := false
  lost : Bool := false
  errors : BitVec 6 := 0
  targets : List (Nat × Nat) := []
  switched : Nat := 0
  copied : Nat := 0
  seq : Nat := 0
  deriving DecidableEq, Repr

/-- An entry of a merge buffer (R306): the line, its bytes and the byte mask. -/
structure MergeEntry where
  line : Nat
  bytes : List (Nat × Byte) := []
  deriving DecidableEq, Repr

/-- The controller of one stack (R298 to R315): `owed` are lines whose row's repair is deferred (R314), `correctedRows` the scrub
pass in which a row last read CORRECTED, `refreshed` the refreshes of each pseudo-channel, `training` the training results in use
(R44, R46), whose content the spec leaves open (notes/assumptions/73.md). -/
structure Stack where
  training : BitVec 64 := 0
  corrected : BitVec 16 := 0
  uncorrectable : BitVec 8 := 0
  repairs : BitVec 8 := 0
  merge : List MergeEntry := []
  repairQueue : List Nat := []
  owed : List Nat := []
  scrubLine : Nat := 0
  pass : Nat := 0
  hot : Bool := false
  correctedRows : FMap Nat := []
  rowErrs : List (Nat × Nat × Nat) := []
  spares : FMap Nat := []
  refreshed : FMap Nat := []
  deriving DecidableEq, Repr

/-- A pseudo-channel retirement (R315 to R320). -/
structure PcRetirement where
  pc : Nat
  slots : FMap Nat := []
  done : Bool := false
  seq : Nat := 0
  deriving DecidableEq, Repr

/-- Everything of chapter 09. `cells` is the bytes of stack, cellar and burst-queue memory in the canonical form of
Host.Cell lists: rising addresses, no entry equal to 0, which is what an unlisted byte reads as after the zero-fills
of R309, R325 and R335. `written` holds WRITTEN of the lines written (R300), `wrong` the pattern of the wrong symbols of a stored line, all 36 (R301), and
`cellarBad` the cellar lines that their device fails to read (R327). `fixed` are the words written to the fixed-table area beyond the redirection tables
(R299). -/
structure Mem where
  cells : List Host.Cell := []
  written : FMap (BitVec 8) := []
  poison : List Nat := []
  wrong : FMap (List (BitVec 16)) := []
  cellarBad : List Nat := []
  sramBad : List Nat := []
  stackCtl : FMap Stack := []
  failing : List Nat := []
  retirements : List PcRetirement := []
  retiring : Option PcRetirement := none
  fenced : Bool := false
  period : BitVec 8 := 24
  cellars : FMap Cellar := []
  regions : FMap Region := []
  stackHoles : List (Nat × Nat) := []
  fixed : FMap (BitVec 64) := []
  deriving DecidableEq, Repr

/-! ## Host links and downstream ports (chapter 10) -/

/-- Why the module asked the far end of a link for something, and what its completion finishes. -/
inductive Purpose where
  | sqFetch (pair : Nat)
  | dataIn (pair cid part : Nat)
  | prpList (pair cid : Nat)
  | wrFetch (conn : Nat) (recv : Bool)
  | frameTxDesc (ring : Nat)
  | frameRxDesc (ring : Nat)
  | frameData (ring : Nat)
  | courierData (conn msn : Nat)
  | logWord (guest : Nat) (mapB : Bool) (word : Nat)
  | fence (guest : Nat) (second : Bool)
  | piece (split index : Nat)
  | other
  deriving DecidableEq, Repr

/-- A request that leaves the module on a link: a read (which takes a tag), a posted write, or a message. -/
inductive HostTx where
  | read (pasid : Option Nat) (addr length : Nat) (why : Purpose)
  | write (pasid : Option Nat) (addr : Nat) (bytes : List Byte)
  | interrupt (pasid : Option Nat) (addr : Nat) (data : BitVec 32)
  | pme
  | completion (bytes : List Byte) (status : CplStatus)
  deriving DecidableEq, Repr

/-- An outstanding non-posted request: what it asked and the timeout T it took when it was sent, in ms (R350). -/
structure Outstanding where
  tx : HostTx
  timeoutMs : Nat
  got : List Byte := []
  deriving DecidableEq, Repr

/-- A read that goes out as several requests of Max_Read_Request_Size each (R342): what it is for, how many are still to come, and the parts that have
come. -/
structure Split where
  why : Purpose
  left : Nat
  parts : FMap (List Byte) := []
  deriving DecidableEq, Repr

/-- An upstream link and its function (R339 to R355, R573, R580). `sent` is what has left on the link, oldest first;
`held` waits unsent (R354); `mrrs` is Max_Read_Request_Size as its register encodes it, and `splits` are the reads that it cuts up. -/
structure Upstream where
  up : Bool := true
  speed : BitVec 3 := 6
  width : BitVec 5 := 16
  d3hot : Bool := false
  bme : Bool := false
  mse : Bool := false
  l1 : Bool := false
  aspm : Bool := false
  exiting : Bool := false
  pmeEn : Bool := false
  pmeStatus : Bool := false
  cto : BitVec 4 := 0
  mrrs : BitVec 3 := 2
  splits : FMap Split := []
  nextSplit : Nat := 0
  config : FMap (BitVec 32) := []
  svid : BitVec 16 := 0x1F6E
  ssid : BitVec 16 := 0
  timeouts : BitVec 16 := 0
  late : BitVec 8 := 0
  urSent : BitVec 8 := 0
  aperture : BitVec 10 := 0
  outstanding : FMap Outstanding := []
  quarantine : FMap Nat := []
  held : List HostTx := []
  sent : List HostTx := []
  msixAddr : FMap (BitVec 64) := []
  msixData : FMap (BitVec 32) := []
  msixUnmasked : List Nat := []
  msixPending : List Nat := []
  msixEnable : Bool := false
  msixMaskAll : Bool := false
  aer : BitVec 32 := 0
  aerCor : BitVec 32 := 0
  deriving DecidableEq, Repr

/-- A peer window (R368, R373). -/
structure Window where
  devBase : BitVec 52 := 0
  length : BitVec 52 := 0
  target : BitVec 36 := 0
  valid : Bool := false
  read : Bool := false
  write : Bool := false
  deriving DecidableEq, Repr

/-- The slot states of R359, and FROZEN of contained mode. -/
inductive SlotState where
  | empty | off | buttonWait | powering | on | requested | releasing | fault | frozen | resetting
  deriving DecidableEq, Repr

/-- A downstream port (R356 to R373). -/
structure Port where
  contained : Bool := false
  cxl : Bool := false
  state : SlotState := .empty
  before : SlotState := .off
  present : Bool := false
  powerEn : Bool := false
  powerGood : Bool := false
  refclk : Bool := false
  perstHigh : Bool := false
  linkUp : Bool := false
  l1 : Bool := false
  probing : Bool := false
  attnHold : Bool := false
  speed : BitVec 3 := 0
  width : BitVec 4 := 0
  freezeCause : BitVec 4 := 0
  corrected : BitVec 16 := 0
  timeouts : BitVec 8 := 0
  recoveries : BitVec 4 := 0
  triggers : List Nat := []
  releaseSeq : Option Nat := none
  onSeq : Option Nat := none
  shadow : FMap Window := []
  active : FMap Window := []
  commit : Bool := false
  shadowLost : Bool := false
  draining : Bool := false
  winMiss : BitVec 16 := 0
  outstanding : FMap Outstanding := []
  quarantine : FMap Nat := []
  held : List HostTx := []
  sent : List HostTx := []
  deriving DecidableEq, Repr

/-! ## Storage (chapter 12) -/

/-- An extent of a namespace (R408). -/
structure Extent where
  remote : Bool
  port : Nat
  conn : Nat
  backNsid : Nat
  start : Nat
  count : Nat
  deriving DecidableEq, Repr

/-- A namespace (R408, R422). -/
structure Namespace where
  extents : List Extent
  readOnly : Bool := false
  keySlot : Option Nat := none
  lost : Bool := false
  deleting : Option Nat := none
  unmapped : List (Nat × Nat) := []
  deriving DecidableEq, Repr

/-- A part of a command at its backing (R408, R409): the drive's port or the connection of the remote target, the namespace
and first block there, the first namespace block, the data that goes there or has come back, and how it ended. -/
structure Part where
  remote : Bool := false
  port : Nat := 0
  conn : Nat := 0
  backNsid : Nat := 0
  lba : Nat := 0
  first : Nat := 0
  blocks : Nat := 0
  bytes : List Byte := []
  done : Bool := false
  sct : Nat := 0
  sc : Nat := 0
  dnr : Bool := false
  deriving DecidableEq, Repr

/-- A fetched command of a queue pair: its 64-byte entry; whether its namespace was absent or being deleted when it was
fetched (R421); whether it has started and has been sent to its backing; the pages of its host buffer found so far and how
many it needs; the host data read by page; its data; the blocks still to be encrypted or decrypted; and its parts. -/
structure Cmd where
  entry : List Byte
  cid : Nat
  nsGone : Bool := false
  started : Bool := false
  sent : Bool := false
  pages : List Nat := []
  need : Nat := 0
  got : FMap (List Byte) := []
  data : List Byte := []
  left : Nat := 0
  parts : List Part := []
  deriving DecidableEq, Repr

/-- A completion not yet posted: command identifier, status and DW0. -/
structure Cqe where
  cid : Nat
  sct : Nat := 0
  sc : Nat := 0
  dnr : Bool := false
  dw0 : BitVec 32 := 0
  deriving DecidableEq, Repr

/-- A queue pair (R411 to R419). STATE is 0 disabled, 1 enabled, 2 holding, 3 failed, 4 draining (R424). -/
structure Pair where
  state : BitVec 3 := 0
  cause : BitVec 4 := 0
  guest : Nat := 0
  sqBase : Nat := 0
  cqBase : Nat := 0
  sqSize : Nat := 0
  cqSize : Nat := 0
  vector : Nat := 0
  ien : Bool := false
  head : Nat := 0
  tail : Nat := 0
  cqTail : Nat := 0
  cqHead : Nat := 0
  phase : Bool := true
  fetching : Bool := false
  cmds : List Cmd := []
  toPost : List Cqe := []
  deleteSeq : Nat := 0
  reset : Bool := false
  aborted : Nat := 0
  discarded : Nat := 0
  deriving DecidableEq, Repr

/-! ## Network and courier (chapter 13) -/

/-- A port's network settings and counters (R425 to R437, R460). -/
structure NetPort where
  linkUp : Bool := false
  enabled : Bool := false
  courierEn : Bool := false
  profile : BitVec 3 := 0
  maxFrame : Nat := 1518
  defaultRing : Nat := 0xFFFF
  mac : BitVec 48 := 0
  courierAddr : BitVec 128 := 0
  frameErrors : BitVec 16 := 0
  drops : BitVec 16 := 0
  deriving DecidableEq, Repr

/-- An extraction profile and its hash fields (R431, R434). -/
structure Profile where
  points : List (Nat × Nat) := []
  addrA : Nat := 0
  addrB : Nat := 0
  addrLen : Nat := 4
  portA : Nat := 0
  portB : Nat := 0
  proto : Nat := 0
  deriving DecidableEq, Repr

/-- A frame ring of the manager (R437, R456): the next descriptor to write and to fetch of each side, the receive buffers
fetched and not yet used, received frames (their port, rule and bytes) for which a posted descriptor is still being fetched, and the transmit
descriptor whose frame is being read or waits to be queued. -/
structure Ring where
  vector : Nat := 0
  rxEntries : Nat := 0
  txEntries : Nat := 0
  rxBase : Nat := 0
  txBase : Nat := 0
  rxHead : Nat := 0
  txHead : Nat := 0
  rxPosted : List (Nat × Nat) := []
  rxFetched : Nat := 0
  rxWait : List (Nat × Nat × List Byte) := []
  txDesc : Option (List Byte) := none
  deriving DecidableEq, Repr

/-- A work request (R450); `data` is what the Porter has at hand for one of its own (R521). -/
structure WorkRequest where
  op : Nat := 0
  solicit : Bool := false
  hold : Bool := false
  signal : Bool := false
  tally : Bool := false
  trigger : Nat := 0
  trigConn : Nat := 0
  trigMsn : Nat := 0
  length : Nat := 0
  localAddr : Nat := 0
  localKey : BitVec 32 := 0
  remoteKey : BitVec 32 := 0
  remoteAddr : Nat := 0
  watch : Nat := 0
  cookie : BitVec 32 := 0
  bad : Bool := false
  fired : Bool := false
  job : Option Nat := none
  data : Option (List Byte) := none
  deriving DecidableEq, Repr

/-- A send request in progress: its MSN, SSN, the resends made (R443), and the packets that a NAK lets a resend skip (R454). -/
structure InFlight where
  wr : WorkRequest
  msn : Nat
  ssn : Nat := 0
  resends : Nat := 0
  skip : Nat := 0
  got : Nat := 0
  chunks : List Nat := []
  deriving DecidableEq, Repr

/-- A message tracker at the receiver (R441). -/
structure Tracker where
  msn : Nat
  op : Nat
  length : Nat
  count : Nat := 0
  chunks : List Nat := []
  ce : Bool := false
  solicit : Bool := false
  ssn : Nat := 0
  flag : Option (BitVec 64) := none
  deriving DecidableEq, Repr

/-- The state of a connection. -/
inductive ConnState where
  | closed | opened | error
  deriving DecidableEq, Repr

/-- A courier connection (R438 to R454). `closing` are the SEQs of the closes that wait until every posted request has been fetched and has ended
(R459): the connection is in ERROR meanwhile. `dupAcks` gives for a message the AON cycle of the last ACK to a duplicate of it (R444). -/
structure Conn where
  state : ConnState := .closed
  gen : Nat := 0
  closedAt : Option Nat := none
  closing : List Nat := []
  guest : Nat := 0
  port : Nat := 0
  roce : Bool := false
  peerConn : Nat := 0
  peerGen : Nat := 0
  paths : Nat := 1
  pkt : Nat := 1024
  dscp : Nat := 0
  peerAddr : BitVec 128 := 0
  peerMac : BitVec 48 := 0
  vector : Nat := 0
  rtoUs : Nat := 0
  retries : Nat := 0
  inflight : Nat := 0
  limit : Nat := 0
  sendRing : Nat := 0
  recvRing : Nat := 0
  cqRing : Nat := 0
  sendEntries : Nat := 0
  recvEntries : Nat := 0
  cqEntries : Nat := 0
  sendProd : Nat := 0
  recvProd : Nat := 0
  sendFetched : Nat := 0
  recvFetched : Nat := 0
  cqTail : Nat := 0
  cqPhase : Bool := true
  sends : List WorkRequest := []
  recvs : FMap WorkRequest := []
  flights : List InFlight := []
  nextMsn : Nat := 0
  nextSsn : Nat := 0
  base : Nat := 0
  complete : List Nat := []
  refusedMsns : FMap Nat := []
  dupAcks : FMap Nat := []
  trackers : List Tracker := []
  lastCnp : Option Nat := none
  deriving DecidableEq, Repr

/-- A memory key (R447). -/
structure MemKey where
  tag : BitVec 20
  guest : Nat
  kind : Nat
  read : Bool
  write : Bool
  deriving DecidableEq, Repr

/-- Everything of chapter 13 that is not per guest. -/
structure Net where
  config : Nat := 0
  ports : FMap NetPort := []
  profiles : FMap Profile := []
  rules : FMap (List (BitVec 32)) := []
  staging : FMap (BitVec 32) := []
  ruleIndex : BitVec 16 := 0
  ruleBad : Bool := false
  courierUdp : BitVec 16 := 51812
  time : BitVec 32 := 0
  timeFrac : Nat := 0
  timeNs : Nat := 0
  stale : BitVec 8 := 0
  window : BitVec 8 := 0
  key : BitVec 8 := 0
  noTracker : BitVec 8 := 0
  rings : FMap Ring := []
  rxTail : FMap (BitVec 16) := []
  txTail : FMap (BitVec 16) := []
  conns : FMap Conn := []
  keys : FMap MemKey := []
  keyCount : Nat := 0
  sentFrames : List (Nat × List Byte) := []
  deriving DecidableEq, Repr

/-! ## Traffic (chapter 14) -/

/-- A frame held in or before an egress queue (R463, R464): its FIFO is that of a room, or of the manager (none); `conn` is the
courier connection that waits for its entry, with the MSN or PSN of the request that the frame carries in `msg`, and `ring` the frame ring
whose descriptor waits for it; `yellow` is drop-eligible (R467), `entered` the AON cycle in which it entered. Its bytes are those before
the FCS. -/
structure EgressFrame where
  queue : Nat
  room : Option Nat
  conn : Option Nat := none
  msg : Option Nat := none
  ring : Option Nat := none
  bytes : List Byte
  yellow : Bool := false
  entered : Nat := 0
  deriving DecidableEq, Repr

/-- A token bucket of R465: tokens in units of 2^-16 byte, the rate in Mb/s and the size in bytes. -/
structure Bucket where
  rate : Nat := 0
  size : Nat := 0
  tokens : Nat := 0
  deriving DecidableEq, Repr

/-- An egress queue's settings and buckets (R467 to R472). -/
structure EgressQueue where
  weight : Nat := 1
  policer : Bool := false
  shaper : Bool := false
  limit : Nat := 262144
  deLimit : Nat := 131072
  polCommitted : Bucket := {}
  polPeak : Bucket := {}
  shCommitted : Bucket := {}
  shPeak : Bucket := {}
  deficit : Nat := 0
  fifoRr : Nat := 0
  deriving DecidableEq, Repr

/-- A timetable (R474). -/
structure Timetable where
  slotNs : Nat := 0
  base : Nat := 0
  flows : List (Option Nat) := []
  deriving DecidableEq, Repr

/-- A gate control list (R476): entries of MASK and INTERVAL. -/
structure GateList where
  base : Nat := 0
  entries : List (BitVec 10 × Nat) := []
  deriving DecidableEq, Repr

/-- A change of settings that waits for the frame on the line (R479): those of a queue, and the DSCP map. -/
inductive EgressChange where
  | queue (q weight : Nat) (policer shaper : Bool) (limit deLimit : Nat)
  | dscp (map : FMap Nat)
  deriving DecidableEq, Repr

/-- One port's egress scheduler (R461 to R484). `waiting` are frames that have not entered, `frames` those in the queues, and
`line` the frame on the line, which leaves it at `lineEnd`, and `changes` what takes effect then. `gateStart` and `ttStart` are when the
gate entry and the slot in force began. These and the instants below are in ns of courier time. `visited` says that the deficit of queue `queueRr` has grown on this visit; a room that `floors` does not list has `floorBase` tokens; `roomServed`
are the rooms the floor tier has served, the least recently served first; `gatesDue` and `ttDue` are the instants at which a pending gate list and timetable take effect (R477). -/
structure Egress where
  queues : FMap EgressQueue := []
  frames : List EgressFrame := []
  waiting : List EgressFrame := []
  line : Option EgressFrame := none
  lineEnd : Nat := 0
  changes : List EgressChange := []
  wgMin : Nat := 100000
  minTokens : Nat := 0
  floorBase : Nat := 0
  floors : FMap Nat := []
  dscp : FMap Nat := []
  tt : Timetable := {}
  ttPending : Option Timetable := none
  ttDue : Nat := 0
  ttSlot : Nat := 0
  ttStart : Int := 0
  ttGrant : Option Nat := none
  gates : GateList := {}
  gatesPending : Option GateList := none
  gatesDue : Nat := 0
  gateEntry : Nat := 0x1FF
  gateStart : Int := 0
  roomServed : List Nat := []
  queueRr : Nat := 8
  visited : Bool := false
  redDrops : BitVec 16 := 0
  deDrops : BitVec 16 := 0
  sample : FMap (Nat × Nat) := []
  peak : FMap (BitVec 24 × BitVec 24) := []
  deriving DecidableEq, Repr

/-! ## Cipher engines and key store (chapter 15) -/

/-- The kind of a key slot (R489). -/
inductive SlotKind where
  | gcm | xtsLo | xtsHi
  deriving DecidableEq, Repr

/-- A key slot that is not EMPTY. -/
structure KeySlot where
  kind : SlotKind
  bits : BitVec 256
  deriving DecidableEq, Repr

/-- A CIPHER_RUN (R503). -/
structure CipherRun where
  guest : Nat
  mode : Nat
  unit : Nat
  slot : Nat
  localSlot : Nat
  source : Nat
  dest : Nat
  length : Nat
  aad : Nat
  aadLen : Nat
  iv : List Byte
  tagAddr : Nat
  seq : Nat
  key : Option (BitVec 256 × BitVec 256) := none
  deriving DecidableEq, Repr

/-- A storage block at a cipher engine (R410, R488): the block of its command, whose tweak is its namespace block number. -/
structure CipherBlock where
  pair : Nat
  cid : Nat
  block : Nat
  tweak : Nat
  encrypt : Bool
  slot : Nat
  key : Option (BitVec 256 × BitVec 256) := none
  deriving DecidableEq, Repr

/-- A cipher engine: what it runs, the key fetch it waits for, and its cache, most recently used first (R490). -/
structure Engine where
  run : Option CipherRun := none
  block : Option CipherBlock := none
  fetching : Bool := false
  cache : List (Nat × BitVec 256 × BitVec 256) := []
  deriving DecidableEq, Repr

/-- Everything of chapter 15. -/
structure Cipher where
  slots : FMap KeySlot := []
  keks : FMap (BitVec 256) := []
  engines : FMap Engine := []
  waiting : List CipherBlock := []
  waitRuns : List CipherRun := []
  clearing : List (Nat × Nat) := []
  active : BitVec 5 := 0
  latched : BitVec 5 := 0
  count : BitVec 16 := 0
  authFails : BitVec 16 := 0
  keyLost : BitVec 16 := 0
  deriving DecidableEq, Repr

/-! ## Firmware cores, start-up and pigeonholes (chapter 02) and the interrupt controller (chapter 18) -/

/-- The module states of R47. -/
inductive MState where
  | auxOnly | coldStart | warmStart | ready | degraded | shedding | safeHold
  deriving DecidableEq, Repr

/-- How a firmware core stands (R34, R75, R81). -/
inductive CoreRun where
  | running | restarting | swapping | out | off
  deriving DecidableEq, Repr

/-- One firmware core: its state, its restarts in a row, its request queue and the request it has begun (R63), its
one context of the scalar subset (R197), its SRAM, and its interrupt controller (R567 to R572). -/
structure Core where
  run : CoreRun := .running
  fails : Nat := 0
  queue : List Nat := []
  begun : Option Nat := none
  release : BitVec 32 := 0x01040000
  ctx : Ctx := {}
  sram : FMap TWord := []
  shadow : FMap TWord := []
  asleep : Bool := false
  pend : BitVec 64 := 0
  act : BitVec 64 := 0
  enable : BitVec 64 := 0
  mask : Bool := true
  epc : BitVec 48 := 0
  watchdog : Nat := 0
  deriving DecidableEq, Repr

/-- A pigeonhole (R50): its control and status bits and the 4 KiB of its slot, unlisted bytes 0. -/
structure Pigeonhole where
  irqEn : Bool := false
  busy : Bool := false
  done : Bool := false
  dropped : Bool := false
  server : BitVec 8 := 0xFF
  bytes : FMap Byte := []
  deriving DecidableEq, Repr

/-- An event that waits for slot 30 or 31 (R56). -/
structure Event where
  opcode : Nat
  guest : Nat := 0xFFFF
  seq : Nat := 0
  status : Nat := 0
  time : Nat := 0
  payload : List Byte := []
  deriving DecidableEq, Repr

/-- An open session (R66). -/
structure Session where
  minor : Nat
  map : BitVec 256
  deriving DecidableEq, Repr

/-- A firmware image as a flash device holds it (R38). `signed` and `intact` record whether its signature verifies
and whether the body matches BODY_DIGEST (R39). -/
structure Image where
  magic : BitVec 32 := 0x4B504C55
  hdrVersion : BitVec 16 := 1
  release : BitVec 32 := 0x01040000
  rollback : Nat := 0
  header : List Byte := []
  body : List Byte := []
  signed : Bool := true
  intact : Bool := true
  deriving DecidableEq, Repr

/-- The configuration overlay of R343. -/
structure Overlay where
  svid0 : BitVec 16
  ssid0 : BitVec 16
  svid1 : BitVec 16
  ssid1 : BitVec 16
  deriving DecidableEq, Repr

/-- A record of a record area (R37): the retired-tile map, skip rows and stand-in table, the HBM training results by stack, the repair log, the
pseudo-channel retirements and those found failing in service (R321), the preferred-image mark and the port and network settings; its sequence
number, and whether its CRC-32C matches what is stored (R43). -/
structure Record where
  seq : BitVec 32 := 0
  crcOk : Bool := true
  training : FMap (BitVec 64) := []
  failing : List Nat := []
  retired : List Nat := []
  skip : FMap Nat := []
  standIns : FMap Nat := []
  repairs : List (Nat × Nat) := []
  pcs : List PcRetirement := []
  preferred : Option Nat := none
  ports : FMap (Bool × Bool) := []
  netConfig : Option Nat := none
  deriving DecidableEq, Repr

/-- A flash device (R37, R602); its state is 0 absent, 1 in service, 2 releasing, 3 released, 4 filling, 5 failed. Its record area holds the
newest complete record, and `torn` is one whose write was cut off. -/
structure Flash where
  state : BitVec 3 := 1
  image : Option Image := some {}
  record : Record := {}
  torn : Option Record := none
  overlay : Option Overlay := none
  deriving DecidableEq, Repr

/-- A live activation in progress (R73 to R80); `marking` is the record that marks the new image preferred, once every core is swapped (R78). -/
structure Activation where
  seq : Nat
  started : Bool := false
  waitHearth : Bool := false
  marking : Option (BitVec 32) := none
  next : Nat := 3
  swapped : List Nat := []
  deriving DecidableEq, Repr

/-- SHA-384 of the first 208 bytes of the header of the image `{}`, which are 0 (R41, notes/assumptions/8.md). -/
def resetMeasurement : List Byte :=
  [0x3F, 0xAC, 0xE6, 0x31, 0xCD, 0x47, 0xA7, 0xB3, 0x60, 0xD1, 0xCD, 0x29, 0x6A, 0x4F, 0x69, 0x3F, 0x34, 0xE4, 0x7F, 0x6E, 0x4F, 0x3F, 0xA2, 0x51]
    ++ [0x69, 0x22, 0xF8, 0xC8, 0x03, 0xCB, 0xE9, 0x89, 0xE1, 0xE8, 0x66, 0xB5, 0x99, 0x74, 0xE6, 0x84, 0x80, 0xEE, 0x01, 0xEF, 0xAE, 0xE5, 0xAF, 0x42]

/-- Everything of chapter 02 that is not per core or per slot. `meshNext` is the mapping that a cold start has built and the record that it waits
for (R18); `portsDown` are the ports that are down, DN_n as n and NET_p as 16 + p (R47, notes/assumptions/74.md). -/
structure Firm where
  mstate : MState := .ready
  shedFrom : MState := .ready
  lastWarm : Bool := false
  startStep : BitVec 8 := 9
  startHeld : Bool := false
  stepDone : Bool := false
  cores : FMap Core := []
  holes : FMap Pigeonhole := []
  events : List Event := []
  lostEvents : Bool := false
  session : Option Session := none
  driverRelease : BitVec 32 := 0
  aon : Nat := 0
  restart : Option Bool := none
  flashA : Flash := {}
  flashB : Flash := {}
  runningB : Bool := false
  running : Image := {}
  measurement : List Byte := resetMeasurement
  rollbackFloor : Nat := 0
  replaced : Bool := false
  staging : Option (Nat × Nat × Nat × Bool) := none
  staged : Option Image := none
  activation : Option Activation := none
  record : Record := {}
  recordQueue : List (Bool × Record) := []
  overlayWrites : List (Overlay × Nat) := []
  releaseSeq : Nat := 0
  portsDown : List Nat := []
  meshNext : Option (Mesh × BitVec 32) := none
  nextJob : Nat := 1
  deriving DecidableEq, Repr

/-! ## Power, clocks, interrupts, telemetry and service (chapters 17 to 19) -/

/-- The hardware clamp (R555). -/
inductive Clamp where
  | off | hold | safe
  deriving DecidableEq, Repr

/-- Everything of chapter 17. Divisors are 4, 5, 6, 8 or 16. -/
structure Power where
  main : Bool := true
  aux : Bool := true
  stages : List Nat := []
  throttle : Bool := false
  tripped : Bool := false
  high : Bool := false
  overvolt : Bool := false
  lockS5 : Bool := false
  emergencyEnd : Option Nat := none
  profile : Nat := 0
  selected : Nat := 0
  loopDiv : Nat := 4
  below : Nat := 0
  clamp : Clamp := .off
  clampRelease : Bool := false
  divisor : Nat := 4
  decided : Option Nat := none
  tclkStopped : Bool := false
  s1 : BitVec 8 := 0
  s3 : BitVec 8 := 0
  s4 : BitVec 8 := 0
  trips : BitVec 8 := 0
  rootLock : Bool := true
  aonBackup : Bool := false
  refclk : Bool := true
  lockLosses : BitVec 8 := 0
  fallbacks : BitVec 16 := 0
  onFallback : List Nat := []
  deriving DecidableEq, Repr

/-- An entry of the interrupt message store (R575). -/
structure Vector where
  addr : BitVec 62 := 0
  data : BitVec 32 := 0
  mask : Bool := true
  pending : Bool := false
  deriving DecidableEq, Repr

/-- Everything of chapter 18 that is not per core or per link. A group in `timers` has its hold-off timer running,
with the value it started from; `expired` groups hold their messages for the link (R580, R581). -/
structure Irq where
  vectors : FMap Vector := []
  holdoff : FMap (BitVec 10) := []
  timers : FMap Nat := []
  expired : List Nat := []
  mainTenMv : BitVec 16 := 4800
  auxMv : BitVec 16 := 3300
  inputW : BitVec 16 := 0
  peakW : BitVec 16 := 0
  temps : FMap (BitVec 16) := []
  tempPeaks : FMap (BitVec 16) := []
  teleRunning : Bool := false
  teleLost : BitVec 16 := 0
  teleHead : BitVec 15 := 0
  teleVector : Nat := 0
  teleEntries : Nat := 0
  telePorts : BitVec 32 := 0
  teleBase : Nat := 0
  teleSensorMs : Nat := 0
  teleQueueUs : Nat := 0
  teleTail : Nat := 0
  teleUsed : Nat := 0
  telePhase : Bool := true
  teleMark : Bool := false
  deriving DecidableEq, Repr

/-- Everything of chapter 19. -/
structure Service where
  locate : BitVec 2 := 0
  blink : Bool := false
  presses : BitVec 16 := 0
  deriving DecidableEq, Repr

/-- Everything of chapter 10 that is shared by the links, and the guest block of chapter 11. -/
structure Hosts where
  links : FMap Upstream := []
  mgrLink : BitVec 1 := 0
  ports : FMap Port := []
  parlour : List Nat := []
  guestRing : BitVec 10 := 0
  guestDropped : FMap (BitVec 16) := []
  guestFaults : FMap (BitVec 16) := []
  deriving DecidableEq, Repr

/-- Everything of chapter 12 that is not per guest. -/
structure Storage where
  namespaces : FMap Namespace := []
  pairs : FMap Pair := []
  badDoorbell : BitVec 16 := 0
  backingTimeouts : BitVec 16 := 0
  lastGuest : Nat := 0
  deriving DecidableEq, Repr

/-- The ledger, determinism and passport registers (R269, R297) and the ledgers themselves. -/
structure Ledgers where
  barrierDelay : BitVec 16 := 4096
  faults : BitVec 16 := 0
  partials : BitVec 16 := 0
  live : FMap Ledger := []
  generations : FMap (BitVec 16) := []
  rtm : Bool := false
  brokenSteps : BitVec 16 := 0
  downgrades : BitVec 16 := 0
  drawFaults : BitVec 16 := 0
  deriving DecidableEq, Repr

/-- A unit of a checkpoint in this module's area (R517, R520): its slot, stripe, position and D_s, the saved region and the unit
of it that it holds (none for the map unit and the image units), its length, and the 16 bytes of its digest. -/
structure CkptUnit where
  slot : Nat
  stripe : Nat
  position : Nat
  data : Nat := 1
  region : Option (Nat × Nat) := none
  length : Nat
  digest : List Byte
  deriving DecidableEq, Repr

/-- A checkpoint that this rank has written (R507, R517 to R523): its region table's entries, the region bytes, its units, and,
for an image, the state that the image units encode. -/
structure Checkpoint where
  guest : Nat
  kind : Nat
  step : Nat
  layout : Layout
  rooms : List Nat := []
  entries : List (List Byte) := []
  data : List (List Byte) := []
  units : List CkptUnit := []
  written : Nat := 0
  jobNo : Nat := 0
  job : Option Job := none
  tiles : FMap Tile := []
  conns : FMap Conn := []
  pairs : FMap Pair := []
  ledgers : FMap Ledger := []
  complete : Bool := false
  deriving DecidableEq, Repr

/-- Who writes to memory: a tile's packets and its streaming engine, a cipher engine, the courier, an upstream link, a downstream port, the
filling of a port's cellar device, the firmware with the engines that serve it, or the Porter (R512). -/
inductive Writer where
  | tile (p : Nat)
  | stream (p : Nat)
  | cipher (e : Nat)
  | courier
  | upstream (n : Nat)
  | port (n : Nat)
  | cellar (n : Nat)
  | firmware
  | porter
  deriving DecidableEq, Repr

/-- A write that waits for a marked page, or behind one of its requester's that does (R512, R513). -/
structure Waiting where
  who : Writer
  addr : Nat
  data : WriteData
  deriving DecidableEq, Repr

/-- The Porter: its registers (R539), the checkpoints of this rank, oldest first, the pages of the copy-aheads that it holds and the writes that
wait, both in arrival order (R513). -/
structure Porter where
  savesEnded : BitVec 16 := 0
  setAside : BitVec 16 := 0
  checkpoints : List Checkpoint := []
  aheads : List Nat := []
  waits : List Waiting := []
  deriving DecidableEq, Repr

/-! ## The state -/

/-- The state of the module, and the commands that wait, first in, first out. `fresh` counts the free values the model
has drawn (notes/assumptions/2.md); it is the model's own field, not the spec's. -/
structure State where
  firm : Firm := {}
  mesh : Mesh := {}
  tiles : FMap Tile := []
  routers : FMap Router := []
  linkErrs : FMap LinkErr := []
  clusters : FMap Cluster := []
  jobs : FMap Job := []
  ledgers : Ledgers := {}
  mem : Mem := {}
  hosts : Hosts := {}
  guests : FMap Guest := []
  storage : Storage := {}
  net : Net := {}
  traffic : FMap Egress := []
  cipher : Cipher := {}
  porter : Porter := {}
  power : Power := {}
  irq : Irq := {}
  service : Service := {}
  fresh : Nat := 0
  pending : List Instr := []
  deriving DecidableEq, Repr

/-- Why a step stops the machine. No command of this module does: the spec gives each of them an effect, and an access
to an address that does not exist is answered as R29 and R348 say. Raised by none; safe. -/
inductive Fault where
  /-- Raised by no command; safe. -/
  | neverRaised
  deriving DecidableEq, Repr

/-- Why a command has no meaning. -/
inductive Refusal where
  /-- Raised by exec's arm of a command that is not modelled yet, with its mnemonic; safe. -/
  | notModelled (mnemonic : String)
  deriving DecidableEq, Repr

/-- The module as it stands when it first reports READY after a cold start (R4), with no session, no guest, no job and
no command waiting. -/
def State.reset : State := {}

end Sys2Proof.Machine
end

