-- ==== Sys2Proof/Machine/Ops.lean ====
section
/-! DEFINITION. The shared operations: sparse tables, bytes, memory cells, counters, events, and the named accessors of
the state's tables. Every later file reads and writes the state through these. -/

namespace Sys2Proof.Machine

/-! ## Sparse tables -/

/-- The entry at an index, if the table lists one. -/
def fget {α : Type} : FMap α → Nat → Option α
  | [], _ => none
  | (i, a) :: r, k => if i = k then some a else fget r k

/-- The entry at an index, or the given default. -/
def fgetD {α : Type} (d : α) (m : FMap α) (k : Nat) : α := (fget m k).getD d

/-- The table with an entry written; indexes stay rising. -/
def fset {α : Type} : FMap α → Nat → α → FMap α
  | [], k, a => [(k, a)]
  | (i, b) :: r, k, a => if k < i then (k, a) :: (i, b) :: r else if k = i then (k, a) :: r else (i, b) :: fset r k a

/-- The table without an entry. -/
def fdel {α : Type} (m : FMap α) (k : Nat) : FMap α := m.filter (fun e => e.1 != k)

/-- The table with one entry changed, from the default if it is not listed. -/
def fupd {α : Type} (d : α) (m : FMap α) (k : Nat) (f : α → α) : FMap α := fset m k (f (fgetD d m k))

/-- Every entry of the table changed. -/
def fmap {α : Type} (m : FMap α) (f : Nat → α → α) : FMap α := m.map (fun e => (e.1, f e.1 e.2))

/-- The indexes rise strictly. -/
def frising {α : Type} : FMap α → Bool
  | [] => true
  | [_] => true
  | (i, _) :: (j, b) :: r => decide (i < j) && frising ((j, b) :: r)

/-- A list of numbers with one added, without repeats. -/
def addTo (l : List Nat) (n : Nat) : List Nat := if l.contains n then l else l ++ [n]

/-! ## Counters and bytes -/

/-- A counter that stays at its largest value (the saturating counters of every register block). -/
def satInc {w : Nat} (x : BitVec w) : BitVec w := if x = BitVec.allOnes w then x else x + 1

/-- A saturating counter advanced n times. -/
def satAdd {w : Nat} (x : BitVec w) (n : Nat) : BitVec w := BitVec.ofNat w (min (x.toNat + n) (2 ^ w - 1))

/-- A number read little-endian from bytes (R2). -/
def leNat : List Byte → Nat
  | [] => 0
  | b :: r => b.toNat + 256 * leNat r

/-- The low n bytes of a number, little-endian (R2). -/
def leBytes : Nat → Nat → List Byte
  | 0, _ => []
  | n + 1, v => BitVec.ofNat 8 v :: leBytes n (v / 256)

/-- A number read most significant byte first (R3). -/
def beNat (l : List Byte) : Nat := l.foldl (fun a b => 256 * a + b.toNat) 0

/-- The low n bytes of a number, most significant first (R3). -/
def beBytes (n v : Nat) : List Byte := (leBytes n v).reverse

/-- n bytes from an offset; bytes beyond the end read as 0. -/
def slice (l : List Byte) (off n : Nat) : List Byte :=
  let t := (l.drop off).take n
  t ++ List.replicate (n - t.length) 0

/-- An n-byte little-endian field of a payload (R11). -/
def field (l : List Byte) (off n : Nat) : Nat := leNat (slice l off n)

/-- Bits [hi:lo] of a number. -/
def bitsOf (x hi lo : Nat) : Nat := (x / 2 ^ lo) % 2 ^ (hi + 1 - lo)

/-- One bit of a number. -/
def bitOf (x i : Nat) : Bool := (x / 2 ^ i) % 2 == 1

/-- A Bool as a bit. -/
def bit (b : Bool) : Nat := if b then 1 else 0

/-- The signed reading of the low n bits. -/
def signed (n x : Nat) : Int := if x % 2 ^ n < 2 ^ (n - 1) then (x % 2 ^ n : Nat) else ((x % 2 ^ n : Nat) : Int) - (2 ^ n : Nat)

/-- ceil (a / b). -/
def ceilDiv (a b : Nat) : Nat := (a + b - 1) / b

/-- Zero bytes. -/
def zeros (n : Nat) : List Byte := List.replicate n 0

/-- Two ranges have a byte in common. -/
def overlaps (a la b lb : Nat) : Bool := decide (a < b + lb) && decide (b < a + la) && decide (0 < la) && decide (0 < lb)

/-- A range lies inside another. -/
def inside (a la b lb : Nat) : Bool := decide (b ≤ a) && decide (a + la ≤ b + lb)

/-! ## Memory cells -/

/-- The byte at an address: 0 where nothing is listed. -/
def cellGet : List Host.Cell → Nat → Byte
  | [], _ => 0
  | (i, b) :: r, a => if i = a then b else if a < i then 0 else cellGet r a

/-- The cells with one byte written, in canonical form: a 0 is not listed. -/
def cellSet : List Host.Cell → Nat → Byte → List Host.Cell
  | [], a, b => if b = 0 then [] else [(a, b)]
  | (i, c) :: r, a, b =>
    if a < i then (if b = 0 then (i, c) :: r else (a, b) :: (i, c) :: r)
    else if a = i then (if b = 0 then r else (a, b) :: r)
    else (i, c) :: cellSet r a b

/-- The canonical form: addresses rise strictly and no entry is 0. -/
def cellsWf : List Host.Cell → Bool
  | [] => true
  | [(_, b)] => b != 0
  | (i, b) :: (j, c) :: r => b != 0 && decide (i < j) && cellsWf ((j, c) :: r)

/-- n bytes from an address. -/
def cellsRead (m : List Host.Cell) (a : Nat) : Nat → List Byte
  | 0 => []
  | n + 1 => cellGet m a :: cellsRead m (a + 1) n

/-- Bytes written from an address on. -/
def cellsWrite (m : List Host.Cell) (a : Nat) : List Byte → List Host.Cell
  | [] => m
  | b :: r => cellsWrite (cellSet m a b) (a + 1) r

/-- A range set to zeros: its entries leave the list. -/
def cellsZero (m : List Host.Cell) (a n : Nat) : List Host.Cell := m.filter (fun c => c.1 < a || a + n ≤ c.1)

/-! ## The state's tables -/

def State.tile (s : State) (p : Nat) : Tile := fgetD {} s.tiles p
def State.setTile (s : State) (p : Nat) (t : Tile) : State := { s with tiles := fset s.tiles p t }
def State.modTile (s : State) (p : Nat) (f : Tile → Tile) : State := s.setTile p (f (s.tile p))
def State.router (s : State) (p : Nat) : Router := fgetD {} s.routers p
def State.modRouter (s : State) (p : Nat) (f : Router → Router) : State := { s with routers := fupd {} s.routers p f }
def State.cluster (s : State) (c : Nat) : Cluster := fgetD {} s.clusters c
def State.modCluster (s : State) (c : Nat) (f : Cluster → Cluster) : State := { s with clusters := fupd {} s.clusters c f }
def State.core (s : State) (c : Nat) : Core := fgetD {} s.firm.cores c
def State.modFirm (s : State) (f : Firm → Firm) : State := { s with firm := f s.firm }
def State.modCore (s : State) (c : Nat) (f : Core → Core) : State :=
  s.modFirm fun m => { m with cores := fupd {} m.cores c f }
def State.hole (s : State) (n : Nat) : Pigeonhole := fgetD {} s.firm.holes n
def State.modHole (s : State) (n : Nat) (f : Pigeonhole → Pigeonhole) : State :=
  s.modFirm fun m => { m with holes := fupd {} m.holes n f }
def State.modMesh (s : State) (f : Mesh → Mesh) : State := { s with mesh := f s.mesh }
def State.modMem (s : State) (f : Mem → Mem) : State := { s with mem := f s.mem }
def State.modHosts (s : State) (f : Hosts → Hosts) : State := { s with hosts := f s.hosts }
def State.modLedgers (s : State) (f : Ledgers → Ledgers) : State := { s with ledgers := f s.ledgers }
def State.modNet (s : State) (f : Net → Net) : State := { s with net := f s.net }
def State.modCipher (s : State) (f : Cipher → Cipher) : State := { s with cipher := f s.cipher }
def State.modPower (s : State) (f : Power → Power) : State := { s with power := f s.power }
def State.modIrq (s : State) (f : Irq → Irq) : State := { s with irq := f s.irq }
def State.modService (s : State) (f : Service → Service) : State := { s with service := f s.service }
def State.modStorage (s : State) (f : Storage → Storage) : State := { s with storage := f s.storage }
def State.link (s : State) (n : Nat) : Upstream := fgetD {} s.hosts.links n
def State.modLink (s : State) (n : Nat) (f : Upstream → Upstream) : State :=
  s.modHosts fun h => { h with links := fupd {} h.links n f }
def State.port (s : State) (n : Nat) : Port := fgetD {} s.hosts.ports n
def State.modPort (s : State) (n : Nat) (f : Port → Port) : State :=
  s.modHosts fun h => { h with ports := fupd {} h.ports n f }
def State.guest? (s : State) (g : Nat) : Option Guest := fget s.guests g
def State.guest (s : State) (g : Nat) : Guest := fgetD {} s.guests g
def State.modGuest (s : State) (g : Nat) (f : Guest → Guest) : State :=
  match fget s.guests g with
  | some x => { s with guests := fset s.guests g (f x) }
  | none => s
def State.modJob (s : State) (j : Nat) (f : Job → Job) : State :=
  match fget s.jobs j with
  | some x => { s with jobs := fset s.jobs j (f x) }
  | none => s
def State.ledger? (s : State) (l : Nat) : Option Ledger := fget s.ledgers.live l
def State.modLedger (s : State) (l : Nat) (f : Ledger → Ledger) : State :=
  match s.ledger? l with
  | some x => s.modLedgers fun m => { m with live := fset m.live l (f x) }
  | none => s
def State.pair (s : State) (m : Nat) : Pair := fgetD {} s.storage.pairs m
def State.modPair (s : State) (m : Nat) (f : Pair → Pair) : State :=
  s.modStorage fun t => { t with pairs := fupd {} t.pairs m f }
def State.conn (s : State) (c : Nat) : Conn := fgetD {} s.net.conns c
def State.modConn (s : State) (c : Nat) (f : Conn → Conn) : State :=
  s.modNet fun n => { n with conns := fupd {} n.conns c f }
def State.netPort (s : State) (p : Nat) : NetPort := fgetD {} s.net.ports p
def State.modNetPort (s : State) (p : Nat) (f : NetPort → NetPort) : State :=
  s.modNet fun n => { n with ports := fupd {} n.ports p f }
def State.egress (s : State) (p : Nat) : Egress := fgetD {} s.traffic p
def State.modEgress (s : State) (p : Nat) (f : Egress → Egress) : State := { s with traffic := fupd {} s.traffic p f }
def State.stack (s : State) (k : Nat) : Stack := fgetD {} s.mem.stackCtl k
def State.modStack (s : State) (k : Nat) (f : Stack → Stack) : State :=
  s.modMem fun m => { m with stackCtl := fupd {} m.stackCtl k f }
def State.engine (s : State) (e : Nat) : Engine := fgetD {} s.cipher.engines e
def State.modEngine (s : State) (e : Nat) (f : Engine → Engine) : State :=
  s.modCipher fun c => { c with engines := fupd {} c.engines e f }

/-- One context of a tile. -/
def Tile.ctx (t : Tile) (n : Nat) : Ctx := fgetD {} t.ctxs n
def Tile.setCtx (t : Tile) (n : Nat) (c : Ctx) : Tile := { t with ctxs := fset t.ctxs n c }
def State.ctx (s : State) (p n : Nat) : Ctx := (s.tile p).ctx n
def State.modCtx (s : State) (p n : Nat) (f : Ctx → Ctx) : State := s.modTile p fun t => t.setCtx n (f (t.ctx n))

/-! ## Free values and events -/

/-- n free bytes (notes/assumptions/2.md), and the state with the counter moved past them. -/
def State.freeBytes (s : State) (n : Nat) : List Byte × State :=
  ((List.range n).map (fun i => Config.freeByte (s.fresh + i)), { s with fresh := s.fresh + n })

/-- The numbers of the cores in CORE_ALIVE (R49). -/
def doorkeeper : Nat := 0
def hearth : Nat := 1
def steward : Nat := 2
/-- The Innkeeper of a cluster. -/
def innkeeper (c : Nat) : Nat := 3 + c

/-- The enabled sources of a core that are pending: an active-and-pending source is not (R567, R568; notes/assumptions/26.md). -/
def Core.claimable (c : Core) : BitVec 64 := c.pend &&& ~~~c.act &&& c.enable

/-- Whether an enabled source of a core is pending. -/
def Core.due (c : Core) : Bool := c.claimable != 0

/-- R570: a sleeping core wakes once an enabled source is pending. -/
def Core.wake (c : Core) : Core := { c with asleep := c.asleep && !c.due }

/-- A firmware interrupt source fires (R568): inactive becomes pending, active becomes active-and-pending. -/
def State.fire (s : State) (core source : Nat) : State :=
  s.modCore core fun c => ({ c with pend := c.pend ||| BitVec.ofNat 64 (2 ^ source) } : Core).wake

/-- An event arises (R56): it joins the backlog, which holds 256; one more is discarded, and the next event written
says so. Its TIMESTAMP is taken now. -/
def State.raise (s : State) (opcode : Nat) (payload : List Byte) (guest : Nat := 0xFFFF) (seq : Nat := 0)
    (status : Nat := 0) : State :=
  s.modFirm fun f =>
    if f.events.length < 256 then
      { f with events := f.events ++ [{ opcode, guest, seq, status, time := f.aon, payload }] }
    else { f with lostEvents := true }

/-- The status codes of chapter 02. -/
inductive Status where
  | ok | unknownOpcode | badVersion | badLength | badArgument | stateConflict | noResource | notPermitted
  | retryLater | deferred | faulted | notSupported
  deriving DecidableEq, Repr

/-- Status codes as numbers. -/
def Status.code : Status → Nat
  | .ok => 0 | .unknownOpcode => 1 | .badVersion => 2 | .badLength => 3 | .badArgument => 4 | .stateConflict => 5
  | .noResource => 6 | .notPermitted => 7 | .retryLater => 8 | .deferred => 9 | .faulted => 10 | .notSupported => 11

/-- The number of a module state (R49). -/
def MState.code : MState → Nat
  | .auxOnly => 0 | .coldStart => 1 | .warmStart => 2 | .ready => 3 | .degraded => 4 | .shedding => 5 | .safeHold => 6

/-- MODULE_STATE.STAGE: the deeper of the voltage stage and the thermal action (R554). -/
def State.stage (s : State) : Nat :=
  (s.power.stages ++ (if s.power.throttle then [2] else []) ++ if s.power.tripped then [4] else []).foldl max 0

/-- Whether a core has power: the Steward and the Innkeepers have none at stage S4 (R548), and no core that a start has not loaded. -/
def State.corePowered (s : State) (c : Nat) : Bool :=
  (s.core c).run != .off && s.firm.mstate != .auxOnly && !(decide (2 ≤ c) && decide (4 ≤ s.stage))

/-- A device with power: one that is absent, releasing or released has none (R602, R603, R605). -/
def Flash.powered (f : Flash) : Bool := f.state == 1 || f.state == 4 || f.state == 5

/-- A source fires on every core that has power. -/
def State.fireAll (s : State) (source : Nat) : State :=
  (List.range 19).foldl (fun s c => if s.corePowered c then s.fire c source else s) s

/-- STATE_EVENT: the state before, its cause, and the core concerned or 0xFF. -/
def State.stateEvent (s : State) (old : MState) (cause : Nat) (core : Nat := 0xFF) : State :=
  s.raise 0x0180 ([s.firm.mstate.code, old.code, s.stage, cause, core].map (BitVec.ofNat 8) ++ zeros 3)

/-- R33, R47: a part goes out of service. READY becomes DEGRADED, and SHEDDING will end in it (notes/assumptions/24.md). -/
def State.degrade (s : State) (cause : Nat := 8) : State :=
  match s.firm.mstate with
  | .ready => (s.modFirm fun f => { f with mstate := .degraded }).stateEvent .ready cause
  | .shedding => s.modFirm fun f => { f with shedFrom := .degraded }
  | _ => s

/-- Whether a condition of R47 for DEGRADED stands: a room closed, a pseudo-channel retired or fenced (R321), a port down, a core out of
service, a flash device without a valid image in service, or a cellar device lost (R332). -/
def State.conditions (s : State) : Bool :=
  !s.mesh.closed.isEmpty || !s.mesh.closing.isEmpty || !s.mem.retirements.isEmpty || s.mem.fenced || !s.firm.portsDown.isEmpty
    || s.firm.cores.any (fun e => e.2.run == .out) || [s.firm.flashA, s.firm.flashB].any (fun f => [(0 : BitVec 3), 4, 5].contains f.state)
    || s.mem.cellars.any (·.2.lost)

/-- R47: once the last such condition is cleared, DEGRADED becomes READY, and SHEDDING will end in it. -/
def State.settle (s : State) : State :=
  if s.conditions then s
  else
    match s.firm.mstate with
    | .degraded => (s.modFirm fun f => { f with mstate := .ready }).stateEvent .degraded 8
    | .shedding => s.modFirm fun f => { f with shedFrom := .ready }
    | _ => s

/-- R47: a port goes down, and one that was down is back (notes/assumptions/74.md). -/
def State.portLost (s : State) (n : Nat) : State := (s.modFirm fun f => { f with portsDown := addTo f.portsDown n }).degrade
def State.portBack (s : State) (n : Nat) : State :=
  if s.firm.portsDown.contains n then (s.modFirm fun f => { f with portsDown := f.portsDown.filter (· != n) }).settle else s

/-- What the record area holds changes: a record with the next sequence number is to be written to FLASH_A and then to
FLASH_B, an absent device being skipped. -/
def State.writeRecord (s : State) (f : Record → Record) : State :=
  s.modFirm fun m =>
    let r := { f m.record with seq := m.record.seq + 1 }
    { m with
      record := r,
      recordQueue := m.recordQueue ++ (if m.flashA.state = 1 then [(false, r)] else []) ++ if m.flashB.state = 1 then [(true, r)] else [] }

/-- One AON cycle with no command waiting (notes/assumptions/3.md): the AON count that time stamps use (R53) rises by 1, and
the courier time, in µs, by 1 every 25 cycles of the 25 MHz AON clock (R444). The count of ns within a cycle begins again (R477). -/
def State.aonCycle (s : State) : State :=
  let s := s.modFirm fun f => { f with aon := f.aon + 1 }
  s.modNet fun n =>
    if n.timeFrac + 1 < 25 then { n with timeFrac := n.timeFrac + 1, timeNs := 0 } else { n with timeFrac := 0, timeNs := 0, time := n.time + 1 }

/-- The outcome of every command of this module: a next state. -/
abbrev Out := Host.Outcome State Fault Refusal

/-- The command completes in the given state. -/
def done (s : State) : Out := .next s

end Sys2Proof.Machine
end

