-- ==== Sys2Proof/Machine/Symbols.lean ====
section
/-! DEFINITION. The code of the stack controllers (R300, R301): the 36 symbols of a stored line, the Reed–Solomon check symbols over GF(2^16), and
what the decoder makes of an error pattern. -/

namespace Sys2Proof.Machine

/-! ## GF(2^16) with x^16 + x^12 + x^3 + x + 1 -/

/-- Times α, the root x. -/
def gfAlpha (a : BitVec 16) : BitVec 16 := if a.getLsbD 15 then (a <<< 1) ^^^ 0x100B else a <<< 1

/-- Times α^n. -/
def gfShift : Nat → BitVec 16 → BitVec 16
  | 0, a => a
  | n + 1, a => gfShift n (gfAlpha a)

/-- Times the generator's coefficients: it is x³ + (1 + α + α²)x² + (α + α² + α³)x + α³. -/
def gfG2 (a : BitVec 16) : BitVec 16 := a ^^^ gfAlpha a ^^^ gfShift 2 a
def gfG1 (a : BitVec 16) : BitVec 16 := gfAlpha (gfG2 a)
def gfG0 (a : BitVec 16) : BitVec 16 := gfShift 3 a

/-- The check symbols 33, 34 and 35 of symbols 0 to 32: the remainder by the generator, symbol i being the coefficient of x^(35 − i)
(DESIGN CHOICE, notes/assumptions/84.md). -/
def checkSymbols (l : List (BitVec 16)) : List (BitVec 16) :=
  let r := l.foldl (fun (r : BitVec 16 × BitVec 16 × BitVec 16) d =>
    let f := d ^^^ r.1
    (r.2.1 ^^^ gfG2 f, r.2.2 ^^^ gfG1 f, gfG0 f)) (0, 0, 0)
  [r.1, r.2.1, r.2.2]

/-- Syndrome j of 36 symbols: their value at α^j. -/
def syndrome (j : Nat) (l : List (BitVec 16)) : BitVec 16 := l.foldl (fun a d => gfShift j a ^^^ d) 0

/-- What the decoder finds: no error, one wrong symbol (its number and difference), or an error beyond correction. -/
inductive Decoded where
  | clean
  | one (sym : Nat) (flip : BitVec 16)
  | bad
  deriving DecidableEq, Repr

/-- R301: the decoder. -/
def decodeSymbols (l : List (BitVec 16)) : Decoded :=
  let s0 := syndrome 0 l
  let s1 := syndrome 1 l
  let s2 := syndrome 2 l
  if s0 = 0 ∧ s1 = 0 ∧ s2 = 0 then .clean
  else
    match (if s0 = 0 then none else (List.range 36).find? fun i => gfShift (35 - i) s0 == s1 && gfShift (35 - i) s1 == s2) with
    | some i => .one i s0
    | none => .bad

/-- Two lines of symbols added. -/
def addSymbols (a b : List (BitVec 16)) : List (BitVec 16) := a.zipWith (· ^^^ ·) b

/-- One wrong symbol, alone. -/
def oneWrong (sym : Nat) (flip : BitVec 16) : List (BitVec 16) := (List.range 36).map fun i => if i = sym then flip else 0

/-- The error that the decoder sees in a pattern; what is left of the pattern is a code word, by which the line holds other data. -/
def Decoded.pattern (d : Decoded) (p : List (BitVec 16)) : List (BitVec 16) :=
  match d with
  | .clean => oneWrong 36 0
  | .one i v => oneWrong i v
  | .bad => p

/-! ## Stored lines (R300) -/

/-- Symbols 0 to 32 of a line. -/
def Mem.dataSymbols (m : Mem) (line : Nat) : List (BitVec 16) :=
  ((List.range 32).map fun i => BitVec.ofNat 16 (leNat (cellsRead m.cells (64 * line + 2 * i) 2)))
    ++ [BitVec.ofNat 16 ((fgetD 0 m.written line).toNat + 256 * bit (m.poison.contains line))]

/-- The 36 symbols of a line as the stack holds them, the wrong ones among them. -/
def Mem.storedLine (m : Mem) (line : Nat) : List (BitVec 16) :=
  let d := m.dataSymbols line
  addSymbols (d ++ checkSymbols d) (fgetD (oneWrong 36 0) m.wrong line)

/-- The lines of which one symbol is wrong, and those with an error beyond correction. -/
def Mem.oneSymbol (m : Mem) : List Nat := (m.wrong.filter fun e => decodeSymbols e.2 != .bad).map (·.1)
def Mem.twoSymbol (m : Mem) : List Nat := (m.wrong.filter fun e => decodeSymbols e.2 == .bad).map (·.1)

/-- Lines written with fresh check symbols. -/
def Mem.fresh (m : Mem) (which : Nat → Bool) : Mem := { m with wrong := m.wrong.filter fun e => !which e.1 }

/-- A code word added to a line's symbols: the data, WRITTEN and POISON that it then holds. -/
def Mem.addData (m : Mem) (line : Nat) (l : List (BitVec 16)) : Mem :=
  let b := (l.take 32).flatMap fun x => leBytes 2 x.toNat
  let c := l.getD 32 0
  { m with
    cells := cellsWrite m.cells (64 * line) ((cellsRead m.cells (64 * line) 64).zipWith (· ^^^ ·) b),
    written := if c.setWidth 8 = 0#8 then m.written else fset m.written line (fgetD 0 m.written line ^^^ c.setWidth 8),
    poison := if c.getLsbD 8 then (if m.poison.contains line then m.poison.filter (· != line) else addTo m.poison line) else m.poison }

/-- A symbol of a stored line goes wrong. -/
def Mem.upset (m : Mem) (line sym : Nat) (flip : BitVec 16) : Mem :=
  let p := addSymbols (fgetD (oneWrong 36 0) m.wrong line) (oneWrong sym flip)
  let seen := (decodeSymbols p).pattern p
  let rest := addSymbols p seen
  let m := { m with wrong := if seen.all (· == 0) then fdel m.wrong line else fset m.wrong line seen }
  if rest.all (· == 0) then m else m.addData line rest

end Sys2Proof.Machine
end

