-- ==== Sys2Proof/Machine/Anatomy.lean ====
section
/-! DEFINITION. The anatomy of the module (R14 to R31): physical and logical tiles, stand-ins, rooms, owners, and the module
physical address map. -/

namespace Sys2Proof.Machine

/-! ## Tiles -/

def tileX (p : Nat) : Nat := p % 64
def tileY (p : Nat) : Nat := p / 64
/-- R14. -/
def physIndex (x y : Nat) : Nat := y * 64 + x
/-- R15. -/
def clusterOf (p : Nat) : Nat := tileX p / 16 + 4 * (tileY p / 18)
/-- R150: 16 × local row + local column. -/
def localIndex (p : Nat) : Nat := 16 * (tileY p % 18) + tileX p % 16
/-- A die column: die row r and column x. -/
def dieKey (r x : Nat) : Nat := r * 64 + x
def dieKeyOf (p : Nat) : Nat := dieKey (tileY p / 18) (tileX p)
/-- The skip row of a die column; 17 is the untouched spare row (R16). -/
def Mesh.skipRow (m : Mesh) (key : Nat) : Nat := fgetD 17 m.skip key

/-- R16: the physical tile that serves a logical coordinate when no stand-in does. -/
def Mesh.basePhys (m : Mesh) (x y : Nat) : Nat :=
  let r := y / 17
  let l := y % 17
  physIndex x (18 * r + if l < m.skipRow (dieKey r x) then l else l + 1)

/-- The logical index of a coordinate (R21). -/
def logicalIndex (x y : Nat) : Nat := 64 * y + x

/-- The physical tile that serves a logical coordinate: its stand-in's tile, or that of R16 (R21, R22). -/
def Mesh.physicalOf (m : Mesh) (x y : Nat) : Nat :=
  match fget m.standIns (logicalIndex x y) with
  | some l => m.basePhys (l % 64) (l / 64)
  | none => m.basePhys x y

/-- The logical coordinate that R16 maps to a physical tile, if any: a column's skip row maps to none. -/
def Mesh.baseLogical (m : Mesh) (p : Nat) : Option (Nat × Nat) :=
  let r := tileY p / 18
  let l := tileY p % 18
  let skip := m.skipRow (dieKeyOf p)
  if l = skip then none else some (tileX p, 17 * r + if l < skip then l else l - 1)

/-- Whether a coordinate is in service: rows 0 to 63, and the reserve rows lent (R26). -/
def Mesh.inService (m : Mesh) (y : Nat) : Bool := decide (y < 64 + m.lentRows)

/-- The logical coordinate that a reserve tile stands in for. -/
def Mesh.standsFor (m : Mesh) (l : Nat) : Option Nat := (m.standIns.find? (fun e => e.2 = l)).map (·.1)

/-- The logical coordinate that a physical tile serves, if it serves one. -/
def Mesh.serves (m : Mesh) (p : Nat) : Option (Nat × Nat) :=
  match m.baseLogical p with
  | none => none
  | some (x, y) =>
    match m.standsFor (logicalIndex x y) with
    | some l => some (l % 64, l / 64)
    | none =>
      if m.inService y && (fget m.standIns (logicalIndex x y)).isNone then some (x, y) else none

def Mesh.isRetired (m : Mesh) (p : Nat) : Bool := m.retired.contains p

/-- R21: the reserve tiles (by logical index) that could become a stand-in, highest first: working, which a tile of a cluster out of service is
not (R81), no stand-in yet and not lent. -/
def Mesh.reserveFree (m : Mesh) : List Nat :=
  ((List.range (64 * (4 - m.lentRows))).map (fun k => 64 * 68 - 1 - k)).filter fun l =>
    let p := m.basePhys (l % 64) (l / 64)
    !m.isRetired p && !m.dead.contains (clusterOf p) && (m.standsFor l).isNone

/-- R21, R26: reserve tiles become the stand-ins of coordinates that retired tiles serve, in ascending order; the busy ones are left aside. -/
def Mesh.assignStandIns (m : Mesh) (busy coords : List Nat) : Mesh :=
  coords.foldl (fun m l =>
    if m.isRetired (m.physicalOf (l % 64) (l / 64)) then
      match m.reserveFree.filter fun t => !busy.contains t with
      | t :: _ => { m with standIns := fset m.standIns l t }
      | [] => m
    else m) m

/-- Reserve tiles retired (R151). -/
def Mesh.reserveRetired (m : Mesh) : Nat :=
  ((List.range 256).filter fun k => m.isRetired (m.basePhys (k % 64) (64 + k / 64))).length

/-- R26: the rows that can be lent at a job's start. A reserve tile that a retirement in progress has chosen or concerns counts as the
stand-in or retired tile that it is about to be (notes/assumptions/96.md). -/
def Mesh.rowsToLend (m : Mesh) (busy : List Nat) : Nat :=
  let s := ((m.standIns.map (·.2)) ++ busy ++
    ((List.range 256).map (fun k => 64 * 64 + k)).filter fun l => m.isRetired (m.basePhys (l % 64) (l / 64))).dedup.length
  4 - ceilDiv s 64

/-- The reserve tiles, by logical index, that the retirements of tiles other than the given one have chosen or concern. -/
def State.busyReserve (s : State) (p : Nat) : List Nat :=
  s.clusters.flatMap fun e =>
    let ms := e.2.moving.toList
    ms.flatMap (·.given.map (·.2))
      ++ (((ms.map (·.what)) ++ e.2.queue).map (·.tile)).filterMap fun t =>
          if t = p then none else (s.mesh.baseLogical t).map fun c => logicalIndex c.1 c.2

/-- The rows that can be lent now. -/
def State.rowsToLend (s : State) : Nat :=
  s.mesh.rowsToLend ((s.busyReserve 4608).filter (64 * 64 ≤ ·))

/-! ## Rooms and owners -/

/-- R24: the room of a logical tile in rows 0 to 63. -/
def roomOf (x y : Nat) : Nat := y / 2 * 32 + x / 2
/-- The four logical tiles of a room. -/
def roomTiles (k : Nat) : List (Nat × Nat) :=
  let x := 2 * (k % 32)
  let y := 2 * (k / 32)
  [(x, y), (x + 1, y), (x, y + 1), (x + 1, y + 1)]

/-- The rooms of a guest that it still holds: a closed room is out of the room map (R23). -/
def Guest.open (g : Guest) : List Nat := g.rooms.filter fun k => !g.closedRooms.contains k

/-- The guest that holds a room. -/
def State.holder (s : State) (k : Nat) : Option Nat :=
  (s.guests.find? fun e => e.2.open.contains k).map (·.1)

/-- OWNER of a logical tile (R217): the holder of its room, or the guest to which its reserve row is lent. -/
def State.owner (s : State) (x y : Nat) : Option Nat :=
  if y < 64 then s.holder (roomOf x y)
  else if y < 64 + s.mesh.lentRows then s.mesh.lentTo else none

/-- The tile that serves a logical coordinate. -/
def State.phys (s : State) (x y : Nat) : Nat := s.mesh.physicalOf x y

/-- The module number of a local number, with `per` numbers to each room held at creation; none beyond them. -/
def Guest.moduleNo (g : Guest) (per loc : Nat) : Option Nat := (g.rooms[loc / per]?).map fun k => per * k + loc % per

/-- The home room of a guest (R378): its lowest room still held. -/
def Guest.home (g : Guest) : Option Nat :=
  match g.open with
  | [] => none
  | k :: r => some (r.foldl Nat.min k)

/-! ## The module physical address map (R28 to R31) -/

/-- Where an address of the map lies. -/
inductive MapPlace where
  | stack (a : Nat)
  | cellar (port off : Nat)
  | tile (p off : Nat)
  | burst (a : Nat)
  | internal (off : Nat)
  | hole
  deriving DecidableEq, Repr

def stackTop : Nat := 0xC000000000
def cellarBase : Nat := 0x100000000000
def tileBase : Nat := 0x200000000000
def burstBase : Nat := 0x300000000000
def internalBase : Nat := 0x3F0000000000
/-- R243: the ledger header table. -/
def headerTable : Nat := 0xBFFF780000

/-- R28, R30, R31: the ranges of the map, without the holes that depend on what is fitted. -/
def mapAddr (a : Nat) : MapPlace :=
  if a < stackTop then .stack a
  else if cellarBase ≤ a ∧ a < cellarBase + 0x80000000000 then .cellar ((a - cellarBase) / 2 ^ 40) ((a - cellarBase) % 2 ^ 40)
  else if tileBase ≤ a ∧ a < tileBase + 4608 * 0x200000 then
    let off := (a - tileBase) % 0x200000
    if off < 0x180000 then .tile ((a - tileBase) / 0x200000) off else .hole
  else if burstBase ≤ a ∧ a < burstBase + 0x10000000 then .burst a
  else if internalBase ≤ a ∧ a < internalBase + 0x100000000 then .internal (a - internalBase)
  else .hole

/-- R25: the burst-queue share of a room. -/
def burstShare (k : Nat) : Nat := burstBase + k * 0x40000

end Sys2Proof.Machine
end

