-- ==== Sys2Proof/Machine/Fp.lean ====
section
/-! DEFINITION. Number formats (R86 to R90): decoding of elements, the one rounding function exit_round (R107), and the
binary32 arithmetic of the scalar and vector units, each operation computed exactly and rounded once. -/

namespace Sys2Proof.Machine

/-- A decoded element: NaN, an infinity with its sign, or (−1)^neg × m × 2^e. -/
inductive FpVal where
  | nan
  | inf (neg : Bool)
  | fin (neg : Bool) (m : Nat) (e : Int)
  deriving DecidableEq, Repr

/-- The element formats of R86. -/
inductive ElemFmt where
  | e4m3 | e5m2 | e2m3 | e3m2 | e2m1 | int8 | bf16 | fp32
  deriving DecidableEq, Repr

/-- The rounding parameters of R107: p, emin, bias, the exponent and significand widths, and the largest finite value as
a significand and the exponent of its ulp. -/
structure Rounding where
  p : Nat
  emin : Int
  bias : Int
  ebits : Nat
  maxSig : Nat
  maxUlp : Int
  saturates : Bool

def fp32R : Rounding := ⟨24, -126, 127, 8, 2 ^ 24 - 1, 104, false⟩
def bf16R : Rounding := ⟨8, -126, 127, 8, 2 ^ 8 - 1, 120, false⟩
def e4m3R : Rounding := ⟨4, -6, 7, 4, 14, 5, true⟩
def e5m2R : Rounding := ⟨3, -14, 15, 5, 7, 13, true⟩
def e2m3R : Rounding := ⟨4, 0, 1, 2, 15, -1, true⟩
def e3m2R : Rounding := ⟨3, -2, 3, 3, 7, 2, true⟩
def e2m1R : Rounding := ⟨2, 0, 1, 2, 3, 1, true⟩

/-- The rounding parameters of a format; MXINT8 has none and rounds as R109 says. -/
def ElemFmt.rounding : ElemFmt → Rounding
  | .e4m3 => e4m3R | .e5m2 => e5m2R | .e2m3 => e2m3R | .e3m2 => e3m2R | .e2m1 => e2m1R
  | .int8 => e4m3R | .bf16 => bf16R | .fp32 => fp32R

/-- Element widths in bits (R86). -/
def ElemFmt.width : ElemFmt → Nat
  | .e4m3 | .e5m2 | .int8 => 8 | .e2m3 | .e3m2 => 6 | .e2m1 => 4 | .bf16 => 16 | .fp32 => 32

/-- Whether a format is an MX format, held in blocks of 32 with a scale byte. -/
def ElemFmt.isMx : ElemFmt → Bool
  | .bf16 | .fp32 => false
  | _ => true

/-- The column b of R86. -/
def ElemFmt.b : ElemFmt → Int
  | .e4m3 => 8 | .e5m2 => 15 | .e2m3 => 2 | .e3m2 => 4 | .e2m1 => 2 | .int8 => 1 | .bf16 => 0 | .fp32 => 0

/-- A floating element with significand width m and exponent width e (R86). -/
def decodeFloat (mbits ebits : Nat) (bias : Int) (ieee : Bool) (x : Nat) : FpVal :=
  let m := x % 2 ^ mbits
  let e := (x / 2 ^ mbits) % 2 ^ ebits
  let neg := bitOf x (mbits + ebits)
  if ieee && e == 2 ^ ebits - 1 then (if m = 0 then .inf neg else .nan)
  else if e = 0 then .fin neg m (1 - bias - mbits)
  else .fin neg (m + 2 ^ mbits) (e - bias - mbits)

/-- An element's value (R86). -/
def decodeElem (f : ElemFmt) (x : Nat) : FpVal :=
  match f with
  | .e4m3 => if x % 128 = 127 then .nan else decodeFloat 3 4 7 false x
  | .e5m2 => decodeFloat 2 5 15 true x
  | .e2m3 => decodeFloat 3 2 1 false x
  | .e3m2 => decodeFloat 2 3 3 false x
  | .e2m1 => decodeFloat 1 2 1 false x
  | .int8 => let i := signed 8 x; .fin (decide (i < 0)) i.natAbs (-6)
  | .bf16 => decodeFloat 7 8 127 true x
  | .fp32 => decodeFloat 23 8 127 true x

/-- v × 2^n for an n that may be negative, toward zero. -/
def scale2 (v : Nat) (n : Int) : Nat := if 0 ≤ n then v * 2 ^ n.toNat else v / 2 ^ (-n).toNat

/-- encode of R107's pseudocode: sign, exponent field and fraction. -/
def Rounding.encode (r : Rounding) (neg : Bool) (e f : Nat) : Nat :=
  bit neg * 2 ^ (r.ebits + r.p - 1) + e * 2 ^ (r.p - 1) + f

/-- R107: v × 2^w rounded once to nearest, ties to even, with gradual underflow. -/
def exitRound (r : Rounding) (v : Int) (w : Int) : Nat :=
  if v = 0 then 0
  else
    let neg := decide (v < 0)
    let mag := v.natAbs
    let h : Int := Nat.log2 mag
    let q := max (h + w) r.emin - (r.p - 1 : Nat)
    let sh := q - w
    let t :=
      if sh ≤ 0 then mag * 2 ^ (-sh).toNat
      else
        let d := 2 ^ sh.toNat
        let t := mag / d
        let rem := mag % d
        if 2 * rem > d ∨ (2 * rem = d ∧ t % 2 = 1) then t + 1 else t
    let (t, q) := if t = 2 ^ r.p then (2 ^ (r.p - 1), q + 1) else (t, q)
    let tooBig := if r.maxUlp ≤ q then decide (t * 2 ^ (q - r.maxUlp).toNat > r.maxSig)
      else decide (t > r.maxSig * 2 ^ (r.maxUlp - q).toNat)
    if tooBig && !r.saturates then r.encode neg (2 ^ r.ebits - 1) 0
    else
      let (t, q) := if tooBig then (r.maxSig, r.maxUlp) else (t, q)
      if 2 ^ (r.p - 1) ≤ t then r.encode neg (q + (r.p - 1 : Nat) + r.bias).toNat (t - 2 ^ (r.p - 1))
      else r.encode neg 0 t

/-- The one NaN that the arithmetic produces (R90). -/
def fpNan : Nat := 0x7FC00000

/-- An infinity in binary32. -/
def fpInf (neg : Bool) : Nat := if neg then 0xFF800000 else 0x7F800000

/-- A zero in binary32. -/
def fpZero (neg : Bool) : Nat := if neg then 0x80000000 else 0

/-- The signed significand. -/
def FpVal.int (neg : Bool) (m : Nat) : Int := if neg then -(m : Int) else m

/-- a × 2^ea + b × 2^eb exactly, as a significand and an exponent. -/
def exactAdd (a : Int) (ea : Int) (b : Int) (eb : Int) : Int × Int :=
  let e := min ea eb
  (a * 2 ^ (ea - e).toNat + b * 2 ^ (eb - e).toNat, e)

/-- A binary32 value read from its 32 bits. -/
def fp (x : BitVec 32) : FpVal := decodeElem .fp32 x.toNat

/-- The exact sum of two finite values, rounded; a zero sum is −0 only when both are negative (IEEE 754 under R90). -/
def finAdd (na : Bool) (ma : Nat) (ea : Int) (nb : Bool) (mb : Nat) (eb : Int) : Nat :=
  let (v, e) := exactAdd (FpVal.int na ma) ea (FpVal.int nb mb) eb
  if v = 0 then fpZero (na && nb && ma == 0 && mb == 0) else exitRound fp32R v e

/-- The sum of two values (R90). -/
def addVal (a b : FpVal) : Nat :=
  match a, b with
  | .nan, _ => fpNan
  | _, .nan => fpNan
  | .inf x, .inf y => if x = y then fpInf x else fpNan
  | .inf x, _ => fpInf x
  | _, .inf y => fpInf y
  | .fin na ma ea, .fin nb mb eb => finAdd na ma ea nb mb eb

/-- The exact product of two values, unrounded; an infinity times 0 is NaN. -/
def mulVal (a b : FpVal) : FpVal :=
  match a, b with
  | .nan, _ => .nan
  | _, .nan => .nan
  | .inf x, .inf y => .inf (x != y)
  | .inf x, .fin y m _ => if m = 0 then .nan else .inf (x != y)
  | .fin x m _, .inf y => if m = 0 then .nan else .inf (x != y)
  | .fin na ma ea, .fin nb mb eb => .fin (na != nb) (ma * mb) (ea + eb)

/-- An exact value rounded to binary32. -/
def roundVal : FpVal → Nat
  | .nan => fpNan
  | .inf x => fpInf x
  | .fin n m e => if m = 0 then fpZero n else
      let r := exitRound fp32R (FpVal.int n m) e
      r

/-- The negated value. -/
def FpVal.neg : FpVal → FpVal
  | .nan => .nan
  | .inf x => .inf (!x)
  | .fin n m e => .fin (!n) m e

def fpAdd (a b : BitVec 32) : BitVec 32 := BitVec.ofNat 32 (addVal (fp a) (fp b))
def fpSub (a b : BitVec 32) : BitVec 32 := BitVec.ofNat 32 (addVal (fp a) (fp b).neg)
def fpMul (a b : BitVec 32) : BitVec 32 := BitVec.ofNat 32 (roundVal (mulVal (fp a) (fp b)))
/-- a × b + c with one rounding. -/
def fpFma (a b c : BitVec 32) : BitVec 32 := BitVec.ofNat 32 (addVal (mulVal (fp a) (fp b)) (fp c))

/-- Whether a < b for values of which neither is NaN; −0 equals +0. -/
def ltVal : FpVal → FpVal → Bool
  | .nan, _ => false
  | _, .nan => false
  | .inf x, .inf y => x && !y
  | .inf x, _ => x
  | _, .inf y => !y
  | .fin na ma ea, .fin nb mb eb =>
    decide ((exactAdd (FpVal.int na ma) ea (-(FpVal.int nb mb)) eb).1 < 0)

def FpVal.isNan : FpVal → Bool
  | .nan => true
  | _ => false

/-- a < b as binary32; false if either is NaN. -/
def fpLt (a b : BitVec 32) : Bool := ltVal (fp a) (fp b)

/-- a = b as binary32; false if either is NaN, and +0 equals −0. -/
def fpEq (a b : BitVec 32) : Bool :=
  !(fp a).isNan && !(fp b).isNan && !fpLt a b && !fpLt b a

/-- IEEE 754-2019 maximum: NaN if either is NaN, and +0 above −0 (R170, R173). -/
def fpMax (a b : BitVec 32) : BitVec 32 :=
  if (fp a).isNan || (fp b).isNan then BitVec.ofNat 32 fpNan
  else if fpLt a b then b else if fpLt b a then a else a &&& b

/-- IEEE 754-2019 minimum: NaN if either is NaN, and −0 below +0. -/
def fpMin (a b : BitVec 32) : BitVec 32 :=
  if (fp a).isNan || (fp b).isNan then BitVec.ofNat 32 fpNan
  else if fpLt a b then a else if fpLt b a then b else a ||| b

/-- An integer converted to binary32 with round to nearest even (ITOF). -/
def fpOfInt (i : Int) : BitVec 32 := BitVec.ofNat 32 (exitRound fp32R i 0)

/-- Binary32 converted to a 64-bit integer toward zero, saturating; NaN gives 0 (FTOI). -/
def fpToInt (x : BitVec 32) : Int :=
  let lo : Int := -(2 ^ 63)
  let hi : Int := 2 ^ 63 - 1
  match fp x with
  | .nan => 0
  | .inf n => if n then lo else hi
  | .fin n m e => let v := FpVal.int n (scale2 m e); if v < lo then lo else if v > hi then hi else v

end Sys2Proof.Machine
end

