-- ==== Sys2Proof/Machine/FnUnit.lean ====
section
/-! DEFINITION. The deterministic function unit: the special cases of R116 and the reference algorithms of R117. -/

namespace Sys2Proof.Machine

def ln2C : Nat := 0xB17217F7D1CF79AB
def log2eC : Nat := 0x171547652B82FE177
def twoPiC : Nat := 0x6487ED5110B4611A62633145C06E0E689
def twoRspiC : Nat := 0x120DD750429B6D11A

/-- decompose of R117: |x| = m × 2^e with 2^23 ≤ m < 2^24. -/
def decompose (m : Nat) (e : Int) : Nat × Int :=
  let s := 23 - Nat.log2 m
  (m * 2 ^ s, e - s)

/-- The floor of a square root by trying its bits from the top. -/
def isqrtFrom : Nat → Nat → Nat → Nat
  | 0, _, r => r
  | k + 1, n, r => if (r + 2 ^ k) * (r + 2 ^ k) ≤ n then isqrtFrom k n (r + 2 ^ k) else isqrtFrom k n r

/-- exp2's series: k counts down, the term and the sum are carried. -/
def exp2Loop (u : Nat) : Nat → Nat → Nat → Nat → Nat
  | 0, _, _, sum => sum
  | n + 1, k, term, sum =>
    let term := (term * u / 2 ^ 64) / k
    exp2Loop u n (k + 1) term (sum + term)

/-- 2^x for −150 < x < 128 and |x| ≥ 2^−25. -/
def fnExp2 (neg : Bool) (m : Nat) (e : Int) : Nat :=
  let v : Int := FpVal.int neg (scale2 m (e + 64))
  let n : Int := Int.fdiv v ((2 : Int) ^ 64)
  let f := (v - n * 2 ^ 64).toNat
  let u := f * ln2C / 2 ^ 64
  exitRound fp32R ((exp2Loop u 24 1 (2 ^ 64) (2 ^ 64) : Nat) : Int) (n - 64)

def log2Loop (z2 : Nat) : Nat → Nat → Nat → Nat → Nat
  | 0, _, _, s => s
  | n + 1, j, p, s =>
    let p := p * z2 / 2 ^ 64
    log2Loop z2 n (j + 1) p (s + p / (2 * j + 1))

/-- log2 x for 0 < x < +Inf. -/
def fnLog2 (m : Nat) (e : Int) : Nat :=
  let (m, e) := decompose m e
  let k := e + 23
  if m = 2 ^ 23 then exitRound fp32R k 0
  else
    let z := (m - 2 ^ 23) * 2 ^ 64 / (m + 2 ^ 23)
    let z2 := z * z / 2 ^ 64
    let s := log2Loop z2 20 1 z z
    let l : Nat := 2 * s * log2eC / 2 ^ 64
    exitRound fp32R (k * (2 : Int) ^ 64 + (l : Int)) (-64)

/-- 1 / x for a finite non-zero x. -/
def fnRecip (neg : Bool) (m : Nat) (e : Int) : Nat :=
  let (m, e) := decompose m e
  let q := 2 ^ 90 / m
  let q := if 2 ^ 90 % m = 0 then q else q ||| 1
  exitRound fp32R (FpVal.int neg q) (-90 - e)

/-- 1 / sqrt x for a finite x > 0. -/
def fnRsqrt (m : Nat) (e : Int) : Nat :=
  let (m, e) := decompose m e
  let (mm, ee) := if e % 2 = 0 then (m, e) else (2 * m, e - 1)
  let s := isqrtFrom 64 (mm * 2 ^ 100) 0
  exitRound fp32R (Int.ofNat (2 ^ 128 / s)) (-78 - ee / 2)

def sincosLoop (th : Nat) : Nat → Nat → Nat → Int → Int → Int × Int
  | 0, _, _, s, c => (s, c)
  | n + 1, k, term, s, c =>
    let term := (term * th / 2 ^ 128) / k
    if k % 4 = 0 then sincosLoop th n (k + 1) term s (c + term)
    else if k % 4 = 1 then sincosLoop th n (k + 1) term (s + term) c
    else if k % 4 = 2 then sincosLoop th n (k + 1) term s (c - term)
    else sincosLoop th n (k + 1) term (s - term) c

/-- (sin 2πx, cos 2πx) for a finite |x| ≥ 2^−20, as exact values over 2^128. -/
def sincosVal (neg : Bool) (m : Nat) (e : Int) : Int × Int :=
  let f := scale2 m (e + 128) % 2 ^ 128
  let qd := f / 2 ^ 126
  let r := f % 2 ^ 126
  let swap := decide (r ≥ 2 ^ 125)
  let r := if swap then 2 ^ 126 - r else r
  let th := r * twoPiC / 2 ^ 128
  let (s, c) := sincosLoop th 30 1 (2 ^ 128) 0 (2 ^ 128)
  let (s, c) := if swap then (c, s) else (s, c)
  let (sv, cv) := if qd = 0 then (s, c) else if qd = 1 then (c, -s) else if qd = 2 then (-s, -c) else (-c, s)
  (if neg then -sv else sv, cv)

def erfLoop (a2 : Nat) : Nat → Nat → Nat → Int → Int
  | 0, _, _, s => s
  | i + 1, n, p, s =>
    let p := (p * a2 / 2 ^ 64) / n
    let d : Int := (p / (2 * n + 1) : Nat)
    erfLoop a2 i (n + 1) p (if n % 2 = 1 then s - d else s + d)

/-- erf x for 2^−20 ≤ |x| < 4. -/
def fnErf (neg : Bool) (m : Nat) (e : Int) : Nat :=
  let a := scale2 m (e + 64)
  let a2 := a * a / 2 ^ 64
  let s := erfLoop a2 100 1 a (a : Int)
  let v := Int.tdiv (s * twoRspiC) (2 ^ 64)
  exitRound fp32R (if neg then -v else v) (-64)

/-- Whether m × 2^e is below 2^k. -/
def below (m : Nat) (e k : Int) : Bool := decide (m = 0) || decide ((Nat.log2 m : Int) + e < k)

/-- The functions of the unit. -/
inductive Fn where
  | exp2 | log2 | recip | rsqrt | sin | cos | erf
  deriving DecidableEq, Repr

/-- R116 first, then R117. -/
def fnEval (f : Fn) (x : BitVec 32) : BitVec 32 :=
  BitVec.ofNat 32 <|
    let one : Nat := 0x3F800000
    match f, fp x with
    | _, .nan => fpNan
    | .exp2, .inf n => if n then 0 else fpInf false
    | .log2, .inf n => if n then fpNan else fpInf false
    | .recip, .inf n => fpZero n
    | .rsqrt, .inf n => if n then fpNan else 0
    | .sin, .inf _ => fpNan
    | .cos, .inf _ => fpNan
    | .erf, .inf n => if n then 0xBF800000 else one
    | .exp2, .fin n m e =>
      if below m e (-25) then one
      else if !below m e 7 && !n then fpInf false
      else if n && decide (150 * 2 ^ 149 ≤ scale2 m (e + 149)) then 0
      else fnExp2 n m e
    | .log2, .fin n m e => if m = 0 then fpInf true else if n then fpNan else fnLog2 m e
    | .recip, .fin n m e => if m = 0 then fpInf n else fnRecip n m e
    | .rsqrt, .fin n m e => if m = 0 then fpInf n else if n then fpNan else fnRsqrt m e
    | .sin, .fin n m e =>
      if m = 0 then fpZero n
      else if below m e (-20) then
        let (d, de) := decompose m e
        exitRound fp32R (FpVal.int n (d * twoPiC)) (de - 128)
      else exitRound fp32R (sincosVal n m e).1 (-128)
    | .cos, .fin n m e => if below m e (-20) then one else exitRound fp32R (sincosVal n m e).2 (-128)
    | .erf, .fin n m e =>
      if m = 0 then fpZero n
      else if !below m e 2 then (if n then 0xBF800000 else one)
      else if below m e (-20) then
        let (d, de) := decompose m e
        exitRound fp32R (FpVal.int n (d * twoRspiC)) (de - 64)
      else fnErf n m e

end Sys2Proof.Machine
end

