-- ==== Sys2Proof/Machine/Operands.lean ====
section
/-! DEFINITION. The bundle (R159 to R163): how its four slots are read from 128 bits, which fields each operation uses, and
what makes a slot illegal. A decoded slot keeps the operation and its fields; every field it does not use is 0 (R162). -/

namespace Sys2Proof.Machine

/-- The scalar slot's operations (R170) and the three of a firmware core (R197). -/
inductive SOp where
  | add | addi | sub | andOp | orOp | xor | shl | shr | sar | cmplt | cmpeq | min | max | mul | div | rem
  | fadd | fsub | fmul | ffma | fmax | fmin | itof | ftoi | mov | tagof | retag | sld | sst | markp | wait
  | br | bz | bnz | call | jmp | repi | repx | step | endOp | seth | rte | brk | rdt | ldi
  | dget | dput | dld | dst | pget | pput | sld4 | sst4 | wfi
  deriving DecidableEq, Repr

/-- The vector slot's operations (R172). -/
inductive VOp where
  | vadd | vsub | vmul | vfma | vmax | vmin | vsel | vadds | vmuls | vbcast | vcmplt | vcmpeq | vrmax32 | vrsum32 | vfn
  deriving DecidableEq, Repr

/-- The matrix slot's operations (R176). -/
inductive MOp where
  | mma | mmacI | mmacR | mmacA | tclr | tget
  deriving DecidableEq, Repr

/-- The move slot's operations (R177). -/
inductive VeOp where
  | vld | vst | vstmx | trd | tput | txmx | put | get | astream
  deriving DecidableEq, Repr

/-- A scalar slot: its operation and its fields. -/
structure SSlot where
  op : SOp
  rd : BitVec 6 := 0
  ra : BitVec 6 := 0
  rb : BitVec 6 := 0
  imm : BitVec 14 := 0
  deriving DecidableEq, Repr

/-- A vector slot. -/
structure VSlot where
  op : VOp
  vd : BitVec 5 := 0
  va : BitVec 5 := 0
  b : BitVec 6 := 0
  vc : BitVec 5 := 0
  pr : BitVec 3 := 0
  pz : Bool := false
  deriving DecidableEq, Repr

/-- A matrix slot. -/
structure MSlot where
  op : MOp
  da : BitVec 4 := 0
  db : BitVec 4 := 0
  arg : BitVec 11 := 0
  deriving DecidableEq, Repr

/-- A move slot. -/
structure XSlot where
  op : VeOp
  dk : BitVec 4 := 0
  vr : BitVec 5 := 0
  sr : BitVec 6 := 0
  n : BitVec 8 := 0
  deriving DecidableEq, Repr

/-- A slot as decoded: a NOP, an illegal pattern, or an operation. -/
inductive Slot (α : Type) where
  | nop
  | bad
  | op (a : α)
  deriving DecidableEq, Repr

/-- A bundle: its slots, and the immediate of FMT 1 with its tag number and the bits above it. -/
structure Bundle where
  fmt : Nat
  s : Slot SSlot
  v : Slot VSlot := .nop
  m : Slot MSlot := .nop
  x : Slot XSlot := .nop
  imm : BitVec 64 := 0
  tag : BitVec 4 := 0
  tail : BitVec 16 := 0
  deriving DecidableEq, Repr

/-- Scalar opcodes (R170, R197). -/
def sopOf : Nat → Option SOp
  | 0x01 => some .add | 0x02 => some .addi | 0x03 => some .sub | 0x04 => some .andOp | 0x05 => some .orOp
  | 0x06 => some .xor | 0x07 => some .shl | 0x08 => some .shr | 0x09 => some .sar | 0x0A => some .cmplt
  | 0x0B => some .cmpeq | 0x0C => some .min | 0x0D => some .max | 0x10 => some .mul | 0x11 => some .div
  | 0x12 => some .rem | 0x18 => some .fadd | 0x19 => some .fsub | 0x1A => some .fmul | 0x1B => some .ffma
  | 0x1C => some .fmax | 0x1D => some .fmin | 0x1E => some .itof | 0x1F => some .ftoi | 0x20 => some .mov
  | 0x21 => some .tagof | 0x22 => some .retag | 0x28 => some .sld | 0x29 => some .sst | 0x2A => some .markp
  | 0x2B => some .wait | 0x30 => some .br | 0x31 => some .bz | 0x32 => some .bnz | 0x33 => some .call
  | 0x34 => some .jmp | 0x35 => some .repi | 0x36 => some .repx | 0x38 => some .step | 0x39 => some .endOp
  | 0x3A => some .seth | 0x3B => some .rte | 0x3C => some .brk | 0x3D => some .rdt | 0x3F => some .ldi
  | 0x40 => some .dget | 0x41 => some .dput | 0x42 => some .dld | 0x43 => some .dst | 0x44 => some .pget
  | 0x45 => some .pput | 0x48 => some .sld4 | 0x49 => some .sst4 | 0x4A => some .wfi
  | _ => none

/-- Vector opcodes (R172). -/
def vopOf : Nat → Option VOp
  | 0x01 => some .vadd | 0x02 => some .vsub | 0x03 => some .vmul | 0x04 => some .vfma | 0x05 => some .vmax
  | 0x06 => some .vmin | 0x07 => some .vsel | 0x08 => some .vadds | 0x09 => some .vmuls | 0x0A => some .vbcast
  | 0x0B => some .vcmplt | 0x0C => some .vcmpeq | 0x10 => some .vrmax32 | 0x11 => some .vrsum32 | 0x18 => some .vfn
  | _ => none

/-- Matrix opcodes (R176). -/
def mopOf : Nat → Option MOp
  | 0x01 => some .mma | 0x02 => some .mmacI | 0x03 => some .mmacR | 0x04 => some .mmacA | 0x08 => some .tclr
  | 0x09 => some .tget
  | _ => none

/-- Move opcodes (R177). -/
def xopOf : Nat → Option VeOp
  | 0x01 => some .vld | 0x02 => some .vst | 0x03 => some .vstmx | 0x08 => some .trd | 0x09 => some .tput
  | 0x0A => some .txmx | 0x10 => some .put | 0x11 => some .get | 0x12 => some .astream
  | _ => none

/-- How many low bits of RD, RA, RB and IMM an operation uses; every other bit of the slot must be 0 (R162). -/
def SOp.uses : SOp → Nat × Nat × Nat × Nat
  | .add | .sub | .andOp | .orOp | .xor | .cmplt | .cmpeq | .min | .max | .mul | .div | .rem
  | .fadd | .fsub | .fmul | .ffma | .fmax | .fmin => (6, 6, 6, 0)
  | .addi | .sld | .sld4 => (6, 6, 0, 14)
  | .shl | .shr | .sar => (6, 6, 0, 6)
  | .itof | .ftoi | .mov | .tagof => (6, 6, 0, 0)
  | .retag => (6, 6, 0, 4)
  | .sst | .sst4 => (0, 6, 6, 14)
  | .markp | .wait | .bz | .bnz => (0, 6, 0, 14)
  | .br | .brk => (0, 0, 0, 14)
  | .call => (6, 0, 0, 14)
  | .jmp | .repi | .seth => (0, 6, 0, 0)
  | .repx => (0, 0, 0, 12)
  | .step | .endOp | .rte | .wfi => (0, 0, 0, 0)
  | .rdt => (6, 0, 0, 3)
  | .ldi => (6, 0, 0, 0)
  | .dget => (6, 4, 0, 2)
  | .dput => (4, 0, 6, 2)
  | .dld | .dst => (4, 6, 0, 14)
  | .pget => (6, 3, 0, 0)
  | .pput => (3, 6, 0, 0)

/-- Whether the slot's unused bits are 0 and its fields hold defined values (R162). RDT's word is 0 to 4. -/
def SSlot.legal (o : SSlot) : Bool :=
  let u := o.op.uses
  decide (o.rd.toNat < 2 ^ u.1) && decide (o.ra.toNat < 2 ^ u.2.1) && decide (o.rb.toNat < 2 ^ u.2.2.1)
    && decide (o.imm.toNat < 2 ^ u.2.2.2) && (o.op != .rdt || decide (o.imm.toNat ≤ 4))

/-- Whether an operation of the vector slot uses va, B as a vector, B as a scalar, and VC. -/
def VOp.uses : VOp → Bool × Bool × Bool × Bool
  | .vadd | .vsub | .vmul | .vmax | .vmin | .vsel | .vcmplt | .vcmpeq => (true, true, false, false)
  | .vfma => (true, true, false, true)
  | .vadds | .vmuls => (true, false, true, false)
  | .vbcast => (false, false, true, false)
  | .vrmax32 | .vrsum32 => (true, false, false, false)
  | .vfn => (true, false, false, true)

def VSlot.legal (o : VSlot) : Bool :=
  let u := o.op.uses
  (u.1 || o.va == 0) && (u.2.2.1 || (if u.2.1 then decide (o.b.toNat < 32) else o.b == 0)) && (u.2.2.2 || o.vc == 0)
    && (o.op != .vfn || decide (o.vc.toNat ≤ 6))
    && ((o.op != .vsel && o.op != .vcmplt && o.op != .vcmpeq) || !o.pz)
    && ((o.op != .vcmplt && o.op != .vcmpeq) || decide (o.vd.toNat < 8))

def MSlot.legal (o : MSlot) : Bool :=
  match o.op with
  | .mma | .mmacA => o.arg == 0
  | .mmacI => true
  | .mmacR => decide (o.arg.toNat < 64)
  | .tclr => o.da == 0 && o.db == 0
  | .tget => o.db == 0 && decide (o.arg.toNat < 48)

def XSlot.legal (o : XSlot) : Bool :=
  match o.op with
  | .vld | .vst => o.sr == 0 && o.n == 0
  | .vstmx => o.sr == 0
  | .trd => o.sr == 0 && decide (o.dk.toNat % 8 ≤ 5) && decide (o.n.toNat < 8)
  | .tput => o.vr == 0 && o.sr == 0 && decide (o.n.toNat < 48)
  | .txmx => o.vr == 0 && o.sr == 0 && decide (o.n.toNat < 2)
  | .put | .get => o.vr == 0
  | .astream => o.vr == 0 && o.n == 0

/-- The scalar slot of 40 bits. -/
def decodeS (w : BitVec 40) : Slot SSlot :=
  if w = 0 then .nop
  else match sopOf (bitsOf w.toNat 7 0) with
    | none => .bad
    | some op =>
      let o : SSlot := { op, rd := w.extractLsb' 8 6, ra := w.extractLsb' 14 6, rb := w.extractLsb' 20 6, imm := w.extractLsb' 26 14 }
      if o.legal then .op o else .bad

/-- The vector slot of 32 bits. -/
def decodeV (w : BitVec 32) : Slot VSlot :=
  if w = 0 then .nop
  else match vopOf (bitsOf w.toNat 5 0) with
    | none => .bad
    | some op =>
      let o : VSlot :=
        { op, vd := w.extractLsb' 6 5, va := w.extractLsb' 11 5, b := w.extractLsb' 16 6, vc := w.extractLsb' 22 5,
          pr := w.extractLsb' 27 3, pz := w.getLsbD 30 }
      if o.legal && !w.getLsbD 31 then .op o else .bad

/-- The matrix slot of 24 bits. -/
def decodeM (w : BitVec 24) : Slot MSlot :=
  if w = 0 then .nop
  else match mopOf (bitsOf w.toNat 4 0) with
    | none => .bad
    | some op =>
      let o : MSlot := { op, da := w.extractLsb' 5 4, db := w.extractLsb' 9 4, arg := w.extractLsb' 13 11 }
      if o.legal then .op o else .bad

/-- The move slot of 28 bits. -/
def decodeX (w : BitVec 28) : Slot XSlot :=
  if w = 0 then .nop
  else match xopOf (bitsOf w.toNat 4 0) with
    | none => .bad
    | some op =>
      let o : XSlot := { op, dk := w.extractLsb' 5 4, vr := w.extractLsb' 9 5, sr := w.extractLsb' 14 6, n := w.extractLsb' 20 8 }
      if o.legal then .op o else .bad

/-- A bundle read from its 128 bits (R159, R160). -/
def decodeBundle (w : BitVec 128) : Bundle :=
  let fmt := bitsOf w.toNat 3 0
  let s := decodeS (w.extractLsb' 4 40)
  if fmt = 1 then { fmt, s, imm := w.extractLsb' 44 64, tag := w.extractLsb' 108 4, tail := w.extractLsb' 112 16 }
  else { fmt, s, v := decodeV (w.extractLsb' 44 32), m := decodeM (w.extractLsb' 76 24), x := decodeX (w.extractLsb' 100 28) }

/-- The tag of a number; 10 to 15 are reserved. -/
def tagOf : Nat → Option Tag
  | 0 => some .empty | 1 => some .int | 2 => some .float | 3 => some .pack | 4 => some .addr | 5 => some .desc
  | 6 => some .tally | 7 => some .seq | 8 => some .pred | 9 => some .pending
  | _ => none

/-- The number of a tag (R154). -/
def tagNumber : Tag → Nat
  | .empty => 0 | .int => 1 | .float => 2 | .pack => 3 | .addr => 4 | .desc => 5 | .tally => 6 | .seq => 7 | .pred => 8
  | .pending => 9

/-- R159, R160 and R197: a bundle that is illegal as a whole, whatever its operations are; a firmware core has the scalar slot alone.
`addr` holds of the values that an ADDR may have. -/
def Bundle.malformed (b : Bundle) (core : Bool) (addr : Nat → Bool) : Bool :=
  if b.fmt = 0 then (match b.s with | .op o => o.op == .ldi | _ => false) || (core && !(b.v == .nop && b.m == .nop && b.x == .nop))
  else if b.fmt = 1 then
    match b.s with
    | .op o =>
      o.op != .ldi || b.tail != 0 || !(1 ≤ b.tag.toNat && b.tag.toNat ≤ 4)
        || (b.tag == 2 && decide (2 ^ 32 ≤ b.imm.toNat)) || (b.tag == 4 && !addr b.imm.toNat)
    | _ => true
  else true

/-- A command of the opcode table as an operation of a bundle's slot; LDI carries its immediate and tag. -/
inductive SlotCmd where
  | s (o : SSlot)
  | ldi (rd : BitVec 6) (tag : BitVec 4) (value : BitVec 64)
  | v (o : VSlot)
  | m (o : MSlot)
  | x (o : XSlot)
  deriving DecidableEq, Repr

/-- Whether a bundle holds the operation in its slot. -/
def Bundle.holds (b : Bundle) : SlotCmd → Bool
  | .s o => b.s == .op o
  | .ldi rd tag value => b.s == .op { op := .ldi, rd := rd } && b.fmt == 1 && b.tag == tag && b.imm == value
  | .v o => b.v == .op o
  | .m o => b.m == .op o
  | .x o => b.x == .op o

end Sys2Proof.Machine
end

