-- ==== Sys2Proof/Machine/TallyOps.lean ====
section
/-! DEFINITION. Tally accumulation (R91 to R114): adding exact products and other tallies, special values, the single
rounding on exit, MX exit blocks and the wire form. -/

namespace Sys2Proof.Machine

/-- The anchor as an integer. -/
def Tally.a (t : Tally) : Int := t.anchor.toInt

/-- R92: a cleared tally with a given anchor. -/
def Tally.clear (a : Int) : Tally := { anchor := BitVec.ofInt 11 a }

/-- R96: an exact integer added to T; the wrapped sum is kept and OVER is set on overflow. -/
def Tally.addInt (x : Tally) (d : Int) : Tally :=
  let s := x.t.toInt + d
  { x with t := BitVec.ofInt 384 s, ovf := x.ovf || decide (s < -(2 ^ 383)) || decide (2 ^ 383 ≤ s) }

/-- R94 and R95: one exact finite product pm × 2^pe. -/
def Tally.accumulate (x : Tally) (pm : Int) (pe : Int) : Tally :=
  let w := x.a - 319
  let mag := pm.natAbs
  if mag = 0 then x
  else if (Nat.log2 mag : Int) + pe ≥ x.a + 1 then { x with ovf := true }
  else if pe ≥ w then x.addInt (pm * 2 ^ (pe - w).toNat)
  else
    let d := 2 ^ (w - pe).toNat
    let y := x.addInt (FpVal.int (decide (pm < 0)) (mag / d))
    if mag % d ≠ 0 then { y with low := true } else y

/-- R103 and R104: one product of any kind, with the exponent that the block scales add. -/
def Tally.product (x : Tally) (p : FpVal) (scale : Int) : Tally :=
  match p with
  | .nan => { x with nan := true }
  | .inf n => if n then { x with ninf := true } else { x with pinf := true }
  | .fin n m e => x.accumulate (FpVal.int n m) (e + scale)

/-- R102: T shifted right toward zero, LOW set if non-zero bits fall off. -/
def Tally.lower (x : Tally) (n : Nat) : Tally :=
  let mag := x.t.toInt.natAbs
  let d := 2 ^ n
  { x with t := BitVec.ofInt 384 (FpVal.int (decide (x.t.toInt < 0)) (mag / d)), low := x.low || decide (mag % d ≠ 0) }

/-- R101 and R102: one tally added into another. -/
def Tally.add (x y : Tally) : Tally :=
  let a := max x.a y.a
  let x1 := x.lower (a - x.a).toNat
  let y1 := y.lower (a - y.a).toNat
  let r := { x1 with
    anchor := BitVec.ofInt 11 a, ovf := x.ovf || y.ovf, low := x1.low || y1.low, nan := x.nan || y.nan,
    pinf := x.pinf || y.pinf, ninf := x.ninf || y.ninf,
    mixed := x.mixed || y.mixed || decide (x.a ≠ y.a) }
  r.addInt y1.t.toInt

/-- The rows of the exit order (R105). -/
inductive Exit where
  | nan | pinf | ninf | ovf | zero | finite
  deriving DecidableEq, Repr

/-- The first row of R105 that applies. -/
def Tally.exit (x : Tally) : Exit :=
  if x.nan || (x.pinf && x.ninf) then .nan
  else if x.pinf then .pinf
  else if x.ninf then .ninf
  else if x.ovf then .ovf
  else if x.t = 0 then .zero
  else .finite

/-- R105: a tally read out as FP32. -/
def Tally.toFp32 (x : Tally) : BitVec 32 :=
  match x.exit with
  | .nan => 0x7FC00000 | .pinf => 0x7F800000 | .ninf => 0xFF800000 | .ovf => 0x7FC00001 | .zero => 0
  | .finite => BitVec.ofNat 32 (exitRound fp32R x.t.toInt (x.a - 319))

/-- R105: a tally read out as BF16. -/
def Tally.toBf16 (x : Tally) : BitVec 16 :=
  match x.exit with
  | .nan => 0x7FC0 | .pinf => 0x7F80 | .ninf => 0xFF80 | .ovf => 0x7FC1 | .zero => 0
  | .finite => BitVec.ofNat 16 (exitRound bf16R x.t.toInt (x.a - 319))

/-- h + w of R108: floor(log2 |value|) of a tally that takes the last row. -/
def Tally.lead (x : Tally) : Int := (Nat.log2 x.t.toInt.natAbs : Int) + (x.a - 319)

/-- R108: the scale exponent of an MX exit block. -/
def mxScale (f : ElemFmt) (ts : List Tally) : Int :=
  match (ts.filter (fun t => t.exit = .finite)).map Tally.lead with
  | [] => -127
  | g :: gs =>
    let c := if f = .int8 then 0 else f.b
    max (-127) (min 127 (gs.foldl max g - c))

/-- The nearest integer to v × 2^w, ties to even. -/
def roundInt (v : Int) (w : Int) : Int :=
  let mag := v.natAbs
  let r :=
    if 0 ≤ w then mag * 2 ^ w.toNat
    else
      let d := 2 ^ (-w).toNat
      let t := mag / d
      let rem := mag % d
      if 2 * rem > d ∨ (2 * rem = d ∧ t % 2 = 1) then t + 1 else t
  FpVal.int (decide (v < 0)) r

/-- R109: one element that takes the last row, in an MX format. -/
def mxElem (f : ElemFmt) (v : Int) (w : Int) (X : Int) : Nat :=
  match f with
  | .int8 => (BitVec.ofInt 8 (max (-127) (min 127 (roundInt v (w - X + 6))))).toNat
  | _ => exitRound f.rounding v (w - X)

/-- R110: an element that takes another row, where the format has a code for it. -/
def mxSpecial (f : ElemFmt) : Exit → Nat
  | .zero => 0
  | .finite => 0
  | .pinf => if f = .e4m3 then 0x7F else if f = .e5m2 then 0x7C else 0
  | .ninf => if f = .e4m3 then 0x7F else if f = .e5m2 then 0xFC else 0
  | .nan => if f = .e4m3 ∨ f = .e5m2 then 0x7F else 0
  | .ovf => if f = .e4m3 ∨ f = .e5m2 then 0x7F else 0

/-- Elements packed from bit 0 of the first byte (R87). -/
def packElems (w : Nat) (es : List Nat) : List Byte :=
  leBytes (es.length * w / 8) (es.foldr (fun e acc => e + 2 ^ w * acc) 0)

/-- R108 to R110: 32 tallies as one MX block: the scale byte and the block's bytes. -/
def mxExit (f : ElemFmt) (ts : List Tally) : Byte × List Byte :=
  let special := ts.any (fun t => t.exit ≠ .zero && t.exit ≠ .finite)
  if special && f ≠ .e4m3 && f ≠ .e5m2 then (0xFF, packElems f.width (ts.map (fun _ => 0)))
  else
    let X := mxScale f ts
    (BitVec.ofInt 8 (X + 127),
      packElems f.width (ts.map fun t =>
        if t.exit = .finite then mxElem f t.t.toInt (t.a - 319) X else mxSpecial f t.exit))

/-- R111: the words of |T| in ascending order. -/
def tallyWords (x : Tally) : List Nat :=
  let m := x.t.toInt.natAbs
  [m % 2 ^ 64, m / 2 ^ 64 % 2 ^ 64, m / 2 ^ 128 % 2 ^ 64, m / 2 ^ 192 % 2 ^ 64, m / 2 ^ 256 % 2 ^ 64, m / 2 ^ 320 % 2 ^ 64]

/-- R111: the 4-byte header of the wire form. -/
def Tally.header (x : Tally) : Nat :=
  let map := ((tallyWords x).foldr (fun w acc => bit (w != 0) + 2 * acc) 0)
  map + 64 * bit (decide (x.t.toInt < 0)) + 128 * bit x.ovf + 256 * bit x.low + 512 * bit x.nan + 1024 * bit x.pinf
    + 2048 * bit x.ninf + 4096 * bit x.mixed + 65536 * x.anchor.toNat

/-- R111: the wire form. -/
def Tally.wire (x : Tally) : List Byte :=
  leBytes 4 x.header ++ ((tallyWords x).filter (fun w => w != 0)).flatMap (leBytes 8)

/-- The words of a wire form put back in their places by MAP. -/
def wireWords (map : Nat) : Nat → List Byte → Nat → Nat
  | 0, _, _ => 0
  | n + 1, bs, j =>
    if bitOf map j then field bs 0 8 * 2 ^ (64 * j) + wireWords map n (bs.drop 8) (j + 1)
    else wireWords map n bs (j + 1)

/-- The length of a wire form from its MAP (R111). -/
def wireLength (header : Nat) : Nat :=
  4 + 8 * ((List.range 6).filter (fun j => bitOf header j)).length

/-- R112 to R114: the tally that a receiver rebuilds from a wire form. -/
def tallyOfWire (bs : List Byte) : Tally :=
  let h := field bs 0 4
  let mag := wireWords (h % 64) 6 (bs.drop 4) 0
  let neg := bitOf h 6
  let outside := if neg then decide (mag > 2 ^ 383) else decide (mag ≥ 2 ^ 383)
  { t := BitVec.ofInt 384 (FpVal.int neg mag), anchor := BitVec.ofNat 11 (bitsOf h 26 16),
    ovf := bitOf h 7 || outside, low := bitOf h 8,
    nan := bitOf h 9 || bitsOf h 15 13 != 0 || bitsOf h 31 27 != 0,
    pinf := bitOf h 10, ninf := bitOf h 11, mixed := bitOf h 12 }

end Sys2Proof.Machine
end

