-- ==== Sys2Proof/Machine/Slots.lean ====
section
/-! DEFINITION. What one slot of a bundle does: the words it reads and checks (R155), the traps it can take (R192, R196), the
results it sends to the commit queue with their distances (R164), and its effects at issue. Everything is read as it
stood before the bundle issued (R163). -/

namespace Sys2Proof.Machine

/-- A trapping condition: trap number (R196), register or field index, and the offending value or address (R194). -/
structure TrapCond where
  num : Nat
  index : Nat := 0
  value : Nat := 0
  deriving DecidableEq, Repr

/-- How a slot directs the context after the bundle. -/
inductive Ctl where
  | none
  | branch (target : Option Nat)
  | rep (count : Nat) (isX : Bool)
  | step
  | finish
  | rte
  | brk
  | wait (addr : Nat)
  | wfi
  deriving DecidableEq, Repr

/-- The number of a register. -/
def regIndex : RegName → Nat
  | .s r => r
  | .v r => r
  | .p r => r
  | .d r => r
  | .t r => r

/-- What a slot does if the bundle takes effect. `results` are (distance, produced at issue, effect). -/
structure SlotOut where
  traps : List TrapCond := []
  results : List (Nat × Bool × Effect) := []
  writes : List RegName := []
  adv : List (Nat × Nat) := []
  tallies : Option (FMap Tally) := none
  sends : List Packet := []
  marks : List Nat := []
  units : List Nat := []
  ctl : Ctl := .none
  stream : Option StreamOp := none
  mixed : Bool := false

/-- What a slot sees beyond its context: the store behind it, who owns which tile, and the live handles. -/
structure Env where
  core : Bool := false
  limit : Nat := 0x180000
  pc : Nat := 0
  x : Nat := 0
  y : Nat := 0
  ctxNo : Nat := 0
  word : Nat → TWord
  bad : Nat → Bool
  owned : Nat → Nat → Bool := fun _ _ => false
  handle : BitVec 64 → Option (Nat × Nat × Nat) := fun _ => Option.none
  anchor : Option Int := Option.none

/-! ## Registers, words and addresses -/

def Ctx.sr (c : Ctx) (r : Nat) : TWord := fgetD {} c.s r
def Ctx.vreg (c : Ctx) (r : Nat) : List (BitVec 32) := (fget c.v r).getD (List.replicate 64 0)
def Ctx.lane (c : Ctx) (r l : Nat) : BitVec 32 := (c.vreg r).getD l 0
def Ctx.tl (c : Ctx) (t : Nat) : Tally := fgetD {} c.t t
def Ctx.desc (c : Ctx) (d : Nat) : Desc := fgetD {} c.d d
/-- p0 always reads as all ones (R173). -/
def Ctx.pr (c : Ctx) (p : Nat) : BitVec 64 := if p = 0 then BitVec.allOnes 64 else fgetD 0 c.p p
def Ctx.prBit (c : Ctx) (p l : Nat) : Bool := (c.pr p).getLsbD l

/-- R155: the trap of a word that an operation does not accept. -/
def tagCheck (w : TWord) (ok : Tag → Bool) (index value : Nat) : List TrapCond :=
  match w.tag with
  | .empty => [{ num := 1, index, value }]
  | .pending => [{ num := 2, index, value }]
  | t => if ok t then [] else [{ num := 3, index, value }]

/-- The check of a scalar register. -/
def need (c : Ctx) (r : Nat) (ok : Tag → Bool) : List TrapCond :=
  tagCheck (c.sr r) ok r (c.sr r).data.toNat

def isInt (t : Tag) : Bool := t == .int
def isFloat (t : Tag) : Bool := t == .float
def isAddr (t : Tag) : Bool := t == .addr
def anyTag (_ : Tag) : Bool := true
def isData (t : Tag) : Bool := t == .pack || t == .int || t == .float

/-- The ADDR range: the tile store (R154), or on a core its SRAM and the internal registers (R198). -/
def Env.inRange (e : Env) (a : Int) : Bool :=
  decide (0 ≤ a) && (decide (a < e.limit) || (e.core && decide (0x3F0000000000 ≤ a) && decide (a ≤ 0x3F00FFFFFFFF)))

/-- R171: an address that lies outside the range, or is no multiple of the access size. -/
def Env.addrTrap (e : Env) (a : Int) (size : Nat) (index : Nat) : List TrapCond :=
  if e.inRange a && a % size == 0 then [] else [{ num := 5, index, value := (a % 2 ^ 64).toNat }]

/-- The data of a register as an unsigned and as a signed number. -/
def Ctx.u (c : Ctx) (r : Nat) : Nat := (c.sr r).data.toNat
def Ctx.i (c : Ctx) (r : Nat) : Int := (c.sr r).data.toInt
def Ctx.f (c : Ctx) (r : Nat) : BitVec 32 := (c.sr r).data.setWidth 32

/-- R133: the trap of a program read of an erroneous unit. -/
def Env.errTrap (e : Env) (a : Nat) : List TrapCond := if e.bad a then [{ num := 6, value := a }] else []

/-- A result that goes to a scalar register. -/
def toReg (d : Nat) (rd : BitVec 6) (tag : Tag) (v : BitVec 64) : SlotOut :=
  { results := [(d, true, .sreg rd.toNat { tag, data := v })], writes := [.s rd.toNat] }

def SlotOut.addTraps (o : SlotOut) (ts : List TrapCond) : SlotOut := { o with traps := ts ++ o.traps }
def SlotOut.addUnits (o : SlotOut) (us : List Nat) : SlotOut := { o with units := us ++ o.units }

/-- A slot that only traps. -/
def trapOut (ts : List TrapCond) : SlotOut := { traps := ts }

/-! ## Scalar slot (R170, R171) -/

/-- Two INT operands to an INT result. -/
def intOp (c : Ctx) (o : SSlot) (d : Nat) (v : BitVec 64 → BitVec 64 → BitVec 64) : SlotOut :=
  (toReg d o.rd .int (v (c.sr o.ra.toNat).data (c.sr o.rb.toNat).data)).addTraps
    (need c o.ra.toNat isInt ++ need c o.rb.toNat isInt)

/-- Two FLOAT operands to a FLOAT result. -/
def floatOp (c : Ctx) (o : SSlot) (v : BitVec 32 → BitVec 32 → BitVec 32) : SlotOut :=
  (toReg 3 o.rd .float ((v (c.f o.ra.toNat) (c.f o.rb.toNat)).setWidth 64)).addTraps
    (need c o.ra.toNat isFloat ++ need c o.rb.toNat isFloat)

/-- A shift of an INT by IMM[5:0]. -/
def shiftOp (c : Ctx) (o : SSlot) (v : BitVec 64 → Nat → BitVec 64) : SlotOut :=
  (toReg 0 o.rd .int (v (c.sr o.ra.toNat).data (o.imm.toNat % 64))).addTraps (need c o.ra.toNat isInt)

/-- An ADDR result, which traps outside the ADDR range (R171). -/
def addrResult (e : Env) (rd : BitVec 6) (a : Int) : SlotOut :=
  (toReg 0 rd .addr (BitVec.ofInt 64 a)).addTraps (e.addrTrap a 1 rd.toNat)

/-- ADD: INT + INT, or ADDR + INT. -/
def evalAdd (e : Env) (c : Ctx) (o : SSlot) : SlotOut :=
  let a := c.sr o.ra.toNat
  let checks := need c o.ra.toNat (fun t => isInt t || isAddr t) ++ need c o.rb.toNat isInt
  if a.tag = .addr then (addrResult e o.rd ((c.u o.ra.toNat : Int) + c.i o.rb.toNat)).addTraps checks
  else (toReg 0 o.rd .int (a.data + (c.sr o.rb.toNat).data)).addTraps checks

/-- ADDI: as ADD with IMM. -/
def evalAddi (e : Env) (c : Ctx) (o : SSlot) : SlotOut :=
  let a := c.sr o.ra.toNat
  let checks := need c o.ra.toNat (fun t => isInt t || isAddr t)
  if a.tag = .addr then (addrResult e o.rd ((c.u o.ra.toNat : Int) + o.imm.toInt)).addTraps checks
  else (toReg 0 o.rd .int (a.data + o.imm.signExtend 64)).addTraps checks

/-- SUB: INT − INT, ADDR − INT, or ADDR − ADDR, which gives an INT. -/
def evalSub (e : Env) (c : Ctx) (o : SSlot) : SlotOut :=
  let a := c.sr o.ra.toNat
  let b := c.sr o.rb.toNat
  let checks := need c o.ra.toNat (fun t => isInt t || isAddr t)
    ++ need c o.rb.toNat (fun t => isInt t || (isAddr t && a.tag == .addr))
  if a.tag = .addr ∧ b.tag = .int then (addrResult e o.rd ((c.u o.ra.toNat : Int) - c.i o.rb.toNat)).addTraps checks
  else (toReg 0 o.rd .int (a.data - b.data)).addTraps checks

/-- CMPLT and CMPEQ on INT, INT or FLOAT, FLOAT. -/
def evalCmp (c : Ctx) (o : SSlot) (vi : BitVec 64 → BitVec 64 → Bool) (vf : BitVec 32 → BitVec 32 → Bool) : SlotOut :=
  let a := c.sr o.ra.toNat
  let b := c.sr o.rb.toNat
  let isF := a.tag == .float
  let r := if isF then vf (c.f o.ra.toNat) (c.f o.rb.toNat) else vi a.data b.data
  (toReg 0 o.rd .int (BitVec.ofNat 64 (bit r))).addTraps
    (need c o.ra.toNat (fun t => isInt t || isFloat t) ++ need c o.rb.toNat (fun t => if isF then isFloat t else isInt t))

/-- DIV and REM; a zero divisor takes DIVIDE. -/
def evalDiv (c : Ctx) (o : SSlot) (v : Int → Int → Int) : SlotOut :=
  let z := if (c.sr o.rb.toNat).tag == .int && (c.sr o.rb.toNat).data == 0 then [{ num := 9, index := o.rb.toNat }] else []
  (intOp c o 16 (fun a b => BitVec.ofInt 64 (v a.toInt b.toInt))).addTraps z

/-- RETAG (R158). -/
def evalRetag (e : Env) (c : Ctx) (o : SSlot) : SlotOut :=
  let w := c.sr o.ra.toNat
  let mismatch := [{ num := 3, index := o.ra.toNat, value := w.data.toNat }]
  let free := fun t => t == Tag.int || t == Tag.float || t == Tag.pack
  let checks := need c o.ra.toNat (fun t => free t || isAddr t)
  match tagOf (o.imm.toNat % 16) with
  | none => trapOut (checks ++ mismatch)
  | some t =>
    let r := toReg 0 o.rd t w.data
    if free t && free w.tag then
      r.addTraps (checks ++ if t == .float && decide (2 ^ 32 ≤ w.data.toNat) then mismatch else [])
    else if t = .addr ∧ w.tag = .int then r.addTraps (checks ++ e.addrTrap w.data.toNat 1 o.ra.toNat)
    else if t = .int ∧ w.tag = .addr then r.addTraps checks
    else trapOut (checks ++ mismatch)

/-- The address ra + scale × IMM of a store access. -/
def Ctx.ea (c : Ctx) (o : SSlot) (scale : Nat) : Int := (c.u o.ra.toNat : Int) + scale * o.imm.toInt

/-- The checks of a store access of the given size at ra + scale × IMM. -/
def eaChecks (e : Env) (c : Ctx) (o : SSlot) (scale size : Nat) : List TrapCond :=
  need c o.ra.toNat isAddr ++ if (c.sr o.ra.toNat).tag = .addr then e.addrTrap (c.ea o scale) size o.ra.toNat else []

/-- SLD: the word at ra + 8·IMM with its tag. -/
def evalSld (e : Env) (c : Ctx) (o : SSlot) : SlotOut :=
  let bad := eaChecks e c o 8 8
  if bad ≠ [] then trapOut bad
  else
    let a := (c.ea o 8).toNat
    let w := e.word a
    ((toReg 3 o.rd w.tag w.data).addTraps (e.errTrap a ++ tagCheck w anyTag 0 a)).addUnits [a / 32]

/-- SST: rb with its tag to ra + 8·IMM. -/
def evalSst (e : Env) (c : Ctx) (o : SSlot) : SlotOut :=
  let w := c.sr o.rb.toNat
  let bad := eaChecks e c o 8 8 ++ need c o.rb.toNat anyTag
  if bad ≠ [] then trapOut bad
  else
    let a := (c.ea o 8).toNat
    { results := [(1, true, .store [⟨a, leBytes 8 w.data.toNat, w.tag⟩])], units := [a / 32] }

/-- MARKP: the tag of the word at ra + 8·IMM becomes PENDING. -/
def evalMarkp (e : Env) (c : Ctx) (o : SSlot) : SlotOut :=
  let bad := eaChecks e c o 8 8
  if bad ≠ [] then trapOut bad
  else { results := [(1, true, .mark (c.ea o 8).toNat)], units := [(c.ea o 8).toNat / 32] }

/-- WAIT: reads the tag of its named word without the check (R155, R185). -/
def evalWait (e : Env) (c : Ctx) (o : SSlot) : SlotOut :=
  let bad := eaChecks e c o 8 8
  if bad ≠ [] then trapOut bad
  else
    let a := (c.ea o 8).toNat
    ({ ctl := .wait a, units := [a / 32] } : SlotOut).addTraps (e.errTrap a)

/-- The target PC + 16·IMM. -/
def Env.target (e : Env) (o : SSlot) : Nat := (((e.pc : Int) + 16 * o.imm.toInt) % 2 ^ 64).toNat

/-- BZ and BNZ. -/
def evalBz (e : Env) (c : Ctx) (o : SSlot) (onZero : Bool) : SlotOut :=
  let taken := ((c.sr o.ra.toNat).data == 0) == onZero
  ({ ctl := .branch (if taken then some (e.target o) else none) } : SlotOut).addTraps (need c o.ra.toNat isInt)

/-- The operations that R191's table excludes from a repeated bundle. -/
def Bundle.excluded (b : Bundle) (isX : Bool) : Bool :=
  (match b.s with
    | .op o =>
      [SOp.br, .bz, .bnz, .call, .jmp, .repi, .repx, .step, .endOp, .seth, .rte, .brk].contains o.op
        || (isX && (o.op == .wait || o.op == .markp))
    | _ => false)
  || (isX && ((match b.v with | .op o => o.op == .vfn | _ => false)
    || (match b.m with | .op o => o.op == .mmacA | _ => false)
    || (match b.x with | .op o => o.op == .put || o.op == .get || o.op == .astream | _ => false)))

/-- The bundle at an address, if both its words are tagged PACK (R161). -/
def Env.bundleAt (e : Env) (a : Nat) : Option Bundle :=
  if (e.word a).tag == .pack && (e.word (a + 8)).tag == .pack then
    some (decodeBundle ((e.word (a + 8)).data ++ (e.word a).data))
  else none

/-- R191, R194: the trap of a prefix whose repeated bundle holds an excluded operation; its offending value is that bundle's address. -/
def Env.repTrap (e : Env) (isX : Bool) : List TrapCond :=
  match e.bundleAt (e.pc + 16) with
  | some b => if b.excluded isX then [{ num := 8, value := e.pc + 16 }] else []
  | none => []

/-- REPI: the count in ra, at most 16,777,216 (R189). -/
def evalRepi (e : Env) (c : Ctx) (o : SSlot) : SlotOut :=
  let w := c.sr o.ra.toNat
  let big := if w.tag == .int && decide (16777216 < w.data.toNat) then
    [{ num := 8, index := o.ra.toNat, value := w.data.toNat }] else []
  ({ ctl := .rep w.data.toNat false } : SlotOut).addTraps (need c o.ra.toNat isInt ++ big ++ e.repTrap false)

/-- SETH: an ADDR becomes the handler, INT 0 clears it. -/
def evalSeth (c : Ctx) (o : SSlot) : SlotOut :=
  let w := c.sr o.ra.toNat
  let bad := need c o.ra.toNat (fun t => isAddr t || (isInt t && w.data == 0))
  ({ results := [(0, true, .handler (if w.tag = .addr then some w.data.toNat else none))] } : SlotOut).addTraps bad

/-- RDT: a word of the trap state (R194). -/
def evalRdt (c : Ctx) (o : SSlot) : SlotOut :=
  let t := c.trap
  match o.imm.toNat with
  | 0 => toReg 0 o.rd .int (BitVec.ofNat 64 (t.number + 256 * t.slot + 1024 * (t.index % 64)))
  | 1 => toReg 0 o.rd .addr (BitVec.ofNat 64 t.pc)
  | 2 => toReg 0 o.rd .int (BitVec.ofNat 64 (t.count + if t.isX then 2 ^ 63 else 0))
  | 3 => toReg 0 o.rd .int t.value
  | _ =>
    match t.target with
    | some a => toReg 0 o.rd .addr (BitVec.ofNat 64 a)
    | none => toReg 0 o.rd .int 0

/-- A word of a descriptor. -/
def Desc.word (d : Desc) (w : Nat) : BitVec 64 := if w = 0 then d.w0 else if w = 1 then d.w1 else if w = 2 then d.w2 else d.w3

/-- DLD: a descriptor from 32 bytes, four words tagged DESC. -/
def evalDld (e : Env) (c : Ctx) (o : SSlot) : SlotOut :=
  let bad := eaChecks e c o 32 32
  if bad ≠ [] then trapOut bad
  else
    let a := (c.ea o 32).toNat
    let w := fun k => e.word (a + 8 * k)
    ({ results := [(4, true, .desc (o.rd.toNat % 16) ⟨(w 0).data, (w 1).data, (w 2).data, (w 3).data⟩)], units := [a / 32] }
      : SlotOut).addTraps
      ((List.range 4).flatMap fun k => e.errTrap (a + 8 * k) ++ tagCheck (w k) (fun t => t == .desc) 0 (a + 8 * k))

/-- DST: a descriptor as four words tagged DESC. -/
def evalDst (e : Env) (c : Ctx) (o : SSlot) : SlotOut :=
  let bad := eaChecks e c o 32 32
  if bad ≠ [] then trapOut bad
  else
    let a := (c.ea o 32).toNat
    let d := c.desc (o.rd.toNat % 16)
    { results := [(1, true, .store [⟨a, (List.range 4).flatMap (fun k => leBytes 8 (d.word k).toNat), .desc⟩])],
      units := [a / 32] }

/-- SLD4 and SST4 of a firmware core (R197): 4 bytes at ra + 4·IMM, IMM counting accesses of the instruction's size as in SLD
and DLD (DEDUCED, notes/assumptions/12.md). -/
def evalSld4 (e : Env) (c : Ctx) (o : SSlot) : SlotOut :=
  let bad := eaChecks e c o 4 4
  if bad ≠ [] then trapOut bad
  else
    let a := (c.ea o 4).toNat
    let w := (e.word (a / 8 * 8)).data.toNat
    toReg 3 o.rd .int (BitVec.ofNat 64 (if a % 8 = 4 then w / 2 ^ 32 else w % 2 ^ 32))

def evalSst4 (e : Env) (c : Ctx) (o : SSlot) : SlotOut :=
  let w := c.sr o.rb.toNat
  let bad := eaChecks e c o 4 4 ++ need c o.rb.toNat (fun t => isInt t || t == .pack)
  if bad ≠ [] then trapOut bad
  else { results := [(1, true, .store4 (c.ea o 4).toNat (w.data.setWidth 32))] }

/-- The operations that only a firmware core has, and those that it lacks (R197). -/
def SOp.coreOnly (o : SOp) : Bool := [SOp.sld4, .sst4, .wfi].contains o
def SOp.tileOnly (o : SOp) : Bool := [SOp.step, .dget, .dput, .dld, .dst, .pget, .pput, .seth].contains o

/-- What the scalar slot does; `imm` and `tag` are those of an FMT 1 bundle. -/
def evalScalar (e : Env) (c : Ctx) (b : Bundle) (o : SSlot) : SlotOut :=
  if (if e.core then o.op.tileOnly else o.op.coreOnly) then trapOut [{ num := 0 }]
  else match o.op with
  | .add => evalAdd e c o
  | .addi => evalAddi e c o
  | .sub => evalSub e c o
  | .andOp => intOp c o 0 (· &&& ·)
  | .orOp => intOp c o 0 (· ||| ·)
  | .xor => intOp c o 0 (· ^^^ ·)
  | .shl => shiftOp c o (fun a n => a <<< n)
  | .shr => shiftOp c o (fun a n => a >>> n)
  | .sar => shiftOp c o (fun a n => a.sshiftRight n)
  | .cmplt => evalCmp c o (fun a b => a.slt b) fpLt
  | .cmpeq => evalCmp c o (fun a b => a == b) fpEq
  | .min => intOp c o 0 (fun a b => if b.slt a then b else a)
  | .max => intOp c o 0 (fun a b => if a.slt b then b else a)
  | .mul => intOp c o 2 (· * ·)
  | .div => evalDiv c o Int.tdiv
  | .rem => evalDiv c o Int.tmod
  | .fadd => floatOp c o fpAdd
  | .fsub => floatOp c o fpSub
  | .fmul => floatOp c o fpMul
  | .ffma =>
    let r := floatOp c o (fun a b => fpFma a b (c.f o.rd.toNat))
    { r with traps := r.traps ++ need c o.rd.toNat isFloat }
  | .fmax => floatOp c o fpMax
  | .fmin => floatOp c o fpMin
  | .itof => (toReg 3 o.rd .float ((fpOfInt (c.i o.ra.toNat)).setWidth 64)).addTraps (need c o.ra.toNat isInt)
  | .ftoi => (toReg 3 o.rd .int (BitVec.ofInt 64 (fpToInt (c.f o.ra.toNat)))).addTraps (need c o.ra.toNat isFloat)
  | .mov => (toReg 0 o.rd (c.sr o.ra.toNat).tag (c.sr o.ra.toNat).data).addTraps (need c o.ra.toNat anyTag)
  | .tagof => toReg 0 o.rd .int (BitVec.ofNat 64 (tagNumber (c.sr o.ra.toNat).tag))
  | .retag => evalRetag e c o
  | .sld => evalSld e c o
  | .sst => evalSst e c o
  | .markp => evalMarkp e c o
  | .wait => evalWait e c o
  | .br => { ctl := .branch (some (e.target o)) }
  | .bz => evalBz e c o true
  | .bnz => evalBz e c o false
  | .call =>
    let r := addrResult e o.rd ((e.pc : Int) + 32)
    { r with ctl := .branch (some (e.target o)) }
  | .jmp =>
    ({ ctl := .branch (some (c.u o.ra.toNat)) } : SlotOut).addTraps
      (need c o.ra.toNat isAddr ++ if (c.sr o.ra.toNat).tag = .addr then e.addrTrap (c.u o.ra.toNat) 16 o.ra.toNat else [])
  | .repi => evalRepi e c o
  | .repx => ({ ctl := .rep (o.imm.toNat % 4096 + 1) true } : SlotOut).addTraps (e.repTrap true)
  | .step => { ctl := .step }
  | .endOp => { ctl := .finish }
  | .seth => evalSeth c o
  | .rte => ({ ctl := .rte } : SlotOut).addTraps (if c.inHandler then [] else [{ num := 0 }])
  | .brk => { ctl := .brk }
  | .rdt => evalRdt c o
  | .ldi => toReg 0 o.rd ((tagOf b.tag.toNat).getD .int) b.imm
  | .dget => toReg 0 o.rd .desc ((c.desc (o.ra.toNat % 16)).word (o.imm.toNat % 4))
  | .dput =>
    ({ results := [(2, true, .descWord (o.rd.toNat % 16) (o.imm.toNat % 4) (c.sr o.rb.toNat).data)] } : SlotOut).addTraps
      (need c o.rb.toNat (fun t => isInt t || t == .desc))
  | .dld => evalDld e c o
  | .dst => evalDst e c o
  | .pget => toReg 0 o.rd .pred (c.pr (o.ra.toNat % 8))
  | .pput =>
    ({ results := [(0, true, .pred (o.rd.toNat % 8) (c.sr o.ra.toNat).data)], writes := [.p (o.rd.toNat % 8)] }
      : SlotOut).addTraps (need c o.ra.toNat (fun t => t == .pred || isInt t))
  | .sld4 => evalSld4 e c o
  | .sst4 => evalSst4 e c o
  | .wfi => { ctl := .wfi }

/-! ## Vector slot (R172 to R175) -/

/-- A vector result under the predicate: masked lanes keep their value, or become +0 under PZ (R173). -/
def vecResult (c : Ctx) (o : VSlot) (d : Nat) (produced : Bool) (f : Nat → BitVec 32) : SlotOut :=
  let ls := (List.range 64).filterMap fun l =>
    if c.prBit o.pr.toNat l then some (l, f l) else if o.pz then some (l, 0) else none
  { results := [(d, produced, .lanes o.vd.toNat ls)], writes := [.v o.vd.toNat] }

/-- A compare: the predicate of the lane results; masked lanes write 0. -/
def cmpResult (c : Ctx) (o : VSlot) (f : Nat → Bool) : SlotOut :=
  let v := (List.range 64).foldr (fun l acc => bit (c.prBit o.pr.toNat l && f l) + 2 * acc) 0
  { results := [(1, true, .pred (o.vd.toNat % 8) (BitVec.ofNat 64 v))], writes := [.p (o.vd.toNat % 8)] }

/-- One level of the pairwise tree of R174. -/
def pairSums : List (BitVec 32) → List (BitVec 32)
  | a :: b :: r => fpAdd a b :: pairSums r
  | l => l

/-- The sum of 32 lanes over five levels (R174). -/
def treeSum (l : List (BitVec 32)) : BitVec 32 :=
  ((pairSums (pairSums (pairSums (pairSums (pairSums l))))).head?).getD 0

/-- The largest of 32 lanes, as FMAX. -/
def maxOf : List (BitVec 32) → BitVec 32
  | [] => 0
  | a :: r => r.foldl fpMax a

/-- The function of an fn value (R172). -/
def fnOf (n : Nat) : Fn :=
  if n = 0 then .exp2 else if n = 1 then .log2 else if n = 2 then .recip else if n = 3 then .rsqrt
  else if n = 4 then .sin else if n = 5 then .cos else .erf

/-- What the vector slot does. -/
def evalVector (c : Ctx) (o : VSlot) : SlotOut :=
  let a := fun l => c.lane o.va.toNat l
  let b := fun l => c.lane o.b.toNat l
  let s := c.f o.b.toNat
  let half := fun l => if l < 32 then (c.vreg o.va.toNat).take 32 else (c.vreg o.va.toNat).drop 32
  match o.op with
  | .vadd => vecResult c o 3 true (fun l => fpAdd (a l) (b l))
  | .vsub => vecResult c o 3 true (fun l => fpSub (a l) (b l))
  | .vmul => vecResult c o 3 true (fun l => fpMul (a l) (b l))
  | .vfma => vecResult c o 3 true (fun l => fpFma (a l) (b l) (c.lane o.vc.toNat l))
  | .vmax => vecResult c o 3 true (fun l => fpMax (a l) (b l))
  | .vmin => vecResult c o 3 true (fun l => fpMin (a l) (b l))
  | .vsel =>
    { results := [(3, true, .lanes o.vd.toNat ((List.range 64).map fun l => (l, if c.prBit o.pr.toNat l then a l else b l)))],
      writes := [.v o.vd.toNat] }
  | .vadds => (vecResult c o 3 true (fun l => fpAdd (a l) s)).addTraps (need c o.b.toNat isFloat)
  | .vmuls => (vecResult c o 3 true (fun l => fpMul (a l) s)).addTraps (need c o.b.toNat isFloat)
  | .vbcast => (vecResult c o 3 true (fun _ => s)).addTraps (need c o.b.toNat (fun t => isFloat t || t == .pack))
  | .vcmplt => cmpResult c o (fun l => fpLt (a l) (b l))
  | .vcmpeq => cmpResult c o (fun l => fpEq (a l) (b l))
  | .vrmax32 =>
    let lo := maxOf (half 0)
    let hi := maxOf (half 32)
    vecResult c o 6 true (fun l => if l < 32 then lo else hi)
  | .vrsum32 =>
    let lo := treeSum (half 0)
    let hi := treeSum (half 32)
    vecResult c o 6 true (fun l => if l < 32 then lo else hi)
  | .vfn => vecResult c o (if o.vc.toNat ≤ 3 then 10 else 22) false (fun l => fnEval (fnOf o.vc.toNat) (a l))

/-! ## Descriptors (R181 to R183) -/

def Desc.base (d : Desc) : Nat := bitsOf d.w0.toNat 20 0
def Desc.fmt (d : Desc) : Nat := bitsOf d.w0.toNat 27 24
def Desc.scaleBase (d : Desc) : Nat := bitsOf d.w0.toNat 52 32
def Desc.stride (d : Desc) : Nat := bitsOf d.w1.toNat 15 0
def Desc.step (d : Desc) : Nat := bitsOf d.w1.toNat 31 16
def Desc.count (d : Desc) : Nat := bitsOf d.w1.toNat 47 32
def Desc.cursor (d : Desc) : Nat := bitsOf d.w1.toNat 63 48
def Desc.scaleStride (d : Desc) : Nat := bitsOf d.w2.toNat 15 0
def Desc.scaleStep (d : Desc) : Nat := bitsOf d.w2.toNat 23 16
def Desc.dstX (d : Desc) : Nat := bitsOf d.w2.toNat 37 32
def Desc.dstY (d : Desc) : Nat := bitsOf d.w2.toNat 44 38
def Desc.remote (d : Desc) : Bool := d.w2.getLsbD 45
/-- The next address of R177. -/
def Desc.next (d : Desc) : Nat := d.base + d.cursor * d.step

/-- The descriptor with its cursor set. -/
def Desc.withCursor (d : Desc) (n : Nat) : Desc :=
  { d with w1 := BitVec.ofNat 64 (d.w1.toNat % 2 ^ 48 + (n % 2 ^ 16) * 2 ^ 48) }

/-- Whether a reserved bit of R181 is set. -/
def Desc.reserved (d : Desc) : Bool :=
  bitsOf d.w0.toNat 23 21 != 0 || bitsOf d.w0.toNat 31 28 != 0 || bitsOf d.w0.toNat 63 53 != 0
    || bitsOf d.w2.toNat 31 24 != 0 || bitsOf d.w2.toNat 63 46 != 0 || d.w3 != 0

/-- The DESCRIPTOR trap of one condition of R183. -/
def dtrap (cond : Bool) (k value : Nat) : List TrapCond := if cond then [{ num := 7, index := k, value }] else []

/-- The first word of a descriptor with a reserved bit set. -/
def Desc.badWord (d : Desc) : Nat :=
  if bitsOf d.w0.toNat 23 21 != 0 || bitsOf d.w0.toNat 31 28 != 0 || bitsOf d.w0.toNat 63 53 != 0 then d.w0.toNat
  else if bitsOf d.w2.toNat 31 24 != 0 || bitsOf d.w2.toNat 63 46 != 0 then d.w2.toNat else d.w3.toNat

/-- R183's conditions on the descriptor alone, with their offending values (R194, notes/assumptions/80.md). -/
def Desc.checks (d : Desc) (k : Nat) (advances remote : Bool) : List TrapCond :=
  dtrap (decide (9 ≤ d.fmt)) k d.fmt ++ dtrap d.reserved k d.badWord ++ dtrap (advances && decide (d.count ≤ d.cursor)) k d.cursor
    ++ dtrap (d.remote != remote) k d.w2.toNat

/-- The element format of a descriptor; 8 is raw bytes. -/
def elemOf (n : Nat) : Option ElemFmt :=
  match n with
  | 0 => some .e4m3 | 1 => some .e5m2 | 2 => some .e2m3 | 3 => some .e3m2 | 4 => some .e2m1 | 5 => some .int8
  | 6 => some .bf16 | 7 => some .fp32
  | _ => none

/-- The word offsets that a byte range touches. -/
def wordsIn (a n : Nat) : List Nat := if n = 0 then [] else (List.range ((a + n - 1) / 8 - a / 8 + 1)).map (fun k => 8 * (a / 8 + k))

/-- The 32-byte units that a byte range touches. -/
def unitsIn (a n : Nat) : List Nat := if n = 0 then [] else (List.range ((a + n - 1) / 32 - a / 32 + 1)).map (fun k => a / 32 + k)

/-- A byte of the store. -/
def Env.byte (e : Env) (a : Nat) : Byte := ((e.word (a / 8 * 8)).data >>> (8 * (a % 8))).setWidth 8

/-- n bytes of the store as a little-endian number. -/
def Env.bytesNat (e : Env) (a n : Nat) : Nat := leNat ((List.range n).map fun i => e.byte (a + i))

/-- R183 and R155 for a byte range that a slot reads; nothing is read beyond the store. -/
def Env.readChecks (e : Env) (a n k : Nat) (ok : Tag → Bool) : List TrapCond :=
  if a + n ≤ 0x180000 then
    (wordsIn a n).flatMap (fun w => e.errTrap w ++ tagCheck (e.word w) ok 0 w)
  else dtrap true k a

/-- R183 for a byte range that a slot writes. -/
def rangeCheck (a n k : Nat) : List TrapCond := dtrap (decide (0x180000 < a + n)) k a

/-! ## Matrix slot (R119, R120, R176) -/

/-- Blocks per stream and step, elements per block, or none where the formats are no pair of R120. -/
def pairShape (a b : ElemFmt) : Option (Nat × Nat) :=
  if a.isMx && b.isMx then some (if a.width < 8 && b.width < 8 then 2 else 1, 32)
  else if a = .bf16 ∧ b = .bf16 then some (1, 16)
  else if a = .fp32 ∧ b = .fp32 then some (1, 2)
  else none

/-- A block of a stream: its elements, and its scale exponent; none is the NaN scale 0xFF. BF16 and FP32 have scale 0. -/
structure Block where
  elems : List FpVal
  scale : Option Int

/-- The address of a stream's block (R182). -/
def Desc.elemAddr (d : Desc) (f : ElemFmt) (n i c k : Nat) : Nat :=
  d.base + i * d.stride + c * d.step + k * (n * f.width / 8)

/-- The address of its scale byte. -/
def Desc.scaleAddr (d : Desc) (i c k : Nat) : Nat := d.scaleBase + i * d.scaleStride + c * d.scaleStep + k

/-- The block of stream i at cursor c, block k of the step. -/
def Env.block (e : Env) (d : Desc) (f : ElemFmt) (n i c k : Nat) : Block :=
  let v := e.bytesNat (d.elemAddr f n i c k) (n * f.width / 8)
  { elems := (List.range n).map fun j => decodeElem f (v / 2 ^ (f.width * j) % 2 ^ f.width),
    scale :=
      if f.isMx then
        let s := (e.byte (d.scaleAddr i c k)).toNat
        if s = 255 then none else some ((s : Int) - 127)
      else some 0 }

/-- The checks of one operand of a matrix step: alignment, range, poison and tags of its elements and scale bytes. A misaligned stream is
not read (notes/assumptions/29.md). -/
def Env.operandChecks (e : Env) (d : Desc) (f : ElemFmt) (n blocks streams k : Nat) : List TrapCond :=
  (List.range streams).flatMap fun i => (List.range blocks).flatMap fun b =>
    let a := d.elemAddr f n i d.cursor b
    (if a % 8 ≠ 0 then dtrap true k a else e.readChecks a (n * f.width / 8) k isData)
      ++ if f.isMx then e.readChecks (d.scaleAddr i d.cursor b) 1 k isData else []

/-- The units that one operand of a step touches. -/
def operandUnits (d : Desc) (f : ElemFmt) (n blocks streams : Nat) : List Nat :=
  (List.range streams).flatMap fun i => (List.range blocks).flatMap fun b =>
    unitsIn (d.elemAddr f n i d.cursor b) (n * f.width / 8)
      ++ if f.isMx then unitsIn (d.scaleAddr i d.cursor b) 1 else []

/-- One block pair accumulated into a lane's tally (R93, R103). -/
def blockPair (t : Tally) (a b : Block) : Tally :=
  match a.scale, b.scale with
  | some sa, some sb => (a.elems.zip b.elems).foldl (fun t p => t.product (mulVal p.1 p.2) (sa + sb)) t
  | _, _ => { t with nan := true }

/-- A matrix step: every lane's tally after it (R119). -/
def Env.step (e : Env) (c : Ctx) (da db : Desc) (fa fb : ElemFmt) (blocks n : Nat) (clear : Option Int) : FMap Tally :=
  let as := (List.range 6).map fun i => (List.range blocks).map fun b => e.block da fa n i da.cursor b
  let bs := (List.range 8).map fun j => (List.range blocks).map fun b => e.block db fb n j db.cursor b
  let lanes : List (Nat × Tally) := as.zipIdx.flatMap fun (a, i) => bs.zipIdx.map fun (b, j) =>
    let k := 8 * i + j
    let t := match clear with | some x => Tally.clear x | none => c.tl k
    (k, (a.zip b).foldl (fun t (p : Block × Block) => blockPair t p.1 p.2) t)
  lanes.foldl (fun m p => fset m p.1 p.2) c.t

/-- The largest of some exponents. -/
def maxExp (l : List (Option Int)) : Option Int :=
  l.foldl (fun acc x => match acc, x with | none, y => y | some a, some b => some (max a b) | some a, none => some a) none

/-- floor(log2 |x|) of a finite non-zero element. -/
def FpVal.exp : FpVal → Option Int
  | .fin _ m e => if m = 0 then none else some ((Nat.log2 m : Int) + e)
  | _ => none

/-- The block exponents of R98 of one stream, one for each block or group along the reduction. -/
def Env.blockExps (e : Env) (d : Desc) (f : ElemFmt) (n blocks i : Nat) : List (Option Int) :=
  let steps := (List.range (d.count - d.cursor)).map (d.cursor + ·)
  if f.isMx then
    steps.flatMap fun c => (List.range blocks).map fun k =>
      let s := (e.byte (d.scaleAddr i c k)).toNat
      if s = 255 then none else some ((s : Int) - 127 + f.b)
  else
    let es := steps.flatMap fun c => (e.block d f n i c 0).elems
    (List.range ((es.length + 31) / 32)).map fun g => maxExp (((es.drop (32 * g)).take 32).map FpVal.exp)

/-- R98: the local anchor of the pre-pass, or none if no pair of blocks qualifies. -/
def Env.prepass (e : Env) (da db : Desc) (fa fb : ElemFmt) (n blocks : Nat) : Option Int :=
  let as := (List.range 6).map fun i => e.blockExps da fa n blocks i
  let bs := (List.range 8).map fun j => e.blockExps db fb n blocks j
  let at' := fun (l : List (List (Option Int))) (k : Nat) => maxExp (l.map fun x => (x.getD k none))
  let len := (as.headD []).length
  maxExp ((List.range len).map fun k =>
    match at' as k, at' bs k with
    | some x, some y => some (x + y + 1)
    | _, _ => none)

/-- The checks of the words that the pre-pass reads (R98, R176): scale bytes, or the elements of BF16 and FP32. -/
def Env.prepassChecks (e : Env) (d : Desc) (f : ElemFmt) (n blocks streams k : Nat) : List TrapCond :=
  (List.range streams).flatMap fun i => ((List.range (d.count - d.cursor)).map (d.cursor + ·)).flatMap fun c =>
    if f.isMx then (List.range blocks).flatMap fun b => e.readChecks (d.scaleAddr i c b) 1 k isData
    else
      let a := d.elemAddr f n i c 0
      if a % 8 ≠ 0 then dtrap true k a else e.readChecks a (n * f.width / 8) k isData

/-- The cursors that a matrix step advances: both descriptors', once if they are one (R176). -/
def stepAdv (c : Ctx) (o : MSlot) : List (Nat × Nat) :=
  let adv := fun (k : BitVec 4) => (k.toNat, (c.desc k.toNat).cursor + 1)
  if o.da = o.db then [adv o.da] else [adv o.da, adv o.db]

/-- A matrix step with its checks; `clear` gives the anchor that clears the tallies first. Unequal remaining counts of MMAC.A's descriptors take
DESCRIPTOR (R176), and only the step's own operand units count towards the 32 accesses, not what its pre-pass reads (R183; DESIGN CHOICE,
notes/assumptions/107.md). -/
def evalStep (e : Env) (c : Ctx) (o : MSlot) (auto : Bool) (clear : Option Int) : SlotOut :=
  let da := c.desc o.da.toNat
  let db := c.desc o.db.toNat
  let base := da.checks o.da.toNat true false ++ db.checks o.db.toNat true false
  match elemOf da.fmt, elemOf db.fmt with
  | some fa, some fb =>
    match pairShape fa fb with
    | some (blocks, n) =>
      let pre := if auto then
          dtrap (da.count - da.cursor != db.count - db.cursor) o.db.toNat (db.count - db.cursor)
            ++ e.prepassChecks da fa n blocks 6 o.da.toNat ++ e.prepassChecks db fb n blocks 8 o.db.toNat
        else []
      let anchor := if auto then some ((match e.anchor with
          | some a => some a
          | none => e.prepass da db fa fb n blocks).getD 0) else clear
      { traps := base ++ pre ++ e.operandChecks da fa n blocks 6 o.da.toNat ++ e.operandChecks db fb n blocks 8 o.db.toNat,
        adv := stepAdv c o,
        tallies := some (e.step c da db fa fb blocks n anchor),
        units := operandUnits da fa n blocks 6 ++ operandUnits db fb n blocks 8 }
    | none => { traps := base ++ dtrap true o.da.toNat da.fmt, adv := stepAdv c o }
  | _, _ => { traps := base ++ dtrap true o.da.toNat da.fmt, adv := stepAdv c o }

/-- All 48 tallies cleared. -/
def clearAll (c : Ctx) (a : Int) : FMap Tally := (List.range 48).foldl (fun m k => fset m k (Tally.clear a)) c.t

/-- The anchor in a scalar register (R97). -/
def anchorTrap (c : Ctx) (r : Nat) : List TrapCond :=
  let w := c.sr r
  if w.tag == .int && decide (-1024 ≤ w.data.toInt) && decide (w.data.toInt ≤ 1023) then []
  else [{ num := 4, index := r, value := w.data.toNat }]

/-- TGET: the stored wire form added into a tally (R114); its length is read from a first word tagged TALLY
(notes/assumptions/29.md). -/
def evalTget (e : Env) (c : Ctx) (o : MSlot) : SlotOut :=
  let d := c.desc o.da.toNat
  let k := o.da.toNat
  let a := d.next
  let t := o.arg.toNat % 64
  let bad := d.checks k true false ++ dtrap (a % 8 != 0) k a ++ rangeCheck a 8 k
  if a % 8 ≠ 0 ∨ 0x180000 < a + 8 then { traps := bad, adv := [(k, d.cursor + 1)] }
  else
    let n := if (e.word a).tag = .tally then wireLength (e.bytesNat a 4) else 8
    let bs := (List.range n).map fun i => e.byte (a + i)
    { traps := bad ++ e.readChecks a n k (fun x => x == .tally),
      adv := [(k, d.cursor + 1)],
      tallies := some (fset c.t t ((c.tl t).add (tallyOfWire bs))),
      units := unitsIn a n }

/-- What the matrix slot does. -/
def evalMatrix (e : Env) (c : Ctx) (o : MSlot) : SlotOut :=
  match o.op with
  | .mma => evalStep e c o false none
  | .mmacI => evalStep e c o false (some o.arg.toInt)
  | .mmacR =>
    let r := o.arg.toNat % 64
    (evalStep e c o false (some (c.i r))).addTraps (anchorTrap c r)
  | .mmacA => evalStep e c o true none
  | .tclr => { tallies := some (clearAll c o.arg.toInt) }
  | .tget => evalTget e c o

/-! ## Move slot (R177 to R184, R244, R245) -/

/-- VLD: 256 bytes into a vector register. -/
def evalVld (e : Env) (c : Ctx) (o : XSlot) : SlotOut :=
  let k := o.dk.toNat
  let d := c.desc k
  let a := d.next
  { traps := d.checks k true false ++ if a % 32 ≠ 0 then dtrap true k a else e.readChecks a 256 k isData,
    results := [(4, true, .lanes o.vr.toNat ((List.range 64).map fun l => (l, BitVec.ofNat 32 (e.bytesNat (a + 4 * l) 4))))],
    writes := [.v o.vr.toNat],
    adv := [(k, d.cursor + 1)],
    units := unitsIn a 256 }

/-- VST: a vector register to 256 bytes, tagged PACK. -/
def evalVst (c : Ctx) (o : XSlot) : SlotOut :=
  let k := o.dk.toNat
  let d := c.desc k
  let a := d.next
  { traps := d.checks k true false ++ dtrap (a % 32 != 0) k a ++ rangeCheck a 256 k,
    results := [(1, true, .store [⟨a, (c.vreg o.vr.toNat).flatMap (fun w => leBytes 4 w.toNat), .pack⟩])],
    adv := [(k, d.cursor + 1)],
    units := unitsIn a 256 }

/-- R178: an FP32 lane in the place of a tally's value, as a tally that exits alike: T × 2^(A − 319). -/
structure MxItem where
  kind : Exit
  v : Int
  w : Int

/-- A lane as an item of an MX block. -/
def itemOf (x : BitVec 32) : MxItem :=
  match fp x with
  | .nan => ⟨.nan, 0, 0⟩
  | .inf n => ⟨if n then .ninf else .pinf, 0, 0⟩
  | .fin n m e => if m = 0 then ⟨.zero, 0, 0⟩ else ⟨.finite, FpVal.int n m, e⟩

/-- R108 to R110 over items. -/
def mxItems (f : ElemFmt) (xs : List MxItem) : Byte × List Byte :=
  let special := xs.any (fun t => t.kind ≠ .zero && t.kind ≠ .finite)
  if special && f ≠ .e4m3 && f ≠ .e5m2 then (0xFF, packElems f.width (xs.map (fun _ => 0)))
  else
    let leads := (xs.filter (fun t => t.kind = .finite)).map (fun t => some ((Nat.log2 t.v.natAbs : Int) + t.w))
    let X := match maxExp leads with
      | none => -127
      | some g => max (-127) (min 127 (g - if f = .int8 then 0 else f.b))
    (BitVec.ofInt 8 (X + 127),
      packElems f.width (xs.map fun t => if t.kind = .finite then mxElem f t.v t.w X else mxSpecial f t.kind))

/-- The store of a block and of its scale byte. -/
def blockStore (a s : Nat) (x : Byte × List Byte) : List StoreWrite := [⟨a, x.2, .pack⟩, ⟨s, [x.1], .pack⟩]

/-- VSTMX: each half of a vector register as one MX block (R178). -/
def evalVstmx (c : Ctx) (o : XSlot) : SlotOut :=
  let k := o.dk.toNat
  let d := c.desc k
  let base := d.checks k false false
  match elemOf d.fmt with
  | some f =>
    if f.isMx then
      let nb := 4 * f.width
      let v := c.vreg o.vr.toNat
      let addr := fun h => d.base + (2 * o.n.toNat + h) * d.stride + d.cursor * d.step
      let saddr := fun h => d.scaleBase + (2 * o.n.toNat + h) * d.scaleStride + d.cursor * d.scaleStep
      { traps := base ++ rangeCheck (addr 0) nb k ++ rangeCheck (saddr 0) 1 k ++ rangeCheck (addr 1) nb k ++ rangeCheck (saddr 1) 1 k,
        results := [(3, true, .store (blockStore (addr 0) (saddr 0) (mxItems f ((v.take 32).map itemOf))
          ++ blockStore (addr 1) (saddr 1) (mxItems f ((v.drop 32).map itemOf))))],
        units := unitsIn (addr 0) nb ++ unitsIn (saddr 0) 1 ++ unitsIn (addr 1) nb ++ unitsIn (saddr 1) 1 }
    else trapOut (base ++ dtrap true k d.fmt)
  | none => trapOut (base ++ dtrap true k d.fmt)

/-- TRD: eight tallies read out into lanes (R105). -/
def evalTrd (c : Ctx) (o : XSlot) : SlotOut :=
  let g := o.dk.toNat % 8
  let lb := o.n.toNat % 8
  let ts := (List.range 8).map fun k => c.tl (8 * g + k)
  { results := [(5, true, .lanes o.vr.toNat (ts.zipIdx.map fun (t, k) =>
      (8 * lb + k, if 8 ≤ o.dk.toNat then t.toBf16.setWidth 32 else t.toFp32)))],
    writes := [.v o.vr.toNat],
    mixed := ts.any (·.mixed) }

/-- TPUT: a tally's wire form as seven TALLY words. -/
def evalTput (c : Ctx) (o : XSlot) : SlotOut :=
  let k := o.dk.toNat
  let d := c.desc k
  let a := d.next
  let t := c.tl o.n.toNat
  let w := t.wire
  { traps := d.checks k true false ++ dtrap (a % 8 != 0) k a ++ rangeCheck a 56 k,
    results := [(3, true, .store [⟨a, w ++ zeros (56 - w.length), .tally⟩])],
    adv := [(k, d.cursor + 1)],
    units := unitsIn a 56,
    mixed := t.mixed }

/-- TXMX: 32 tallies out as one MX block. -/
def evalTxmx (c : Ctx) (o : XSlot) : SlotOut :=
  let k := o.dk.toNat
  let d := c.desc k
  let base := d.checks k true false
  let ts := (List.range 32).map fun i => c.tl (16 * (o.n.toNat % 2) + i)
  match elemOf d.fmt with
  | some f =>
    if f.isMx then
      let a := d.next
      let s := d.scaleBase + d.cursor * d.scaleStep
      { traps := base ++ rangeCheck a (4 * f.width) k ++ rangeCheck s 1 k,
        results := [(3, true, .store (blockStore a s (mxExit f ts)))],
        adv := [(k, d.cursor + 1)],
        units := unitsIn a (4 * f.width) ++ unitsIn s 1,
        mixed := ts.any (·.mixed) }
    else { traps := base ++ dtrap true k d.fmt, adv := [(k, d.cursor + 1)] }
  | none => { traps := base ++ dtrap true k d.fmt, adv := [(k, d.cursor + 1)] }

/-- The checks that PUT and GET share: the local ADDR, the next address, the bytes touched on both sides, and ownership of the destination
(R179, R183, R184). -/
def Env.remoteChecks (e : Env) (c : Ctx) (o : XSlot) : List TrapCond :=
  let k := o.dk.toNat
  let d := c.desc k
  let n := 32 * (o.n.toNat + 1)
  let r := o.sr.toNat
  need c r isAddr
    ++ (if (c.sr r).tag = .addr ∧ c.u r % 32 ≠ 0 then [{ num := 5, index := r, value := c.u r }] else [])
    ++ dtrap ((c.sr r).tag == .addr && decide (0x180000 < c.u r + n)) k (c.u r) ++ d.checks k true true ++ dtrap (d.next % 32 != 0) k d.next ++ rangeCheck d.next n k
    ++ (if e.owned d.dstX d.dstY then [] else [{ num := 10, index := k, value := d.dstX + 256 * d.dstY }])

/-- A list cut into chunks of at most 63 units of 4 words (R208). -/
def chunks63 : Nat → List TWord → List (List TWord)
  | 0, _ => []
  | n + 1, l => if l.length ≤ 252 then [l] else l.take 252 :: chunks63 n (l.drop 252)

/-- A source word as it travels: a PENDING word arrives as EMPTY, whose data is 0 (R154, R156). -/
def asSent (w : TWord) : TWord := if w.tag = .pending then {} else w

/-- The packets of a PUT (R208): ascending addresses, one class for all, PENDING words sent as EMPTY (R156, R206). -/
def putPackets (e : Env) (dstX dstY addr : Nat) (ws : List TWord) : List Packet :=
  let cls := match ws.head? with | some w => if w.tag = .tally then 1 else 2 | none => 2
  (chunks63 (ws.length / 252 + 1) ws).zipIdx.map fun (p, i) =>
    { dstX, dstY, srcX := e.x, srcY := e.y, kind := 0, cls, units := p.length / 4, ctx := e.ctxNo,
      addr := addr + 2016 * i,
      payload := p.map asSent }

/-- PUT: units from the local store to a remote tile. -/
def evalPut (e : Env) (c : Ctx) (o : XSlot) : SlotOut :=
  let k := o.dk.toNat
  let d := c.desc k
  let bad := e.remoteChecks c o
  let a := c.u o.sr.toNat
  let n := 4 * (o.n.toNat + 1)
  let reads := (c.sr o.sr.toNat).tag == .addr && a % 32 == 0 && decide (a + 8 * n ≤ 0x180000)
  let errs := if reads then (List.range n).flatMap fun i => e.errTrap (a + 8 * i) else []
  if bad ≠ [] then { traps := bad ++ errs, adv := [(k, d.cursor + 1)] }
  else
    { traps := errs,
      adv := [(k, d.cursor + 1)],
      sends := putPackets e d.dstX d.dstY d.next ((List.range n).map fun i => e.word (a + 8 * i)) }

/-- The requests of a GET (R208): one for each 63 units. -/
def getPackets (e : Env) (dstX dstY addr back units : Nat) : List Packet :=
  (List.range ((units + 62) / 63)).map fun i =>
    { dstX, dstY, srcX := e.x, srcY := e.y, kind := 1, cls := 2, units := min 63 (units - 63 * i), ctx := e.ctxNo, more := decide (63 * i + 63 < units),
      addr := addr + 2016 * i, retAddr := back + 2016 * i }

/-- GET: the local words become PENDING at issue, and the request leaves. -/
def evalGet (e : Env) (c : Ctx) (o : XSlot) : SlotOut :=
  let k := o.dk.toNat
  let d := c.desc k
  let bad := e.remoteChecks c o
  let a := c.u o.sr.toNat
  let n := o.n.toNat + 1
  if bad ≠ [] then { traps := bad, adv := [(k, d.cursor + 1)] }
  else
    { adv := [(k, d.cursor + 1)],
      marks := (List.range (4 * n)).map fun i => a + 8 * i,
      sends := getPackets e d.dstX d.dstY d.next a n }

/-- ASTREAM (R244, R245): the handle and the staging descriptor; `handle` gives ledger number, generation and width W. -/
def evalAstream (e : Env) (c : Ctx) (o : XSlot) : SlotOut :=
  let k := o.dk.toNat
  let d := c.desc k
  let r := o.sr.toNat
  let w := c.sr r
  let app := d.scaleStep == 1
  let seqTrap := [{ num := 11, index := r, value := w.data.toNat }]
  let tagBad := match w.tag with
    | .empty => [{ num := 1, index := r, value := w.data.toNat }]
    | .pending => [{ num := 2, index := r, value := w.data.toNat }]
    | .seq => []
    | _ => seqTrap
  let shape := dtrap (decide (2 ≤ d.fmt)) k d.fmt ++ dtrap (decide (2 ≤ d.scaleStep) || d.dstX != 0 || d.dstY != 0) k d.w2.toNat
    ++ dtrap (!app && (d.base % 32 != 0 || decide (d.base < 32) || d.stride % 32 != 0)) k d.base
  let base := tagBad ++ d.checks k (!app) false ++ shape
  match (if w.tag = .seq then e.handle w.data else none) with
  | none => { traps := base ++ if w.tag = .seq then seqTrap else [], adv := if app then [] else [(k, d.cursor + 1)] }
  | some (ledger, generation, width) =>
    let n := if app then width else 32 * width
    let m := if app then width / 32 else width
    { traps := base ++ rangeCheck d.base n k ++ rangeCheck (d.base + d.stride) n k ++ rangeCheck d.scaleBase m k
        ++ rangeCheck (d.scaleBase + d.scaleStride) m k,
      adv := if app then [] else [(k, d.cursor + 1)],
      stream := some
        { ctx := e.ctxNo, ledger, generation, append := app, block := d.cursor, pair := d.step, fmt := d.fmt, width,
          base := d.base, scaleBase := d.scaleBase, stride := d.stride, scaleStride := d.scaleStride } }

/-- What the move slot does. -/
def evalMove (e : Env) (c : Ctx) (o : XSlot) : SlotOut :=
  match o.op with
  | .vld => evalVld e c o
  | .vst => evalVst c o
  | .vstmx => evalVstmx c o
  | .trd => evalTrd c o
  | .tput => evalTput c o
  | .txmx => evalTxmx c o
  | .put => evalPut e c o
  | .get => evalGet e c o
  | .astream => evalAstream e c o

end Sys2Proof.Machine
end

