-- ==== Sys2Proof/Machine/TileStore.lean ====
section
/-! DEFINITION. The tile store and the commit queue: arriving writes (R156), program-side commits (R164 to R166), poison and
corrected errors (R129, R133), the draw requests that a MARKP makes (R283), and the retirement triggers they raise. -/

namespace Sys2Proof.Machine

/-- A word of the tile store, by its byte offset. -/
def Tile.word (t : Tile) (a : Nat) : TWord := fgetD {} t.words (a / 8)

/-- Whether a word holds an error that a read cannot correct: its unit is poisoned, or the error is still unfound. -/
def Tile.bad (t : Tile) (a : Nat) : Bool := t.poison.contains (a / 32) || t.latent.contains (a / 8)

/-- A word written with a fresh code. -/
def Tile.putWord (t : Tile) (a : Nat) (w : TWord) : Tile :=
  { t with words := fset t.words (a / 8) w, latent := t.latent.filter (· != a / 8), soft := t.soft.filter (· != a / 8) }

/-- R133: a write that covers whole 32-byte units clears their poison. -/
def Tile.cover (t : Tile) (a n : Nat) : Tile :=
  { t with poison := t.poison.filter (fun u => !(decide (a ≤ 32 * u) && decide (32 * u + 32 ≤ a + n))) }

/-- Words written from an offset on. -/
def Tile.putWords (t : Tile) (a : Nat) : List TWord → Tile
  | [] => t
  | w :: r => (t.putWord a w).putWords (a + 8) r

/-- Bytes of a word replaced: byte i of the word at offset `a` is taken from the write where it covers it. -/
def mergeWord (old : BitVec 64) (a : Nat) (w : StoreWrite) : BitVec 64 :=
  BitVec.ofNat 64 (leNat ((List.range 8).map fun i =>
    if w.addr ≤ a + i ∧ a + i < w.addr + w.bytes.length then w.bytes.getD (a + i - w.addr) 0
    else BitVec.ofNat 8 (old.toNat / 256 ^ i)))

/-- A program-side write: every touched word keeps the bytes it does not cover and takes the tag (R178). -/
def Tile.storeBytes (t : Tile) (w : StoreWrite) : Tile :=
  let t := (wordsIn w.addr w.bytes.length).foldl
    (fun t a => t.putWord a { tag := w.tag, data := mergeWord (t.word a).data a w }) t
  t.cover w.addr w.bytes.length

/-- The words that a write narrower than a word must read to merge. -/
def StoreWrite.partials (w : StoreWrite) : List Nat :=
  (wordsIn w.addr w.bytes.length).filter fun a => !(decide (w.addr ≤ a) && decide (a + 8 ≤ w.addr + w.bytes.length))

/-! ## Equal-cycle promises (R280) and halts -/

/-- A step of a timed live job meets an event of R280's table: it is counted once. -/
def State.breakJob (s : State) (j : Nat) : State :=
  match fget s.jobs j with
  | some x =>
    if x.live && x.timed && !x.broken then
      (s.modJob j fun x => { x with broken := true, everBroken := true }).modLedgers fun l =>
        { l with brokenSteps := satInc l.brokenSteps }
    else s
  | none => s

/-- An event that breaks every job's step. -/
def State.breakAll (s : State) : State := s.jobs.foldl (fun s e => s.breakJob e.1) s

/-- An event that breaks the steps of a guest's jobs. -/
def State.breakGuest (s : State) (g : Nat) : State := s.jobs.foldl (fun s e => if e.2.guest = g then s.breakJob e.1 else s) s

/-- Whether a coordinate is a tile of a job: its rectangle, and the reserve rows lent to it. -/
def Job.has (j : Job) (x y : Nat) : Bool :=
  (decide (j.x0 ≤ x) && decide (x ≤ j.x1) && decide (j.y0 ≤ y) && decide (y ≤ j.y1))
    || (decide (64 ≤ y) && decide (y < 64 + j.lentRows) && decide (x < 64))

/-- The live jobs of which a tile is one, whether or not their contexts in it still run. -/
def State.tileJobs (s : State) (p : Nat) : List Nat :=
  match s.mesh.serves p with
  | some c => (s.jobs.filter fun e => e.2.live && e.2.has c.1 c.2).map (·.1)
  | none => []

/-- An event that breaks the steps of the jobs of a tile. -/
def State.breakTile (s : State) (p : Nat) : State := (s.tileJobs p).foldl State.breakJob s

/-- A halt of a tile is requested (R136); it breaks the steps of the jobs it halts. -/
def State.halt (s : State) (p : Nat) (h : Halter) : State :=
  let s := s.modTile p fun t => if t.halts.contains h then t else { t with halts := t.halts ++ [h] }
  s.breakTile p

/-- A halt request is withdrawn; the tile resumes once none stands (R139). -/
def State.unhalt (s : State) (p : Nat) (h : Halter) : State :=
  s.modTile p fun t =>
    let hs := t.halts.filter (· != h)
    { t with
      halts := hs, atRest := t.atRest && (hs != [] || s.mesh.halts != []), streamed := t.streamed && (hs != [] || s.mesh.halts != []),
      drawn := t.drawn && (hs != [] || s.mesh.halts != []) }

/-- A halt of every tile is requested (R48, R548). -/
def State.haltAll (s : State) (h : Halter) : State :=
  if s.mesh.halts.contains h then s else (s.modMesh fun m => { m with halts := m.halts ++ [h] }).breakAll

/-- Such a halt is withdrawn. -/
def State.unhaltAll (s : State) (h : Halter) : State :=
  let hs := s.mesh.halts.filter (· != h)
  let s := s.modMesh fun m => { m with halts := hs }
  { s with tiles := fmap s.tiles fun _ t =>
      { t with
        atRest := t.atRest && (t.halts != [] || hs != []), streamed := t.streamed && (t.halts != [] || hs != []),
        drawn := t.drawn && (t.halts != [] || hs != []) } }

/-! ## Errors and retirement triggers -/

/-- R142, R144: a retirement trigger joins the queue of the tile's Innkeeper, unless the tile is retired already or, where the trigger is
not the manager's, whose request must be answered (notes/assumptions/76.md), one of its retirements waits or runs. While that Innkeeper is
down or swapping, the tile halts meanwhile (R149). -/
def State.queueRetirement (s : State) (r : Retirement) : State :=
  let c := s.cluster (clusterOf r.tile)
  let running := match c.moving with | some m => m.what.tile == r.tile | none => false
  if s.mesh.isRetired r.tile || (r.cause != 0 && (running || c.queue.any (·.tile == r.tile))) then s
  else
    let s := s.modCluster (clusterOf r.tile) fun c => { c with queue := c.queue ++ [r] }
    if (s.core (innkeeper (clusterOf r.tile))).run = .running then s else s.halt r.tile (.retirement (clusterOf r.tile))

/-- R133: a read finds an uncorrectable error: the unit is marked poisoned and counted, and the tile is to retire. -/
def State.findBad (s : State) (p a : Nat) : State :=
  if (s.tile p).poison.contains (a / 32) then s
  else
    let s := s.modTile p fun t =>
      { t with poison := addTo t.poison (a / 32), latent := t.latent.filter (fun w => w / 4 != a / 32) }
    let s := s.modCluster (clusterOf p) fun c => { c with poisoned := satInc c.poisoned }
    s.queueRetirement { tile := p, cause := 1 }

/-- AON cycles of 24 hours at 25 MHz. -/
def dayCycles : Nat := 86400 * 25000000

/-- R133, R142: a read corrects a single-bit error: it is counted, and 16 in one bank within 24 hours retire the tile. The stored
word stays as it is, so that each further read of it counts again (DESIGN CHOICE, notes/assumptions/107.md). -/
def State.correct (s : State) (p a : Nat) : State :=
  let bank := a / 32 % 32
  let now := s.firm.aon
  let times := (fgetD [] (s.tile p).softCount bank).filter (fun t => now < t + dayCycles) ++ [now]
  let s := s.modTile p fun t => { t with softCount := fset t.softCount bank times }
  let s := s.modCluster (clusterOf p) fun c => { c with corrected := satInc c.corrected }
  if 16 ≤ times.length then s.queueRetirement { tile := p, cause := 2 } else s

/-- A read of words by a requester that is not a program (PUT and GET source reads, DMA, the Porter, an image move): it finds
their errors. -/
def State.readFinds (s : State) (p : Nat) (as : List Nat) : State :=
  as.foldl (fun s a =>
    let t := s.tile p
    if t.latent.contains (a / 8) then s.findBad p a
    else if t.soft.contains (a / 8) then s.correct p a
    else s) s

/-- The read of a tile's image, register files among it, which a move or a save makes: it finds their errors. -/
def State.imageFinds (s : State) (p : Nat) : State :=
  let s := s.readFinds p (((s.tile p).latent ++ (s.tile p).soft).map (8 * ·))
  if (s.tile p).regErrs.isEmpty then s else (s.modTile p fun t => { t with regErrs := [] }).queueRetirement { tile := p, cause := 1 }

/-- R185: an arriving write to a word ends the waits on it. -/
def Tile.release (t : Tile) (a : Nat) : Tile :=
  { t with ctxs := fmap t.ctxs fun _ c => if c.waiting = some a then { c with waiting := none } else c }

/-- R156: words arrive from outside the program side; their tags replace what the words held, PENDING included. -/
def Tile.arrive (t : Tile) (a : Nat) (ws : List TWord) : Tile :=
  let t := (t.putWords a ws).cover a (8 * ws.length)
  (List.range ws.length).foldl (fun t i => t.release (a + 8 * i)) t

/-- Words arrive at a tile. -/
def State.arrive (s : State) (p a : Nat) (ws : List TWord) : State := s.modTile p fun t => t.arrive a ws

/-- Bytes arrive as PACK words (R156); a narrower write keeps the other bytes of its words. -/
def State.arriveBytes (s : State) (p a : Nat) (bytes : List Byte) (tag : Tag := .pack) : State :=
  let w : StoreWrite := ⟨a, bytes, tag⟩
  let s := s.readFinds p w.partials
  s.modTile p fun t => (wordsIn a bytes.length).foldl (fun t i => t.release i) (t.storeBytes w)

/-- n bytes of a tile store. -/
def Tile.bytes (t : Tile) (a n : Nat) : List Byte :=
  (List.range n).map fun i => BitVec.ofNat 8 ((t.word ((a + i) / 8 * 8)).data.toNat / 256 ^ ((a + i) % 8))

/-! ## The commit queue -/

/-- R283: the MARKP at an offset is on word 7 of the draw area of a context of a job of the tile, whether or not that context still runs;
that context, its job and the area. Where two jobs' draw areas meet there, the area of the job that was launched first is taken
(notes/assumptions/100.md). -/
def State.drawArea (s : State) (p a : Nat) : Option (Nat × Nat × Nat) :=
  (s.tileJobs p).findSome? fun k =>
    (fget s.jobs k).bind fun j =>
      (List.range 8).findSome? fun n =>
        if j.ctxMask.getLsbD n && a == j.drawOffset + 1024 * n + 56 then some (n, k, j.drawOffset + 1024 * n) else none

/-- R283, R286: a draw request is captured, or discarded and counted beyond the eighth of its context. -/
def State.drawRequest (s : State) (p a : Nat) : State :=
  match s.drawArea p a with
  | none => s
  | some (n, job, base) =>
    let t := s.tile p
    if (t.draws.filter (·.ctx = n)).length < 8 then
      s.modTile p fun t =>
        { t with draws := t.draws ++ [{ ctx := n, job, w0 := t.word base, w1 := t.word (base + 8), w2 := t.word (base + 16) }] }
    else s.modLedgers fun l => { l with drawFaults := satInc l.drawFaults }

/-- A KIND 1 address of a word of a logical tile's store (R447). -/
def tileKey (x y a : Nat) : Nat := 2 ^ 63 + a + x * 2 ^ 32 + y * 2 ^ 38

/-- R232, R451: a program-side commit to the watched word fires the held request at the head of a send ring. -/
def State.watchFires (s : State) (p a : Nat) : State :=
  match s.mesh.serves p with
  | none => s
  | some (x, y) =>
    s.modNet fun n => { n with conns := fmap n.conns fun _ c =>
      match c.sends with
      | w :: r => if w.hold && w.trigger == 2 && w.watch == tileKey x y a then { c with sends := { w with fired := true } :: r } else c
      | [] => c }

/-- Lanes of a vector register written; the others keep their value. -/
def putLanes (old : List (BitVec 32)) (vals : List (Nat × BitVec 32)) : List (BitVec 32) :=
  old.zipIdx.map fun (x, l) => match vals.find? (·.1 = l) with | some v => v.2 | none => x

/-- An effect on the registers of a context alone. -/
def Ctx.apply (c : Ctx) : Effect → Ctx
  | .sreg r w => { c with s := fset c.s r w }
  | .lanes v vals => { c with v := fset c.v v (putLanes (c.vreg v) vals) }
  | .pred p bits => if p = 0 then c else { c with p := fset c.p p bits }
  | .desc d value => { c with d := fset c.d d value }
  | .descWord d w value =>
    let x := c.desc d
    { c with d := fset c.d d (if w = 0 then { x with w0 := value } else if w = 1 then { x with w1 := value }
        else if w = 2 then { x with w2 := value } else { x with w3 := value }) }
  | .handler h => { c with handler := h }
  | .cursor d n => { c with d := fset c.d d ((c.desc d).withCursor n) }
  | .store _ => c
  | .store4 _ _ => c
  | .mark _ => c
  | .pend _ => c

/-- The registers that an effect writes whole. -/
def Effect.regs : Effect → List RegName
  | .sreg r _ => [.s r]
  | .lanes v vals => if vals.length = 64 then [.v v] else []
  | .pred p _ => [.p p]
  | .desc d _ => [.d d]
  | _ => []

/-- A register written whole takes a fresh code. -/
def Tile.freshRegs (t : Tile) (n : Nat) (rs : List RegName) : Tile :=
  { t with regErrs := t.regErrs.filter fun e => !(e.1 == n && rs.contains e.2) }

/-- The tag of a word becomes PENDING: its data is read to be merged, and the word is written back with a fresh code (R133). -/
def Tile.mark (t : Tile) (a : Nat) : Tile := t.putWord (8 * (a / 8)) { t.word a with tag := .pending }

/-- An effect on the tile store. -/
def State.applyStore (s : State) (p : Nat) : Effect → State
  | .store ws => ws.foldl (fun s w =>
      let s := s.readFinds p w.partials
      let s := s.modTile p (·.storeBytes w)
      (wordsIn w.addr w.bytes.length).foldl (fun s a => s.watchFires p a) s) s
  | .mark a => ((s.readFinds p [a]).modTile p (·.mark a)).drawRequest p a |>.watchFires p a
  | .pend a => (s.readFinds p [a]).modTile p (·.mark a)
  | _ => s

/-- One effect of a context of a tile. -/
def State.applyEffect (s : State) (p n : Nat) (e : Effect) : State :=
  ((s.modTile p (·.freshRegs n e.regs)).modCtx p n (·.apply e)).applyStore p e

/-- Whether an effect is one on the tile store. -/
def Effect.onStore : Effect → Bool
  | .store _ | .mark _ | .pend _ => true
  | _ => false

/-- Whether an entry of the queue stays ahead of one that joins it: it falls due no later. A write of the tile store does not wait for a register's result
of the same position that is not produced yet, which it cannot affect (R127, R165). -/
def Commit.ahead (c q : Commit) : Bool := decide (q.due < c.due) || (q.due == c.due && (q.produced || !c.eff.onStore))

/-- An entry joins the queue behind those that stay ahead of it. -/
def insertCommit (q : List Commit) (c : Commit) : List Commit := q.takeWhile c.ahead ++ c :: q.dropWhile c.ahead

/-- Results that have fallen due and been produced are committed in order; an unproduced one holds the rest (R127). -/
def State.commitDue : Nat → State → Nat → Nat → State
  | 0, s, _, _ => s
  | f + 1, s, p, n =>
    let c := s.ctx p n
    match c.queue with
    | [] => s
    | q :: r =>
      if q.due < c.pos && q.produced then
        ((s.modCtx p n fun c => { c with queue := r }).applyEffect p n q.eff).commitDue f p n
      else s

/-- Everything in the queue is committed in order (END, R170). -/
def State.commitAll (s : State) (p n : Nat) : State :=
  let q := (s.ctx p n).queue
  q.foldl (fun s e => s.applyEffect p n e.eff) (s.modCtx p n fun c => { c with queue := [] })

/-- R125, R226: whether a context is ready, its tile's halts apart. -/
def Ctx.canIssue (c : Ctx) : Bool :=
  c.assigned && c.ready && !c.stopped && !c.ending && !c.atStep && c.waiting == none && (!c.exch.started || c.exch.combined.isSome)
    && !c.queue.any (fun q => decide (q.due < c.pos) && !q.produced)

/-- Whether a context is inside a REPX (R136). -/
def Ctx.inRepx (c : Ctx) : Bool := match c.rep with | some r => r.isX | none => false

/-- Whether the bundle at an offset is an END. -/
def Tile.atEnd (t : Tile) (pc : Nat) : Bool :=
  match (decodeBundle ((t.word (pc + 8)).data ++ (t.word pc).data)).s with | .op o => o.op == .endOp | _ => false

/-- R125, R127 and R136: ready, and not halted or still inside a REPX. An END, which commits every queued result, waits until they are
produced. -/
def Tile.isReady (t : Tile) (halted : Bool) (n : Nat) : Bool :=
  let c := t.ctx n
  c.canIssue && (!halted || c.inRepx) && !(c.queue.any (fun q => !q.produced) && t.atEnd c.pc)

/-- Whether a halt request stands on a tile (R139). -/
def State.halted (s : State) (p : Nat) : Bool := (s.tile p).halts != [] || s.mesh.halts != []

/-- R124: the context whose bundle the issue stage of a tile takes next; none while TCLK stands still (R548). -/
def State.chosen (s : State) (p : Nat) : Option Nat :=
  if s.power.tclkStopped then none
  else (((List.range 8).map (fun i => ((s.tile p).last + 1 + i) % 8)).find? ((s.tile p).isReady (s.halted p)))

end Sys2Proof.Machine
end

