-- ==== Sys2Proof/Machine/Memory.lean ====
section
/-! DEFINITION. Stack memory, cellar memory and burst-queue SRAM (chapter 09): where an address lies, what a read of it
returns, the merge buffer, and who may reach it (R384 to R387). Contents are held by module physical address. -/

namespace Sys2Proof.Machine

/-- R298: the stack, the pseudo-channel and the local granule of a stack-memory address. -/
def stackOf (a : Nat) : Nat := a / 4096 % 16
def pcOf (a : Nat) : Nat := a / 4096 / 16 % 64
def granuleOf (a : Nat) : Nat := a / 4096 / 1024
/-- The module-wide number of a pseudo-channel. -/
def pcIndex (a : Nat) : Nat := 64 * stackOf a + pcOf a

/-- R299: the base of the fixed-table area, and R316: the base of give-up area k. -/
def fixedArea : Nat := 0xBFFE000000
def giveUpBase (k : Nat) : Nat := fixedArea - k * 0x30000000

/-- The retirements of pseudo-channels that have completed. -/
def Mem.retiredPcs (m : Mem) : List PcRetirement := m.retirements.filter (·.done)

/-- The ranges of stack memory that are holes to every ordinary requester: the fixed tables, the give-up areas of completed
retirements, and the ranges given to CELLAR_RELEASE (R299, R316, R328). -/
def Mem.stackHoleRanges (m : Mem) : List (Nat × Nat) :=
  (fixedArea, 0x2000000) :: (giveUpBase m.retiredPcs.length, 0x30000000 * m.retiredPcs.length) :: m.stackHoles

/-! ## Redirection (R317) -/

/-- The base of the slots, from which slot indexes count granules. -/
def slotBase : Nat := 0xBCFE000000

/-- Whether an address lies outside the give-up areas of k retirements. -/
def outsideAreas (k a : Nat) : Bool := decide (a < giveUpBase k) || decide (fixedArea ≤ a)

/-- The address of a local granule of a pseudo-channel (R298). -/
def granuleAddr (pc loc : Nat) : Nat := ((loc * 64 + pc % 64) * 16 + pc / 64) * 4096

/-- The line of stack memory at which an address's line is served: that of its granule's slot where its own pseudo-channel is retired. -/
def Mem.locate (m : Mem) (line : Nat) : Nat :=
  match (if outsideAreas m.retiredPcs.length (64 * line) then m.retiredPcs.find? fun r => r.pc == pcIndex (64 * line) else none) with
  | some r => match fget r.slots (line / 64) with | some k => (slotBase / 4096 + k) * 64 + line % 64 | none => line
  | none => line

/-- The line that is served at a line of stack memory: that of the granule which holds its slot, its own, or none. -/
def Mem.servedAt (m : Mem) (line : Nat) : Option Nat :=
  if outsideAreas m.retiredPcs.length (64 * line) then
    if m.retiredPcs.any fun r => r.pc == pcIndex (64 * line) then none else some line
  else
    m.retiredPcs.findSome? fun r =>
      (r.slots.find? fun e => outsideAreas m.retiredPcs.length (4096 * e.1) && (slotBase / 4096 + e.2) * 64 == line / 64 * 64).map fun e => e.1 * 64 + line % 64

/-- The stack, the module-wide pseudo-channel and the row that serve a line. -/
def Mem.stackAt (m : Mem) (line : Nat) : Nat := stackOf (64 * m.locate line)
def Mem.pcAt (m : Mem) (line : Nat) : Nat := pcIndex (64 * m.locate line)
def Mem.rowAt (m : Mem) (line : Nat) : Nat := Config.rowOf (m.locate line)

/-- A byte of the redirection tables in the fixed-table area (R299, R317): entry i of table k, VALID in bit 31 and the slot index below it. -/
def Mem.tableByte (m : Mem) (off : Nat) : Byte :=
  match m.retirements[off / 0xC0000]? with
  | some r =>
    match fget r.slots (granuleAddr r.pc (off % 0xC0000 / 4) / 4096) with
    | some k => BitVec.ofNat 8 ((2 ^ 31 + k) / 256 ^ (off % 4))
    | none => 0
  | none => 0

/-- Entry i of redirection table k as a write to the fixed-table area leaves it. -/
def Mem.tableEntry (m : Mem) (k i v : Nat) : Mem :=
  { m with retirements := m.retirements.zipIdx.map fun (r, j) =>
      if j = k then
        let g := granuleAddr r.pc i / 4096
        { r with slots := if 2 ^ 31 ≤ v then fset r.slots g (v % 2 ^ 22) else fdel r.slots g }
      else r }

/-- Entries i and i+1 of table k as a word leaves them; where there is no such table, word a of the rest of the area. -/
def Mem.fixedPut (m : Mem) (k i a : Nat) (w : BitVec 64) : Mem :=
  if k < m.retirements.length then (m.tableEntry k i (w.toNat % 2 ^ 32)).tableEntry k (i + 1) (w.toNat / 2 ^ 32)
  else { m with fixed := fset m.fixed a w }

/-- A word written to the fixed-table area: two entries of a redirection table, or a word of the rest (R299). -/
def Mem.fixedWrite (m : Mem) (a : Nat) (w : BitVec 64) : Mem :=
  m.fixedPut ((a - fixedArea) / 0xC0000) ((a - fixedArea) % 0xC0000 / 4) a w

/-- A word written to the fixed-table area by a requester. -/
def State.putFixed (s : State) (a : Nat) (w : BitVec 64) : State := { s with mem := s.mem.fixedWrite a w }

/-- Words written to the fixed-table area from an address on. -/
def State.fixedWords (s : State) (a : Nat) (ws : List (BitVec 64)) : State :=
  ws.zipIdx.foldl (fun s x => s.putFixed (a + 8 * x.2) x.1) s

/-- The key of a cellar region in the region map (R324). -/
def regionKey (port off : Nat) : Nat := port * 1024 + off / 0x40000000

/-- The region of a cellar address, if it has a backing or is lost; none is a hole. -/
def Mem.region? (m : Mem) (port off : Nat) : Option Region :=
  match fget m.regions (regionKey port off) with
  | some r => if r.hole || (r.device.isNone && r.stackBase.isNone && !r.lost) then none else some r
  | none => none

/-- Whether a range of addresses holds any hole of the map (R29, R388). -/
def Mem.rangeHole (m : Mem) (a n : Nat) : Bool :=
  match mapAddr a, mapAddr (a + n - 1) with
  | .stack _, .stack _ => m.stackHoleRanges.any fun h => overlaps a n h.1 h.2
  | .cellar p o, .cellar q o' =>
    p != q || (List.range (o' / 0x40000000 - o / 0x40000000 + 1)).any fun k => (m.region? p (o + k * 0x40000000)).isNone
  | .burst _, .burst _ => false
  | _, _ => true

/-! ## Where an address is served (R324, R326, R328, R329) -/

/-- Where the device that backs a region holds it: the window addresses of the device's own port. -/
def Region.place (r : Region) : Nat :=
  match r.stackBase with
  | some t => t
  | none => cellarBase + r.device.getD 0 * 2 ^ 40 + r.devRegion * 2 ^ 30

/-- What an access to an address meets: the place that serves it, a lost region, one that is not filled, by its key, or a hole. -/
inductive Reach where
  | served (place : Nat)
  | lost
  | unfilled (key : Nat)
  | hole
  deriving DecidableEq, Repr

/-- Where a read of an address goes. A region that a range of stack memory backs is served there. -/
def Mem.reach (m : Mem) (a : Nat) : Reach :=
  match mapAddr a with
  | .stack _ => if m.stackHoleRanges.any fun h => decide (h.1 ≤ a) && decide (a < h.1 + h.2) then .hole else .served a
  | .cellar p o =>
    match m.region? p o with
    | none => .hole
    | some r =>
      if r.lost then .lost else if r.filled then .served (r.place + o % 2 ^ 30) else .unfilled (regionKey p o)
  | .burst _ => .served a
  | _ => .hole

/-- The region of an address. -/
def Mem.regionOf (m : Mem) (a : Nat) : Option Region := match mapAddr a with | .cellar p o => m.region? p o | _ => none

/-- Where a write goes: to a never-written region of a departing device, to a hole (R328). -/
def Mem.writeReach (m : Mem) (a : Nat) : Reach :=
  match m.regionOf a with
  | some r =>
    if (match r.device with | some d => (fgetD ({} : Cellar) m.cellars d).releasing && !r.written | none => false) then .hole else m.reach a
  | none => m.reach a

/-- The place of an evacuation's target, by its module address. -/
def Mem.targetPlace (m : Mem) (t : Nat) : Nat :=
  match mapAddr t with
  | .cellar p o => match fget m.regions (regionKey p o) with | some r => r.place | none => t
  | _ => t

/-- R329: where a write below the copy pointer of an evacuation goes too. -/
def Mem.mirror (m : Mem) (a : Nat) : Option Nat :=
  match mapAddr a, m.regionOf a with
  | .cellar p o, some r =>
    match r.device with
    | some d =>
      let c : Cellar := fgetD {} m.cellars d
      match c.targets[c.switched]? with
      | some (k, t) => if c.releasing ∧ k = regionKey p o ∧ o % 2 ^ 30 < c.copied * 65536 then some (m.targetPlace t + o % 2 ^ 30) else none
      | none => none
    | none => none
  | _, _ => none

/-- The region of an address has taken a write. -/
def Mem.noteWritten (m : Mem) (a : Nat) : Mem :=
  match mapAddr a with
  | .cellar p o =>
    match fget m.regions (regionKey p o) with
    | some r => { m with regions := fset m.regions (regionKey p o) { r with written := true } }
    | none => m
  | _ => m

/-- A write that a region holds until it is filled (R326). -/
def Mem.hold (m : Mem) (key a : Nat) (d : WriteData) : Mem :=
  match fget m.regions key with
  | some r => { m with regions := fset m.regions key { r with held := r.held ++ [(a, d)] } }
  | none => m

/-! ## Guest memory (R384 to R386) -/

/-- The ranges of a guest's memory. -/
def Guest.ranges (g : Guest) : List (Nat × Nat) :=
  g.open.map (fun k => (burstShare k, 0x40000)) ++ (g.grants.filter (·.revoking.isNone)).map fun x => (x.base, x.length)

/-- Whether ranges cover n bytes from an address on. -/
def covered : Nat → List (Nat × Nat) → Nat → Nat → Bool
  | 0, _, _, n => n == 0
  | f + 1, rs, a, n =>
    if n = 0 then true
    else match rs.find? fun r => decide (r.1 ≤ a) && decide (a < r.1 + r.2) with
      | some r => covered f rs (r.1 + r.2) (n - (r.1 + r.2 - a))
      | none => false

/-- R386: a range lies in a guest's memory. -/
def State.guestMem (s : State) (g a n : Nat) : Bool :=
  let rs := (s.guest g).ranges
  covered (rs.length + 1) rs a n

/-! ## Status of a word -/

/-- What a read of a word meets (R302, R29). -/
inductive MemStatus where
  | ok | unwritten | uncorrectable | poisoned | hole
  deriving DecidableEq, Repr

/-- The merge entry of a line. -/
def State.mergeOf (s : State) (line : Nat) : Option MergeEntry :=
  (s.stack (s.mem.stackAt line)).merge.find? (·.line = line)

/-- The status of the 8-byte word that a place holds (R302, R308, R327, R334). -/
def State.placeStatus (s : State) (a : Nat) : MemStatus :=
  match mapAddr a with
  | .stack _ =>
    let line := a / 64
    let e := s.mergeOf line
    if s.mem.twoSymbol.contains line then (if e.isSome then .poisoned else .uncorrectable)
    else if s.mem.poison.contains line then .poisoned
    else if (fgetD 0 s.mem.written line).getLsbD (a / 8 % 8) then .ok
    else if (match e with | some x => x.bytes.any (fun b => b.1 / 8 == a / 8 % 8) | none => false) then .ok
    else .unwritten
  | .cellar _ _ => if s.mem.cellarBad.contains (a / 64) then .uncorrectable else if s.mem.poison.contains (a / 64) then .poisoned else .ok
  | .burst _ => if s.mem.sramBad.contains (a / 8) then .uncorrectable else .ok
  | _ => .hole

/-- The status of the 8-byte word at an address (R302, R326, R332). -/
def State.wordStatus (s : State) (a : Nat) : MemStatus :=
  match s.mem.reach a with
  | .served x => s.placeStatus x
  | .lost => .uncorrectable
  | .unfilled _ => .unwritten
  | .hole => .hole

/-- A byte that a place holds, as a read returns it: the line's merge entry is applied (R308). -/
def State.placeByte (s : State) (a : Nat) : Byte :=
  match (if a < stackTop then s.mergeOf (a / 64) else none) with
  | some e => match e.bytes.find? (·.1 = a % 64) with | some b => b.2 | none => cellGet s.mem.cells a
  | none => cellGet s.mem.cells a

/-- A byte at an address. -/
def State.memByte (s : State) (a : Nat) : Byte := match s.mem.reach a with | .served x => s.placeByte x | _ => 0

/-- The bytes of a range; words that a read does not return read as 0. -/
def State.memBytes (s : State) (a n : Nat) : List Byte :=
  (List.range n).map fun i => if s.wordStatus (a + i) = .ok then s.memByte (a + i) else 0

/-- The first status of R302 that a word of a range has; ok if all do. -/
def State.rangeStatus (s : State) (a n : Nat) : MemStatus :=
  let st := (wordsIn a n).map s.wordStatus
  if st.contains .hole then .hole else if st.contains .uncorrectable then .uncorrectable
  else if st.contains .poisoned then .poisoned else if st.contains .unwritten then .unwritten else .ok

/-- Whether an access of n bytes meets a corrected or uncorrectable error (R280). -/
def State.meetsError (s : State) (a n : Nat) : Bool :=
  let st := s.rangeStatus a n
  st == .uncorrectable || st == .poisoned
    || ((List.range (n / 64 + 2)).map (a / 64 + ·)).any fun l => match s.mem.reach (64 * l) with | .served x => s.mem.oneSymbol.contains (x / 64) | _ => false

/-! ## What reads leave behind -/

/-- MEM_EVENT. -/
def State.memEvent (s : State) (kind unit pc count address : Nat) : State :=
  s.raise 0x0580 (leBytes 1 kind ++ leBytes 1 unit ++ leBytes 1 pc ++ [0] ++ leBytes 4 count ++ leBytes 8 address)

/-- R315, R321: a pseudo-channel becomes failing, or is fenced as the seventeenth. -/
def State.markFailing (s : State) (pc : Nat) : State :=
  if s.mem.failing.contains pc || s.mem.retirements.any (·.pc = pc) then s
  else if 16 ≤ s.mem.retirements.length + s.mem.failing.length then
    (((s.modMem fun m => { m with fenced := true, failing := addTo m.failing pc }).degrade).writeRecord fun r => { r with failing := addTo r.failing pc }).memEvent 8 (pc / 64) (pc % 64) 0 0
  else
    ((s.modMem fun m => { m with failing := addTo m.failing pc }).writeRecord fun r => { r with failing := addTo r.failing pc }).memEvent 0 (pc / 64) (pc % 64) 0
      (giveUpBase (s.mem.retiredPcs.length + 1))

/-- R303, R315: a line reads CORRECTED. -/
def State.noteCorrected (s : State) (line : Nat) : State :=
  let pc := s.mem.pcAt line
  let k := pc / 64
  let row := s.mem.rowAt line
  let now := s.firm.aon
  let s := s.modStack k fun c =>
    { c with
      corrected := satInc c.corrected,
      repairQueue := if c.repairQueue.length < 64 then addTo c.repairQueue line else c.repairQueue,
      rowErrs := (c.rowErrs.filter fun e => now < e.2.2 + dayCycles && !(e.1 == pc % 64 && e.2.1 == row)) ++ [(pc % 64, row, now)] }
  if 256 ≤ ((s.stack k).rowErrs.filter (·.1 = pc % 64)).length then s.markFailing pc else s

/-- Whether a job under reproducible-timing mode runs (R279, R314). -/
def State.timedRuns (s : State) : Bool := s.jobs.any fun e => e.2.live && e.2.timed

/-- Two lines are served in one row of one pseudo-channel. -/
def Mem.sameRow (m : Mem) (a b : Nat) : Bool := m.pcAt a == m.pcAt b && m.rowAt a == m.rowAt b

/-- R312, R313: the row of a line is repaired into a spare row, with POISON 1 in its lines that read UNCORRECTABLE, and the repair
is logged; without a spare the pseudo-channel becomes failing. -/
def State.repairRow (s : State) (line : Nat) : State :=
  let pc := s.mem.pcAt line
  let k := pc / 64
  let row := s.mem.rowAt line
  let same := s.mem.sameRow line
  let bank := Config.bankOf row
  let key := pc % 64 + 64 * bank
  let spares := fgetD (Config.spareRows bank) (s.stack k).spares key
  if spares = 0 then s.markFailing pc
  else
    let bad := s.mem.twoSymbol.filter same
    let s := s.modMem fun m => { (m.fresh same) with poison := bad.foldl addTo m.poison }
    let s := s.modStack k fun c =>
      { c with
        spares := fset c.spares key (spares - 1), repairs := satInc c.repairs, correctedRows := fdel c.correctedRows (pc % 64 + 64 * row),
        repairQueue := c.repairQueue.filter fun l => !same l, owed := c.owed.filter fun l => !same l }
    let s := s.writeRecord fun r => { r with repairs := r.repairs ++ [(pc, row)] }
    s.memEvent 2 k (pc % 64) (spares - 1) 0

/-- R327: a failed read of cellar memory is counted at the port of its device. -/
def State.cellarError (s : State) (a : Nat) : State :=
  match s.mem.regionOf a with
  | some r => s.modMem fun m => { m with cellars := fupd {} m.cellars r.port fun c => { c with errors := satInc c.errors } }
  | none => s

/-- What a read of a line that stack memory serves counts (R302 to R304), `whole` where no word that is read is unwritten: the first row of R302
that applies. The row of an uncorrectable line is repaired at once (R312, R314). -/
def State.noteStack (s : State) (line : Nat) (whole : Bool) : State :=
  let count := fun (s : State) => s.modStack (s.mem.stackAt line) fun c => { c with uncorrectable := satInc c.uncorrectable }
  if s.mem.twoSymbol.contains line then (count s).repairRow line
  else if s.mem.poison.contains line then count s
  else if s.mem.oneSymbol.contains line && whole then s.noteCorrected line
  else s

/-- What a read of the words of one line that lie in a range counts (R302 to R304, R327). -/
def State.noteLine (s : State) (a n line : Nat) : State :=
  match s.mem.reach (64 * line) with
  | .served x =>
    match mapAddr x with
    | .stack _ => s.noteStack (x / 64) ((wordsIn (64 * line) 64).all fun w => decide (w + 8 ≤ a) || decide (a + n ≤ w) || s.wordStatus w == .ok)
    | .cellar _ _ => if s.mem.poison.contains (x / 64) || s.mem.cellarBad.contains (x / 64) then s.cellarError (64 * line) else s
    | _ => s
  | .lost => s.cellarError (64 * line)
  | _ => s

/-- A read of a range by an engine: its bytes, its status, and the state with what the read counts. -/
def State.memRead (s : State) (a n : Nat) : List Byte × MemStatus × State :=
  let lines := (List.range (if n = 0 then 0 else (a + n - 1) / 64 - a / 64 + 1)).map (a / 64 + ·)
  (s.memBytes a n, s.rangeStatus a n, lines.foldl (fun s l => s.noteLine a n l) s)

/-! ## Writes -/

/-- A whole line stored directly: WRITTEN 0xFF, POISON 0, fresh check symbols, and a merge entry of the line replaced (R305). -/
def State.storeLine (s : State) (line : Nat) (bytes : List Byte) : State :=
  let s := s.modMem fun m =>
    { m with
      cells := cellsWrite m.cells (64 * line) bytes, written := fset m.written line 0xFF,
      poison := m.poison.filter (· != line), wrong := fdel m.wrong line }
  s.modStack (s.mem.stackAt line) fun c => { c with merge := c.merge.filter (·.line != line) }

/-- R307: a partial entry is written back. -/
def State.writeBack (s : State) (e : MergeEntry) : State :=
  let line := e.line
  let k := s.mem.stackAt line
  let s := s.modStack k fun c => { c with merge := c.merge.filter (·.line != line) }
  if s.mem.twoSymbol.contains line || s.mem.poison.contains line then
    let s := if s.mem.twoSymbol.contains line then s.repairRow line else s
    let s := s.modMem fun m => { m with poison := addTo m.poison line, wrong := fdel m.wrong line }
    let s := s.modStack k fun c => { c with uncorrectable := satInc c.uncorrectable }
    s.memEvent 7 k (s.mem.pcAt line % 64) 0 (64 * line)
  else
    let s := if s.mem.oneSymbol.contains line && fgetD 0 s.mem.written line == 0xFF then s.noteCorrected line else s
    let mask := (List.range 8).foldl (fun m w => if e.bytes.any (fun b => b.1 / 8 == w) then m + 2 ^ w else m) 0
    s.modMem fun m =>
      { m with
        cells := e.bytes.foldl (fun c b => cellSet c (64 * line + b.1) b.2) m.cells,
        written := fset m.written line (fgetD 0 m.written line ||| BitVec.ofNat 8 mask),
        wrong := fdel m.wrong line }

/-- Bytes of an entry with later ones merged over them. -/
def MergeEntry.merge (e : MergeEntry) (off : Nat) (bytes : List Byte) : MergeEntry :=
  { e with bytes := (e.bytes.filter fun b => !(decide (off ≤ b.1) && decide (b.1 < off + bytes.length)))
      ++ bytes.zipIdx.map fun (b, i) => (off + i, b) }

/-- R306: a write narrower than its line enters the merge buffer. -/
def State.mergeWrite (s : State) (line off : Nat) (bytes : List Byte) : State :=
  let k := s.mem.stackAt line
  match s.mergeOf line with
  | some e =>
    let e := e.merge off bytes
    if e.bytes.length = 64 then
      s.storeLine line ((List.range 64).map fun i => match e.bytes.find? (·.1 = i) with | some b => b.2 | none => 0)
    else s.modStack k fun c => { c with merge := c.merge.map fun x => if x.line = line then e else x }
  | none =>
    let s := match (s.stack k).merge with
      | old :: _ => if 32 ≤ (s.stack k).merge.length then s.writeBack old else s
      | [] => s
    s.modStack k fun c => { c with merge := c.merge ++ [({ line } : MergeEntry).merge off bytes] }

/-- Bytes of one line are stored at a place. -/
def State.storeAt (s : State) (a : Nat) (bytes : List Byte) : State :=
  match mapAddr a with
  | .stack _ => if bytes.length = 64 ∧ a % 64 = 0 then s.storeLine (a / 64) bytes else s.mergeWrite (a / 64) (a % 64) bytes
  | .cellar _ _ =>
    s.modMem fun m =>
      { m with
        cells := cellsWrite m.cells a bytes,
        poison := if bytes.length = 64 then m.poison.filter (· != a / 64) else m.poison,
        cellarBad := if bytes.length = 64 then m.cellarBad.filter (· != a / 64) else m.cellarBad }
  | .burst _ =>
    s.modMem fun m =>
      { m with
        cells := cellsWrite m.cells a bytes,
        sramBad := m.sramBad.filter fun w => !(decide (a ≤ 8 * w) && decide (8 * w + 8 ≤ a + bytes.length)) }
  | _ => s

/-- A change made at the place that serves an address, and, below the copy pointer of an evacuation, at its new backing too (R329). -/
def State.bothPlaces (s : State) (a x : Nat) (f : Nat → State → State) : State :=
  let s := match s.mem.mirror a with | some y => f y (f x s) | none => f x s
  s.modMem (·.noteWritten a)

/-- A write that stays within one 64-byte line. -/
def State.writePiece (s : State) (a : Nat) (bytes : List Byte) : State :=
  match s.mem.writeReach a with
  | .served x => s.bothPlaces a x fun x s => s.storeAt x bytes
  | .unfilled k => s.modMem (·.hold k a (.bytes bytes))
  | _ => s

/-- A write of any length, line by line; to a hole it changes nothing (R29). -/
def State.writeFuel : Nat → State → Nat → List Byte → State
  | 0, s, _, _ => s
  | f + 1, s, a, bytes =>
    if bytes = [] then s
    else
      let n := 64 - a % 64
      (s.writePiece a (bytes.take n)).writeFuel f (a + n) (bytes.drop n)

def State.rawWrite (s : State) (a : Nat) (bytes : List Byte) : State := s.writeFuel (bytes.length / 64 + 2) a bytes

/-! ## Ranges written as a whole (R258, R320, R329, R383, R389) -/

/-- Whether a line lies in a range. -/
def lineIn (a n l : Nat) : Bool := decide (a ≤ 64 * l) && decide (64 * l < a + n)

/-- A range cut at the boundaries of regions. -/
def cutRegions : Nat → Nat → Nat → List (Nat × Nat)
  | 0, _, _ => []
  | f + 1, a, n =>
    if n = 0 then []
    else
      let k := min n (2 ^ 30 - a % 2 ^ 30)
      (a, k) :: cutRegions f (a + k) (n - k)
def regionCuts (a n : Nat) : List (Nat × Nat) := cutRegions (n / 2 ^ 30 + 2) a n

/-- What of a range lies outside another. -/
def outsideOf (h r : Nat × Nat) : List (Nat × Nat) :=
  let lo := min (r.1 + r.2) (max r.1 h.1) - r.1
  let hi := max r.1 (min (r.1 + r.2) (h.1 + h.2))
  if h.1 + h.2 ≤ r.1 ∨ r.1 + r.2 ≤ h.1 then [r]
  else (if lo = 0 then [] else [(r.1, lo)]) ++ if hi < r.1 + r.2 then [(hi, r.1 + r.2 - hi)] else []

/-- The pieces of a range that each meet one thing: cut at the boundaries of regions, without the holes of stack memory. -/
def Mem.pieces (m : Mem) (a n : Nat) : List (Nat × Nat) :=
  m.stackHoleRanges.foldl (fun ps h => ps.flatMap (outsideOf h)) (regionCuts a n)

/-- The table of WRITTEN with whole lines of a range at a value. -/
def writtenRange (w : FMap (BitVec 8)) (lo hi : Nat) (f : Nat → Option (BitVec 8)) : FMap (BitVec 8) :=
  (w.filter (·.1 < lo)) ++ ((List.range (hi - lo)).filterMap fun i => (f (lo + i)).map (lo + i, ·)) ++ w.filter (hi ≤ ·.1)

/-- Whole lines of a range of places are stored: their bytes, their WRITTEN and which of them are poisoned. -/
def State.storeRange (s : State) (a n : Nat) (cells : List Host.Cell) (written : Nat → Option (BitVec 8)) (bad : List Nat) : State :=
  let s := s.modMem fun m =>
    { (m.fresh (lineIn a n)) with
      cells := cells.foldl (fun c x => cellSet c x.1 x.2) (cellsZero m.cells a n),
      poison := (m.poison.filter fun l => !lineIn a n l) ++ bad,
      cellarBad := m.cellarBad.filter (fun l => !lineIn a n l),
      sramBad := m.sramBad.filter (fun w => !(decide (a ≤ 8 * w) && decide (8 * w < a + n))),
      written := if a < stackTop then writtenRange m.written (a / 64) ((a + n) / 64) written else m.written }
  if a < stackTop then
    (List.range 16).foldl (fun s k => s.modStack k fun c => { c with merge := c.merge.filter fun e => !lineIn a n e.line }) s
  else s

/-- Zeros over a piece of a range, which set WRITTEN. -/
def State.zeroPiece (s : State) (a n : Nat) : State :=
  match s.mem.writeReach a with
  | .served x => s.bothPlaces a x fun x s => s.storeRange x n [] (fun _ => some 0xFF) []
  | .unfilled k => s.modMem (·.hold k a (.zeros n))
  | _ => s

/-- Zeros over a range. -/
def State.zeroRange (s : State) (a n : Nat) : State := (s.mem.pieces a n).foldl (fun s p => s.zeroPiece p.1 p.2) s

/-- Lines copied from place to place with correction: data, WRITTEN and poison move with them. A line of cellar memory has every word written. -/
def State.copyPlace (s : State) (src dst n : Nat) : State :=
  let m := s.mem
  let shift := fun (l : Nat) => (64 * l - src + dst) / 64
  s.storeRange dst n (((m.cells.filter fun c => decide (src ≤ c.1) && decide (c.1 < src + n)).map fun c => (c.1 - src + dst, c.2)))
    (fun l => if src < stackTop then fget m.written ((64 * l - dst + src) / 64) else some 0xFF)
    (((m.poison ++ m.cellarBad ++ m.twoSymbol).filter (lineIn src n)).map shift)

/-- A piece of a copy: what is read from a lost region moves as poisoned lines, and what was not written stays so. -/
def State.copyPiece (s : State) (src dst n : Nat) : State :=
  match s.mem.writeReach dst with
  | .served y =>
    match s.mem.reach src with
    | .served x => s.bothPlaces dst y fun y s => s.copyPlace x y n
    | .lost => s.bothPlaces dst y fun y s => s.storeRange y n [] (fun _ => some 0xFF) ((List.range (n / 64)).map (y / 64 + ·))
    | .unfilled _ => s.bothPlaces dst y fun y s => s.storeRange y n [] (fun _ => none) []
    | .hole => s
  | .unfilled k => s.modMem (·.hold k dst (.bytes (s.memBytes src n)))
  | .hole => s
  | .lost => s

/-- A copy cut at the boundaries of the regions of both sides. -/
def copyCuts : Nat → Nat → Nat → Nat → List (Nat × Nat × Nat)
  | 0, _, _, _ => []
  | f + 1, src, dst, n =>
    if n = 0 then []
    else
      let k := min n (min (2 ^ 30 - src % 2 ^ 30) (2 ^ 30 - dst % 2 ^ 30))
      (src, dst, k) :: copyCuts f (src + k) (dst + k) (n - k)

/-- Memory copied line by line (R258). -/
def State.memCopy (s : State) (src dst n : Nat) : State :=
  (copyCuts (2 * (n / 2 ^ 30) + 4) src dst n).foldl (fun s c => s.copyPiece c.1 c.2.1 c.2.2) s

/-! ## Save before write (R511 to R514) -/

/-- How many bytes a write covers. -/
def WriteData.length : WriteData → Nat
  | .bytes b => b.length
  | .zeros n => n

/-- A write acts. -/
def State.writeNow (s : State) (a : Nat) : WriteData → State
  | .bytes b => s.rawWrite a b
  | .zeros n => s.zeroRange a n

/-- The 64 KiB pages of a range. -/
def pagesOf (a n : Nat) : List Nat := (List.range (if n = 0 then 0 else (a + n - 1) / 65536 - a / 65536 + 1)).map (a / 65536 + ·)

/-- Whether a save has a page marked. -/
def State.marked (s : State) (page : Nat) : Bool := s.jobs.any fun e => match e.2.save with | some v => v.marks.contains page | none => false

/-- Copy-aheads of pages join those that the Porter holds, up to 8,192. -/
def State.askAheads (s : State) (pages : List Nat) : State :=
  { s with porter := { s.porter with
      aheads := pages.foldl (fun l p => if l.contains p || decide (8192 ≤ l.length) then l else l ++ [p]) s.porter.aheads } }

/-- A write by a requester: it waits while a page of it is marked, and so do the requester's later ones behind it (R512, R513). -/
def State.putData (s : State) (a : Nat) (d : WriteData) (who : Writer) : State :=
  let held := s.porter.waits.any (·.who == who)
  let pages := (pagesOf a d.length).filter s.marked
  if held || pages != [] then
    let s := { s with porter := { s.porter with waits := s.porter.waits ++ [{ who, addr := a, data := d }] } }
    if held then s else s.askAheads pages
  else s.writeNow a d

/-- A write of bytes. -/
def State.memWrite (s : State) (a : Nat) (bytes : List Byte) (who : Writer) : State := s.putData a (.bytes bytes) who

/-- A range written with zeros at class 2, which sets WRITTEN (R383, R389). -/
def State.memZero (s : State) (a n : Nat) : State := s.putData a (.zeros n) .firmware

/-- The writes that need wait no longer proceed, in order. -/
def State.settleWaits (s : State) : State :=
  let ws := s.porter.waits
  let s := { s with porter := { s.porter with aheads := s.porter.aheads.filter s.marked, waits := [] } }
  ws.foldl (fun s w => s.putData w.addr w.data w.who) s

/-- Every copy-ahead is served and every waiting write proceeds, so that none is outstanding after a warm start (R539; the bytes that an image
holds are those of the mark, R514). -/
def State.flushWaits (s : State) : State :=
  let ws := s.porter.waits
  let pages := s.porter.aheads ++ ws.flatMap fun w => pagesOf w.addr w.data.length
  let s := { s with
    jobs := fmap s.jobs fun _ x => { x with save := x.save.map fun v => { v with marks := v.marks.filter fun p => !pages.contains p } },
    porter := { s.porter with aheads := [], waits := [] } }
  ws.foldl (fun s w => s.writeNow w.addr w.data) s

/-- Whether a write to a range is still waiting for a marked page or for a fill. -/
def State.pendingIn (s : State) (a n : Nat) : Bool :=
  s.porter.waits.any (fun w => overlaps a n w.addr w.data.length) || s.mem.regions.any fun e => e.2.held.any fun w => overlaps a n w.1 w.2.length

/-- Whether a range holds a region that is not filled. -/
def State.unfilledIn (s : State) (a n : Nat) : Bool :=
  (regionCuts a n).any fun p => match s.mem.reach p.1 with | .unfilled _ => true | _ => false

/-- The regions of a range that are not filled are filled next, as if each held a write (R326). -/
def State.askFill (s : State) (a n : Nat) : State :=
  (regionCuts a n).foldl (fun s p => match s.mem.reach p.1 with | .unfilled k => s.modMem (·.hold k p.1 (.zeros 0)) | _ => s) s

/-- What a copy or a zero-fill of the module's own waits for before it can complete: marked pages of its range, which are copied ahead, regions that are
not filled, which are filled next, and writes that were accepted before (R326, R389, R512). -/
def State.rangeReady (s : State) (a n : Nat) : Bool := !(pagesOf a n).any s.marked && !s.unfilledIn a n && !s.pendingIn a n

/-- They are asked for. -/
def State.askRange (s : State) (a n : Nat) : State := (s.askAheads ((pagesOf a n).filter s.marked)).askFill a n

/-- Every merge entry that lies in a range is written back, so that a copy or a sleep finds all data in the lines (R306). -/
def State.flushMerges (s : State) (keep : Nat → Bool) : State :=
  (List.range 16).foldl (fun s k => ((s.stack k).merge.filter fun e => !keep e.line).foldl State.writeBack s) s

/-- R280: data arrives from outside the module in a range: for the jobs of every guest with memory there (notes/assumptions/86.md). -/
def State.outsideData (s : State) (a n : Nat) : State :=
  (s.guests.filter fun e => e.2.ranges.any fun r => overlaps a n r.1 r.2).foldl (fun s e => s.breakGuest e.1) s

/-- R386: a guest's request that reaches no memory of its guest is counted. -/
def State.guestFault (s : State) (g : Nat) : State :=
  s.modHosts fun h => { h with guestFaults := fupd 0 h.guestFaults g satInc }

/-- An engine's read for a guest, of what it has in the memory of the guest: its errors are met and counted there, and elsewhere it is a hole. -/
def State.engineRead (s : State) (g a n : Nat) : State := if s.guestMem g a n then (s.memRead a n).2.2 else s.guestFault g

/-- An engine's write for a guest, dropped outside the guest's memory. -/
def State.engineWrite (s : State) (g a : Nat) (b : List Byte) (who : Writer) : State :=
  if s.guestMem g a b.length then s.memWrite a b who else s.guestFault g

end Sys2Proof.Machine
end

