-- ==== Sys2Proof/Machine/HostLink.lean ====
section
/-! DEFINITION. Requests of the module on the upstream links (R341, R349 to R354), interrupts to the manager (R573, R574) and to
guests (R575 to R583), and the dirty-page log of what is written for a guest (R401, R402). -/

namespace Sys2Proof.Machine

/-! ## Requests on a link -/

/-- T of R350's table, in ms. -/
def ctoMs (v : BitVec 4) : Nat :=
  if v = 6 then 160 else if v = 9 then 640 else if v = 10 then 2560 else if v = 13 then 10240
  else if v = 14 then 40960 else 40

/-- Whether a link takes requests now: up, in D0, with Bus Master Enable 1 (R354). -/
def Upstream.open (l : Upstream) : Bool := l.up && !l.d3hot && l.bme

/-- The lowest tag of the pool that is neither outstanding nor quarantined (R349). -/
def freeTag (size : Nat) (outstanding : FMap Outstanding) (quarantine : FMap Nat) : Option Nat :=
  (List.range size).find? fun t => (fget outstanding t).isNone && (fget quarantine t).isNone

def HostTx.isRead : HostTx → Bool
  | .read _ _ _ _ => true
  | _ => false

/-- A request leaves on an open link; a read takes a tag and its timeout. -/
def Upstream.emit (l : Upstream) (tx : HostTx) : Upstream :=
  let l := { l with sent := l.sent ++ [tx], l1 := false }
  if tx.isRead then
    match freeTag 2048 l.outstanding l.quarantine with
    | some t => { l with outstanding := fset l.outstanding t { tx, timeoutMs := ctoMs l.cto } }
    | none => l
  else l

/-- Whether a request can leave now: the link is open, and a read finds a free tag. -/
def Upstream.takes (l : Upstream) (tx : HostTx) : Bool :=
  l.open && (!tx.isRead || (freeTag 2048 l.outstanding l.quarantine).isSome)

/-- One request joins those of a link, in order behind the held ones. -/
def Upstream.submitOne (l : Upstream) (tx : HostTx) : Upstream :=
  if l.held.isEmpty && l.takes tx then l.emit tx else { l with held := l.held ++ [tx] }

/-- Max_Read_Request_Size in bytes (R342). -/
def mrrsBytes (v : BitVec 3) : Nat := 128 * 2 ^ min v.toNat 5

/-- A request joins those of a link, a read as requests of at most Max_Read_Request_Size each (R342); on a link that is down it is not sent (R341). -/
def Upstream.submit (l : Upstream) (tx : HostTx) : Upstream :=
  if !l.up then l
  else
    match tx with
    | .read pasid a n why =>
      let m := mrrsBytes l.mrrs
      if n ≤ m then l.submitOne tx
      else
        let k := ceilDiv n m
        let id := l.nextSplit
        (List.range k).foldl (fun l i => l.submitOne (.read pasid (a + m * i) (min m (n - m * i)) (.piece id i)))
          { l with splits := fset l.splits id { why, left := k }, nextSplit := id + 1 }
    | _ => l.submitOne tx

/-- Held requests leave, oldest first, as far as they can. -/
def Upstream.flushFuel : Nat → Upstream → Upstream
  | 0, l => l
  | f + 1, l =>
    match l.held with
    | [] => l
    | tx :: r => if l.takes tx then flushFuel f (({ l with held := r } : Upstream).emit tx) else l

def Upstream.flush (l : Upstream) : Upstream := l.flushFuel l.held.length

def State.submit (s : State) (n : Nat) (tx : HostTx) : State := s.modLink n (·.submit tx)

/-- A read whose purpose has ended finishes nothing. -/
def Purpose.disown (mine : Purpose → Bool) (why : Purpose) : Purpose := if mine why then .other else why
def HostTx.disown (mine : Purpose → Bool) : HostTx → HostTx
  | .read pasid addr len why => .read pasid addr len (why.disown mine)
  | tx => tx

/-- The reads of some purposes are forgotten: what their completions bring is dropped. -/
def State.disown (s : State) (mine : Purpose → Bool) : State :=
  s.modHosts fun h =>
    { h with links := fmap h.links fun _ l =>
        { l with
          outstanding := fmap l.outstanding fun _ o => { o with tx := o.tx.disown mine }, held := l.held.map (HostTx.disown mine),
          splits := fmap l.splits fun _ x => { x with why := x.why.disown mine } } }

/-- The link of the manager's own objects. -/
def State.mgr (s : State) : Nat := s.hosts.mgrLink.toNat

/-! ## Requests of the host -/

/-- Whether a link takes memory requests from the host. -/
def Upstream.memory (l : Upstream) : Bool := l.mse && !l.d3hot

/-- A request to a hole or of a kind that its target refuses is answered with Unsupported Request: a read with a completion, a
write not at all; both are logged and counted (R348). -/
def State.unsupported (s : State) (link : Nat) (read : Bool) : State :=
  s.modLink link fun l =>
    { l with urSent := satInc l.urSent, aer := l.aer ||| 0x100000,
             sent := if read then l.sent ++ [.completion [] .ur] else l.sent }

/-! ## Interrupts to the manager (R573, R574) -/

/-- A manager vector is raised: its message leaves on MGR_LINK, or its pending bit is set while it is masked. -/
def State.msix (s : State) (v : Nat) : State :=
  s.modLink s.mgr fun l =>
    if !l.msixEnable then l
    else if l.msixMaskAll || !l.msixUnmasked.contains v then { l with msixPending := addTo l.msixPending v }
    else l.submit (.interrupt none (fgetD 0 l.msixAddr v).toNat (fgetD 0 l.msixData v))

/-- Pending manager vectors that are no longer masked are sent. -/
def Upstream.sendPending (l : Upstream) : Upstream :=
  if l.msixEnable && !l.msixMaskAll then
    (l.msixPending.filter l.msixUnmasked.contains).foldl
      (fun l v => ({ l with msixPending := l.msixPending.filter (· != v) } : Upstream).submit
        (.interrupt none (fgetD 0 l.msixAddr v).toNat (fgetD 0 l.msixData v))) l
  else l

/-! ## Interrupts to guests (R575 to R583) -/

def State.vector (s : State) (v : Nat) : Vector := fgetD {} s.irq.vectors v
def State.modVector (s : State) (v : Nat) (f : Vector → Vector) : State :=
  s.modIrq fun i => { i with vectors := fupd {} i.vectors v f }

/-- The vectors of a group that would be sent, in ascending order. -/
def State.dueVectors (s : State) (k : Nat) : List Nat :=
  ((List.range 8).map (8 * k + ·)).filter fun v => (s.vector v).pending && !(s.vector v).mask

/-- The messages of a group leave, each with the address and data as they stand (R576, R578). -/
def State.sendGroup (s : State) (k : Nat) : State :=
  match s.holder k with
  | none => s
  | some g =>
    let x := s.guest g
    (s.dueVectors k).foldl
      (fun s v =>
        let e := s.vector v
        (s.modVector v fun e => { e with pending := false }).submit x.link (.interrupt (some x.pasid) (4 * e.addr.toNat) e.data)) s

/-- A group's timer has expired: its messages leave, or wait for the link (R580 to R582). -/
def State.expireGroup (s : State) (k : Nat) : State :=
  match s.holder k with
  | none => s
  | some g =>
    if s.dueVectors k = [] then s
    else
      let n := (s.guest g).link
      let l := s.link n
      let wait := fun (s : State) => s.modIrq fun i => { i with expired := addTo i.expired k }
      if !l.up then wait s
      else if l.d3hot then
        let s := wait s
        if l.pmeEn then s.modLink n fun l => { l with pmeStatus := true, sent := l.sent ++ [.pme] } else s
      else if !l.bme then wait s
      else if l.l1 then (wait s).modLink n fun l => { l with exiting := true }
      else s.sendGroup k

/-- Groups that waited for a link send their messages, in ascending vector order. -/
def State.sendExpired (s : State) (n : Nat) : State :=
  let ks := (List.range 1024).filter fun k =>
    s.irq.expired.contains k && (match s.holder k with | some g => (s.guest g).link == n | none => true)
  if (s.link n).open then
    ks.foldl (fun s k => s.sendGroup k) (s.modIrq fun i => { i with expired := i.expired.filter fun k => !ks.contains k })
  else s

/-- R578: a guest vector becomes pending. -/
def State.raiseVector (s : State) (v : Nat) : State :=
  let k := v / 8
  if (s.vector v).pending then s
  else
    let s := s.modVector v fun e => { e with pending := true }
    match fget s.irq.timers k with
    | some _ => s
    | none =>
      let us := (fgetD 0 s.irq.holdoff k).toNat
      if us = 0 then s.expireGroup k else s.modIrq fun i => { i with timers := fset i.timers k us }

/-- R583: a room's group stops, its vectors are masked and what they hold is discarded. -/
def State.clearVectors (s : State) (k : Nat) : State :=
  let s := s.modIrq fun i => { i with timers := fdel i.timers k, expired := i.expired.filter (· != k) }
  (List.range 8).foldl (fun s j => s.modVector (8 * k + j) fun e => { e with mask := true, pending := false }) s

/-- The parlour vector of a guest, in its home room (R396). -/
def State.parlourVector (s : State) (g : Nat) : State :=
  match (s.guest g).home with
  | some h => s.raiseVector (8 * h + 7)
  | none => s

/-! ## The dirty-page log (R401, R402) -/

/-- The bitmap words held for all logs together. -/
def State.logWords (s : State) : Nat := (s.guests.map fun e => match e.2.log with | some l => l.words.length | none => 0).sum

def DirtyLog.mapBase (l : DirtyLog) (b : Bool) : Nat := if b then l.mapB else l.mapA

def State.modLog (s : State) (g : Nat) (f : DirtyLog → DirtyLog) : State :=
  s.modGuest g fun x => { x with log := x.log.map f }

/-- A held word of a log is written back and dropped; a write on a link that is down fails and sets OVERFLOW. -/
def State.writeBackWord (s : State) (g : Nat) (w : LogWord) : State :=
  match (s.guest g).log with
  | none => s
  | some l =>
    let up := (s.link s.mgr).up
    let s := s.modLog g fun l =>
      { l with words := l.words.filter fun x => !(x.mapB == w.mapB && x.word == w.word), overflow := l.overflow || !up }
    s.submit s.mgr (.write none (l.mapBase w.mapB + 8 * w.word) (leBytes 8 w.bits.toNat))

/-- The oldest held word that has been read, the logs in guest order, which is the one that is evicted. -/
def State.oldestWord (s : State) : Option (Nat × LogWord) :=
  s.guests.findSome? fun e => match e.2.log with
    | some l => (l.words.find? (·.read)).map fun w => (e.1, w)
    | none => none

/-- Room is made for one more word, if the logger is full and holds one that it can evict. -/
def State.evictWord (s : State) : State :=
  if s.logWords < 4096 then s else match s.oldestWord with | some (g, w) => s.writeBackWord g w | none => s

/-- One page of the covered range is marked in the active map. Where the logger is full of words that wait for their read, the page's word cannot be held, and
OVERFLOW is set (notes/assumptions/100.md). -/
def State.markPage (s : State) (g page : Nat) : State :=
  match (s.guest g).log with
  | none => s
  | some l =>
    let bitw : BitVec 64 := BitVec.ofNat 64 (2 ^ (page % 64))
    let seen := fun (l : DirtyLog) =>
      { l with dirty := if l.dirty.contains (l.activeB, page) then l.dirty else l.dirty ++ [(l.activeB, page)] }
    if l.words.any fun x => x.mapB == l.activeB && x.word == page / 64 then
      s.modLog g fun l =>
        { (seen l) with words := l.words.map fun x => if x.mapB == l.activeB && x.word == page / 64 then { x with bits := x.bits ||| bitw } else x }
    else
      let s := s.evictWord
      let up := (s.link s.mgr).up && decide (s.logWords < 4096)
      let s := s.modLog g fun l =>
        { (seen l) with
          words := if up then l.words ++ [{ mapB := l.activeB, word := page / 64, bits := bitw }] else l.words,
          overflow := l.overflow || !up }
      if up then s.submit s.mgr (.read none (l.mapBase l.activeB + 8 * (page / 64)) 8 (.logWord g l.activeB (page / 64))) else s

/-- R401: a write for a guest is logged, page by page; a page outside the covered range sets OVERFLOW. -/
def State.logWrite (s : State) (g addr len : Nat) : State :=
  match (s.guest g).log with
  | none => s
  | some l =>
    let pages := (List.range (if len = 0 then 0 else (addr + len - 1) / 4096 - addr / 4096 + 1)).map (addr / 4096 + ·)
    let first := l.base / 4096
    if pages.all fun x => decide (first ≤ x) && decide (x < first + l.pages) then
      pages.foldl (fun s x => s.markPage g (x - first)) s
    else s.modLog g fun l => { l with overflow := true }

/-! ## Guest-local numbers (R379) -/

/-- The local number of a module number. -/
def Guest.localNo (g : Guest) (per m : Nat) : Nat := g.rooms.findIdx (· == m / per) * per + m % per

/-- Whether a module number belongs to a room that the guest still holds. -/
def Guest.holdsNo (g : Guest) (per m : Nat) : Bool := g.open.contains (m / per)

/-! ## Requests for guests and for the manager (R394) -/

/-- A memory write to the host for a guest. -/
def State.guestWrite (s : State) (g addr : Nat) (bytes : List Byte) : State :=
  let x := s.guest g
  (s.submit x.link (.write (some x.pasid) addr bytes)).logWrite g addr bytes.length

/-- A read from the host for a guest; false if its link is down, where the request fails at once (R341). -/
def State.guestRead (s : State) (g addr len : Nat) (why : Purpose) : State × Bool :=
  let x := s.guest g
  (s.submit x.link (.read (some x.pasid) addr len why), (s.link x.link).up)

/-- A write and a read of the manager's own. -/
def State.mgrWrite (s : State) (addr : Nat) (bytes : List Byte) : State := s.submit s.mgr (.write none addr bytes)
def State.mgrRead (s : State) (addr len : Nat) (why : Purpose) : State × Bool :=
  (s.submit s.mgr (.read none addr len why), (s.link s.mgr).up)

end Sys2Proof.Machine
end

