-- ==== Sys2Proof/Machine/Chealm.lean ====
section
/-! DEFINITION. Pigeonholes and the Chealm protocol (R34, R35, R50 to R65): the dispatcher's checks, the requests that a core
begins, the order of a core's checks, responses and events. -/

namespace Sys2Proof.Machine

/-! ## The message in a slot -/

def Pigeonhole.get (h : Pigeonhole) (off n : Nat) : List Byte := (List.range n).map fun i => fgetD 0 h.bytes (off + i)
def Pigeonhole.num (h : Pigeonhole) (off n : Nat) : Nat := leNat (h.get off n)
def Pigeonhole.put (h : Pigeonhole) (off : Nat) (l : List Byte) : Pigeonhole :=
  { h with bytes := (l.zipIdx.foldl (fun m (b, i) => if b = 0 then fdel m (off + i) else fset m (off + i) b) h.bytes) }

/-- A request that a core serves: the header fields it uses and the payload of LENGTH bytes (R58). -/
structure Req where
  slot : Nat
  minor : Nat
  seq : Nat
  guest : Nat
  body : List Byte
  deriving DecidableEq, Repr

/-- An n-byte field of the payload (R2, R11). -/
def Req.f (r : Req) (off n : Nat) : Nat := field r.body off n
/-- Bytes of the payload. -/
def Req.b (r : Req) (off n : Nat) : List Byte := slice r.body off n
/-- R12: whether n reserved bytes hold a value other than 0. -/
def Req.resv (r : Req) (off n : Nat) : Bool := r.f off n != 0

/-- The request in a slot. -/
def Pigeonhole.req (h : Pigeonhole) (slot : Nat) : Req :=
  { slot, minor := h.num 1 1, seq := h.num 8 4, guest := h.num 14 2, body := h.get 32 (h.num 4 2) }

/-! ## Request blocks -/

/-- LENGTH of each request block; some depend on a count in the payload. None for an opcode without a block. -/
def requestLength (op : Nat) (h : Pigeonhole) : Option Nat :=
  match op with
  | 0x0001 => some 16 | 0x0002 => some 32
  | 0x0101 => some 0 | 0x0102 => some 4
  | 0x0201 => some 136 | 0x0202 => some 8 | 0x0203 => some 16 | 0x0204 => some 24
  | 0x0210 => some 32 | 0x0211 => some 8 | 0x0212 => some 8
  | 0x0301 => some (192 + 32 * h.num 80 1) | 0x0302 => some 8
  | 0x0310 => some (8 + 24 * h.num 34 1) | 0x0311 => some 32
  | 0x0401 => some 32 | 0x0402 => some 16 | 0x0403 => some 8 | 0x0404 => some 16 | 0x0405 => some 8
  | 0x0406 => some 8 | 0x0407 => some 16 | 0x0408 => some 16
  | 0x0501 => some 16 | 0x0502 => some 24
  | 0x0601 => some 8 | 0x0602 => some 8 | 0x0603 => some 8 | 0x0604 => some 8 | 0x0605 => some 8
  | 0x0701 => some (16 + 32 * h.num 36 1) | 0x0702 => some 8 | 0x0703 => some 32 | 0x0704 => some 8
  | 0x0801 => some 8 | 0x0802 => some 32 | 0x0803 => some 40 | 0x0804 => some 24 | 0x0805 => some 8
  | 0x0810 => some 8 | 0x0811 => some 88 | 0x0812 => some 8
  | 0x0901 => some 48 | 0x0902 => some 72 | 0x0903 => some (16 + h.num 34 2) | 0x0904 => some (16 + 8 * h.num 34 2)
  | 0x0A01 => some 0 | 0x0A02 => some 104 | 0x0A03 => some 80 | 0x0A04 => some 8 | 0x0A10 => some 80
  | 0x0B01 => some 120 | 0x0B02 => some 16 | 0x0B03 => some 8 | 0x0B04 => some 96 | 0x0B05 => some 24
  | 0x0C01 => some 8 | 0x0D01 => some 24
  | 0x0E01 => some 16 | 0x0E02 => some 4 | 0x0E03 => some 8
  | 0x0F10 => some 4
  | _ => none

/-- The core that serves an opcode's range (R34). -/
def rangeCore (op : Nat) : Nat :=
  let a := op / 256
  if a = 0x0A ∨ a = 0x0E then doorkeeper else if a = 0x0C then hearth else steward

/-- The ranges and messages that SAFE_HOLD accepts (R35, R65). -/
def safeHoldTakes (op : Nat) : Bool :=
  let a := op / 256
  a == 0 || a == 1 || a == 0x0E || a == 0x0F || op == 0x0A01 || op == 0x0605

/-- Whether a module state accepts an opcode's range (R65). -/
def MState.takes (m : MState) (op : Nat) : Bool :=
  match m with
  | .auxOnly => false
  | .coldStart => op / 256 == 0 || op == 0x0101
  | .warmStart => op / 256 == 0 || op == 0x0101
  | .ready => true
  | .degraded => true
  | .shedding => true
  | .safeHold => safeHoldTakes op

/-- EMERGENCY: a shedding stage or thermal throttle is reported. -/
def State.emergency (s : State) : Bool := s.stage != 0

/-- Whether a core runs and, for the Steward and the Innkeepers, is powered (R34, R548, R549). -/
def State.coreUp (s : State) (c : Nat) : Bool :=
  (s.core c).run == .running && !(decide (2 ≤ c) && decide (4 ≤ s.stage))

/-- The core that would serve an opcode now, if one does (R34, R35, R549). -/
def State.serverOf (s : State) (op : Nat) : Option Nat :=
  let c :=
    if s.firm.mstate = .safeHold then
      if (s.core doorkeeper).run = .out then (if op = 0x0A01 then doorkeeper else steward) else doorkeeper
    else rangeCore op
  if s.coreUp c then some c else none

/-! ## Responses -/

/-- DONE sets in a pigeonhole: its interrupt is raised if IRQ_EN is 1 (R50, R573). -/
def State.holeDone (s : State) (slot : Nat) : State :=
  if (s.hole slot).irqEn then s.msix (if slot < 30 then 0 else 1) else s

/-- The response is written over the request, BUSY clears and DONE sets (R53). With no session open it has the request's VER_MINOR, and an event then
has 0 (DESIGN CHOICE, notes/assumptions/64.md). -/
def State.respond (s : State) (slot : Nat) (st : Status) (payload : List Byte) : State :=
  let minor := match s.firm.session with | some x => x.minor | none => (s.hole slot).num 1 1
  let now := s.firm.aon
  (s.modHole slot fun h =>
    let h := (h.put 0 [3, BitVec.ofNat 8 minor]).put 4 (leBytes 2 payload.length ++ [1, 0])
    let h := (h.put 12 (leBytes 2 st.code)).put 16 (leBytes 8 now ++ zeros 8 ++ payload)
    { h with busy := false, done := true }).holeDone slot

/-- The dispatcher itself completes a request. -/
def State.dispatcherCompletes (s : State) (slot : Nat) (st : Status) : State :=
  (s.modHole slot fun h => { h with server := 0xFF }).respond slot st []

/-- The dispatcher's checks 1 to 5 in order (R59); none if all pass. The header fields that no check names are ignored (DESIGN CHOICE,
notes/assumptions/63.md). -/
def State.dispatchCheck (s : State) (h : Pigeonhole) : Option Status :=
  let op := h.num 2 2
  let len := h.num 4 2
  if h.num 0 1 ≠ 3 ∨ 2 < h.num 1 1 then some .badVersion
  else if 4064 < len then some .badLength
  else match requestLength op h with
    | none => some .unknownOpcode
    | some n =>
      if len ≠ n then some .badLength
      else if s.firm.session.isNone && op != 0x0001 then some .stateConflict
      else if !s.firm.mstate.takes op then some .stateConflict
      else if (s.serverOf op).isNone then some .retryLater
      else none

/-- PH_GO: a write of 1 to GO submits the message in a request slot; while BUSY or DONE reads 1 it is discarded (R50, R52).
The dispatcher checks the request at once and passes it to its core, whose source 0 fires (R34, R567). -/
def State.go (s : State) (slot : Nat) : State :=
  if 30 ≤ slot then s
  else
    let h := s.hole slot
    if h.busy || h.done then s.modHole slot fun h => { h with dropped := true }
    else
      let s := s.modHole slot fun h => { h with busy := true, server := 0xFF }
      match s.dispatchCheck h with
      | some st => s.dispatcherCompletes slot st
      | none =>
        match s.serverOf (h.num 2 2) with
        | none => s
        | some c =>
          let s := s.modHole slot fun h => { h with server := BitVec.ofNat 8 c }
          (s.modCore c fun k => { k with queue := k.queue ++ [slot] }).fire c 0

def execPhGo (slot : Nat) (s : State) : Out := done (s.go slot)

/-- REQUEST_BEGIN: a core that runs takes the next request of its queue, unless it still serves one (R54, R63). -/
def execRequestBegin (core : Nat) (s : State) : Out :=
  let k := s.core core
  match k.queue with
  | [] => done s
  | n :: r =>
    if s.coreUp core && k.begun.isNone then done (s.modCore core fun k => { k with queue := r, begun := some n }) else done s

/-! ## Serving a request -/

/-- Whose requests a block permits (check 7): the manager's own, those naming a guest, or any. -/
inductive Sender where
  | manager | guest | any
  deriving DecidableEq, Repr

/-- What check 11 gives: a completion with a status and payload, or a response that is written later (KEY_CLEAR, R496). -/
structure Reply where
  state : State
  status : Status := .ok
  payload : List Byte := []
  later : Bool := false

/-- A request block: its opcode, who may send it, the module states it narrows itself to, and its checks 6 and 8 to 10; each
test answers true where the check fails. -/
structure ReqBlock where
  opcode : Nat
  sender : Sender := .manager
  states : List MState := [.ready, .degraded, .shedding]
  unsupported : Req → State → Bool := fun _ _ => false
  bad : Req → State → Bool := fun _ _ => false
  conflict : Req → State → Bool := fun _ _ => false
  short : Req → State → Bool := fun _ _ => false
  run : Req → State → Reply

/-- R67 and R68: whether a feature is negotiated. -/
def State.feature (s : State) (b : Nat) : Bool :=
  match s.firm.session with
  | some x => x.map.getLsbD b
  | none => false

/-- Check 7 (R59). -/
def Sender.permits (p : Sender) (g : Nat) : Bool :=
  match p with
  | .manager => g == 0xFFFF
  | .guest => decide (g < 1024)
  | .any => true

/-- Checks 6 to 10 of R59 in order; none if all pass. -/
def ReqBlock.check (b : ReqBlock) (r : Req) (s : State) : Option Status :=
  if b.unsupported r s then some .notSupported
  else if !b.sender.permits r.guest then some .notPermitted
  else if b.bad r s then some .badArgument
  else if !b.states.contains s.firm.mstate || b.conflict r s then some .stateConflict
  else if b.short r s then some .noResource
  else none

/-- The core that has begun the request in a slot. -/
def State.beganBy (s : State) (slot : Nat) : Option Nat :=
  ((List.range 19).find? fun c => (s.core c).begun == some slot)

/-- A core finishes the request it has begun. -/
def State.finish (s : State) (core : Nat) : State := s.modCore core fun k => { k with begun := none }

/-- A message's command: the core that has begun the slot's request, if it is that message and the core runs, makes checks 6
to 11 and writes the response (R59 to R64). -/
def serve (b : ReqBlock) (slot : Nat) (s : State) : State :=
  let h := s.hole slot
  match s.beganBy slot with
  | none => s
  | some c =>
    if h.busy && h.num 2 2 == b.opcode && s.coreUp c then
      let r := h.req slot
      match b.check r s with
      | some st => (s.finish c).respond slot st []
      | none =>
        let a := b.run r s
        if a.later then a.state else (a.state.finish c).respond slot a.status a.payload
    else s

/-- A request that completes with DEFERRED. -/
def deferred (s : State) (payload : List Byte := []) : Reply := { state := s, status := .deferred, payload }

/-- Requests of a core that a crash, stage S4 or a warm start cuts off: the one begun completes with FAULTED, those still
queued with RETRY_LATER (R63, R614). -/
def State.dropRequests (s : State) (core : Nat) : State :=
  let k := s.core core
  let s := s.modCore core fun k => { k with queue := [], begun := none }
  let s := match k.begun with | some n => s.respond n .faulted [] | none => s
  k.queue.foldl (fun s n => s.dispatcherCompletes n .retryLater) s

/-! ## Events (R56, R57) -/

/-- EVENT_POST: the oldest event of the backlog is written into slot 30 or 31 once that slot's DONE reads 0;
the first written after a loss carries the events-lost flag. -/
def execEventPost (slot : Nat) (s : State) : Out :=
  if slot = 30 ∨ slot = 31 then
    match s.firm.events with
    | [] => done s
    | e :: r =>
      if (s.hole slot).done then done s
      else
        let minor := match s.firm.session with | some x => x.minor | none => 0
        let flags := 2 + if s.firm.lostEvents then 4 else 0
        let s := s.modFirm fun f => { f with events := r, lostEvents := false }
        let bytes := [3, BitVec.ofNat 8 minor] ++ leBytes 2 e.opcode ++ leBytes 2 e.payload.length ++ leBytes 2 flags
          ++ leBytes 4 e.seq ++ leBytes 2 e.status ++ leBytes 2 e.guest ++ leBytes 8 e.time ++ zeros 8 ++ e.payload
        done ((s.modHole slot fun h => { (h.put 0 bytes) with done := true }).holeDone slot)
  else done s

/-- PH_DONE_CLEAR: a write of 1 to DONE. -/
def execPhDoneClear (slot : Nat) (s : State) : Out :=
  if slot < 32 then done (s.modHole slot fun h => { h with done := false }) else done s

end Sys2Proof.Machine
end

