-- ==== Sys2Proof/Machine/Hash.lean ====
section
/-! DEFINITION. The hash functions that the spec names: SHA-256 (R288 to R290), SHA-384 (R38, R41), HMAC and HKDF over SHA-384
(R493), and CRC-32C (R43, R343). Their definitions are those of FIPS 180-4, RFC 2104, RFC 5869 and RFC 3720
(PRESUMED, notes/assumptions/18.md). -/

namespace Sys2Proof.Machine

/-! ## The constants of SHA-2, from the primes -/

def isPrime (n : Nat) : Bool := decide (2 ≤ n) && (List.range n).all fun d => decide (d < 2) || n % d != 0
def primes80 : List Nat := (List.range 410).filter isPrime

/-- The largest r below 2^bits with r^k ≤ n. -/
def rootBits (k n : Nat) : Nat → Nat → Nat
  | 0, r => r
  | b + 1, r => rootBits k n b (if (r + 2 ^ b) ^ k ≤ n then r + 2 ^ b else r)

/-- The first 64 fractional bits of the cube roots and of the square roots of the primes. -/
def cubeBits : List Nat := primes80.map fun p => rootBits 3 (p * 2 ^ 192) 70 0 % 2 ^ 64
def squareBits : List Nat := (primes80.take 16).map fun p => rootBits 2 (p * 2 ^ 128) 70 0 % 2 ^ 64

/-! ## The compression function, over 32-bit or 64-bit words -/

/-- The rotation counts of one SHA-2 function: Σ0, Σ1, and σ0, σ1 with their shifts. -/
structure ShaRot where
  s0 : Nat × Nat × Nat
  s1 : Nat × Nat × Nat
  t0 : Nat × Nat × Nat
  t1 : Nat × Nat × Nat

def rot256 : ShaRot := ⟨(2, 13, 22), (6, 11, 25), (7, 18, 3), (17, 19, 10)⟩
def rot512 : ShaRot := ⟨(28, 34, 39), (14, 18, 41), (1, 8, 7), (19, 61, 6)⟩

def bigSigma {w : Nat} (r : Nat × Nat × Nat) (x : BitVec w) : BitVec w :=
  x.rotateRight r.1 ^^^ x.rotateRight r.2.1 ^^^ x.rotateRight r.2.2
def smallSigma {w : Nat} (r : Nat × Nat × Nat) (x : BitVec w) : BitVec w :=
  x.rotateRight r.1 ^^^ x.rotateRight r.2.1 ^^^ (x >>> r.2.2)

/-- The eight working variables. -/
structure ShaVars (w : Nat) where
  a : BitVec w
  b : BitVec w
  c : BitVec w
  d : BitVec w
  e : BitVec w
  f : BitVec w
  g : BitVec w
  h : BitVec w

/-- The rounds, one for each constant; `ws` holds the next 16 words of the message schedule. -/
def shaRounds {w : Nat} (r : ShaRot) : List (BitVec w) → ShaVars w → List (BitVec w) → ShaVars w
  | [], v, _ => v
  | k :: ks, v, ws =>
    let x := ws.headD 0
    let t1 := v.h + bigSigma r.s1 v.e + ((v.e &&& v.f) ^^^ (~~~v.e &&& v.g)) + k + x
    let t2 := bigSigma r.s0 v.a + ((v.a &&& v.b) ^^^ (v.a &&& v.c) ^^^ (v.b &&& v.c))
    let next := smallSigma r.t1 (ws.getD 14 0) + ws.getD 9 0 + smallSigma r.t0 (ws.getD 1 0) + x
    shaRounds r ks ⟨t1 + t2, v.a, v.b, v.c, v.d + t1, v.e, v.f, v.g⟩ (ws.tail ++ [next])

def ShaVars.add {w : Nat} (x y : ShaVars w) : ShaVars w :=
  ⟨x.a + y.a, x.b + y.b, x.c + y.c, x.d + y.d, x.e + y.e, x.f + y.f, x.g + y.g, x.h + y.h⟩
def ShaVars.list {w : Nat} (x : ShaVars w) : List (BitVec w) := [x.a, x.b, x.c, x.d, x.e, x.f, x.g, x.h]
def ShaVars.of {w : Nat} (l : List (BitVec w)) : ShaVars w :=
  ⟨l.getD 0 0, l.getD 1 0, l.getD 2 0, l.getD 3 0, l.getD 4 0, l.getD 5 0, l.getD 6 0, l.getD 7 0⟩

/-- A list cut into pieces of n. -/
def chunks {α : Type} (n : Nat) (l : List α) : List (List α) :=
  (List.range (ceilDiv l.length n)).map fun i => (l.drop (i * n)).take n

/-- A message padded to whole blocks of 16 words of n bytes. -/
def shaPad (n : Nat) (m : List Byte) : List Byte :=
  let used := (m.length + 1 + 2 * n) % (16 * n)
  m ++ [0x80] ++ zeros ((16 * n - used) % (16 * n)) ++ beBytes (2 * n) (8 * m.length)

def shaBlocks {w : Nat} (n : Nat) (r : ShaRot) (ks : List (BitVec w)) (init : ShaVars w) (m : List Byte) : List Byte :=
  let v := (chunks (16 * n) (shaPad n m)).foldl
    (fun v blk => v.add (shaRounds r ks v ((chunks n blk).map fun b => BitVec.ofNat w (beNat b)))) init
  v.list.flatMap fun x => beBytes n x.toNat

def k256 : List (BitVec 32) := (cubeBits.take 64).map fun x => BitVec.ofNat 32 (x / 2 ^ 32)
def k512 : List (BitVec 64) := cubeBits.map (BitVec.ofNat 64)

def sha256 (m : List Byte) : List Byte :=
  shaBlocks 4 rot256 k256 (ShaVars.of ((squareBits.take 8).map fun x => BitVec.ofNat 32 (x / 2 ^ 32))) m

def sha384 (m : List Byte) : List Byte :=
  (shaBlocks 8 rot512 k512 (ShaVars.of ((squareBits.drop 8).map (BitVec.ofNat 64))) m).take 48

/-! ## HMAC and HKDF over SHA-384 -/

def hmac384 (key m : List Byte) : List Byte :=
  let k := if 128 < key.length then sha384 key else key
  let k := k ++ zeros (128 - k.length)
  sha384 (k.map (· ^^^ 0x5C) ++ sha384 (k.map (· ^^^ 0x36) ++ m))

/-- HKDF with an empty salt and at most 48 bytes of output. -/
def hkdf384 (z info : List Byte) (n : Nat) : List Byte := (hmac384 (hmac384 (zeros 48) z) (info ++ [1])).take n

/-! ## Merkle roots (R290) -/

/-- One level of the tree: nodes pair in order, an unpaired last node is carried up. -/
def merklePairs : List (List Byte) → List (List Byte)
  | a :: b :: r => sha256 ([1] ++ a ++ b) :: merklePairs r
  | l => l

def merkleUp : Nat → List (List Byte) → List Byte
  | 0, l => l.headD []
  | f + 1, l => if l.length ≤ 1 then l.headD [] else merkleUp f (merklePairs l)

def merkleRoot (m : List Byte) : List Byte :=
  let leaves := (chunks 0x100000 m).map fun l => sha256 (0 :: l)
  merkleUp leaves.length leaves

/-! ## CRC-32C -/

def crcBit (c : BitVec 32) : BitVec 32 := if c.getLsbD 0 then (c >>> 1) ^^^ 0x82F63B78 else c >>> 1
def crcByte (c : BitVec 32) (b : Byte) : BitVec 32 :=
  (List.range 8).foldl (fun c _ => crcBit c) (c ^^^ b.setWidth 32)
def crc32c (m : List Byte) : BitVec 32 := ~~~ m.foldl crcByte 0xFFFFFFFF

end Sys2Proof.Machine
end

