-- ==== Sys2Proof/Machine/Aes.lean ====
section
/-! DEFINITION. The ciphers that the spec names: AES-128 (R281), AES-256 in GCM and XTS (R485, R486), AES key unwrap (R494), and the
curve P-384 (R493). Their definitions are those of FIPS 197, SP 800-38D, IEEE 1619, RFC 3394 and FIPS 186-4
(PRESUMED, notes/assumptions/18.md). -/

namespace Sys2Proof.Machine

/-! ## AES -/

def xtime (b : Byte) : Byte := if b.getLsbD 7 then (b <<< 1) ^^^ 0x1B else b <<< 1

/-- The product in GF(2^8): the bits of b from the top down. -/
def gmul (a b : Byte) : Byte :=
  (List.range 8).foldl (fun r i => xtime r ^^^ if b.getLsbD (7 - i) then a else 0) 0

/-- b^254, the inverse of b (0 for 0). -/
def ginv (b : Byte) : Byte := (List.range 6).foldl (fun r _ => gmul (gmul r r) b) b |> fun r => gmul r r

def subByte (b : Byte) : Byte :=
  let x := ginv b
  x ^^^ x.rotateLeft 1 ^^^ x.rotateLeft 2 ^^^ x.rotateLeft 3 ^^^ x.rotateLeft 4 ^^^ 0x63

def sbox : List Byte := (List.range 256).map fun i => subByte (BitVec.ofNat 8 i)
def sboxInv : List Byte := (List.range 256).map fun i => BitVec.ofNat 8 (sbox.findIdx (· == BitVec.ofNat 8 i))
def sb (b : Byte) : Byte := sbox.getD b.toNat 0
def isb (b : Byte) : Byte := sboxInv.getD b.toNat 0

def xorBytes (a b : List Byte) : List Byte := List.zipWith (· ^^^ ·) a b

/-- The next word of the key schedule, from the words so far. -/
def nextKeyWord (nk : Nat) (ws : List (List Byte)) : List Byte :=
  let i := ws.length
  let t := ws.getD (i - 1) []
  let t :=
    if i % nk = 0 then
      xorBytes ((t.drop 1 ++ t.take 1).map sb) [(List.range (i / nk - 1)).foldl (fun r _ => xtime r) 1, 0, 0, 0]
    else if nk = 8 ∧ i % 8 = 4 then t.map sb
    else t
  xorBytes (ws.getD (i - nk) []) t

/-- The round keys of 16 bytes: 11 for a 16-byte key, 15 for a 32-byte key. -/
def roundKeys (key : List Byte) : List (List Byte) :=
  let nk := key.length / 4
  let ws := (List.range (4 * (nk + 7) - nk)).foldl (fun ws _ => ws ++ [nextKeyWord nk ws]) (chunks 4 key)
  chunks 16 ws.flatten

def shiftRows (s : List Byte) : List Byte := (List.range 16).map fun i => s.getD (i % 4 + 4 * ((i / 4 + i % 4) % 4)) 0
def shiftRowsInv (s : List Byte) : List Byte := (List.range 16).map fun i => s.getD (i % 4 + 4 * ((i / 4 + 4 - i % 4) % 4)) 0

/-- Each column times the circulant matrix of the given first row. -/
def mixWith (m : List Byte) (s : List Byte) : List Byte :=
  (chunks 4 s).flatMap fun c => (List.range 4).map fun r =>
    (List.range 4).foldl (fun acc j => acc ^^^ gmul (c.getD j 0) (m.getD ((j + 4 - r) % 4) 0)) 0

def aesEnc (key blk : List Byte) : List Byte :=
  let ks := roundKeys key
  let n := ks.length - 1
  (List.range n).foldl
    (fun s i =>
      let s := shiftRows (s.map sb)
      xorBytes (if i + 1 = n then s else mixWith [2, 3, 1, 1] s) (ks.getD (i + 1) [])) (xorBytes blk (ks.headD []))

def aesDec (key blk : List Byte) : List Byte :=
  let ks := (roundKeys key).reverse
  let n := ks.length - 1
  (List.range n).foldl
    (fun s i =>
      let s := xorBytes ((shiftRowsInv s).map isb) (ks.getD (i + 1) [])
      if i + 1 = n then s else mixWith [14, 11, 13, 9] s) (xorBytes blk (ks.headD []))

/-! ## GCM with a 96-bit IV and a 128-bit tag -/

/-- The product in GCM's GF(2^128), with bit 0 of a block the most significant. -/
def ghashMul (x y : BitVec 128) : BitVec 128 :=
  ((List.range 128).foldl
    (fun (a : BitVec 128 × BitVec 128) i =>
      (if x.getMsbD i then a.1 ^^^ a.2 else a.1,
        if a.2.getLsbD 0 then (a.2 >>> 1) ^^^ ((0xE1 : BitVec 128) <<< 120) else a.2 >>> 1)) (0, y)).1

def blockBits (b : List Byte) : BitVec 128 := BitVec.ofNat 128 (beNat (slice b 0 16))

def ghash (h : BitVec 128) (m : List Byte) : BitVec 128 :=
  (chunks 16 m).foldl (fun y b => ghashMul (y ^^^ blockBits b) h) 0

def pad16 (m : List Byte) : List Byte := m ++ zeros ((16 - m.length % 16) % 16)

/-- The bytes under the counter mode of GCM: encryption and decryption are the same. -/
def gcmCtr (key iv m : List Byte) : List Byte :=
  xorBytes m ((List.range (ceilDiv m.length 16)).flatMap fun i => aesEnc key (iv ++ beBytes 4 (i + 2)))

def gcmTag (key iv aad ct : List Byte) : List Byte :=
  let h := blockBits (aesEnc key (zeros 16))
  let s := ghash h (pad16 aad ++ pad16 ct ++ beBytes 8 (8 * aad.length) ++ beBytes 8 (8 * ct.length))
  xorBytes (beBytes 16 s.toNat) (aesEnc key (iv ++ [0, 0, 0, 1]))

/-! ## XTS -/

/-- A tweak times α. -/
def xtsNext (t : Nat) : Nat := (2 * t % 2 ^ 128) ^^^ if 2 ^ 127 ≤ t then 0x87 else 0

/-- One data unit: its number gives the tweak (R486). -/
def xtsUnit (enc : Bool) (k1 k2 : List Byte) (unitNo : Nat) (m : List Byte) : List Byte :=
  let t0 := leNat (aesEnc k2 (leBytes 16 unitNo))
  ((chunks 16 m).foldl
    (fun (a : List Byte × Nat) b =>
      let t := leBytes 16 a.2
      (a.1 ++ xorBytes (if enc then aesEnc k1 (xorBytes b t) else aesDec k1 (xorBytes b t)) t, xtsNext a.2)) ([], t0)).1

/-- Whole data units from a first unit number on. -/
def xts (enc : Bool) (k1 k2 : List Byte) (first size : Nat) (m : List Byte) : List Byte :=
  ((chunks size m).zipIdx.map fun (u, i) => xtsUnit enc k1 k2 ((first + i) % 2 ^ 128) u).flatten

/-! ## Key unwrap (RFC 3394) -/

/-- The unwrapped bytes, if the integrity check value is the default one. -/
def unwrapKey (kek w : List Byte) : Option (List Byte) :=
  let n := w.length / 8 - 1
  let r := (List.range (6 * n)).foldl
    (fun (s : List Byte × List (List Byte)) k =>
      let t := 6 * n - k
      let i := (t - 1) % n
      let b := aesDec kek (xorBytes s.1 (beBytes 8 t) ++ s.2.getD i [])
      (b.take 8, s.2.set i (b.drop 8))) (w.take 8, (chunks 8 w).drop 1)
  if r.1 = List.replicate 8 0xA6 then some r.2.flatten else none

/-! ## P-384 -/

def pP : Nat := 2 ^ 384 - 2 ^ 128 - 2 ^ 96 + 2 ^ 32 - 1
def pB : Nat := 0xb3312fa7e23ee7e4988e056be3f82d19181d9c6efe8141120314088f5013875ac656398d8a2ed19d2a85c8edd3ec2aef
def pGx : Nat := 0xaa87ca22be8b05378eb1c71ef320ad746e1d3b628ba79b9859f741e082542a385502f25dbf55296c3a545e3872760ab7
def pGy : Nat := 0x3617de4a96262c6f5d9e98bf9292dc29f8f41dbd289a147ce9da3113b5f0b8c00a60b1ce1d7e819d7a431d7c90ea0e5f

def subP (a b : Nat) : Nat := (a + (pP - b % pP)) % pP

/-- b^e mod p over the low n bits of e. -/
def powP (b e : Nat) : Nat → Nat
  | 0 => 1
  | n + 1 => let r := powP (b * b % pP) (e / 2) n; if e % 2 = 1 then r * b % pP else r

def onCurve (x y : Nat) : Bool := decide (x < pP) && decide (y < pP) && y * y % pP == (subP (x * x * x) (3 * x) + pB) % pP

/-- Jacobian coordinates; z of 0 is the point at infinity. -/
abbrev JPoint := Nat × Nat × Nat

def jDouble (q : JPoint) : JPoint :=
  let (x, y, z) := q
  let yy := y * y % pP
  let s := 4 * x * yy % pP
  let zz := z * z % pP
  let m := 3 * subP x zz * (x + zz) % pP
  let x' := subP (m * m) (2 * s)
  (x', subP (m * subP s x') (8 * yy * yy), 2 * y * z % pP)

def jAdd (a b : JPoint) : JPoint :=
  if a.2.2 = 0 then b else if b.2.2 = 0 then a
  else
    let (x1, y1, z1) := a
    let (x2, y2, z2) := b
    let u1 := x1 * z2 * z2 % pP
    let u2 := x2 * z1 * z1 % pP
    let s1 := y1 * z2 * z2 * z2 % pP
    let s2 := y2 * z1 * z1 * z1 % pP
    if u1 = u2 then (if s1 = s2 then jDouble a else (1, 1, 0))
    else
      let h := subP u2 u1
      let r := subP s2 s1
      let hh := h * h % pP
      let hhh := h * hh % pP
      let v := u1 * hh % pP
      let x' := subP (subP (r * r) hhh) (2 * v)
      (x', subP (r * subP v x') (s1 * hhh), z1 * z2 * h % pP)

/-- k times a point, over the low n bits of k from the top. -/
def jMul (q : JPoint) (k : Nat) : Nat → JPoint
  | 0 => (1, 1, 0)
  | n + 1 =>
    let r := jDouble (jMul q (k / 2) n)
    if k % 2 = 1 then jAdd r q else r

/-- The affine coordinates of k times an affine point. -/
def ecMul (x y k : Nat) : Nat × Nat :=
  let (a, b, c) := jMul (x, y, 1) k 384
  let i := powP c (pP - 2) 384
  (a * i % pP * i % pP, b * i % pP * i % pP * i % pP)

end Sys2Proof.Machine
end

