-- ==== Sys2Proof/Machine/StorageOps.lean ====
section
/-! DEFINITION. Storage commands (chapter 12): namespaces and extents, a command's fields, its completion, its parts at their
backing, and the end of its data's way through the cipher engines. -/

namespace Sys2Proof.Machine

/-! ## Pairs, namespaces and extents -/

/-- The admin pair of a guest (R424). -/
def adminPair (g : Nat) : Nat := 4096 + g

/-- The module pair of a guest-local queue number: 0 is the admin pair (R379, R411). -/
def Guest.pairNo (g : Guest) (num q : Nat) : Option Nat := if q = 0 then some (adminPair num) else g.moduleNo 4 (q - 1)

/-- The guest-local number of a pair of a guest. -/
def Guest.localPair (g : Guest) (m : Nat) : Nat := if 4096 ≤ m then 0 else 1 + g.localNo 4 m

/-- The key of a guest's namespace in the table of namespaces. -/
def nsKey (g nsid : Nat) : Nat := 512 * g + nsid
def State.ns? (s : State) (g nsid : Nat) : Option Namespace := if nsid < 512 then fget s.storage.namespaces (nsKey g nsid) else none
def State.modNs (s : State) (g nsid : Nat) (f : Namespace → Namespace) : State :=
  s.modStorage fun t => match fget t.namespaces (nsKey g nsid) with
    | some n => { t with namespaces := fset t.namespaces (nsKey g nsid) (f n) }
    | none => t

/-- Blocks of a namespace. -/
def Namespace.size (n : Namespace) : Nat := (n.extents.map (·.count)).sum

/-- STORAGE_EVENT. -/
def State.storageEvent (s : State) (kind cause loc nsid aborted discarded guest seq : Nat) : State :=
  s.raise 0x0780 (leBytes 1 kind ++ leBytes 1 cause ++ leBytes 2 loc ++ leBytes 4 nsid ++ leBytes 4 aborted ++ leBytes 4 discarded) guest seq

/-- R408, R409: a run of namespace blocks cut at the extent boundaries. -/
def splitParts : List Extent → Nat → Nat → Nat → List Part
  | [], _, _, _ => []
  | e :: r, base, first, n =>
    let lo := max base first
    let hi := min (base + e.count) (first + n)
    (if lo < hi then
      [{ remote := e.remote, port := e.port, conn := e.conn, backNsid := e.backNsid, lba := e.start + lo - base, first := lo, blocks := hi - lo }]
      else []) ++ splitParts r (base + e.count) first n

def Namespace.parts (n : Namespace) (first blocks : Nat) : List Part := splitParts n.extents 0 first blocks

/-- Blocks never written, or deallocated since. -/
def Namespace.unwritten (n : Namespace) (b : Nat) : Bool := n.unmapped.any fun r => decide (r.1 ≤ b) && decide (b < r.1 + r.2)

/-- A run of blocks leaves the unwritten ones. -/
def Namespace.map (n : Namespace) (first blocks : Nat) : Namespace :=
  { n with
    unmapped := n.unmapped.flatMap fun r =>
      (if r.1 < first then [(r.1, min r.2 (first - r.1))] else [])
        ++ if first + blocks < r.1 + r.2 then [(max r.1 (first + blocks), r.1 + r.2 - max r.1 (first + blocks))] else [] }

/-- A run of blocks joins them. -/
def Namespace.unmap (n : Namespace) (first blocks : Nat) : Namespace :=
  { (n.map first blocks) with unmapped := (n.map first blocks).unmapped ++ if blocks = 0 then [] else [(first, blocks)] }

/-! ## A command's fields -/

def Cmd.f (c : Cmd) (off n : Nat) : Nat := field c.entry off n
def Cmd.opcode (c : Cmd) : Nat := c.f 0 1
def Cmd.nsid (c : Cmd) : Nat := c.f 4 4
def Cmd.slba (c : Cmd) : Nat := c.f 40 8
def Cmd.nlb (c : Cmd) : Nat := c.f 48 2 + 1
def Cmd.prp1 (c : Cmd) : Nat := c.f 24 8
def Cmd.prp2 (c : Cmd) : Nat := c.f 32 8

/-- The opcodes of R407's table. -/
def executes (admin : Bool) (op : Nat) : Bool :=
  if admin then [2, 6, 8, 9, 10, 12].contains op else [0, 1, 2, 8, 9].contains op

/-- A status of R417: SCT, SC and DNR. -/
structure CmdStatus where
  sct : Nat := 0
  sc : Nat := 0
  dnr : Bool := false
  deriving DecidableEq, Repr

def invalidOpcode : CmdStatus := ⟨0, 1, true⟩
def invalidField : CmdStatus := ⟨0, 2, true⟩
def transferError : CmdStatus := ⟨0, 4, false⟩
def internalError : CmdStatus := ⟨0, 6, false⟩
def sqDeletion : CmdStatus := ⟨0, 8, false⟩
def invalidNamespace : CmdStatus := ⟨0, 0x0B, true⟩
def interrupted : CmdStatus := ⟨0, 0x21, false⟩
def transportError : CmdStatus := ⟨0, 0x22, false⟩
def outOfRange : CmdStatus := ⟨0, 0x80, true⟩
def notReady : CmdStatus := ⟨0, 0x82, true⟩
def readOnlyRange : CmdStatus := ⟨1, 0x82, true⟩
def invalidLogPage : CmdStatus := ⟨1, 9, true⟩
def asyncLimit : CmdStatus := ⟨1, 5, true⟩
def accessDenied : CmdStatus := ⟨2, 0x86, true⟩

/-! ## Commands of a pair -/

def Pair.cmd? (p : Pair) (cid : Nat) : Option Cmd := p.cmds.find? (·.cid == cid)

/-- One entry of a list changed, the first that a test picks. -/
def modFirst {α : Type} (p : α → Bool) (f : α → α) : List α → List α
  | [] => []
  | a :: r => if p a then f a :: r else a :: modFirst p f r

/-- The first entry that a test picks removed. -/
def dropFirst {α : Type} (p : α → Bool) : List α → List α
  | [] => []
  | a :: r => if p a then r else a :: dropFirst p r

def State.modCmd (s : State) (m cid : Nat) (f : Cmd → Cmd) : State :=
  s.modPair m fun p => { p with cmds := modFirst (·.cid == cid) f p.cmds }

/-- The reads that are out for a command that has ended. -/
def Purpose.ofCmd (m cid : Nat) : Purpose → Bool
  | .dataIn a b _ | .prpList a b => a == m && b == cid
  | _ => false

/-- The fetch of a pair. -/
def Purpose.ofFetch (m : Nat) : Purpose → Bool
  | .sqFetch a => a == m
  | _ => false

/-- The number of no pair: a block that is still at an engine when its command has ended belongs to none. -/
def noPair : Nat := 5120

/-- The Status field of a completion entry, above the phase tag. -/
def statusField (sct sc : Nat) (dnr : Bool) : Nat := 2 * sc + 2 ^ 9 * sct + 2 ^ 15 * bit dnr

/-- A command that fails has an entry in the guest's Error Information log, which holds the last 64 (R407; PRESUMED, notes/assumptions/101.md). -/
def State.logError (s : State) (m cid : Nat) (st : CmdStatus) : State :=
  let p := s.pair m
  match (if st.sct = 0 ∧ st.sc = 0 then none else p.cmd? cid) with
  | none => s
  | some c =>
    s.modGuest p.guest fun g =>
      { g with
        errorCount := g.errorCount + 1,
        log01 := ({ count := g.errorCount + 1, sqid := g.localPair m, cid, status := statusField st.sct st.sc st.dnr, lba := c.slba, nsid := c.nsid } :: g.log01).take 64 }

/-- A command ends: its completion waits to be posted, or, on a pair that has failed, is discarded and counted (R416). -/
def State.complete (s : State) (m cid : Nat) (st : CmdStatus) (dw0 : BitVec 32 := 0) : State :=
  let s := s.logError m cid st
  let s := s.modCipher fun c =>
    { c with
      waiting := c.waiting.filter fun b => !(b.pair == m && b.cid == cid),
      engines := fmap c.engines fun _ e =>
        { e with block := e.block.map fun b => if b.pair == m && b.cid == cid then { b with pair := noPair } else b } }
  let s := s.disown (·.ofCmd m cid)
  s.modPair m fun p =>
    let p := { p with cmds := dropFirst (·.cid == cid) p.cmds }
    if p.cause ≠ 0 then { p with discarded := p.discarded + 1 }
    else { p with toPost := p.toPost ++ [{ cid, sct := st.sct, sc := st.sc, dnr := st.dnr, dw0 }] }

/-- R416: a pair fails: it fetches nothing more, and completions not yet posted are discarded and counted. -/
def State.failPair (s : State) (m cause : Nat) : State :=
  let p := s.pair m
  if p.cause ≠ 0 ∨ p.state = 0 then s
  else
    let s := s.modPair m fun p =>
      { p with
        state := if p.state = 4 then 4 else 3, cause := BitVec.ofNat 4 cause, fetching := false,
        discarded := p.discarded + p.toPost.length, toPost := [] }
    s.storageEvent 2 cause ((s.guest p.guest).localPair m) 0 0 (s.pair m).discarded p.guest 0

/-! ## The host buffer -/

/-- The pages of a buffer of n bytes: address and length of each. -/
def Cmd.chunks (c : Cmd) (n : Nat) : List (Nat × Nat) :=
  c.pages.zipIdx.map fun (a, i) =>
    let o := c.prp1 % 4096
    if i = 0 then (a, min n (4096 - o)) else (a, min 4096 (n + o - 4096 * i))

/-- Bytes go to the host buffer of a command; false if the guest's link is down. -/
def State.dataOut (s : State) (g : Nat) (c : Cmd) (bytes : List Byte) : State × Bool :=
  let up := (s.link (s.guest g).link).up
  let go := (c.chunks bytes.length).foldl
    (fun (x : State × Nat) ch => (x.1.guestWrite g ch.1 ((bytes.drop x.2).take ch.2), x.2 + ch.2)) (s, 0)
  (if up then go.1 else s, up)

/-! ## Backing (R408, R409, R417) -/

/-- Whether the device of a port is in service: its port is ON, or is still powered and linked in REQUESTED or in BUTTON_WAIT from ON (R360). -/
def Port.serves (p : Port) : Bool := p.state == .on || p.state == .requested || (p.state == .buttonWait && p.before == .on)

/-- How a part ends before it reaches its backing: a drive whose port is not in service, or a connection that is not open. -/
def State.unreachable (s : State) (p : Part) : Option CmdStatus :=
  if p.remote then (if (s.conn p.conn).state = .opened then none else some transportError)
  else if (s.port p.port).serves then none else some internalError

def Part.ended (p : Part) (st : CmdStatus) : Part := { p with done := true, sct := st.sct, sc := st.sc, dnr := st.dnr }

/-- Whether a part failed. -/
def Part.failed (p : Part) : Bool := p.sct != 0 || p.sc != 0

/-- The status of a command of which every part has ended: that of the lowest-addressed part that failed (R409). -/
def partsStatus (ps : List Part) : CmdStatus :=
  match (ps.filter Part.failed).foldl (fun (b : Option Part) p => match b with
      | some q => if p.first < q.first then some p else some q
      | none => some p) none with
  | some p => ⟨p.sct, p.sc, p.dnr⟩
  | none => {}

/-- A block's data as a read returns it: zeros where nothing has been written. -/
def Cmd.readData (c : Cmd) (n : Namespace) : List Byte :=
  ((List.range c.nlb).map fun i => if n.unwritten (c.slba + i) then zeros 4096 else slice c.data (4096 * i) 4096).flatten

/-- A Read's data goes to the host, and the command completes. -/
def State.finishRead (s : State) (m cid : Nat) : State :=
  let p := s.pair m
  match p.cmd? cid with
  | none => s
  | some c =>
    let n := (s.ns? p.guest c.nsid).getD { extents := [] }
    let (s, ok) := s.dataOut p.guest c (c.readData n)
    s.complete m cid (if ok then {} else transferError)

/-- The blocks of a command wait for the cipher engines, in block order (R410, R488). -/
def State.cipherCmd (s : State) (m cid slot : Nat) (encrypt : Bool) : State :=
  match (s.pair m).cmd? cid with
  | none => s
  | some c =>
    let bs := (List.range c.nlb).map fun i => ({ pair := m, cid, block := i, tweak := c.slba + i, encrypt, slot } : CipherBlock)
    (s.modCmd m cid fun c => { c with left := c.nlb }).modCipher fun x => { x with waiting := x.waiting ++ bs }

/-- R409: a command of which every part has ended completes; the data of a successful Read is decrypted first, if its
namespace names a key slot, and goes to the host. -/
def State.checkParts (s : State) (m cid : Nat) : State :=
  let p := s.pair m
  match p.cmd? cid with
  | none => s
  | some c =>
    if c.sent && c.parts.all (·.done) then
      let st := partsStatus c.parts
      let good := c.parts.filter fun x => !x.failed
      let s := if c.opcode = 9 ∨ (c.opcode = 8 ∧ c.data = []) then
          good.foldl (fun s x => s.modNs p.guest c.nsid fun n => n.unmap x.first x.blocks) s
        else s
      if st.sct ≠ 0 ∨ st.sc ≠ 0 ∨ c.opcode ≠ 2 ∨ 4096 ≤ m then s.complete m cid st
      else
        let s := s.modCmd m cid fun c => { c with data := (c.parts.map fun x => slice x.bytes 0 (4096 * x.blocks)).flatten }
        match (s.ns? p.guest c.nsid).bind (·.keySlot) with
        | some k => s.cipherCmd m cid k false
        | none => s.finishRead m cid
    else s

/-- Every part of a command goes to its backing; blocks that a Write covers are unwritten no longer. -/
def State.sendParts (s : State) (m cid : Nat) : State :=
  let p := s.pair m
  match p.cmd? cid with
  | none => s
  | some c =>
    let writes := c.opcode = 1 ∨ (c.opcode = 8 ∧ c.data ≠ [])
    let ps := c.parts.map fun x =>
      let x := if writes then { x with bytes := slice c.data (4096 * (x.first - c.slba)) (4096 * x.blocks) } else x
      match s.unreachable x with
      | some st => x.ended st
      | none => x
    let s := s.modCmd m cid fun c => { c with sent := true, parts := ps }
    let s := if writes then s.modNs p.guest c.nsid fun n => n.map c.slba c.nlb else s
    s.checkParts m cid

/-- A part ends with a status, and with the data of a read. -/
def State.partEnds (s : State) (m cid part : Nat) (st : CmdStatus) (bytes : List Byte) : State :=
  match (s.pair m).cmd? cid with
  | none => s
  | some c =>
    match c.parts[part]? with
    | some x =>
      if c.sent && !x.done then
        let x := { (x.ended st) with bytes := if c.opcode = 2 then bytes else x.bytes }
        (s.modCmd m cid fun c => { c with parts := c.parts.set part x }).checkParts m cid
      else s
    | none => s

/-- The status of a part as its backing gives it (R417): media and data-integrity statuses are the drive's own. -/
def backingStatus (remote : Bool) (sct sc : Nat) (dnr : Bool) : CmdStatus :=
  if sct = 0 ∧ sc = 0 then {} else if sct = 2 then ⟨2, sc, dnr⟩ else if remote then transportError else internalError

/-- The parts of every command at some backing end with a status. -/
def State.dropParts (s : State) (at_ : Part → Bool) (st : CmdStatus) : State :=
  s.storage.pairs.foldl (fun s e =>
    e.2.cmds.foldl (fun s c => c.parts.zipIdx.foldl (fun s (x, i) => if at_ x then s.partEnds e.1 c.cid i st [] else s) s) s) s

/-- Those at a drive end with Internal Error (its port leaves service), and those at a remote target with Transient Transport Error (its connection is
open no longer). -/
def State.dropDriveParts (s : State) (port : Nat) : State := s.dropParts (fun x => !x.remote && x.port == port) internalError
def State.dropConnParts (s : State) (conn : Nat) : State := s.dropParts (fun x => x.remote && x.conn == conn) transportError

/-- Every namespace with an extent on a drive becomes lost (STORAGE_EVENT kind 4). -/
def State.loseDrive (s : State) (port : Nat) : State :=
  s.storage.namespaces.foldl (fun s e =>
    if !e.2.lost && e.2.extents.any (fun x => !x.remote && x.port == port) then
      let g := e.1 / 512
      let nsid := e.1 % 512
      (s.modNs g nsid fun n => { n with lost := true }).storageEvent 4 0 0xFFFF nsid 0 0 g 0
    else s) s

/-! ## Cipher results (R410, R499) -/

/-- A block of a command leaves its engine, with the engine's result, or with none where its key was empty or lost. -/
def State.blockResult (s : State) (b : CipherBlock) (out : Option (List Byte)) : State :=
  match (s.pair b.pair).cmd? b.cid with
  | none => s
  | some c =>
    match out with
    | none => s.complete b.pair b.cid accessDenied
    | some bytes =>
      let c := { c with data := c.data.take (4096 * b.block) ++ bytes ++ c.data.drop (4096 * b.block + 4096), left := c.left - 1 }
      let s := s.modCmd b.pair b.cid fun _ => c
      if c.left ≠ 0 then s else if b.encrypt then s.sendParts b.pair b.cid else s.finishRead b.pair b.cid

/-- Stage S4 or a warm start: every command in execution ends with Command Interrupted. -/
def State.interruptStorage (s : State) : State :=
  let s := s.storage.pairs.foldl (fun s e => e.2.cmds.foldl (fun s c => s.complete e.1 c.cid interrupted) s) s
  { s with guests := fmap s.guests fun _ g => { g with aers := [] } }

/-- Stage S3 holds every pair; leaving it lets them fetch again. -/
def State.holdPairs (s : State) (hold : Bool) : State :=
  s.modStorage fun t =>
    { t with pairs := fmap t.pairs fun _ p =>
        { p with state := if hold then (if p.state = 1 then 2 else p.state) else if p.state = 2 then 1 else p.state } }

end Sys2Proof.Machine
end

