-- ==== Sys2Proof/Machine/CipherOps.lean ====
section
/-! DEFINITION. The key store and the cipher engines (chapter 15): slots and KEKs, the key lane and the engine caches, runs and
storage blocks on engines, alarms and zeroisation, and the key and cipher messages. -/

namespace Sys2Proof.Machine

/-! ## Keys -/

/-- The bytes of a 256-bit key. -/
def keyBytes (k : BitVec 256) : List Byte := beBytes 32 k.toNat
def keyOf (b : List Byte) : BitVec 256 := BitVec.ofNat 256 (beNat (slice b 0 32))

/-- The kind of a slot; none is EMPTY. -/
def State.slotKind (s : State) (k : Nat) : Option SlotKind := (fget s.cipher.slots k).map (·.kind)

/-- The key that a slot of a kind holds: the second half is that of XTS_HI (R486). -/
def State.slotKey (s : State) (k : Nat) (kind : SlotKind) : Option (BitVec 256 × BitVec 256) :=
  match fget s.cipher.slots k with
  | some a =>
    if a.kind = kind then
      match kind with
      | .gcm => some (a.bits, 0)
      | _ => match fget s.cipher.slots (k + 1) with | some b => some (a.bits, b.bits) | none => none
    else none
  | none => none

/-- R496: a slot, and for XTS_LO its pair, is zeroised, and cached copies are invalidated. -/
def State.clearSlot (s : State) (k : Nat) : State :=
  let both := s.slotKind k = some .xtsLo
  s.modCipher fun c =>
    { c with
      slots := if both then fdel (fdel c.slots k) (k + 1) else fdel c.slots k,
      engines := fmap c.engines fun _ e => { e with cache := e.cache.filter (·.1 != k) } }

/-- Every slot of a room is cleared as by KEY_CLEAR (R504). -/
def State.clearRoomSlots (s : State) (room : Nat) : State := (List.range 8).foldl (fun s j => s.clearSlot (8 * room + j)) s

/-- CIPHER_EVENT. -/
def State.cipherEvent (s : State) (kind result loc causes bytes guest seq : Nat) : State :=
  s.raise 0x0A80 (leBytes 1 kind ++ leBytes 1 result ++ leBytes 2 loc ++ leBytes 1 causes ++ zeros 3 ++ leBytes 8 bytes) guest seq
    (if result = 0 then 0 else Status.faulted.code)

/-! ## Engines (R488 to R492) -/

/-- Whether a run uses a GCM key. -/
def CipherRun.gcm (r : CipherRun) : Bool := decide (r.mode < 2)
def CipherRun.kind (r : CipherRun) : SlotKind := if r.gcm then .gcm else .xtsLo

/-- The slot whose key an engine's operation needs. -/
def Engine.needs (e : Engine) : Option (Nat × SlotKind) :=
  match e.run, e.block with
  | some r, _ => some (r.slot, r.kind)
  | none, some b => some (b.slot, .xtsLo)
  | none, none => none

def Engine.busy (e : Engine) : Bool := e.run.isSome || e.block.isSome

/-- An engine's operation gets its key, which the cache holds as its most recently used one. -/
def Engine.withKey (e : Engine) (slot : Nat) (k : BitVec 256 × BitVec 256) : Engine :=
  { e with
    fetching := false, cache := ((slot, k) :: e.cache.filter (·.1 != slot)).take 8,
    run := e.run.map fun r => { r with key := some k }, block := e.block.map fun b => { b with key := some k } }

/-- An operation starts on an engine: its key comes from the cache, or is fetched over the key lane (R490). -/
def Engine.start (e : Engine) : Engine :=
  match e.needs with
  | some (slot, _) =>
    match e.cache.find? (·.1 == slot) with
    | some (_, k) => e.withKey slot k
    | none => { e with fetching := true }
  | none => e

/-- The engines that hold a CIPHER_RUN. -/
def State.runsOn (s : State) : Nat := (s.cipher.engines.filter (·.2.run.isSome)).length

/-- The lowest-numbered engine that is free. -/
def State.freeEngine (s : State) : Option Nat := (List.range 32).find? fun e => !(s.engine e).busy

/-- Whether the engines have power (R504, R548). -/
def State.enginesOn (s : State) : Bool := decide (s.stage < 4) && (s.firm.mstate != .auxOnly)

/-- Waiting storage blocks, then waiting runs, are handed to free engines (R488); runs wait in stage S3 and beyond (R504). -/
def State.pumpFuel : Nat → State → State
  | 0, s => s
  | f + 1, s =>
    if !s.enginesOn then s
    else
      match s.freeEngine with
      | none => s
      | some e =>
        match s.cipher.waiting with
        | b :: r =>
          let s := s.modCipher fun c => { c with waiting := r }
          pumpFuel f (s.modEngine e fun x => ({ x with block := some b } : Engine).start)
        | [] =>
          match s.cipher.waitRuns with
          | r :: rs =>
            if s.stage < 3 ∧ s.runsOn < 16 then
              let s := s.modCipher fun c => { c with waitRuns := rs }
              pumpFuel f (s.modEngine e fun x => ({ x with run := some r } : Engine).start)
            else s
          | [] => s

def State.pump (s : State) : State := s.pumpFuel 32

/-- An engine's operation ends; the engine is free. -/
def State.freeUp (s : State) (e : Nat) : State := s.modEngine e fun x => { x with run := none, block := none, fetching := false }

/-- A run ends with a result; bytes it has written are reported. -/
def State.endRun (s : State) (e : Nat) (r : CipherRun) (result bytes : Nat) : State :=
  let s := if result = 1 then s.modCipher fun c => { c with authFails := satInc c.authFails } else s
  (s.freeUp e).cipherEvent 0 result r.localSlot 0 bytes r.guest r.seq

/-- A run that is cut off: the bytes it has written are undefined, and so is their number (notes/assumptions/2.md): those after them stay, and one that
is still waiting for its key has written none. -/
def State.cutRun (s : State) (e : Nat) (r : CipherRun) (result : Nat) : State :=
  let (b, s) := s.freeBytes r.length
  let n := if r.key.isSome then (Config.freeWord s.fresh).toNat % (r.length + 1) else 0
  let s := { s with fresh := s.fresh + 1 }
  let s := if s.guestMem r.guest r.dest r.length then s.memWrite r.dest (b.take n) (.cipher e) else s
  s.endRun e r result n

/-- KEY_FETCH_DONE: the fetched key enters the engine's cache; a slot that was cleared since is found EMPTY (R492). -/
def State.keyFetched (s : State) (e : Nat) : State :=
  let x := s.engine e
  match x.needs with
  | some (slot, kind) =>
    if x.fetching then
      match s.slotKey slot kind with
      | some k => s.modEngine e fun x => x.withKey slot k
      | none =>
        match x.run, x.block with
        | some r, _ => (s.endRun e r 2 0).pump
        | none, some b => ((s.freeUp e).blockResult b none).pump
        | none, none => s
    else s
  | none => s

/-! ## Running operations (R485, R486, R501, R503) -/

/-- The first 64-byte step of a range that a read of the guest's memory fails at; the length if none does. -/
def State.goodBytes (s : State) (g a n : Nat) : Nat :=
  match (List.range (ceilDiv n 64)).find? fun i =>
      s.rangeStatus (a + 64 * i) (min 64 (n - 64 * i)) != .ok || !s.guestMem g (a + 64 * i) (min 64 (n - 64 * i)) with
  | some i => 64 * i
  | none => n

/-- A run on bytes: what it writes. -/
def CipherRun.transform (r : CipherRun) (k : BitVec 256 × BitVec 256) (m : List Byte) : List Byte :=
  if r.gcm then gcmCtr (keyBytes k.1) (r.iv.take 12) m
  else xts (r.mode == 2) (keyBytes k.1) (keyBytes k.2) (leNat r.iv) (if r.unit = 0 then 512 else 4096) m

/-- CIPHER_RUN_DONE: the operation of an engine that holds its key is carried out and ends. -/
def State.runDone (s : State) (e : Nat) : State :=
  match (s.engine e).run with
  | none => s
  | some r =>
    match r.key with
    | none => s
    | some k =>
      let n := s.goodBytes r.guest r.source r.length
      let aadOk := s.goodBytes r.guest r.aad r.aadLen == r.aadLen
      let (aad, _, s) := s.memRead r.aad r.aadLen
      let (m, _, s) := s.memRead r.source r.length
      let bad := fun (s : State) => if s.guestMem r.guest r.source r.length then s else s.guestFault r.guest
      let n := if aadOk then n else 0
      let out := r.transform k (m.take (if r.gcm then n else n / (if r.unit = 0 then 512 else 4096) * (if r.unit = 0 then 512 else 4096)))
      let s := if s.guestMem r.guest r.dest r.length then s.memWrite r.dest out (.cipher e) else s.guestFault r.guest
      if n < r.length then ((bad s).endRun e r 3 out.length).pump
      else if r.mode = 0 then
        ((s.memWrite r.tagAddr (gcmTag (keyBytes k.1) (r.iv.take 12) aad out) (.cipher e)).endRun e r 0 r.length).pump
      else if r.mode = 1 then
        let tagOk := s.goodBytes r.guest r.tagAddr 16 == 16
        let (tag, _, s) := s.memRead r.tagAddr 16
        let want := gcmTag (keyBytes k.1) (r.iv.take 12) aad m
        (s.endRun e r (if !tagOk then 3 else if tag = want then 0 else 1) r.length).pump
      else (s.endRun e r 0 r.length).pump

/-- CIPHER_BLOCK_DONE: an engine that holds its key finishes a storage block and takes the next. -/
def State.blockDone (s : State) (e : Nat) : State :=
  match (s.engine e).block with
  | none => s
  | some b =>
    match b.key with
    | none => s
    | some k =>
      let m := match (s.pair b.pair).cmd? b.cid with | some c => slice c.data (4096 * b.block) 4096 | none => zeros 4096
      ((s.freeUp e).blockResult b (some (xts b.encrypt (keyBytes k.1) (keyBytes k.2) b.tweak 4096 m))).pump

def execKeyFetchDone (engine : Nat) (s : State) : Out := done (if engine < 32 then s.keyFetched engine else s)
def execCipherRunDone (engine : Nat) (s : State) : Out := done (if engine < 32 then s.runDone engine else s)
def execCipherBlockDone (engine : Nat) (s : State) : Out := done (if engine < 32 then s.blockDone engine else s)

/-! ## Alarms (R497 to R500) -/

/-- R498, R499: every slot, KEK and cache entry is zeroised; what runs ends with KEY_LOST, and a storage block's command as for
an empty slot. -/
def State.zeroise (s : State) : State :=
  let s := s.modCipher fun c => { c with slots := [], keks := [], engines := fmap c.engines fun _ e => { e with cache := [] } }
  let s := s.cipher.engines.foldl (fun s e =>
    match e.2.run, e.2.block with
    | some r, _ => (s.modCipher fun c => { c with keyLost := satInc c.keyLost }).cutRun e.1 r 2
    | none, some b => ((s.modCipher fun c => { c with keyLost := satInc c.keyLost }).freeUp e.1).blockResult b none
    | none, none => s) s
  s.pump

/-- An alarm cause passes its filter: the alarm is raised, and source 3 of every core fires (R497, R567). -/
def State.alarm (s : State) (cause : Nat) : State :=
  if 5 ≤ cause ∨ s.cipher.active.getLsbD cause then s
  else
    let b := BitVec.ofNat 5 (2 ^ cause)
    let s := s.modCipher fun c => { c with active := c.active ||| b, latched := c.latched ||| b, count := satInc c.count }
    (s.fireAll 3).zeroise.cipherEvent 1 0 0xFFFF (2 ^ cause) 0 0xFFFF 0

def execAlarm (cause : Nat) (s : State) : Out := done (s.alarm cause)

/-- ALARM_REZEROISE: a standing cause zeroises again. -/
def execAlarmRezeroise (cause : Nat) (s : State) : Out := done (if s.cipher.active.getLsbD cause then s.zeroise else s)

/-- ALARM_CAUSE_CLEAR: a cause stands no longer. -/
def execAlarmCauseClear (cause : Nat) (s : State) : Out :=
  done (s.modCipher fun c => { c with active := c.active &&& ~~~BitVec.ofNat 5 (if cause < 5 then 2 ^ cause else 0) })

/-! ## Stage S4 (R504) -/

/-- The engines lose power: running operations end INTERRUPTED, waiting runs wait on, and the caches are cleared. -/
def State.stopEngines (s : State) : State :=
  let s := s.cipher.engines.foldl (fun s e =>
    match e.2.run with
    | some r => s.cutRun e.1 r 4
    | none => s) s
  s.modCipher fun c => { c with engines := [], waiting := [] }

/-- A warm start leaves no run in progress (R505): those that still wait end INTERRUPTED, with nothing written (notes/assumptions/104.md). -/
def State.endWaiting (s : State) : State :=
  let s' := s.modCipher fun c => { c with waitRuns := [] }
  s.cipher.waitRuns.foldl (fun s r => s.cipherEvent 0 4 r.localSlot 0 0 r.guest r.seq) s'

/-- The key store lies in the always-on domain: what of the cipher block outlasts the main domains (R489, R564). -/
def Cipher.kept (c : Cipher) : Cipher := { slots := c.slots, keks := c.keks, active := c.active &&& 0xF, latched := c.latched, count := c.count }

/-- A cold start zeroises every slot and every KEK, and the counts begin again (R504, R505). -/
def Cipher.zeroised (c : Cipher) : Cipher := { active := c.active }

/-! ## Messages (R493 to R496, R503) -/

def keyIdentityBlock : ReqBlock :=
  { opcode := 0x0A01, states := [.ready, .degraded, .shedding, .safeHold],
    run := fun _ s =>
      let q := ecMul pGx pGy Config.identityKey
      { state := s, payload := beBytes 48 q.1 ++ beBytes 48 q.2 } }

def kekInstallBlock : ReqBlock :=
  { opcode := 0x0A02,
    bad := fun r _ => decide (15 < r.f 0 1) || r.resv 1 7 || !onCurve (beNat (r.b 8 48)) (beNat (r.b 56 48)),
    conflict := fun _ s => s.cipher.active != 0,
    run := fun r s =>
      let z := (ecMul (beNat (r.b 8 48)) (beNat (r.b 56 48)) Config.identityKey).1
      let info := [0x55, 0x4C, 0x50, 0x4B, 0x2D, 0x4B, 0x45, 0x4B] ++ r.b 0 1 ++ leBytes 8 Config.serial.toNat
      { state := s.modCipher fun c => { c with keks := fset c.keks (r.f 0 1) (keyOf (hkdf384 (beBytes 48 z) info 32)) } } }

/-- The module slot that a message's SLOT names. -/
def Req.keySlot (r : Req) (s : State) (off : Nat) : Option Nat := (s.guest r.guest).moduleNo 8 (r.f off 2)

def keyLoadBlock : ReqBlock :=
  { opcode := 0x0A03, sender := .guest,
    bad := fun r s =>
      r.f 2 1 == 0 || decide (2 < r.f 2 1) || decide (15 < r.f 3 1) || r.resv 4 4 || (r.f 2 1 == 1 && r.resv 48 32)
        || (r.f 2 1 == 2 && r.f 0 2 % 2 == 1) || ((s.guest? r.guest).isSome && (r.keySlot s 0).isNone),
    conflict := fun r s =>
      s.cipher.active != 0 || (s.guest? r.guest).isNone || (match r.keySlot s 0 with
        | none => true
        | some k => !(s.guest r.guest).holdsNo 8 k || (s.slotKind k).isSome || (r.f 2 1 == 2 && (s.slotKind (k + 1)).isSome))
        || (fget s.cipher.keks (r.f 3 1)).isNone,
    run := fun r s =>
      match r.keySlot s 0, fget s.cipher.keks (r.f 3 1) with
      | some k, some kek =>
        let xts := r.f 2 1 == 2
        match unwrapKey (keyBytes kek) (r.b 8 (if xts then 72 else 40)) with
        | none => { state := s, status := .faulted }
        | some m =>
          let lo := keyOf m
          let hi := keyOf (m.drop 32)
          if xts && lo == hi then { state := s, status := .faulted }
          else
            { state := s.modCipher fun c =>
                { c with slots :=
                    if xts then fset (fset c.slots k { kind := .xtsLo, bits := lo }) (k + 1) { kind := .xtsHi, bits := hi }
                    else fset c.slots k { kind := .gcm, bits := lo } } }
      | _, _ => { state := s, status := .faulted } }

/-- Whether an operation that has fetched the key of a slot still runs (R492, R496). -/
def State.slotHeld (s : State) (k : Nat) : Bool :=
  s.cipher.engines.any fun e => match e.2.run, e.2.block with
    | some r, _ => r.slot == k && r.key.isSome
    | none, some b => b.slot == k && b.key.isSome
    | none, none => false

def keyClearBlock : ReqBlock :=
  { opcode := 0x0A04, sender := .guest,
    bad := fun r s => r.resv 2 6 || ((s.guest? r.guest).isSome && (r.keySlot s 0).isNone),
    conflict := fun r s =>
      match (s.guest? r.guest).bind fun _ => r.keySlot s 0 with
      | none => true
      | some k => s.slotKind k = none || s.slotKind k = some .xtsHi,
    run := fun r s =>
      match r.keySlot s 0 with
      | none => { state := s }
      | some k =>
        let s := s.clearSlot k
        if s.slotHeld k then { state := s.modCipher fun c => { c with clearing := c.clearing.filter (·.1 != r.slot) ++ [(r.slot, k)] }, later := true }
        else { state := s } }

/-- KEY_CLEAR_DONE: no running operation holds the key that the KEY_CLEAR in a pigeonhole cleared. -/
def State.keyClearDone (s : State) (slot : Nat) : State :=
  match s.cipher.clearing.find? (·.1 == slot) with
  | none => s
  | some (_, k) =>
    if s.slotHeld k then s
    else
      let s := s.modCipher fun c => { c with clearing := c.clearing.filter (·.1 != slot) }
      match s.beganBy slot with
      | some c => if (s.hole slot).num 2 2 = 0x0A04 then (s.finish c).respond slot .ok [] else s
      | none => s

def cipherRunBlock : ReqBlock :=
  { opcode := 0x0A10, sender := .guest,
    bad := fun r s =>
      let gcm := decide (r.f 0 1 < 2)
      let unit := if r.f 1 1 = 0 then 512 else 4096
      let len := r.f 24 8
      decide (3 < r.f 0 1) || decide (1 < r.f 1 1) || (gcm && r.f 1 1 != 0) || r.resv 4 4 || r.resv 44 4 || r.resv 72 8
        || (r.keySlot s 2).isNone || (!gcm && r.f 2 2 % 2 == 1) || len == 0 || decide (67108864 < len) || (!gcm && len % unit != 0)
        || (if gcm then decide (65536 < r.f 40 4) || r.f 60 4 != 0 else r.f 40 4 != 0 || r.f 64 8 != 0)
        || (r.f 40 4 == 0 && r.f 32 8 != 0)
        || (r.f 8 8 != r.f 16 8 && overlaps (r.f 8 8) len (r.f 16 8) len)
        || !s.guestMem r.guest (r.f 8 8) len || !s.guestMem r.guest (r.f 16 8) len
        || (r.f 40 4 != 0 && !s.guestMem r.guest (r.f 32 8) (r.f 40 4)) || (gcm && !s.guestMem r.guest (r.f 64 8) 16),
    conflict := fun r s =>
      match r.keySlot s 2 with
      | some k => s.slotKind k != some (if r.f 0 1 < 2 then .gcm else .xtsLo)
      | none => true,
    short := fun _ s => decide (16 ≤ s.runsOn + s.cipher.waitRuns.length),
    run := fun r s =>
      let run : CipherRun :=
        { guest := r.guest, mode := r.f 0 1, unit := r.f 1 1, slot := (r.keySlot s 2).getD 0, localSlot := r.f 2 2, source := r.f 8 8,
          dest := r.f 16 8, length := r.f 24 8, aad := r.f 32 8, aadLen := r.f 40 4, iv := r.b 48 16, tagAddr := r.f 64 8, seq := r.seq }
      deferred (s.modCipher fun c => { c with waitRuns := c.waitRuns ++ [run] }).pump }

def execKeyIdentity (slot : Nat) (s : State) : Out := done (serve keyIdentityBlock slot s)
def execKekInstall (slot : Nat) (s : State) : Out := done (serve kekInstallBlock slot s)
def execKeyLoad (slot : Nat) (s : State) : Out := done (serve keyLoadBlock slot s)
def execKeyClear (slot : Nat) (s : State) : Out := done (serve keyClearBlock slot s)
def execKeyClearDone (slot : Nat) (s : State) : Out := done (s.keyClearDone slot)
def execCipherRun (slot : Nat) (s : State) : Out := done (serve cipherRunBlock slot s)

end Sys2Proof.Machine
end

