-- ==== Sys2Proof/Machine/Traffic.lean ====
section
/-! DEFINITION. Egress scheduling (chapter 14): entry and policing of frames, shapers, the choice of the next frame, timetables, time
gates and queue samples, and the traffic messages. -/

namespace Sys2Proof.Machine

/-! ## Ports and times -/

/-- Ports of a configuration and their rate in Mb/s (R425). -/
def portsOf (config : Nat) : Nat := if config = 1 then 8 else if config = 2 then 32 else 16
def rateOf (config : Nat) : Nat := if config = 1 then 1600000 else if config = 2 then 400000 else 800000
def State.netPorts (s : State) : Nat := portsOf s.net.config
def State.portRate (s : State) : Nat := rateOf s.net.config

/-- Courier time in ns: AON cycles of 40 ns, and token updates of 10 ns within one (R477, notes/assumptions/102.md). -/
def State.nowNs (s : State) : Nat := s.net.time.toNat * 1000 + s.net.timeFrac * 40 + s.net.timeNs

/-- L: the frame length with its FCS (R464). -/
def EgressFrame.len (f : EgressFrame) : Nat := f.bytes.length + 4

/-- The wire time of L bytes in ns, rounded up (R464). -/
def wireNs (rate l : Nat) : Nat := ceilDiv ((l + 20) * 8 * 1000) rate

/-- The egress buffer of a port (R464). -/
def State.egressBuffer (s : State) : Nat := 0x4000000 / s.netPorts

def Egress.queue (e : Egress) (q : Nat) : EgressQueue := fgetD {} e.queues q
def Egress.modQueue (e : Egress) (q : Nat) (f : EgressQueue → EgressQueue) : Egress := { e with queues := fupd {} e.queues q f }
/-- Frames admitted and not yet finished on the line. -/
def Egress.held (e : Egress) : List EgressFrame := e.line.toList ++ e.frames
def Egress.depth (e : Egress) (q : Nat) : Nat := ((e.held.filter (·.queue = q)).map EgressFrame.len).sum

/-! ## Token buckets (R465, R466) -/

/-- What a bucket gains in 10 ns at a rate of n/d Mb/s. -/
def gain (rate d : Nat) : Nat := rate * 8192 / (100 * d)
def Bucket.fill (b : Bucket) : Bucket := { b with tokens := min (b.tokens + gain b.rate 1) (b.size * 65536) }
def Bucket.holds (b : Bucket) (l : Nat) : Bool := decide (l * 65536 ≤ b.tokens)
/-- A charge; a bucket that lacks L is left empty (notes/assumptions/19.md). -/
def Bucket.charge (b : Bucket) (l : Nat) : Bucket := { b with tokens := b.tokens - l * 65536 }
/-- R466: a new rate and size; the tokens stay, capped. -/
def Bucket.setup (b : Bucket) (rate size : Nat) : Bucket := { rate, size, tokens := min b.tokens (size * 65536) }

/-- TOKEN_UPDATE: 10 ns have passed, and every bucket of every port gains its tokens. -/
def execTokenUpdate (s : State) : Out :=
  let s := s.modNet fun n => { n with timeNs := min 30 (n.timeNs + 10) }
  done ((List.range s.netPorts).foldl (fun s p =>
    let cap := 2 * (s.netPort p).maxFrame * 65536
    s.modEgress p fun e =>
      let f := gain e.wgMin 1024
      { e with
        queues := fmap e.queues fun _ q =>
          { q with polCommitted := q.polCommitted.fill, polPeak := q.polPeak.fill, shCommitted := q.shCommitted.fill, shPeak := q.shPeak.fill },
        minTokens := min (e.minTokens + gain e.wgMin 1) cap,
        floorBase := min (e.floorBase + f) cap,
        floors := fmap e.floors fun _ t => min (t + f) cap }) s)

/-! ## Entry (R462 to R468) -/

/-- A frame is offered to an egress port; it enters by EGRESS_ENQUEUE. -/
def State.offer (s : State) (port : Nat) (f : EgressFrame) : State := s.modEgress port fun e => { e with waiting := e.waiting ++ [f] }

/-- Drops counted in NET_PORT_ERR_p.DROPS. -/
def State.countDrops (s : State) (port n : Nat) : State := s.modNetPort port fun x => { x with drops := satAdd x.drops n }

/-- RFC 2698's colour of a frame of L bytes: red, yellow or green. -/
inductive Colour where
  | red | yellow | green
  deriving DecidableEq, Repr

def EgressQueue.colour (q : EgressQueue) (l : Nat) : Colour :=
  if !q.policer then .green
  else if !q.polPeak.holds l then .red
  else if !q.polCommitted.holds l then .yellow else .green

/-- The buckets that an admitted frame is charged to. -/
def EgressQueue.police (q : EgressQueue) (l : Nat) (c : Colour) : EgressQueue :=
  if !q.policer then q
  else
    match c with
    | .red => q
    | .yellow => { q with polPeak := q.polPeak.charge l }
    | .green => { q with polPeak := q.polPeak.charge l, polCommitted := q.polCommitted.charge l }

/-- R472: a queue that empties has its deficit set to 0. -/
def Egress.settled (e : Egress) : Egress :=
  { e with queues := fmap e.queues fun q x => if e.frames.any (·.queue == q) then x else { x with deficit := 0 } }

/-- A change of settings takes effect. -/
def Egress.apply (e : Egress) : EgressChange → Egress
  | .queue q weight policer shaper limit deLimit => e.modQueue q fun x => { x with weight, policer, shaper, limit, deLimit }
  | .dscp map => { e with dscp := map }

/-- R479: a change waits for the frame on the line. -/
def Egress.change (e : Egress) (c : EgressChange) : Egress := if e.line.isSome then { e with changes := e.changes ++ [c] } else e.apply c

/-- A frame boundary: the line is free, and what waited for it takes effect. -/
def Egress.boundary (e : Egress) : Egress := { e.changes.foldl Egress.apply e with line := none, changes := [] }

/-- R479: a room's queued frames are discarded and counted. -/
def State.dropRoom (s : State) (room : Nat) : State :=
  (List.range s.netPorts).foldl (fun s p =>
    let e := s.egress p
    let n := ((e.frames ++ e.waiting).filter (·.room = some room)).length
    if n = 0 then s
    else (s.modEgress p fun e =>
      ({ e with frames := e.frames.filter (·.room != some room), waiting := e.waiting.filter (·.room != some room) } : Egress).settled).countDrops p n) s

/-- R428, R429: everything queued on a port is discarded, and what was on the line has gone. -/
def State.dropPort (s : State) (p : Nat) : State :=
  let e := s.egress p
  let n := e.frames.length + e.waiting.length
  (s.modEgress p fun e => ({ e with frames := [], waiting := [] } : Egress).boundary.settled).countDrops p n

/-! ## Gates (R476, R477) -/

def GateList.cycle (g : GateList) : Nat := (g.entries.map (·.2)).sum
def Timetable.period (t : Timetable) : Nat := t.slotNs * t.flows.length

/-- The first instant BASE + n × length, n ≥ 0, that is no earlier than `after`; an empty list has no cycle, and waits for `after` itself. -/
def firstInstant (base length : Nat) (after : Int) : Nat :=
  if after ≤ base then base else if length = 0 then after.toNat else base + ceilDiv (after - base).toNat length * length

/-- Time left in the gate entry in force. -/
def Egress.gateLeft (e : Egress) (now : Nat) : Nat :=
  match e.gates.entries[e.gateEntry]? with
  | some x => (e.gateStart + x.2 - now).toNat
  | none => 0

/-- When the entry in force ends. -/
def Egress.entryEnd (e : Egress) : Int := e.gateStart + (match e.gates.entries[e.gateEntry]? with | some x => x.2 | none => 0)

/-- When the cycle of the list in force ends; now, where none runs. -/
def Egress.cycleEnd (e : Egress) (now : Nat) : Int :=
  if e.gates.entries.isEmpty then now else e.gateStart + ((e.gates.entries.drop e.gateEntry).map (·.2)).sum

/-- How far a time lies in the cycle or period of a length that starts at BASE + n × length, for every integer n. -/
def phase (base length now : Nat) : Nat := if length = 0 then 0 else (((now : Int) - base) % length).toNat

/-- When the running period of the timetable ends; now, where none runs. -/
def Egress.periodEnd (e : Egress) (now : Nat) : Int :=
  if e.tt.flows.isEmpty then now else e.ttStart + (e.tt.flows.length - e.ttSlot : Nat) * e.tt.slotNs

/-- R477: a gate list or timetable is accepted, to take effect at the first start of its own cycle or period that is no earlier than
the end of the running one. -/
def Egress.pendGates (e : Egress) (now : Nat) (g : GateList) : Egress :=
  { e with gatesPending := some g, gatesDue := firstInstant (1000 * g.base) g.cycle (e.cycleEnd now) }
def Egress.pendTimetable (e : Egress) (now : Nat) (t : Timetable) : Egress :=
  { e with ttPending := some t, ttDue := firstInstant (1000 * t.base) t.period (e.periodEnd now) }

/-- Whether gate b stays open for the next t ns, by masks and how long each stays; after the last, as through all of them. -/
def openFor (b : Nat) : List (BitVec 10 × Nat) → Nat → Bool
  | [], _ => true
  | (m, d) :: r, t => t == 0 || ((d == 0 || m.getLsbD b) && openFor b r (t - d))

/-- Whether gate b stays open for t ns from now on: under the list in force, whose closed entries come again within one cycle, up to a
pending switch, and then under the new list. -/
def Egress.gateOpen (e : Egress) (now b t : Nat) : Bool :=
  let es := e.gates.entries
  let cur : List (BitVec 10 × Nat) :=
    match es[e.gateEntry]? with
    | some x => (x.1, e.gateLeft now) :: es.drop (e.gateEntry + 1) ++ es
    | none => []
  match e.gatesPending with
  | none => openFor b cur t
  | some g => openFor b cur (min t (e.gatesDue - now)) && openFor b g.entries (t - (e.gatesDue - now))

/-- The gate bit of a queue (R461). -/
def gateBit (q : Nat) : Nat := if q < 8 then q else if q < 72 then 8 else 9

/-- The instant of a port's decision: no earlier than the end of the frame before it, or than the start of the gate entry in force. -/
def State.decideNs (s : State) (p : Nat) : Nat :=
  let e := s.egress p
  max (max s.nowNs e.lineEnd) (if e.gates.entries.isEmpty then 0 else e.gateStart.toNat)

/-- Whether the gates pass a frame of a queue now; without feature bit 9 they pass every frame (R483). -/
def State.gatePasses (s : State) (p q l : Nat) : Bool :=
  !s.feature 9 || (s.egress p).gateOpen (s.decideNs p) (gateBit q) (wireNs s.portRate l)

/-! ## The choice of the next frame (R469 to R473) -/

/-- Whether a queue's shaper lets a frame of L bytes start (R469). -/
def EgressQueue.eligible (q : EgressQueue) (both : Bool) (l : Nat) : Bool :=
  !q.shaper || (q.shPeak.holds l && (!both || q.shCommitted.holds l))

/-- Whether a frame may start now: its queue is eligible and its gate passes it. -/
def State.mayStart (s : State) (p : Nat) (f : EgressFrame) : Bool :=
  (decide (72 ≤ f.queue) || ((s.egress p).queue f.queue).eligible (decide (2 ≤ s.stage)) f.len) && s.gatePasses p f.queue f.len

/-- The head of a FIFO: of a queue, and of a room or the manager in a weighted queue. -/
def Egress.head (e : Egress) (q : Nat) (room : Option Nat) : Option EgressFrame :=
  e.frames.find? fun f => f.queue == q && (decide (q < 8) || decide (72 ≤ q) || f.room == room)

/-- The floor tokens of a room. -/
def Egress.floor (e : Egress) (r : Nat) : Nat := fgetD e.floorBase e.floors r

/-- R472: the floor tier's frame and room: the rooms in round-robin order, a room passed over keeping its place. -/
def State.floorPick (s : State) (p : Nat) : Option (Nat × EgressFrame) :=
  let e := s.egress p
  let rooms := (e.frames.filterMap (·.room)).dedup
  let order := (rooms.filter fun r => !e.roomServed.contains r).insertionSort (· ≤ ·) ++ e.roomServed.filter rooms.contains
  order.findSome? fun r =>
    let cand := (List.range 64).findSome? fun i =>
      match e.head (8 + i) (some r) with
      | some f => if s.mayStart p f then some f else none
      | none => none
    match cand with
    | some f => if f.len * 65536 ≤ e.floor r then some (r, f) else none
    | none => none

/-- The number of a FIFO in the round-robin order of a queue: the rooms, then the manager. -/
def fifoNo (f : EgressFrame) : Nat := f.room.getD 1024

/-- The FIFO head that the round-robin among a queue's FIFOs comes to next, of those that the gates pass: a head that they hold blocks its
own FIFO only (R476). -/
def Egress.nextHead (e : Egress) (q : Nat) (passes : EgressFrame → Bool) : Option EgressFrame :=
  let heads := (((e.frames.filter (·.queue = q)).map (·.room)).dedup.filterMap (e.head q)).filter passes
  let at' := (e.queue q).fifoRr
  let best := fun (l : List EgressFrame) => l.foldl (fun (a : Option EgressFrame) f =>
    match a with | none => some f | some x => if fifoNo f < fifoNo x then some f else some x) none
  match best (heads.filter fun f => at' ≤ fifoNo f) with
  | some f => some f
  | none => best heads

/-- R472: the deficit tier, visit by visit. -/
def State.deficitPick (s : State) (p : Nat) : Nat → Egress → Option (EgressFrame × Egress)
  | 0, _ => none
  | fuel + 1, e =>
    let q := e.queueRr
    let move := fun (e : Egress) => { e with queueRr := if q = 71 then 8 else q + 1, visited := false }
    if !e.frames.any (·.queue == q) then s.deficitPick p fuel (move e)
    else
      let e := if e.visited then e
        else { (e.modQueue q fun x => { x with deficit := x.deficit + 256 * x.weight }) with visited := true }
      match e.nextHead q fun f => s.gatePasses p f.queue f.len with
      | none => s.deficitPick p fuel (move e)
      | some f =>
        if f.len ≤ (e.queue q).deficit && s.mayStart p f then
          some (f, e.modQueue q fun x => { x with deficit := x.deficit - f.len, fifoRr := (fifoNo f + 1) % 1025 })
        else s.deficitPick p fuel (move e)

/-- The weighted group's next frame, and the scheduler's state once it starts. -/
def State.weightedPick (s : State) (p : Nat) : Option (EgressFrame × Egress) :=
  let e := s.egress p
  match s.floorPick p with
  | some (r, f) => some (f, { e with floors := fset e.floors r (e.floor r - f.len * 65536), roomServed := e.roomServed.erase r ++ [r] })
  | none =>
    if (List.range 64).any fun i => match e.nextHead (8 + i) fun f => s.gatePasses p f.queue f.len with | some f => s.mayStart p f | none => false then
      s.deficitPick p 4096 e
    else none

/-- R469, R471: a frame starts on the line, until an instant: it leaves its queue and is charged. -/
def Egress.start (e : Egress) (both : Bool) (f : EgressFrame) (lineEnd : Nat) : Egress :=
  let l := f.len
  let e := ({ e with frames := e.frames.erase f, line := some f, lineEnd } : Egress).settled
  let e := if 8 ≤ f.queue ∧ f.queue < 72 then { e with minTokens := e.minTokens - l * 65536 } else e
  if f.queue < 72 ∧ (e.queue f.queue).shaper then
    e.modQueue f.queue fun q =>
      { q with
        shPeak := q.shPeak.charge l,
        shCommitted := if both || q.shCommitted.holds l then q.shCommitted.charge l else q.shCommitted }
  else e

/-- R470: the frame chosen at a frame boundary, with the scheduler's state. -/
def State.nextFrame (s : State) (p : Nat) : Option (EgressFrame × Egress) :=
  let e := s.egress p
  let timed := match e.ttGrant with
    | some flow => match e.head (72 + flow) none with | some f => if s.gatePasses p (72 + flow) f.len then some f else none | none => none
    | none => none
  match timed with
  | some f => some (f, { e with ttGrant := none })
  | none =>
    let w := s.weightedPick p
    let strict := (List.range 8).findSome? fun q =>
      match e.head q none with | some f => if s.mayStart p f then some f else none | none => none
    match w with
    | some (f, e') =>
      if f.len * 65536 ≤ e.minTokens then some (f, e')
      else match strict with | some g => some (g, e) | none => some (f, e')
    | none => strict.map fun g => (g, e)

/-- SCHEDULER_DECIDE: the frame on the line has finished, and the next starts; its bytes go out on the port. -/
def execSchedulerDecide (port : Nat) (s : State) : Out :=
  let s := s.modEgress port Egress.boundary
  match s.nextFrame port with
  | none => done s
  | some (f, e) =>
    let both := decide (2 ≤ s.stage)
    let s := s.modEgress port fun _ => e.start both f (s.decideNs port + wireNs s.portRate f.len)
    done (s.modNet fun n => { n with sentFrames := n.sentFrames ++ [(port, f.bytes)] })

/-! ## Time events (R474 to R478) -/

/-- Whether an instant has come, to the resolution of the AON clock. -/
def State.reached (s : State) (due : Int) : Bool := decide (due < s.nowNs + 40)

/-- TIMETABLE_SLOT_START: where the slot in force ends, the next begins and grants its flow one frame; an unused grant lapses. A pending
timetable takes over where its own period begins. -/
def execTimetableSlotStart (port : Nat) (s : State) : Out :=
  let e := s.egress port
  let at' := e.ttStart + e.tt.slotNs
  if e.tt.flows.isEmpty || !s.reached at' || (e.ttPending.isSome && decide (e.ttDue ≤ at')) then done s
  else
    let k := (e.ttSlot + 1) % e.tt.flows.length
    done (s.modEgress port fun e => { e with ttSlot := k, ttStart := at', ttGrant := e.tt.flows.getD k none })

/-- GATE_ENTRY_ADVANCE: where the entry in force ends, the next one of its list follows. -/
def execGateEntryAdvance (port : Nat) (s : State) : Out :=
  let e := s.egress port
  let at' := e.entryEnd
  if e.gates.entries.isEmpty || !s.reached at' || (e.gatesPending.isSome && decide (e.gatesDue ≤ at')) then done s
  else done (s.modEgress port fun e => { e with gateEntry := (e.gateEntry + 1) % e.gates.entries.length, gateStart := at' })

/-- TRAFFIC_EVENT. -/
def State.trafficEvent (s : State) (kind port : Nat) : State :=
  s.raise 0x0980 ([BitVec.ofNat 8 kind, BitVec.ofNat 8 port, 0, 0] ++ leBytes 4 s.net.time.toNat)

/-- SCHEDULE_SWITCH: a pending gate list or timetable takes effect once its instant has come, to the resolution of the AON clock. -/
def execScheduleSwitch (port : Nat) (gates : Bool) (s : State) : Out :=
  let e := s.egress port
  if gates then
    match e.gatesPending with
    | none => done s
    | some g =>
      if !s.reached e.gatesDue then done s
      else done ((s.modEgress port fun e =>
        { e with gates := g, gatesPending := none, gateStart := e.gatesDue, gateEntry := if g.entries.isEmpty then 0x1FF else 0 }).trafficEvent 1 port)
  else
    match e.ttPending with
    | none => done s
    | some t =>
      if !s.reached e.ttDue then done s
      else done ((s.modEgress port fun e =>
        { e with tt := t, ttPending := none, ttSlot := 0, ttStart := e.ttDue, ttGrant := t.flows.getD 0 none }).trafficEvent 0 port)

/-- Where a time lies in a list of lengths: the number of the entry, and how far into it. -/
def entryAt (lengths : List Nat) (at' : Nat) : Nat × Nat :=
  lengths.foldl (fun (a : Nat × Nat × Bool) x => if a.2.2 || at' < a.2.1 + x then (a.1, a.2.1, true) else (a.1 + 1, a.2.1 + x, false)) (0, 0, false)
    |> fun a => (a.1, at' - a.2.1)

/-- R479: the gates go on at the position that a new courier time gives, and a list that is pending waits for the end of the cycle there. -/
def Egress.regate (e : Egress) (now : Nat) : Egress :=
  let e :=
    if e.gates.entries.isEmpty then e
    else
      let r := entryAt (e.gates.entries.map (·.2)) (phase (1000 * e.gates.base) e.gates.cycle now)
      { e with gateEntry := r.1, gateStart := (now : Int) - r.2 }
  match e.gatesPending with | some g => e.pendGates now g | none => e

/-- R479: so does the timetable; another slot than the one in force grants its flow. -/
def Egress.retable (e : Egress) (now : Nat) : Egress :=
  let e :=
    if e.tt.flows.isEmpty then e
    else
      let at' := phase (1000 * e.tt.base) e.tt.period now
      let k := at' / (if e.tt.slotNs = 0 then 1 else e.tt.slotNs)
      { e with
        ttSlot := k, ttStart := (now : Int) - (at' - k * e.tt.slotNs : Nat),
        ttGrant := if k = e.ttSlot then e.ttGrant else e.tt.flows.getD k none }
  match e.ttPending with | some t => e.pendTimetable now t | none => e

/-- R479: courier time has changed. -/
def State.reposition (s : State) : State :=
  let now := s.nowNs
  { s with traffic := fmap s.traffic fun _ e => ({ (e.regate now) with lineEnd := 0 } : Egress).retable now }

/-- The time since the oldest frame of a queue entered it, in units of 10 ns. -/
def Egress.delay (e : Egress) (now q : Nat) : Nat :=
  min (((e.held.filter (·.queue = q)).map (now - ·.entered)).foldl max 0 * 4) 0xFFFFFF

/-- QUEUE_SAMPLE: depth and head delay of every queue are recorded, and the peaks raised (R478). -/
def execQueueSample (s : State) : Out :=
  let now := s.firm.aon
  done ((List.range s.netPorts).foldl (fun s p => s.modEgress p fun e =>
    let seen := ((List.range 104).map fun q => (q, min (e.depth q) 0xFFFFFF, e.delay now q)).filter fun x => x.2.1 != 0 || x.2.2 != 0
    { e with
      sample := seen,
      peak := seen.foldl (fun m x => fupd (0, 0) m x.1 fun y =>
        (if y.1.toNat < x.2.1 then BitVec.ofNat 24 x.2.1 else y.1, if y.2.toNat < x.2.2 then BitVec.ofNat 24 x.2.2 else y.2)) e.peak }) s)

/-! ## Traffic messages (R480 to R483) -/

/-- R482: whether WG_MIN exceeds what the used slots of a timetable leave of the port rate. -/
def wgTooHigh (rate wg : Nat) (t : Timetable) : Bool :=
  let n := t.flows.length
  let u := (t.flows.filter Option.isSome).length
  if n = 0 then decide (rate < wg) else decide (rate * (n - u) < wg * n)

/-- The conditions on an enabled policer or shaper (R481). -/
def badMeter (r : Req) (off maxFrame rate : Nat) : Bool :=
  let cir := r.f off 4
  let pir := r.f (off + 4) 4
  let cbs := r.f (off + 8) 4
  let pbs := r.f (off + 12) 4
  decide (pir < cir) || pir == 0 || decide (rate < pir) || decide (cbs < maxFrame) || decide (0x1000000 < cbs)
    || decide (pbs < maxFrame) || decide (0x1000000 < pbs)

def trafficQueueBlock : ReqBlock :=
  { opcode := 0x0901,
    bad := fun r s =>
      let p := r.f 0 1
      let q := r.f 1 1
      let w := r.f 2 1
      let m := (s.netPort p).maxFrame
      decide (s.netPorts ≤ p) || decide (71 < q) || (if q < 8 then w != 0 else w == 0) || decide (3 < r.f 3 1)
        || decide (r.f 4 4 < m) || decide (s.egressBuffer < r.f 4 4) || decide (r.f 4 4 < r.f 8 4) || r.resv 12 4
        || (bitOf (r.f 3 1) 0 && badMeter r 16 m s.portRate) || (bitOf (r.f 3 1) 1 && badMeter r 32 m s.portRate),
    run := fun r s =>
      { state := s.modEgress (r.f 0 1) fun e =>
          (e.modQueue (r.f 1 1) fun q =>
          { q with
            polCommitted := q.polCommitted.setup (r.f 16 4) (r.f 24 4), polPeak := q.polPeak.setup (r.f 20 4) (r.f 28 4),
            shCommitted := q.shCommitted.setup (r.f 32 4) (r.f 40 4), shPeak := q.shPeak.setup (r.f 36 4) (r.f 44 4) }).change
            (.queue (r.f 1 1) (r.f 2 1) (bitOf (r.f 3 1) 0) (bitOf (r.f 3 1) 1) (r.f 4 4) (r.f 8 4)) } }

def trafficPortBlock : ReqBlock :=
  { opcode := 0x0902,
    bad := fun r s =>
      let p := r.f 0 1
      let e := s.egress p
      decide (s.netPorts ≤ p) || r.resv 1 3 || (r.b 8 64).any (fun b => decide (103 < b.toNat))
        || wgTooHigh s.portRate (r.f 4 4) e.tt
        || (match e.ttPending with | some t => wgTooHigh s.portRate (r.f 4 4) t | none => false),
    run := fun r s =>
      { state := s.modEgress (r.f 0 1) fun e =>
          ({ e with wgMin := r.f 4 4 } : Egress).change (.dscp ((r.b 8 64).zipIdx.map fun (b, d) => (d, b.toNat))) } }

/-- The timetable that a request carries. -/
def Req.timetable (r : Req) : Timetable :=
  { slotNs := r.f 4 4, base := r.f 8 4,
    flows := (r.b 16 (r.f 2 2)).map fun b => if b = 0xFF then none else some b.toNat }

def trafficTimetableBlock : ReqBlock :=
  { opcode := 0x0903,
    bad := fun r s =>
      let p := r.f 0 1
      let n := r.f 2 2
      decide (s.netPorts ≤ p) || r.resv 1 1 || n == 0 || decide (1024 < n)
        || decide (r.f 4 4 * s.portRate < ((s.netPort p).maxFrame + 20) * 8 * 1000) || r.resv 12 4
        || (r.b 16 n).any (fun b => decide (31 < b.toNat) && b != 0xFF)
        || wgTooHigh s.portRate (s.egress p).wgMin r.timetable,
    conflict := fun r s => (s.egress (r.f 0 1)).ttPending.isSome,
    run := fun r s => { state := s.modEgress (r.f 0 1) (·.pendTimetable s.nowNs r.timetable) } }

/-- The gate list that a request carries. -/
def Req.gateList (r : Req) : GateList :=
  { base := r.f 4 4,
    entries := (List.range (r.f 2 2)).map fun e => (BitVec.ofNat 10 (r.f (16 + 8 * e) 2), r.f (20 + 8 * e) 4) }

def trafficGatesBlock : ReqBlock :=
  { opcode := 0x0904,
    unsupported := fun _ s => !s.feature 9,
    bad := fun r s =>
      let n := r.f 2 2
      decide (s.netPorts ≤ r.f 0 1) || r.resv 1 1 || decide (256 < n) || r.resv 8 8
        || (List.range n).any (fun e =>
          decide (1023 < r.f (16 + 8 * e) 2) || r.resv (18 + 8 * e) 2 || decide (r.f (20 + 8 * e) 4 < 32)
            || decide (1000000000 < r.f (20 + 8 * e) 4))
        || decide (1000000000 < r.gateList.cycle),
    conflict := fun r s => (s.egress (r.f 0 1)).gatesPending.isSome,
    run := fun r s => { state := s.modEgress (r.f 0 1) (·.pendGates s.nowNs r.gateList) } }

def execTrafficQueue (slot : Nat) (s : State) : Out := done (serve trafficQueueBlock slot s)
def execTrafficPort (slot : Nat) (s : State) : Out := done (serve trafficPortBlock slot s)
def execTrafficTimetable (slot : Nat) (s : State) : Out := done (serve trafficTimetableBlock slot s)
def execTrafficGates (slot : Nat) (s : State) : Out := done (serve trafficGatesBlock slot s)

end Sys2Proof.Machine
end

