-- ==== Sys2Proof/Machine/Frames.lean ====
section
/-! DEFINITION. Ethernet ports, the gatehouse and the manager's frame rings (R425 to R437), and the messages that configure them
(R455, R456). -/

namespace Sys2Proof.Machine

/-! ## The rule table (R431 to R434) -/

/-- The header window: the first 64 bytes of a frame. -/
def headerWindow (frame : List Byte) : List Byte := slice frame 0 64

/-- The key that a profile extracts (R431). -/
def Profile.key (pf : Profile) (w : List Byte) : List Byte := slice (pf.points.flatMap fun x => slice w x.1 x.2) 0 32

/-- A word of a rule entry. -/
def ruleWord (r : List (BitVec 32)) (w : Nat) : BitVec 32 := r.getD w 0
/-- 32 bytes of a rule entry from a word on: KEY at 0, MASK at 8. -/
def ruleBytes (r : List (BitVec 32)) (w : Nat) : List Byte := ((r.drop w).take 8).flatMap fun x => leBytes 4 x.toNat

/-- R432: whether a rule matches a key from a port. -/
def ruleMatches (r : List (BitVec 32)) (port profile : Nat) (key : List Byte) : Bool :=
  (ruleWord r 31).getLsbD 0 && bitsOf (ruleWord r 17).toNat 2 0 == profile && (ruleWord r 16).getLsbD port
    && (List.range 32).all fun i => key.getD i 0 &&& (ruleBytes r 8).getD i 0 == (ruleBytes r 0).getD i 0 &&& (ruleBytes r 8).getD i 0

/-- R434: the ring of a spread action. -/
def spreadRing (w : List Byte) (pf : Profile) (ring group : Nat) : Nat :=
  let a := slice w pf.addrA pf.addrLen
  let b := slice w pf.addrB pf.addrLen
  let c := slice w pf.portA 2
  let d := slice w pf.portB 2
  let lo := fun (x y : List Byte) => if beNat x ≤ beNat y then x else y
  let hi := fun (x y : List Byte) => if beNat x ≤ beNat y then y else x
  let h := (crc32c (lo a b ++ hi a b ++ lo c d ++ hi c d ++ [w.getD pf.proto 0])).toNat
  ring + h * group / 2 ^ 32

/-- R433: whether a committed entry breaks the conditions of its table. -/
def ruleBad (r : List (BitVec 32)) : Bool :=
  let k := (ruleWord r 18).toNat
  let kind := bitsOf k 1 0
  let ring := bitsOf k 15 8
  let group := bitsOf k 23 16
  bitsOf (ruleWord r 17).toNat 31 3 != 0 || bitsOf k 7 2 != 0 || bitsOf k 31 24 != 0 || ruleWord r 19 != 0
    || ((r.drop 21).take 10).any (· != 0) || bitsOf (ruleWord r 31).toNat 31 1 != 0
    || kind == 3 || (kind == 2 && (group == 0 || decide (256 < ring + group))) || (decide (kind < 2) && group != 0)

/-- A write to RULE_DATA word 31: the staged entry enters the table in one BCLK, or is ignored and sets BAD. -/
def State.ruleCommit (s : State) (value : BitVec 32) : State :=
  s.modNet fun n =>
    let r := ((List.range 31).map fun w => if w = 20 then 0 else fgetD 0 n.staging w) ++ [value]
    if ruleBad r then { n with ruleBad := true } else { n with rules := fset n.rules n.ruleIndex.toNat r }

def execRuleCommit (value : BitVec 32) (s : State) : Out := done (s.ruleCommit value)

/-! ## Frame rings (R437) -/

/-- Descriptors of a ring are fetched one at a time, in order: the receive side's next one. -/
def State.fetchRx (s : State) (n : Nat) : State :=
  match fget s.net.rings n with
  | none => s
  | some r =>
    if r.rxFetched = (fgetD 0 s.net.rxTail n).toNat % r.rxEntries then s
    else (s.mgrRead (r.rxBase + 16 * r.rxFetched) 16 (.frameRxDesc n)).1

/-- The transmit side's next one, unless a frame is being read. -/
def State.fetchTx (s : State) (n : Nat) : State :=
  match fget s.net.rings n with
  | none => s
  | some r =>
    if r.txDesc.isSome || r.txHead = (fgetD 0 s.net.txTail n).toNat % r.txEntries then s
    else (s.mgrRead (r.txBase + 16 * r.txHead) 16 (.frameTxDesc n)).1

def State.modRing (s : State) (n : Nat) (f : Ring → Ring) : State :=
  s.modNet fun x => match fget x.rings n with | some r => { x with rings := fset x.rings n (f r) } | none => x

/-- Whether a read with a purpose is outstanding or held on a link. -/
def Upstream.awaits (l : Upstream) (why : Purpose) : Bool :=
  l.outstanding.any (fun e => match e.2.tx with | .read _ _ _ w => w == why | _ => false)
    || (l.held.any fun t => match t with | .read _ _ _ w => w == why | _ => false) || l.splits.any (·.2.why == why)
def State.awaits (s : State) (why : Purpose) : Bool := (s.link 0).awaits why || (s.link 1).awaits why

/-- A write to FRAME_RX_TAIL_n: new receive descriptors are fetched. -/
def State.rxTail (s : State) (n : Nat) (v : BitVec 32) : State :=
  let s := s.modNet fun x => { x with rxTail := fset x.rxTail n (v.setWidth 16) }
  if s.awaits (.frameRxDesc n) then s else s.fetchRx n

/-- A write to FRAME_TX_TAIL_n: the module reads the new descriptors and their frames. -/
def State.txTail (s : State) (n : Nat) (v : BitVec 32) : State :=
  let s := s.modNet fun x => { x with txTail := fset x.txTail n (v.setWidth 16) }
  if s.awaits (.frameTxDesc n) then s else s.fetchTx n

def execFrameRxTail (ring : Nat) (value : BitVec 32) (s : State) : Out := done (if ring < 256 then s.rxTail ring value else s)
def execFrameTxTail (ring : Nat) (value : BitVec 32) (s : State) : Out := done (if ring < 256 then s.txTail ring value else s)

/-- A transmit descriptor is finished: STATUS is written with DONE, the ring's vector is raised, and the next is fetched. -/
def State.txDone (s : State) (n : Nat) (bad : Bool) : State :=
  match fget s.net.rings n with
  | none => s
  | some r =>
    let s := s.mgrWrite (r.txBase + 16 * r.txHead + 12) [if bad then 5 else 1]
    let s := s.modRing n fun r => { r with txDesc := none, txHead := (r.txHead + 1) % r.txEntries }
    (s.msix r.vector).fetchTx n

/-- A transmit descriptor arrives: its frame is read, unless PORT, QUEUE or LENGTH is out of range. -/
def State.txDescArrives (s : State) (n : Nat) (b : List Byte) : State :=
  let port := field b 10 1
  let len := field b 8 2
  let s := s.modRing n fun r => { r with txDesc := some b }
  if s.netPorts ≤ port ∨ 103 < field b 11 1 ∨ len < 60 ∨ (s.netPort port).maxFrame < len + 4 then s.txDone n true
  else
    let x := s.mgrRead (field b 0 8) len (.frameData n)
    if x.2 then x.1 else x.1.txDone n true

/-- Bytes 12 and 13 of a frame. -/
def etherType (frame : List Byte) : Nat := beNat (slice frame 12 2)

/-- A transmit frame arrives from the host: it is offered to its port, for the manager's FIFO, and its descriptor waits until it has entered
(R437, R462 to R464). A MAC Control frame is never sent: its descriptor is done and nothing leaves (R427, notes/assumptions/103.md). -/
def State.txFrameArrives (s : State) (n : Nat) (b : List Byte) : State :=
  match (fget s.net.rings n).bind (·.txDesc) with
  | none => s
  | some d =>
    if etherType b = 0x8808 then s.txDone n false
    else s.offer (field d 10 1) { queue := field d 11 1, room := none, ring := some n, bytes := b }

/-- EGRESS_ENQUEUE: a waiting frame, a frame ring's or the first of its connection, meets its port: discarded on a link that is down (R429), dropped by
its policer or as drop-eligible, held while the queue's limit or the buffer has no room, or entered. The descriptor of a frame ring's is then done. -/
def execEgressEnqueue (port index : Nat) (s : State) : Out :=
  let e := s.egress port
  match e.waiting[index]? with
  | none => done s
  | some f =>
    if (e.waiting.take index).any fun x => x.conn.isSome && x.conn == f.conn then done s
    else
      let gone := fun (s : State) => s.modEgress port fun e => { e with waiting := e.waiting.eraseIdx index }
      let done := fun (s : State) => done (match f.ring with | some n => s.txDone n false | none => s)
      let l := f.len
      let q := e.queue f.queue
      let c := q.colour l
      if !(s.netPort port).linkUp then done ((gone s).countDrops port 1)
      else if c = .red then done ((gone s).modEgress port fun e => { e with redDrops := satInc e.redDrops })
      else if c = .yellow ∧ q.deLimit < e.depth f.queue + l then
        done ((gone s).modEgress port fun e => { (e.modQueue f.queue (·.police l c)) with deDrops := satInc e.deDrops })
      else if q.limit < e.depth f.queue + l ∨ s.egressBuffer < (e.held.map EgressFrame.len).sum + l then Machine.done s
      else
        let now := s.firm.aon
        done ((gone s).modEgress port fun e =>
          { (e.modQueue f.queue (·.police l c)) with frames := e.frames ++ [{ f with yellow := c == .yellow, entered := now }] })

/-- A received frame is written into a ring's next buffer, and then its descriptor (R437). -/
def State.rxPlace (s : State) (n : Nat) (r : Ring) (buf : Nat × Nat) (w : Nat × Nat × List Byte) : State :=
  let cut := decide (buf.2 < w.2.2.length)
  let desc := leBytes 8 buf.1 ++ leBytes 2 w.2.2.length ++ [BitVec.ofNat 8 w.1, 0, if cut then 3 else 1, 0] ++ leBytes 2 w.2.1
  let s := s.mgrWrite buf.1 (w.2.2.take buf.2)
  let s := s.mgrWrite (r.rxBase + 16 * r.rxHead) desc
  (s.modRing n fun r =>
    { r with rxPosted := r.rxPosted.drop 1, rxWait := r.rxWait.drop 1, rxHead := (r.rxHead + 1) % r.rxEntries }).msix r.vector

/-- A ring's oldest received frame goes to its next buffer; while the buffer's descriptor is not at hand, it is fetched. -/
def State.rxServe (s : State) (n : Nat) : State :=
  match fget s.net.rings n with
  | none => s
  | some r =>
    match r.rxWait, r.rxPosted with
    | w :: _, buf :: _ => s.rxPlace n r buf w
    | _ :: _, [] => if s.awaits (.frameRxDesc n) then s else s.fetchRx n
    | [], _ => s

/-- The descriptors that the manager has posted on the receive side and that no frame has filled. -/
def State.rxLeft (s : State) (n : Nat) (r : Ring) : Nat :=
  ((fgetD 0 s.net.rxTail n).toNat % r.rxEntries + r.rxEntries - r.rxHead) % r.rxEntries

/-- A received frame reaches a ring, in the order of arrival: it is dropped and counted where every posted descriptor is used (R435, R437). -/
def State.toRing (s : State) (port n : Nat) (rule : Nat) (frame : List Byte) : State :=
  match fget s.net.rings n with
  | none => s.countDrops port 1
  | some r =>
    if r.rxPosted = [] ∧ s.rxLeft n r ≤ r.rxWait.length then s.countDrops port 1
    else (s.modRing n fun r => { r with rxWait := r.rxWait ++ [(port, rule, frame)] }).rxServe n

/-- A receive descriptor arrives: its buffer is posted, a frame that waits is placed, and the next is fetched. -/
def State.rxDescArrives (s : State) (n : Nat) (b : List Byte) : State :=
  let s := (s.modRing n fun r =>
    { r with rxPosted := r.rxPosted ++ [(field b 0 8, field b 8 2)], rxFetched := (r.rxFetched + 1) % r.rxEntries }).rxServe n
  if s.awaits (.frameRxDesc n) then s else s.fetchRx n

/-- R432: the frame is decided by the lowest-numbered matching rule, or by the port's default. -/
def State.classify (s : State) (port : Nat) (frame : List Byte) : State :=
  let p := s.netPort port
  let pf : Profile := fgetD {} s.net.profiles p.profile.toNat
  let w := headerWindow frame
  let key := pf.key w
  match s.net.rules.find? fun e => ruleMatches e.2 port p.profile.toNat key with
  | none => if p.defaultRing = 0xFFFF then s.countDrops port 1 else s.toRing port p.defaultRing 0xFFFF frame
  | some (i, r) =>
    let s := s.modNet fun n => { n with rules := fset n.rules i (r.set 20 (satInc (ruleWord r 20))) }
    let k := (ruleWord r 18).toNat
    if bitsOf k 1 0 = 0 then s.countDrops port 1
    else if bitsOf k 1 0 = 1 then s.toRing port (bitsOf k 15 8) i frame
    else s.toRing port (spreadRing w pf (bitsOf k 15 8) (bitsOf k 23 16)) i frame

/-! ## Frames that arrive (R426, R427, R430) -/

/-- A frame that is discarded and counted in FRAME_ERRORS. -/
def NetPort.refuses (p : NetPort) (fcsOk : Bool) (frame : List Byte) : Bool :=
  !fcsOk || decide (frame.length + 4 < 64) || decide (p.maxFrame < frame.length + 4) || etherType frame == 0x8808

/-- R430: the UDP destination port of a frame for the courier; none for a frame that is classified. -/
def State.courierPort (s : State) (port : Nat) (frame : List Byte) : Option Nat :=
  let p := s.netPort port
  let udp := beNat (slice frame 56 2)
  if p.courierEn && etherType frame == 0x86DD && slice frame 20 1 == [17]
      && beNat (slice frame 38 16) == p.courierAddr.toNat && (udp == s.net.courierUdp.toNat || udp == 4791) then some udp else none

/-- The one's-complement sum of 16-bit words. -/
def onesSum (l : List Byte) : Nat :=
  let t := ((chunks 2 l).map fun c => beNat (slice c 0 2)).sum
  let t := t % 65536 + t / 65536
  t % 65536 + t / 65536

/-- The IPv6 pseudo-header of a UDP datagram. -/
def pseudoHeader (src dst : List Byte) (len : Nat) : List Byte := src ++ dst ++ beBytes 4 len ++ [0, 0, 0, 17]

/-- Whether the UDP checksum of an IPv6 frame verifies. -/
def udpSumOk (frame : List Byte) : Bool :=
  let len := beNat (slice frame 58 2)
  let dg := slice frame 54 len
  slice frame 60 2 != [0, 0] && onesSum (pseudoHeader (slice frame 22 16) (slice frame 38 16) len ++ dg) == 0xFFFF

/-- The UDP payload, and whether the frame arrived with ECN CE. -/
def udpPayload (frame : List Byte) : List Byte := slice frame 62 (beNat (slice frame 58 2) - 8)
def ecnCe (frame : List Byte) : Bool := bitsOf (beNat (slice frame 14 2)) 5 4 == 3

/-! ## Links and messages -/

/-- NET_EVENT. -/
def State.netEvent (s : State) (kind port loc cause guest seq : Nat) : State :=
  s.raise 0x0880 ([BitVec.ofNat 8 kind, BitVec.ofNat 8 port] ++ leBytes 2 loc ++ [BitVec.ofNat 8 cause, 0, 0, 0]) guest seq

/-- What is queued on a port is discarded; the descriptors of the frames that waited for it are done (R429). -/
def State.dropLink (s : State) (p : Nat) : State :=
  ((s.egress p).waiting.filterMap (·.ring)).foldl (fun s n => s.txDone n false) (s.dropPort p)

/-- A link comes up or goes down and is reported; what is queued on a link that goes down is discarded (R429). -/
def State.netLink (s : State) (port : Nat) (up : Bool) : State :=
  if (s.netPort port).linkUp = up then s
  else
    let s := s.modNetPort port fun p => { p with linkUp := up }
    let s := if up then s else s.dropLink port
    s.netEvent (if up then 0 else 1) port 0xFFFF 0 0xFFFF 0

/-- NET_LINK_CHANGE: an enabled port of the configuration whose lanes are on, or any link that goes down. An enabled port whose link is lost in
service is a port down until its link is back (R47, notes/assumptions/74.md). -/
def execNetLinkChange (port : Nat) (up : Bool) (s : State) : Out :=
  if up && !(decide (port < s.netPorts) && (s.netPort port).enabled && (decide (s.stage < 4) || port == 0)) then done s
  else
    let p := s.netPort port
    let t := s.netLink port up
    done (if up then t.portBack (16 + port) else if p.linkUp && p.enabled && decide (s.stage < 4) then t.portLost (16 + port) else t)

def netConfigBlock : ReqBlock :=
  { opcode := 0x0801, states := [.ready, .degraded],
    bad := fun r _ => decide (2 < r.f 0 1) || r.resv 1 7,
    conflict := fun _ s => s.net.conns.any (fun e => e.2.state != .closed) || !s.net.rings.isEmpty,
    run := fun r s =>
      let c := r.f 0 1
      let s := s.writeRecord fun x => { x with netConfig := some c }
      let s := (List.range s.netPorts).foldl (fun s p => (s.netLink p false).portBack (16 + p)) s
      let s := s.modNet fun n => { n with config := c, ports := fmap n.ports fun _ p =>
        ({ frameErrors := p.frameErrors, drops := p.drops } : NetPort) }
      { state := { s with traffic := (List.range 32).map fun p =>
          let e := s.egress p
          (p, { wgMin := rateOf c / 8, redDrops := e.redDrops, deDrops := e.deDrops, sample := e.sample, peak := e.peak }) } } }

def netPortSetBlock : ReqBlock :=
  { opcode := 0x0802,
    bad := fun r s =>
      decide (s.netPorts ≤ r.f 0 1) || decide (1 < r.f 1 1) || decide (7 < r.f 2 1) || decide (1 < r.f 3 1)
        || decide (r.f 4 2 < 1518) || decide (9216 < r.f 4 2) || (decide (255 < r.f 6 2) && r.f 6 2 != 0xFFFF) || r.resv 14 2,
    run := fun r s =>
      let p := r.f 0 1
      let on := r.f 1 1 == 1
      let s := s.modNetPort p fun x =>
        { x with
          enabled := on, profile := BitVec.ofNat 3 (r.f 2 1), courierEn := r.f 3 1 == 1, maxFrame := r.f 4 2, defaultRing := r.f 6 2,
          mac := BitVec.ofNat 48 (leNat (r.b 8 6)), courierAddr := BitVec.ofNat 128 (leNat (r.b 16 16)) }
      { state := if on then s else (s.netLink p false).portBack (16 + p) } }

/-- The profile that a request carries. -/
def Req.profile (r : Req) : Profile :=
  { addrA := r.f 1 1, addrB := r.f 2 1, addrLen := r.f 3 1, portA := r.f 4 1, portB := r.f 5 1, proto := r.f 6 1,
    points := (List.range 16).map fun i => (r.f (8 + 2 * i) 1, r.f (9 + 2 * i) 1) }

/-- R431 and the conditions on hash fields of NET_PROFILE. -/
def Profile.bad (p : Profile) : Bool :=
  p.points.any (fun x => !([0, 1, 2, 4].contains x.2) || decide (63 < x.1) || decide (64 < x.1 + x.2))
    || decide (32 < (p.points.map (·.2)).sum) || !(p.addrLen == 4 || p.addrLen == 16)
    || decide (64 < p.addrA + p.addrLen) || decide (64 < p.addrB + p.addrLen) || decide (64 < p.portA + 2)
    || decide (64 < p.portB + 2) || decide (63 < p.proto)

def netProfileBlock : ReqBlock :=
  { opcode := 0x0803,
    bad := fun r _ => decide (7 < r.f 0 1) || r.resv 7 1 || r.profile.bad,
    run := fun r s => { state := s.modNet fun n => { n with profiles := fset n.profiles (r.f 0 1) r.profile } } }

/-- The reads of a ring. -/
def Purpose.ofRing (n : Nat) : Purpose → Bool
  | .frameTxDesc k => k == n
  | .frameRxDesc k => k == n
  | .frameData k => k == n
  | _ => false

/-- R456: a ring is deleted: its posted descriptors end, what is read for it is dropped, a frame of it that has not entered a queue is not sent, and
received frames that wait for a descriptor of it are dropped and counted. -/
def State.ringGone (s : State) (n : Nat) : State :=
  let s := ((fget s.net.rings n).map (·.rxWait)).getD [] |>.foldl (fun s w => s.countDrops w.1 1) s
  let s := s.disown (·.ofRing n)
  let s := { s with traffic := fmap s.traffic fun _ e => { e with waiting := e.waiting.filter (·.ring != some n) } }
  s.modNet fun x => { x with rings := fdel x.rings n }

def netRingBlock : ReqBlock :=
  { opcode := 0x0804,
    bad := fun r _ =>
      decide (1 < r.f 1 1) || decide (63 < r.f 2 1) || r.resv 3 1
        || (r.f 1 1 == 0 && (decide (r.f 4 2 < 16) || decide (4096 < r.f 4 2) || decide (r.f 6 2 < 16) || decide (4096 < r.f 6 2)
          || r.f 8 8 % 4096 != 0 || r.f 16 8 % 4096 != 0)),
    conflict := fun r s => ((fget s.net.rings (r.f 0 1)).isSome) == (r.f 1 1 == 0),
    run := fun r s =>
      let n := r.f 0 1
      if r.f 1 1 = 0 then
        { state := s.modNet fun x =>
            { x with
              rings := fset x.rings n { vector := r.f 2 1, rxEntries := r.f 4 2, txEntries := r.f 6 2, rxBase := r.f 8 8, txBase := r.f 16 8 },
              rxTail := fdel x.rxTail n, txTail := fdel x.txTail n } }
      else { state := s.ringGone n } }

def netTimeBlock : ReqBlock :=
  { opcode := 0x0805,
    bad := fun r _ => decide (1 < r.f 0 1) || r.resv 1 3,
    run := fun r s =>
      let v := BitVec.ofNat 32 (r.f 4 4)
      let s := s.modNet fun n => { n with time := if r.f 0 1 = 0 then v else n.time + v, timeFrac := if r.f 0 1 = 0 then 0 else n.timeFrac, timeNs := if r.f 0 1 = 0 then 0 else n.timeNs }
      { state := s.reposition } }

def execNetConfig (slot : Nat) (s : State) : Out := done (serve netConfigBlock slot s)
def execNetPortSet (slot : Nat) (s : State) : Out := done (serve netPortSetBlock slot s)
def execNetProfile (slot : Nat) (s : State) : Out := done (serve netProfileBlock slot s)
def execNetRing (slot : Nat) (s : State) : Out := done (serve netRingBlock slot s)
def execNetTime (slot : Nat) (s : State) : Out := done (serve netTimeBlock slot s)

end Sys2Proof.Machine
end

