-- ==== Sys2Proof/Machine/LedgerOps.lean ====
section
/-! DEFINITION. Ledgers (chapter 07): handles, runs and directories, the attention-streaming engine, the ledger advance, and
the moves of runs between the tiers. -/

namespace Sys2Proof.Machine

/-! ## Shapes and handles -/

/-- Pairs, element pages, scale pages and run size of R239. -/
def pairsOf (layers heads : Nat) : Nat := layers * heads
def elemPages (p w : Nat) : Nat := ceilDiv (p * w) 1024
def scalePages (p w : Nat) : Nat := ceilDiv (2 * w * p) 65536
def runSize (layers heads w : Nat) : Nat := (elemPages (pairsOf layers heads) w + scalePages (pairsOf layers heads) w) * 65536

def Ledger.pairs (l : Ledger) : Nat := pairsOf l.layers l.heads
def Ledger.runBytes (l : Ledger) : Nat := runSize l.layers l.heads l.width
def Pool.runBytes (p : Pool) : Nat := runSize p.layers p.heads p.width

/-- Whether a pool has the shape of a ledger (R237). -/
def Pool.fits (p : Pool) (l : Ledger) : Bool :=
  p.layers == l.layers && p.heads == l.heads && p.width == l.width && p.fmt == l.fmt

/-- The generation of a ledger number. -/
def State.generation (s : State) (n : Nat) : BitVec 16 := fgetD 0 s.ledgers.generations n

/-- R236: a sequence handle. -/
def handleOf (ledger : Nat) (gen : BitVec 16) (guest : Nat) : Nat := ledger + gen.toNat * 2 ^ 16 + guest * 2 ^ 32

/-- The handle of a live ledger. -/
def State.handle (s : State) (n : Nat) : Nat :=
  match s.ledger? n with
  | some l => handleOf n (s.generation n) l.guest
  | none => 0

/-- The live ledger that a handle names for a guest: its number (R245, R265). -/
def State.ledgerOf (s : State) (h : Nat) (guest : Nat) : Option Nat :=
  let n := h % 2 ^ 16
  match s.ledger? n with
  | some l => if l.guest = guest ∧ l.deleting.isNone ∧ h = handleOf n (s.generation n) guest then some n else none
  | none => none

/-- R245: what an ASTREAM's handle names: ledger number, generation and width. -/
def State.handleCheck (s : State) (owner : Option Nat) (h : BitVec 64) : Option (Nat × Nat × Nat) :=
  match owner with
  | none => none
  | some g =>
    match s.ledgerOf h.toNat g with
    | some n => match s.ledger? n with | some l => some (n, (s.generation n).toNat, l.width) | none => none
    | none => none

/-- LEDGER_EVENT. -/
def State.ledgerEvent (s : State) (kind cause : Nat) (tokens handle guest : Nat) (seq : Nat) (status : Nat) : State :=
  s.raise 0x0480 (leBytes 1 kind ++ leBytes 1 cause ++ [0, 0] ++ leBytes 4 tokens ++ leBytes 8 handle) guest seq status

/-! ## Runs -/

/-- The directory entry of a run (R242). -/
def dirEntry (r : Option Run) : Nat :=
  match r with
  | some r => 1 + 2 * bit r.moving + r.addr / 65536 * 65536
  | none => 0

/-- A span's run set, in the ledger and in its directory page. -/
def State.setRun (s : State) (n span : Nat) (r : Option Run) : State :=
  match s.ledger? n with
  | none => s
  | some l =>
    let s := s.modLedger n fun l => { l with runs := match r with | some r => fset l.runs span r | none => fdel l.runs span }
    s.memWrite (l.dir + 8 * span) (leBytes 8 (dirEntry r)) .firmware

/-- The lowest free run among a guest's pools of a ledger's shape in one tier, lowest pool first. -/
def State.freeRun (s : State) (l : Ledger) (cellar : Bool) : Option (Nat × Nat) :=
  (s.guest l.guest).pools.findSome? fun e =>
    if e.2.fits l && e.2.cellar == cellar then e.2.freeRuns.head?.map fun a => (e.1, a) else none

/-- A run taken from its pool, or returned to it. -/
def State.takeRun (s : State) (g pool addr : Nat) : State :=
  s.modGuest g fun x =>
    match fget x.pools pool with
    | some p => { x with pools := fset x.pools pool { p with freeRuns := p.freeRuns.filter (· != addr) } }
    | none => x
def State.giveRun (s : State) (g pool addr : Nat) : State :=
  s.modGuest g fun x =>
    match fget x.pools pool with
    | some p =>
      let free := p.freeRuns.filter (· < addr) ++ addr :: p.freeRuns.filter (addr < ·)
      { x with pools := fset x.pools pool { p with freeRuns := free } }
    | none => x

/-- R255: a run from a stack pool, or from a cellar pool if no stack run is free. -/
def State.anyRun (s : State) (l : Ledger) : Option (Nat × Nat) :=
  match s.freeRun l false with
  | some r => some r
  | none => s.freeRun l true

/-- R241: the bytes of a run's scale area beyond those of its pairs are 0. -/
def State.clearTail (s : State) (addr layers heads w : Nat) : State :=
  let p := pairsOf layers heads
  let used := elemPages p w * 65536 + 2 * w * p
  if used < runSize layers heads w then s.memZero (addr + used) (runSize layers heads w - used) else s

/-- R255: a span gets a run, or the ledger becomes full and reports it. A ledger has 8,192 spans (R238, R242). -/
def State.giveSpan (s : State) (n span : Nat) (report : Bool) : State :=
  match s.ledger? n with
  | none => s
  | some l =>
    match (if l.tokens < 262144 ∧ span < 8192 then s.anyRun l else none) with
    | some (pool, addr) =>
      let s := (s.takeRun l.guest pool addr).clearTail addr l.layers l.heads l.width
      let s := s.modLedger n fun l => { l with full := false }
      s.setRun n span (some { addr, pool })
    | none =>
      let s := s.modLedger n fun l => { l with full := true }
      if report then s.ledgerEvent 3 0 l.tokens (s.handle n) l.guest 0 0 else s

/-- A run or a free run was returned: full ledgers of the guest leave the full state (R255). -/
def State.unfull (s : State) (g : Nat) : State :=
  (s.ledgers.live.filter (fun e => e.2.guest = g && e.2.full && decide (e.2.tokens < 262144))).foldl
    (fun s e =>
      match s.ledger? e.1 with
      | some l => if (s.anyRun l).isSome then s.giveSpan e.1 ((l.tokens + 16) / 32) false else s
      | none => s) s

/-- Whether a run lies in a cellar pool. -/
def State.runInCellar (s : State) (g : Nat) (r : Run) : Bool :=
  match fget (s.guest g).pools r.pool with
  | some p => p.cellar
  | none => false

/-- Runs of a ledger in each tier. -/
def State.runCounts (s : State) (l : Ledger) : Nat × Nat :=
  ((l.runs.filter fun e => !s.runInCellar l.guest e.2).length, (l.runs.filter fun e => s.runInCellar l.guest e.2).length)

/-! ## Moves of runs (R257 to R260) -/

/-- R279: whether a timed job of a guest runs, during which no run of its ledgers moves. -/
def State.timedGuest (s : State) (g : Nat) : Bool := s.jobs.any fun e => e.2.guest == g && e.2.live && e.2.timed

/-- R260, R279: whether no run move of a guest may start. -/
def State.movesHeld (s : State) (g : Nat) : Bool := s.stage != 0 || s.timedGuest g

/-- A move of a ledger ends, with LEDGER_EVENT kind 0 if LEDGER_MOVE asked for it; a complete prefetch ends what a demotion began. -/
def State.endMove (s : State) (n : Nat) (failed : Bool) : State :=
  match s.ledger? n with
  | none => s
  | some l =>
    let s := s.modLedger n fun l =>
      { l with moveTo := none, moveSeq := none, demoted := l.demoted && (l.moveTo == some true || failed) }
    match l.moveSeq with
    | some q => s.ledgerEvent 0 0 l.tokens (s.handle n) l.guest q (if failed then 10 else 0)
    | none => s

/-- R258 step 1 for the next run in ascending span order that the move still concerns. -/
def State.nextMove (s : State) (n : Nat) : State :=
  match s.ledger? n with
  | none => s
  | some l =>
    match l.moveTo with
    | none => s
    | some toCellar =>
      if s.movesHeld l.guest || l.runs.any (·.2.moving) then s
      else
        let left := l.runs.filter fun e => s.runInCellar l.guest e.2 != toCellar
        match left.find? (fun e => e.2.restarts < 4) with
        | none => if left = [] then s.endMove n false else s
        | some (span, r) =>
          match s.freeRun l toCellar with
          | none => s.endMove n true
          | some (pool, addr) =>
            let s := s.takeRun l.guest pool addr
            s.setRun n span (some { r with moving := true, fresh := some (pool, addr) })

/-- R257, R259, R266: a move of a ledger's runs to one tier begins. -/
def State.startMove (s : State) (n : Nat) (toCellar : Bool) (seq : Option Nat) : State :=
  match s.ledger? n with
  | none => s
  | some l =>
    if l.moveTo.isSome then s
    else (s.modLedger n fun l => { l with moveTo := some toCellar, moveSeq := seq }).nextMove n

/-- Every held move goes on (R260). -/
def State.resumeMoves (s : State) : State := s.ledgers.live.foldl (fun s e => s.nextMove e.1) s

/-- R258: the copy of a run completes, the entry switches, and the old run returns to its pool. While a timed job of the guest runs, the copy stands
still (R279); it waits for marked pages of its destination (R512), for regions of either run that are not filled, and for writes to either that were
accepted before. -/
def State.runMoveDone (s : State) (n span : Nat) : State :=
  match s.ledger? n with
  | none => s
  | some l =>
    match fget l.runs span with
    | some r =>
      match r.moving, r.fresh with
      | true, some (pool, addr) =>
        if s.timedGuest l.guest then s
        else if !s.rangeReady addr l.runBytes then s.askRange addr l.runBytes
        else if s.unfilledIn r.addr l.runBytes || s.pendingIn r.addr l.runBytes then s.askFill r.addr l.runBytes
        else
        let s := (s.flushMerges fun _ => false).memCopy r.addr addr l.runBytes
        let s := s.setRun n span (some { addr, pool })
        let s := if l.moveTo = some true then s.modLedger n fun l => { l with demoted := true } else s
        (s.giveRun l.guest r.pool r.addr).nextMove n
      | _, _ => s
    | none => s

/-! ## The attention-streaming engine (R244 to R251) -/

/-- The flag word of R249. -/
def flagWord (first n : Nat) (fault append : Bool) (cause : Nat) : Nat :=
  first % 2 ^ 32 + n * 2 ^ 32 + bit fault * 2 ^ 40 + bit append * 2 ^ 41 + cause * 2 ^ 44

/-- Where token t of pair p lies in a run: its key's address and its key scales' address (R240, R241). -/
def keyAddr (run w p t : Nat) : Nat := run + p / (1024 / w) * 65536 + p % (1024 / w) * 64 * w + 2 * w * t
def scaleAddr (run pairs w p t : Nat) : Nat := run + elemPages pairs w * 65536 + 2 * w * p + w / 16 * t

/-- A ledger element under its scale byte, in the place of a tally's value (R247). -/
def ledgerItem (fmt : Nat) (elem scale : Byte) : MxItem :=
  if scale = 0xFF then ⟨.nan, 0, 0⟩
  else
    match decodeElem (if fmt = 0 then .e4m3 else .e5m2) elem.toNat with
    | .nan => ⟨.nan, 0, 0⟩
    | .inf n => ⟨if n then .ninf else .pinf, 0, 0⟩
    | .fin n m e => if m = 0 then ⟨.zero, 0, 0⟩ else ⟨.finite, FpVal.int n m, e + (scale.toNat : Int) - 127⟩

/-- The staging writes of a stream: (offset, bytes), from the keys, key scales, values and value scales of n tokens. -/
def stagingWrites (o : StreamOp) (toks : List (List Byte × List Byte)) : List (Nat × List Byte) :=
  let w := o.width
  let absent : List Byte × List Byte := (zeros (2 * w), List.replicate (w / 32) 0x7F ++ List.replicate (w / 32) 0x7F)
  let all := toks ++ List.replicate (32 - toks.length) absent
  let keys := all.flatMap fun t => t.1.take w
  let ks := all.flatMap fun t => t.2.take (w / 32)
  let blocks := (List.range w).map fun d => mxItems (if o.fmt = 0 then .e4m3 else .e5m2)
    (all.map fun t => ledgerItem o.fmt (t.1.getD (w + d) 0) (t.2.getD (w / 32 + d / 32) 0x7F))
  [(o.base, keys), (o.scaleBase, ks), (o.base + o.stride, blocks.flatMap (·.2)), (o.scaleBase + o.scaleStride, blocks.map (·.1))]

/-- The staging area of a failed stream: every element 0, every scale byte 0xFF (R250). -/
def failedStaging (o : StreamOp) : List (Nat × List Byte) :=
  let w := o.width
  [(o.base, zeros (32 * w)), (o.scaleBase, List.replicate w 0xFF), (o.base + o.stride, zeros (32 * w)),
    (o.scaleBase + o.scaleStride, List.replicate w 0xFF)]

/-- The flag word arrives; the context's ASTREAM is no longer outstanding (R246, R249). -/
def State.streamFlag (s : State) (p : Nat) (o : StreamOp) (first n cause : Nat) : State :=
  let w : TWord := { tag := .pack, data := BitVec.ofNat 64 (flagWord first n (cause != 0) o.append cause) }
  let s := s.arrive p ((o.base + 0x1FFFF8) % 0x200000 / 8 * 8) [w]
  let s := s.modTile p fun t => { t with streams := t.streams.drop 1 }
  let s := s.modCtx p o.ctx fun c => { c with streaming := false }
  if cause = 0 then s
  else
    let s := s.modLedgers fun l => { l with faults := satInc l.faults }
    match s.ledger? o.ledger with
    | some l => s.ledgerEvent 4 cause l.tokens (s.handle o.ledger) l.guest 0 0
    | none => s.ledgerEvent 4 cause 0 (handleOf o.ledger (BitVec.ofNat 16 o.generation) 0) 0xFFFF 0 0

/-- The cause that fails any operation of the engine before it touches memory (R249). -/
def State.streamCause (s : State) (o : StreamOp) : Nat :=
  match s.ledger? o.ledger with
  | none => 1
  | some l =>
    if (s.generation o.ledger).toNat ≠ o.generation then 1
    else if l.fmt ≠ o.fmt then 2
    else if l.pairs ≤ o.pair then 3
    else if o.append && l.exportTo.isSome then 8
    else if o.append && l.full && (fget l.runs (l.tokens / 32)).isNone then 5
    else 0

/-- R280: a job's access to cellar memory breaks its step. -/
def State.noteCellar (s : State) (p ctx g : Nat) (r : Run) : State :=
  if s.runInCellar g r then s.breakJob (s.ctx p ctx).job else s

/-- R247: a stream completes. -/
def State.streamDone (s : State) (p : Nat) (o : StreamOp) : State :=
  let fail := fun (s : State) cause =>
    (failedStaging o |>.foldl (fun s w => s.arriveBytes p w.1 w.2) s).streamFlag p o (32 * o.block) 0 cause
  let cause := s.streamCause o
  if cause ≠ 0 then fail s cause
  else
    match s.ledger? o.ledger with
    | none => s
    | some l =>
      let v := l.tokens + bit (l.marks.contains o.pair)
      let n := min 32 (v - 32 * o.block)
      match fget l.runs o.block, n with
      | _, 0 => (stagingWrites o [] |>.foldl (fun s w => s.arriveBytes p w.1 w.2) s).streamFlag p o (32 * o.block) 0 0
      | none, _ => fail s 7
      | some r, n =>
        let s := s.noteCellar p o.ctx l.guest r
        let w := l.width
        let reads := (List.range n).map fun t =>
          ((keyAddr r.addr w o.pair t, 2 * w), (scaleAddr r.addr l.pairs w o.pair t, w / 16))
        let bad := reads.any fun x => s.rangeStatus x.1.1 x.1.2 != .ok || s.rangeStatus x.2.1 x.2.2 != .ok
          || !s.guestMem l.guest x.1.1 x.1.2 || !s.guestMem l.guest x.2.1 x.2.2
        let toks := reads.map fun x => (s.memBytes x.1.1 x.1.2, s.memBytes x.2.1 x.2.2)
        let s := if reads.any fun x => s.meetsError x.1.1 x.1.2 || s.meetsError x.2.1 x.2.2 then s.breakJob (s.ctx p o.ctx).job else s
        let s := reads.foldl (fun s x => ((s.memRead x.1.1 x.1.2).2.2.memRead x.2.1 x.2.2).2.2) s
        if bad then fail s 4
        else (stagingWrites o toks |>.foldl (fun s w => s.arriveBytes p w.1 w.2) s).streamFlag p o (32 * o.block) n 0

/-- R258: an append into a run that is being copied makes the copy start again; after 4 restarts the move of that run waits, its new run is free, and
the move goes on with the other runs. -/
def State.restartMove (s : State) (n span : Nat) (r : Run) : State :=
  if r.moving then
    if r.restarts < 4 then s.setRun n span (some { r with restarts := r.restarts + 1 })
    else
      let s := s.setRun n span (some { r with moving := false, fresh := none })
      match s.ledger? n, r.fresh with
      | some l, some (pool, addr) => ((s.giveRun l.guest pool addr).unfull l.guest).nextMove n
      | _, _ => s
  else s

/-- R248: an append completes. -/
def State.appendDone (s : State) (p : Nat) (o : StreamOp) : State :=
  let cause := s.streamCause o
  match s.ledger? o.ledger with
  | none => s.streamFlag p o 0 1 cause
  | some l =>
    let w := l.width
    let src := [(o.base, w), (o.scaleBase, w / 32), (o.base + o.stride, w), (o.scaleBase + o.scaleStride, w / 32)]
    let t := s.tile p
    let words := src.flatMap fun x => wordsIn x.1 x.2
    if cause ≠ 0 then s.streamFlag p o l.tokens 1 cause
    else
      let span := l.tokens / 32
      match fget l.runs span with
      | none => s.streamFlag p o l.tokens 1 (if l.full then 5 else 7)
      | some r =>
        let s := s.readFinds p words
        if words.any (fun a => (t.word a).tag != .pack || t.bad a) then s.streamFlag p o l.tokens 1 6
        else
          let a := keyAddr r.addr w o.pair (l.tokens % 32)
          let sa := scaleAddr r.addr l.pairs w o.pair (l.tokens % 32)
          if !s.guestMem l.guest a (2 * w) || !s.guestMem l.guest sa (w / 16) then
            (s.guestFault l.guest).streamFlag p o l.tokens 1 4
          else
            let s := s.noteCellar p o.ctx l.guest r
            let s := s.memWrite a (t.bytes o.base w ++ t.bytes (o.base + o.stride) w) (.stream p)
            let s := s.memWrite sa (t.bytes o.scaleBase (w / 32) ++ t.bytes (o.scaleBase + o.scaleStride) (w / 32)) (.stream p)
            let s := s.restartMove o.ledger span r
            (s.modLedger o.ledger fun l => { l with marks := addTo l.marks o.pair }).streamFlag p o l.tokens 1 0

/-! ## The ledger advance (R254, R255, R257) -/

/-- A live ledger of a guest at a step barrier. -/
def State.advanceLedger (s : State) (n : Nat) : State :=
  match s.ledger? n with
  | none => s
  | some l =>
    let s :=
      if l.marks.length = l.pairs ∧ l.pairs ≠ 0 then
        let s := s.modLedger n fun l => { l with tokens := l.tokens + 1, marks := [] }
        if ((l.tokens + 1) % 32 = 16 ∧ l.tokens + 1 < 262128) ∨ l.tokens + 1 = 262144 then s.giveSpan n ((l.tokens + 1) / 32 + 1) true else s
      else if l.marks = [] then s
      else
        let s := s.modLedgers fun x => { x with partials := satInc x.partials }
        s.ledgerEvent 2 0 l.tokens (s.handle n) l.guest 0 0
    let s :=
      if l.full && decide (l.tokens < 262144) && (fget l.runs ((l.tokens + 16) / 32)).isNone then
        s.giveSpan n ((l.tokens + 16) / 32) false
      else s
    let s := s.modLedger n fun l =>
      { l with idle := if l.named then l.idle else l.idle + 1, named := false, runs := fmap l.runs fun _ r => { r with restarts := 0 } }
    let g := s.guest l.guest
    let idle := (if l.named then l.idle else l.idle + 1)
    if g.idleSteps ≠ 0 ∧ g.idleSteps ≤ idle ∧ l.runs.any (fun e => !s.runInCellar l.guest e.2) ∧ l.moveTo.isNone then s.startMove n true none
    else s.nextMove n

/-- Every live ledger of a guest, in ascending number. -/
def State.advance (s : State) (g : Nat) : State :=
  (s.ledgers.live.filter (·.2.guest = g)).foldl (fun s e => s.advanceLedger e.1) s

/-- R259: an ASTREAM names a ledger: IDLE returns to 0, and a demoted ledger's prefetch starts. -/
def State.nameLedger (s : State) (n : Nat) : State :=
  match s.ledger? n with
  | none => s
  | some l =>
    let s := s.modLedger n fun l => { l with idle := 0, named := true }
    if l.demoted && (s.runCounts l).2 != 0 then s.startMove n false none else s

end Sys2Proof.Machine
end

