-- ==== Sys2Proof/Machine/Jobs.lean ====
section
/-! DEFINITION. Jobs (R609 to R613): the tiles of a job, how a job ends and what it reports, and the reduction groups and
their trees (R225). -/

namespace Sys2Proof.Machine

/-- The logical tiles of a job: its rectangle, and the reserve rows lent to it. -/
def Job.coords (j : Job) : List (Nat × Nat) :=
  ((List.range (j.y1 + 1 - j.y0)).flatMap fun dy => (List.range (j.x1 + 1 - j.x0)).map fun dx => (j.x0 + dx, j.y0 + dy))
    ++ (List.range j.lentRows).flatMap fun dy => (List.range 64).map fun x => (x, 64 + dy)

/-- Their physical tiles. -/
def State.jobTiles (s : State) (j : Job) : List Nat := j.coords.map fun c => s.phys c.1 c.2

/-- JOB_EVENT (R613). -/
def State.jobEvent (s : State) (kind cause x y ctx job stopped trap0 trap1 : Nat) (guest seq : Nat) : State :=
  s.raise 0x0381 ([kind, cause, x, y, ctx].map (BitVec.ofNat 8) ++ zeros 3 ++ leBytes 4 job ++ leBytes 4 stopped
    ++ leBytes 8 trap0 ++ leBytes 8 trap1) guest seq

/-- A context released without committing any further result (R609). -/
def Ctx.released (c : Ctx) : Ctx :=
  { c with
    assigned := false, ready := false, stopped := false, ending := false, queue := [], waiting := none, atStep := false, rep := none,
    shadow := none, inHandler := false, exch := {} }

/-- Every context that holds a program of a job is released, its draw requests go (R287), and the halts of a save or of an end of it are
withdrawn. -/
def State.releaseJob (s : State) (j : Nat) : State :=
  { s with tiles := fmap s.tiles fun _ t =>
      { t with
        ctxs := fmap t.ctxs fun _ c => if c.assigned && c.job == j then c.released else c,
        fnQueue := t.fnQueue.filter fun e => !((t.ctx e.1).assigned && (t.ctx e.1).job == j),
        draws := t.draws.filter (·.job != j),
        halts := t.halts.filter fun h => h != .porter j && h != .jobEnd j,
        atRest := t.atRest && (t.halts.any (fun h => h != .porter j && h != .jobEnd j) || s.mesh.halts != []),
        streamed := t.streamed && (t.halts.any (fun h => h != .porter j && h != .jobEnd j) || s.mesh.halts != []),
        drawn := t.drawn && (t.halts.any (fun h => h != .porter j && h != .jobEnd j) || s.mesh.halts != []) } }

/-- R26, R398: lent rows return to the reserve, and the stand-ins that served their coordinates are released; a change of the stand-in table
breaks every job's step (R22, R280). -/
def State.returnRows (s : State) : State :=
  let old := s.mesh.standIns
  let s := s.modMesh fun m => { m with lentRows := 0, lentTo := none, standIns := m.standIns.filter (·.1 < 64 * 64) }
  if s.mesh.standIns = old then s else s.breakAll

/-- R609: a live job ends. -/
def State.endJob (s : State) (j cause seq : Nat) : State :=
  match fget s.jobs j with
  | none => s
  | some x =>
    if x.live then
      let s := s.releaseJob j
      let s := s.modNet fun n => { n with conns := fmap n.conns fun _ c => { c with sends := c.sends.filter (·.job != some j) } }
      let s := if x.lentRows = 0 then s else s.returnRows
      let n := (s.jobs.map (·.2.order)).foldl max 0 + 1
      let now := s.firm.aon
      let s := (s.modJob j fun x =>
        { x with live := false, order := n, groups := [], lentRows := 0, ending := none, endedAt := some now, save := none }).settleWaits
      s.jobEvent 1 cause 0 0 0 j x.stopped 0 0 x.guest seq
    else s

/-- R609: a job whose contexts have all ended or stopped ends with CAUSE 0. -/
def State.checkJob (s : State) (j : Nat) : State :=
  if s.tiles.any fun e => e.2.ctxs.any fun c => c.2.assigned && c.2.job == j && !c.2.stopped then s
  else s.endJob j 0 0

/-- A halt of every tile of a job is requested so that it ends with the given cause (R397, R612). -/
def State.haltToEnd (s : State) (j cause seq : Nat) : State :=
  match fget s.jobs j with
  | none => s
  | some x =>
    let s := (s.jobTiles x).foldl (fun s p => s.halt p (.jobEnd j)) s
    s.modJob j fun x => { x with ending := some seq, endCause := cause }

/-- R612 steps 2 to 4: a job whose tiles all stand at rest points ends, with the halts withdrawn. -/
def State.endAtRest (s : State) (j : Nat) : State :=
  match fget s.jobs j with
  | none => s
  | some x =>
    match x.ending with
    | none => s
    | some seq =>
      let ps := s.jobTiles x
      if ps.all fun p => (s.tile p).atRest then s.endJob j x.endCause seq else s

/-- R275: a D2 job that reads out a MIXED tally is held at D1 and counted once. -/
def State.downgrade (s : State) (j : Nat) : State :=
  match fget s.jobs j with
  | some x =>
    if x.level = 2 ∧ !x.downgraded then
      (s.modJob j fun x => { x with downgraded := true }).modLedgers fun l => { l with downgrades := satInc l.downgrades }
    else s
  | none => s

/-- R508: whether an image save of a job of a guest has not yet captured its state; then no send request and no queue fetch of
the guest starts. -/
def State.saving (s : State) (g : Nat) : Bool :=
  s.jobs.any fun e => e.2.live && e.2.guest == g && (match e.2.save with | some v => v.kind == 0 && !v.copying | none => false)

/-- R510: whether an image save of a job of a guest has reported that it is quiet and has not yet captured; then no message of the guest starts. -/
def State.quietHeld (s : State) (g : Nat) : Bool :=
  s.jobs.any fun e => e.2.live && e.2.guest == g && (match e.2.save with | some v => v.kind == 0 && v.quiet && !v.capturing | none => false)

/-! ## Reduction groups (R225, R226) -/

/-- The group of a context of a tile, if it belongs to one. -/
def State.groupOf (s : State) (x y ctx job : Nat) : Option Group :=
  match fget s.jobs job with
  | some j => j.groups.find? fun g => decide (g.x0 ≤ x) && decide (x ≤ g.x1) && decide (g.y0 ≤ y) && decide (y ≤ g.y1) && g.ctx == ctx
  | none => none

/-- The exponents k for which d + 2^k is a child of d in a tree over 0 to n − 1 by R225's rule. -/
def childSteps (d n : Nat) : List Nat :=
  (List.range 7).filter fun k => d % 2 ^ (k + 1) == 0 && decide (d + 2 ^ k < n)

/-- The level k at which d sends to d − 2^k; none for 0. -/
def upStep (d : Nat) : Option Nat := (List.range 17).find? fun k => d % 2 ^ (k + 1) == 2 ^ k

/-- A tile's children in its group's tree, with the level of the link to each: along the row, then, in the first column, along the column. -/
def Group.childLinks (g : Group) (x y : Nat) : List ((Nat × Nat) × Nat) :=
  (childSteps (x - g.x0) (g.x1 + 1 - g.x0)).map (fun k => ((x + 2 ^ k, y), k))
    ++ if x = g.x0 then
        (childSteps (y - g.y0) (g.y1 + 1 - g.y0)).map (fun k => ((x, y + 2 ^ k), Nat.clog 2 (g.x1 + 1 - g.x0) + k))
      else []
def Group.children (g : Group) (x y : Nat) : List (Nat × Nat) := (g.childLinks x y).map (·.1)

/-- The levels at which a rank has a child rank in the tree across modules, and the level at which it sends to its parent, with that rank (R225). -/
def childRanks (r n : Nat) : List (Nat × Nat) :=
  ((List.range 17).filter fun k => r % 2 ^ (k + 1) == 0 && decide (r + 2 ^ k < n)).map fun k => (k, r + 2 ^ k)
def sendLevel (rank : Nat) : Option (Nat × Nat) := (upStep rank).map fun k => (k, rank - 2 ^ k)

/-- A tile's parent and the level of the link to it: row levels first, then column levels. -/
def Group.parent (g : Group) (x y : Nat) : Option (Nat × Nat × Nat) :=
  match upStep (x - g.x0) with
  | some k => some (x - 2 ^ k, y, k)
  | none =>
    match upStep (y - g.y0) with
    | some k => some (x, y - 2 ^ k, Nat.clog 2 (g.x1 + 1 - g.x0) + k)
    | none => none

/-- A TMAX packet (R205, R226). -/
def tmaxPacket (kind sx sy dx dy ctx number level : Nat) (a : Option Int) : Packet :=
  { dstX := dx, dstY := dy, srcX := sx, srcY := sy, kind, cls := 1, ctx,
    operand := BitVec.ofNat 32 ((match a with | some v => (BitVec.ofInt 11 v).toNat | none => 2 ^ 11) + number * 2 ^ 12 + level * 2 ^ 28) }

/-- The anchor that a TMAX packet carries; none is NONE. -/
def tmaxAnchor (p : Packet) : Option Int :=
  if p.operand.getLsbD 11 then none else some (p.operand.extractLsb' 0 11 : BitVec 11).toInt

/-- The exchange number of a TMAX packet. -/
def tmaxNumber (p : Packet) : Nat := bitsOf p.operand.toNat 27 12

/-- Packets leave a tile by its local port; its router stamps OWNER into GUEST and 0 into FW (R217). -/
def State.send (s : State) (p : Nat) (ps : List Packet) : State :=
  let g := match s.mesh.serves p with | some (x, y) => (s.owner x y).getD 0 | none => 0
  s.modTile p fun t => { t with outq := t.outq ++ ps.map fun k => { k with guest := g, fw := false } }

/-! ## The anchor exchange (R226, R228) -/

/-- A KIND 1 address that names the root of another module's group, given by its receive block, in place of a store offset: 0x180000 + 8·CTX, which no
memory key covers. An anchor travels as a WRITE of 8 bytes to it (notes/assumptions/14.md). -/
def anchorAddr (block ctx : Nat) : Nat := block / 2 ^ 21 * 2 ^ 21 + 0x180000 + 8 * ctx

/-- The 8 bytes of an anchor between modules: OPERAND of the TMAX packet, whether it is the combined anchor, and the sender's rank. -/
def anchorWord (p : Packet) (down : Bool) (rank : Nat) : Nat := p.operand.toNat + 2 ^ 32 * bit down + 2 ^ 48 * rank

/-- A module's root sends an anchor to a rank by the pre-posted request armed there: it is the first in that connection's ring. -/
def State.sendAnchor (s : State) (job : Nat) (g : Group) (down : Bool) (number : Nat) (a : Option Int) (rank : Nat × Nat) : State :=
  match (if g.armed.contains rank.2 then fget s.jobs job else none) with
  | none => s
  | some j =>
    let e := s.memBytes (g.peers + 16 * rank.2) 16
    match (s.guest j.guest).moduleNo 64 (field e 0 2) with
    | none => s
    | some cn =>
      let w := anchorWord (tmaxPacket 4 0 0 0 0 0 number (rank.1 % 16) a) down g.rank
      let r : WorkRequest :=
        { op := 2, length := 8, tally := true, remoteKey := BitVec.ofNat 32 (field e 4 4), remoteAddr := anchorAddr (field e 8 8) g.ctx,
          job := some job, data := some (leBytes 8 w) }
      s.modConn cn fun c => { c with sends := r :: c.sends }

/-- The combined anchor reaches a member: it goes on down the tree, from a module's root to the ranks below it too. -/
def State.spreadAnchor (s : State) (p n x y : Nat) (g : Group) (a : Int) : State :=
  let c := s.ctx p n
  let s := s.modCtx p n fun c => { c with exch := { c.exch with combined := some a } }
  let s := s.send p ((g.childLinks x y).map fun k => tmaxPacket 5 x y k.1.1 k.1.2 n c.exch.number k.2 (some a))
  if (g.parent x y).isNone then
    (childRanks g.rank g.modules).foldl (fun s k => s.sendAnchor c.job g true c.exch.number (some a) k) s
  else s

/-- R226, R228: once a member has its own anchor and all its children's, it sends the maximum up: within the module to its parent, and from a
module's root, which waits for the ranks below it too, to the rank above. The root of rank 0 sends the combined anchor down. -/
def State.combine (s : State) (p n : Nat) : State :=
  match s.mesh.serves p with
  | none => s
  | some (x, y) =>
    let c := s.ctx p n
    match s.groupOf x y n c.job with
    | none => s
    | some g =>
      let parent := g.parent x y
      let kids := (g.children x y).map fun k => c.exch.up.find? fun u => u.1 = c.exch.number ∧ u.2.1 = logicalIndex k.1 k.2
      let ranks := if parent.isNone then
          (childRanks g.rank g.modules).map fun k => c.exch.mods.find? fun u => u.1 = c.exch.number ∧ u.2.1 = k.2
        else []
      let got := kids ++ ranks
      if c.exch.started && c.exch.combined.isNone && got.all (·.isSome) then
        let v := maxExp (c.exch.own :: got.map fun u => match u with | some u => u.2.2 | none => none)
        let s := s.modCtx p n fun c => { c with exch := { c.exch with
          up := c.exch.up.filter fun u => u.1 ≠ c.exch.number, mods := c.exch.mods.filter fun u => u.1 ≠ c.exch.number } }
        match parent, (if 1 < g.modules then sendLevel g.rank else none) with
        | some (px, py, k), _ => s.send p [tmaxPacket 4 x y px py n c.exch.number k v]
        | none, some up => s.sendAnchor c.job g false c.exch.number v up
        | none, none => s.spreadAnchor p n x y g (v.getD 0)
      else s

end Sys2Proof.Machine
end

