-- ==== Sys2Proof/Machine/Issue.lean ====
section
/-! DEFINITION. The issue of a bundle by a context of a tile (R124, R155, R161 to R169, R188 to R195): how the trap is chosen,
what takes effect at issue, the next program counter, and the commits that follow. -/

namespace Sys2Proof.Machine

/-! ## Evaluating a bundle -/

/-- What a tile's context sees beyond its registers. -/
def State.env (s : State) (p n : Nat) : Env :=
  let t := s.tile p
  let c := t.ctx n
  let xy := (s.mesh.serves p).getD (0, 0)
  let g := (fget s.jobs c.job).map (·.guest)
  { pc := c.pc, x := xy.1, y := xy.2, ctxNo := n,
    word := t.word,
    bad := t.bad,
    owned := fun x y => decide (x < 64) && decide (y < 68) && g.isSome && s.owner x y == g,
    handle := s.handleCheck (s.owner xy.1 xy.2),
    anchor := c.exch.combined }

/-- The conditions on the fetch of a bundle (R161, R133); a fetch outside the tile store takes ADDRESS (R196; notes/assumptions/11.md). -/
def Env.fetchTraps (e : Env) : List TrapCond :=
  if e.pc % 16 = 0 ∧ e.inRange e.pc ∧ e.inRange (e.pc + 15) then
    (if (e.word e.pc).tag != .pack then [{ num := 0, value := e.pc }]
      else if (e.word (e.pc + 8)).tag != .pack then [{ num := 0, value := e.pc + 8 }] else [])
      ++ e.errTrap e.pc ++ e.errTrap (e.pc + 8)
  else [{ num := 5, value := e.pc }]

/-- Whether a bundle is illegal as a whole here. -/
def Env.malformed (e : Env) (b : Bundle) : Bool := b.malformed e.core fun a => e.inRange a

/-- R169: the operations that a shadow may not hold. -/
def SOp.noShadow (o : SOp) : Bool := [SOp.br, .bz, .bnz, .call, .jmp, .rte, .endOp, .repi, .repx].contains o

/-- The outcome of each slot in slot order. -/
def evalSlots (e : Env) (c : Ctx) (b : Bundle) : List SlotOut :=
  let s := match b.s with
    | .nop => {}
    | .bad => trapOut [{ num := 0 }]
    | .op o => (evalScalar e c b o).addTraps (if c.shadow.isSome && o.op.noShadow then [{ num := 0 }] else [])
  let v := match b.v with
    | .nop => {}
    | .bad => trapOut [{ num := 0 }]
    | .op o => evalVector c o
  let m := match b.m with
    | .nop => {}
    | .bad => trapOut [{ num := 0 }]
    | .op o => evalMatrix e c o
  let x := match b.x with
    | .nop => {}
    | .bad => trapOut [{ num := 0 }]
    | .op o => evalMove e c o
  [s, v, m, x]

/-- R163: the conditions that belong to a slot because an earlier slot writes the same register or advances the same
descriptor. -/
def clashes (before : List SlotOut) (o : SlotOut) : List TrapCond :=
  let ws := before.flatMap (·.writes)
  let ds := before.flatMap fun b => b.adv.map (·.1)
  ((o.writes.filter ws.contains).map fun r => { num := 0, index := regIndex r })
    ++ (o.adv.filter fun a => ds.contains a.1).map fun a => { num := 0, index := a.1 }

/-- R183, R192: the access limit belongs to the slot whose units first take the count above 32; the fetch counts first. -/
def overLimit (pc : Nat) (before : List SlotOut) (o : SlotOut) : List TrapCond :=
  let us := (pc / 32 :: before.flatMap (·.units)).dedup
  if us.length ≤ 32 ∧ 32 < (us ++ o.units).dedup.length then [{ num := 7, value := (us ++ o.units).dedup.length }] else []

/-- The lowest trap number among a slot's conditions. -/
def lowestTrap (l : List TrapCond) : Option TrapCond :=
  l.foldl (fun acc t => match acc with | none => some t | some a => if t.num < a.num then some t else some a) none

/-- R192: the first slot with a trapping condition, and the lowest trap number within it. -/
def chooseTrap (pc : Nat) : List SlotOut → List SlotOut → Nat → Option (Nat × TrapCond)
  | _, [], _ => none
  | before, o :: rest, k =>
    match lowestTrap (o.traps ++ clashes before o ++ overLimit pc before o) with
    | some t => some (k, t)
    | none => chooseTrap pc (before ++ [o]) rest (k + 1)

/-- What the next bundle of a context comes to: its trap, or the bundle and what its slots do. -/
inductive Fetched where
  | trap (slot : Nat) (t : TrapCond)
  | run (b : Bundle) (outs : List SlotOut)

/-- The bundle at the program counter, read whether or not its words are tagged PACK. -/
def Env.fetch (e : Env) : Bundle := decodeBundle ((e.word (e.pc + 8)).data ++ (e.word e.pc).data)

/-- The offending value of an illegal bundle as a whole: its LDI's immediate where that alone is at fault, else its address (R160, R194,
notes/assumptions/80.md). -/
def Env.illegal (e : Env) (b : Bundle) : TrapCond :=
  let other := { b with tag := 1, imm := 0 }
  { num := 0, value := if b.fmt == 1 && !e.malformed other then b.imm.toNat else e.pc }

/-- A condition that gives no offending value of its own has the address of its bundle. -/
def TrapCond.located (t : TrapCond) (pc : Nat) : TrapCond := if t.num = 0 ∧ t.value = 0 then { t with value := pc } else t

def evalBundle (e : Env) (c : Ctx) : Fetched :=
  match lowestTrap e.fetchTraps with
  | some t => .trap 0 t
  | none =>
    let b := e.fetch
    if e.malformed b then .trap 0 (e.illegal b)
    else
      let outs := evalSlots e c b
      match chooseTrap e.pc [] outs 0 with
      | some (k, t) => .trap k (t.located e.pc)
      | none => .run b outs

/-- Whether a bundle cannot be fetched or decoded, or holds no operation at all: then any command of its context issues it
(notes/assumptions/7.md). -/
def Env.anyCommand (e : Env) : Bool :=
  let b := e.fetch
  e.fetchTraps != [] || e.malformed b || b.s == .bad || b.v == .bad || b.m == .bad || b.x == .bad
    || (b.s == .nop && b.v == .nop && b.m == .nop && b.x == .nop)

/-! ## Traps -/

/-- A trap's words saved, and issue from the handler, or the context stopped (R192 to R194). A bundle that traps takes no position, so the handler's
first bundle takes it (R164; DESIGN CHOICE, notes/assumptions/107.md). -/
def Ctx.trapped (c : Ctx) (slot : Nat) (t : TrapCond) (pc : Nat) : Ctx :=
  let c := { c with
    trap :=
      { number := t.num, slot, index := t.index, pc,
        count := (match c.rep with | some r => r.left | none => 0),
        isX := (match c.rep with | some r => r.isX | none => false),
        value := BitVec.ofNat 64 t.value,
        target := (match c.shadow with | some (some a) => some a | _ => none) },
    rep := none, shadow := none }
  match c.handler with
  | some h => if c.inHandler then { c with stopped := true } else { c with inHandler := true, pc := h }
  | none => { c with stopped := true }

/-- The trap state words 0 and 1 as JOB_EVENT carries them. -/
def TrapState.word0 (t : TrapState) : Nat := t.number + 256 * t.slot + 1024 * (t.index % 64)

/-- R192 to R194 for a context of a tile; a stop is reported, and may end the job. -/
def State.takeTrap (s : State) (p n slot : Nat) (t : TrapCond) (pc : Nat) : State :=
  let s := s.modCtx p n fun c => c.trapped slot t pc
  let c := s.ctx p n
  if c.stopped then
    let s := s.modJob c.job fun j => { j with stopped := j.stopped + 1 }
    let xy := (s.mesh.serves p).getD (0, 0)
    let g := ((fget s.jobs c.job).map (·.guest)).getD 0xFFFF
    (s.jobEvent 0 0 xy.1 xy.2 n c.job 0 c.trap.word0 c.trap.pc g 0).checkJob c.job
  else s

/-! ## Issue -/

/-- R184 and R180, R214: whether the packets of a bundle can leave the tile now; if not, the tile freezes. -/
def Tile.canSend (t : Tile) (ps : List Packet) : Bool :=
  let waits := fun c => t.outq.any (fun k => k.cls == c && k.kind != 3) && decide (32 ≤ fgetD 0 t.unacked c)
  let room : Nat := ((t.outq.filter (·.kind = 0)).map fun k => 32 * k.units).sum + ((ps.filter (·.kind = 0)).map fun k => 32 * k.units).sum
  ps.isEmpty || (!ps.any (fun k => waits k.cls) && decide (room ≤ 16384))

/-- Whether a bundle holds VFN. -/
def Bundle.isVfn (b : Bundle) : Bool := match b.v with | .op o => o.op == .vfn | _ => false

/-- R175, R180, R214, R246: whether a bundle freezes the tile. -/
def Tile.freezes (t : Tile) (n : Nat) (b : Bundle) (outs : List SlotOut) : Bool :=
  (b.isVfn && decide (16 ≤ t.fnQueue.length))
    || !t.canSend (outs.flatMap (·.sends))
    || ((outs.any (·.stream.isSome)) && (t.ctx n).streaming)

/-- What a bundle does at distance 0 besides its slots' own results: cursor advances, and the marks of a GET (R168, R180). -/
def atIssue (outs : List SlotOut) : List (Nat × Bool × Effect) :=
  (outs.flatMap fun o => o.adv.map fun a => (0, true, .cursor a.1 a.2)) ++ outs.flatMap fun o => o.marks.map fun a => (0, true, .pend a)

/-- What takes effect at issue in the context: the tallies, and the results that join the commit queue, behind those of earlier bundles that
fall due at the same position (R164, R165). -/
def Ctx.issued (c : Ctx) (outs : List SlotOut) : Ctx :=
  let t := (outs.findSome? (·.tallies)).getD c.t
  let q := (atIssue outs ++ outs.flatMap (·.results)).foldl
    (fun q r => insertCommit q { due := c.pos + r.1, issued := c.pos, produced := r.2.1, eff := r.2.2 }) c.queue
  { c with t := t, queue := q, pos := c.pos + 1 }

/-- Where issue goes on after a bundle at `pc` (R169, R188 to R191, R195). -/
def Ctx.next (c : Ctx) (ctl : Ctl) : Ctx :=
  let seq := c.pc + 16
  let c := match c.rep with
    | some r => if 1 < r.left then { c with rep := some { r with left := r.left - 1 } } else { c with rep := none, pc := seq }
    | none =>
      match c.shadow with
      | some tgt => { c with shadow := none, pc := tgt.getD seq }
      | none => { c with pc := seq }
  match ctl with
  | .branch tgt => { c with shadow := some tgt }
  | .rep 0 _ => { c with pc := seq + 16 }
  | .rep k x => { c with rep := some { left := k, isX := x } }
  | .rte =>
    { c with
      pc := c.trap.pc, inHandler := false,
      rep := if c.trap.count = 0 then none else some { left := c.trap.count, isX := c.trap.isX },
      shadow := c.trap.target.map some }
  | _ => c

/-- The engine keeps the last 16 handles it has checked (R245). -/
def keepHandle (l : List (BitVec 64)) (h : BitVec 64) : List (BitVec 64) := ((l.filter (· != h)) ++ [h]).drop ((l.filter (· != h)).length - 15)

/-- An ASTREAM joins the tile's engine (R245, R246, R259). -/
def State.startStream (s : State) (p n : Nat) (o : StreamOp) : State :=
  let s := s.modCtx p n fun c => { c with streaming := true }
  let s := s.modTile p fun t =>
    { t with streams := t.streams ++ [o], handles := keepHandle t.handles (BitVec.ofNat 64 (s.handle o.ledger)) }
  s.nameLedger o.ledger

/-- The IMM of a BRK, which is its offending value (notes/assumptions/80.md). -/
def Bundle.brkImm (b : Bundle) : Nat := match b.s with | .op o => o.imm.toNat | _ => 0

/-- END: everything that the context has queued commits, the context is released, and the job may end (R170, R609). -/
def State.endCtx (s : State) (p n job : Nat) : State :=
  (((s.commitAll p n).modCtx p n Ctx.released).modTile p fun t => { t with fnQueue := t.fnQueue.filter (·.1 != n) }).checkJob job

/-- A bundle that does not trap issues: everything it does at issue, then the commits that fall due. -/
def State.issueRun (s : State) (p n : Nat) (b : Bundle) (outs : List SlotOut) : State :=
  let old := s.ctx p n
  let ctl := (outs.map (·.ctl)).headD .none
  let word := fun a => (s.tile p).word a
  let s := s.modCtx p n fun c => (c.issued outs).next ctl
  let s := s.modTile p fun t => { t with fnQueue := if b.isVfn then t.fnQueue ++ [(n, old.pos)] else t.fnQueue }
  let s := s.send p (outs.flatMap (·.sends))
  let s := match outs.findSome? (·.stream) with | some o => s.startStream p n o | none => s
  let s := if outs.any (·.mixed) then s.downgrade old.job else s
  let s := match b.m with
    | .op o => if o.op == .mmacA && old.exch.combined.isSome then
        s.modCtx p n fun c => { c with exch := { number := (c.exch.number + 1) % 65536, up := c.exch.up, mods := c.exch.mods } } else s
    | _ => s
  match ctl with
  | .finish => if b.isVfn then s.modCtx p n fun c => { c with ending := true } else s.endCtx p n old.job
  | _ =>
    let s := State.commitDue ((s.ctx p n).queue.length + 1) s p n
    match ctl with
    | .wait a => if (word a).tag = .pending then s.modCtx p n fun c => { c with waiting := some a } else s
    | .step => s.modCtx p n fun c => { c with atStep := true }
    | .brk => s.takeTrap p n 0 { num := 12, value := b.brkImm } (s.ctx p n).pc
    | _ => s

/-- R226: the pre-pass of a grouped MMAC.A runs before its bundle issues, and its anchor joins the exchange. -/
def State.startExchange (s : State) (p n : Nat) (e : Env) (c : Ctx) (o : MSlot) : State :=
  let da := c.desc o.da.toNat
  let db := c.desc o.db.toNat
  let own := match elemOf da.fmt, elemOf db.fmt with
    | some fa, some fb =>
      match pairShape fa fb with
      | some (blocks, k) => e.prepass da db fa fb k blocks
      | none => none
    | _, _ => none
  (s.modCtx p n fun c => { c with exch := { c.exch with started := true, own := own } }).combine p n

/-- Whether a bundle is a grouped MMAC.A whose combined anchor is still missing. -/
def State.needsExchange (s : State) (p n : Nat) (b : Bundle) : Option MSlot :=
  let c := s.ctx p n
  match b.m, s.mesh.serves p with
  | .op o, some (x, y) =>
    if o.op == .mmacA && c.exch.combined.isNone && (s.groupOf x y n c.job).isSome then some o else none
  | _, _ => none

/-- The registers that a scalar operation reads (R170). -/
def SSlot.sources (o : SSlot) : List RegName :=
  let ra := !([SOp.ldi, .br, .call, .repx, .step, .endOp, .rte, .brk, .rdt, .dget, .dput, .pget, .wfi].contains o.op)
  let rb := [SOp.add, .sub, .andOp, .orOp, .xor, .cmplt, .cmpeq, .min, .max, .mul, .div, .rem, .fadd, .fsub, .fmul, .ffma, .fmax, .fmin, .sst,
    .dput, .sst4].contains o.op
  (if ra then [.s o.ra.toNat] else []) ++ (if rb then [.s o.rb.toNat] else [])
    ++ match o.op with
      | .ffma => [.s o.rd.toNat]
      | .dget => [.d (o.ra.toNat % 16)]
      | .dst => [.d (o.rd.toNat % 16)]
      | .pget => [.p (o.ra.toNat % 8)]
      | _ => []

/-- The registers that a vector operation reads (R172). -/
def VSlot.sources (o : VSlot) : List RegName :=
  .p o.pr.toNat :: (if o.op == .vbcast then [] else [.v o.va.toNat])
    ++ (match o.op with
      | .vadds | .vmuls | .vbcast => [.s o.b.toNat]
      | .vrmax32 | .vrsum32 | .vfn => []
      | .vfma => [.v o.b.toNat, .v o.vc.toNat]
      | _ => [.v o.b.toNat])

/-- The registers that a matrix operation reads (R176), and whether it clears the tallies first. -/
def MSlot.clears (o : MSlot) : Bool := o.op == .mmacI || o.op == .mmacR || o.op == .mmacA || o.op == .tclr
def MSlot.sources (o : MSlot) : List RegName :=
  match o.op with
  | .tclr => []
  | .tget => [.d o.da.toNat, .t (o.arg.toNat % 64)]
  | .mma => .d o.da.toNat :: .d o.db.toNat :: (List.range 48).map .t
  | .mmacR => [.d o.da.toNat, .d o.db.toNat, .s (o.arg.toNat % 64)]
  | _ => [.d o.da.toNat, .d o.db.toNat]

/-- The registers that a move operation reads (R177). -/
def XSlot.sources (o : XSlot) : List RegName :=
  match o.op with
  | .vld => [.d o.dk.toNat]
  | .vst | .vstmx => [.d o.dk.toNat, .v o.vr.toNat]
  | .trd => (List.range 8).map fun k => .t (8 * (o.dk.toNat % 8) + k)
  | .tput => [.d o.dk.toNat, .t o.n.toNat]
  | .txmx => .d o.dk.toNat :: (List.range 32).map fun i => .t (16 * (o.n.toNat % 2) + i)
  | .put | .get | .astream => [.d o.dk.toNat, .s o.sr.toNat]

/-- What a slot gives, of a bundle's slots. -/
def Slot.get {α β : Type} (f : α → List β) : Slot α → List β
  | .op o => f o
  | _ => []

/-- The registers that a bundle reads. -/
def Bundle.sources (b : Bundle) : List RegName := b.s.get SSlot.sources ++ b.v.get VSlot.sources ++ b.m.get MSlot.sources ++ b.x.get XSlot.sources

/-- R133, R142: a bundle reads registers with an uncorrectable error: the tile is to retire. What the registers hold is a free value from the error on. -/
def State.regFinds (s : State) (p n : Nat) (b : Bundle) : State :=
  let t := s.tile p
  if t.regErrs.isEmpty then s
  else
    let cleared := (b.m.get fun o => if o.clears then (List.range 48).map RegName.t else [])
    let found := t.regErrs.any fun e => e.1 == n && b.sources.contains e.2
    let s := s.modTile p (·.freshRegs n (b.sources ++ cleared))
    if found then s.queueRetirement { tile := p, cause := 1 } else s

/-- R129, R133: what the reads of a bundle find: uncorrectable errors in the words whose reads trap with STORE_ERROR, and
single-bit errors, which are corrected. -/
def State.bundleFinds (s : State) (p n : Nat) (e : Env) (c : Ctx) : State :=
  let s := s.regFinds p n e.fetch
  let t := s.tile p
  if t.latent.isEmpty && t.soft.isEmpty then s
  else
    let reads := fun (bad : Nat → Bool) =>
      let e := { e with bad := bad }
      ((e.fetchTraps ++ (evalSlots e c e.fetch).flatMap (·.traps)).filter (·.num = 6)).map (·.value)
    let s := (reads fun a => t.latent.contains (a / 8)).foldl (fun s a => s.findBad p a) s
    (reads fun a => t.soft.contains (a / 8)).foldl (fun s a => s.correct p a) s

/-- The next bundle of a context that the issue stage has chosen: it traps, freezes the tile, begins an anchor exchange, or
issues. A context whose bundle traps counts as the one that issued last (R124; DESIGN CHOICE, notes/assumptions/107.md). -/
def State.issueNext (s : State) (p n : Nat) : State :=
  let e := s.env p n
  let c := s.ctx p n
  match evalBundle e c with
  | .trap k t =>
    let s := s.bundleFinds p n e c
    (s.modTile p fun t => { t with last := n }).takeTrap p n k t c.pc
  | .run b outs =>
    match s.needsExchange p n b with
    | some o => (s.bundleFinds p n e c).startExchange p n e c o
    | none =>
      if (s.tile p).freezes n b outs then s
      else
        let s := s.bundleFinds p n e c
        (s.modTile p fun t => { t with last := n }).issueRun p n b outs

/-- A tile instruction's command: the issue stage of its tile takes the named context's bundle, if it is the one chosen
(R124) and holds the operation. -/
def tileCommand (x y n : Nat) (cmd : SlotCmd) (s : State) : State :=
  let p := s.phys x y
  if s.chosen p = some n ∧ s.mesh.serves p = some (x, y) then
    let e := s.env p n
    if e.anyCommand || e.fetch.holds cmd then s.issueNext p n else s
  else s

/-- What needs TCLK stands still without it (R548, R615). -/
def State.tclk (s : State) (f : State → State) : State := if s.power.tclkStopped then s else f s

/-- R127: the function unit produces the oldest result of its queue, and the results that waited for it commit; an END whose own bundle asked for it is
then done. -/
def State.produce (s : State) (p : Nat) : State :=
  match (s.tile p).fnQueue with
  | [] => s
  | (n, pos) :: r =>
    let s := s.modTile p fun t => { t with fnQueue := r }
    let s := s.modCtx p n fun c =>
      { c with queue := c.queue.map fun q => if q.issued = pos then { q with produced := true } else q }
    let s := State.commitDue ((s.ctx p n).queue.length + 1) s p n
    if (s.ctx p n).ending && !(s.ctx p n).queue.any (fun q => !q.produced) then s.endCtx p n (s.ctx p n).job else s

end Sys2Proof.Machine
end

