-- ==== Sys2Proof/Machine/Mesh.lean ====
section
/-! DEFINITION. The mesh (chapter 06): routing and arbitration of packets, their delivery, acknowledgements, link replays and the
age ticks. A packet waits in a router's input buffer until PACKET_HOP moves it on or an arrival command delivers it. -/

namespace Sys2Proof.Machine

/-! ## Packets and buffers -/

/-- Payload units of 32 bytes; a GET_REQ carries none (R204, R205). -/
def pktUnits (k : Packet) : Nat := k.payload.length / 4
/-- Flits of a packet (R204). -/
def pktFlits (k : Packet) : Nat := ceilDiv (1 + (pktUnits k)) 8
/-- The kinds that use the reply buffers (R209). -/
def pktReply (k : Packet) : Bool := k.kind == 2 || k.kind == 3 || k.kind == 8
/-- The tile-to-tile kinds that are acknowledged (R214, R215): PUT, GET_REQ, GET_REPLY, TMAX_UP and TMAX_DOWN. -/
def pktAcked (k : Packet) : Bool := k.kind == 0 || k.kind == 1 || k.kind == 2 || k.kind == 4 || k.kind == 5

def dirIndex : Dir → Nat
  | .north => 0 | .east => 1 | .south => 2 | .west => 3 | .loc => 4
def opposite : Dir → Dir
  | .north => .south | .east => .west | .south => .north | .west => .east | .loc => .loc
def allDirs : List Dir := [.north, .east, .south, .west, .loc]

/-- The key of an input buffer: input, class, and reply (0) before request (1). -/
def bufKey (input : Dir) (cls : Nat) (reply : Bool) : Nat := dirIndex input * 8 + cls * 2 + bit (!reply)
def Router.buf (r : Router) (key : Nat) : List Packet := fgetD [] r.bufs key
/-- Room for a whole packet in a buffer of 16 flits (R209). -/
def Router.hasRoom (r : Router) (key : Nat) (k : Packet) : Bool :=
  decide (((r.buf key).map pktFlits).sum + (pktFlits k) ≤ 16)
def Router.push (r : Router) (key : Nat) (k : Packet) : Router := { r with bufs := fset r.bufs key (r.buf key ++ [k]) }
def Router.pop (r : Router) (key : Nat) : Router := { r with bufs := fset r.bufs key ((r.buf key).drop 1) }

/-! ## Routing (R210 to R212) -/

/-- The coordinate a packet is routed to: its stand-in's reserve coordinate where its destination is replaced (R211). -/
def Mesh.routeTo (m : Mesh) (k : Packet) : Nat × Nat :=
  match fget m.standIns (logicalIndex k.dstX k.dstY) with
  | some l => (l % 64, l / 64)
  | none => (k.dstX, k.dstY)

/-- The output port of a packet at a coordinate: along the row, then along the column; `loc` at its destination. -/
def routePort (x y : Nat) (d : Nat × Nat) : Dir :=
  if x < d.1 then .east else if d.1 < x then .west
  else if y < d.2 then .south else if d.2 < y then .north else .loc

/-- The kinds bound for the foundation. -/
def pktFoundation (k : Packet) : Bool := k.kind == 6 || k.kind == 7

/-- The output port of a packet at a router: a foundation-bound one goes north to its own die column's crossing, and has no port beyond the die's
top row (R212). -/
def State.portOf (s : State) (x y : Nat) (k : Packet) : Option Dir :=
  if pktFoundation k then (if y % 17 = 0 then none else some .north) else some (routePort x y (s.mesh.routeTo k))

/-- The neighbour of a coordinate. -/
def neighbour (x y : Nat) : Dir → Option (Nat × Nat)
  | .north => if y = 0 then none else some (x, y - 1)
  | .south => if y + 1 < 68 then some (x, y + 1) else none
  | .east => if x + 1 < 64 then some (x + 1, y) else none
  | .west => if x = 0 then none else some (x - 1, y)
  | .loc => none

/-- The clusters' retirements that move a logical coordinate (R146). -/
def State.movingCluster (s : State) (x y : Nat) : Option Nat :=
  (s.clusters.find? fun e => match e.2.moving with | some m => m.coords.contains (x, y) | none => false).map (·.1)

/-- Bytes of a packet in a park buffer. -/
def pktSize (k : Packet) : Nat := 32 + 32 * (pktUnits k)

/-- Whether a cluster's park buffer of 1 MiB has room for a packet (R146). -/
def State.parkRoom (s : State) (c : Nat) (k : Packet) : Bool :=
  decide (((s.cluster c).parked.map pktSize).sum + pktSize k ≤ 0x100000)

/-! ## Arbitration (R219, R222) -/

/-- A shared resource's arbiter (R220): its window W, the guarantees G_c, and its overrun O. -/
structure Arbiter where
  window : Nat
  guarantees : List Nat
  overrun : Nat

/-- The shared resources of R220: a mesh output port, a stack controller's command issue, a burst-queue bank and the key lane. -/
def meshPort : Arbiter := ⟨32, [4, 16, 8, 4], 7⟩
def stackIssue : Arbiter := ⟨64, [8, 24, 24, 8], 1⟩
def burstBank : Arbiter := ⟨16, [2, 6, 6, 2], 1⟩
def keyLane : Arbiter := ⟨32, [8, 8, 12, 4], 3⟩

/-- B_c, the cycles for which a request waits behind other classes at most (R220). -/
def Arbiter.bound (a : Arbiter) (cls : Nat) : Nat := a.window + a.overrun + ((a.guarantees.take cls).map (· + a.overrun)).sum

/-- The guarantee of a class at a mesh output port in each window of 32 TCLK. -/
def guarantee (cls : Nat) : Nat := meshPort.guarantees.getD cls 4

/-- A contender of an output port: its index in the round-robin order, the buffer's key, and the head packet. -/
structure Contender where
  index : Nat
  key : Nat
  pkt : Packet

/-- The contenders of one class for an output port of the router at a coordinate, in the order of R222; only packets whose
next buffer has room can advance (R209). What the local output port delivers is always taken. -/
def State.contenders (s : State) (p x y : Nat) (port : Dir) (cls : Nat) : List Contender :=
  let r := s.router p
  allDirs.flatMap fun i => [true, false].filterMap fun reply =>
    let key := bufKey i cls reply
    match (r.buf key).head? with
    | none => none
    | some k =>
      if s.portOf x y k = some port then
        let free : Bool := match (if pktFoundation k then none else s.movingCluster k.dstX k.dstY) with
          | some c => s.parkRoom c k
          | none =>
            match neighbour x y port with
            | some (nx, ny) => (s.router (s.mesh.basePhys nx ny)).hasRoom (bufKey (opposite port) cls reply) k
            | none => decide (port = .loc)
        if free then some { index := 2 * dirIndex i + bit (!reply), key, pkt := k } else none
      else none

/-- R219: the class that an output port serves. -/
def Router.pickClass (r : Router) (port : Dir) (waiting : List Nat) : Option Nat :=
  match waiting.find? fun c => decide (fgetD 0 r.used (dirIndex port * 4 + c) < guarantee c) with
  | some c => some c
  | none => waiting.head?

/-- The first contender at or after a round-robin position. -/
def rrPick (ptr : Nat) (cs : List Contender) : Option Contender :=
  match cs.find? (ptr ≤ ·.index) with
  | some c => some c
  | none => cs.head?

/-- R222: the contender served, and whether the age rule chose it. -/
def pickContender (limit ptr : Nat) (cs : List Contender) : Option (Contender × Bool) :=
  let aged := cs.filter (limit ≤ ·.pkt.age)
  if aged.isEmpty then (rrPick ptr cs).map (·, false)
  else
    let top := (aged.map (·.pkt.age)).foldl max 0
    (rrPick ptr (aged.filter (·.pkt.age = top))).map (·, true)

/-! ## Flits (R200, R204) -/

/-- The four header words of a packet (R204). -/
def headerWords (k : Packet) : List (BitVec 64) :=
  [BitVec.ofNat 64 (k.dstX + 2 ^ 6 * k.dstY + 2 ^ 13 * k.srcX + 2 ^ 19 * k.srcY + 2 ^ 26 * k.kind + 2 ^ 30 * k.cls + 2 ^ 32 * k.guest
      + 2 ^ 42 * bit k.fw + 2 ^ 45 * k.units + 2 ^ 51 * k.ctx + 2 ^ 54 * k.age),
    BitVec.ofNat 64 (k.addr + 2 ^ 32 * k.retAddr), k.operand.setWidth 64, BitVec.ofNat 64 k.paddr]

/-- A flit: 32 words of data and tags, and the CRC-32C that its sender put beside them. -/
structure Flit where
  words : List TWord
  crc : BitVec 32
  deriving DecidableEq, Repr

/-- The CRC-32C over the data of a flit's words and then their 4-bit tags, two to a byte (notes/assumptions/106.md). -/
def flitCrc (ws : List TWord) : BitVec 32 :=
  let tags : List Byte := (chunks 2 ws).map fun p => BitVec.ofNat 8 ((p.map (·.tag.ctorIdx)).foldr (fun t n => t + 16 * n) 0)
  crc32c (ws.flatMap (fun w => leBytes 8 w.data.toNat) ++ tags)

/-- A flit as it is sent, and whether it is good where it is received. -/
def sentFlit (ws : List TWord) : Flit := { words := ws, crc := flitCrc ws }
def Flit.good (f : Flit) : Bool := f.crc == flitCrc f.words

/-- The flits of a packet on a link: header and payload, cut into flits of 32 words. -/
def flitsOf (k : Packet) : List Flit := (chunks 32 ((headerWords k).map (fun d => { data := d }) ++ k.payload)).map sentFlit

/-- The flit of a packet that its receiver takes for a CRC failure: the first of a reserved KIND, or one whose CRC does not hold (R201, R205). -/
def badFlit (k : Packet) : Option Nat := if 11 ≤ k.kind then some 0 else (flitsOf k).findIdx? fun f => !f.good

/-! ## Link replays (R201) -/

/-- The key of the link between two tiles: the higher index and the lower. -/
def linkKey (p q : Nat) : Nat := 4608 * max p q + min p q

/-- AON cycles of 1 ms. -/
def msCycles : Nat := 25000

/-- A bad CRC of a flit that a tile receives from another: the flit is discarded and replayed. 64 replays within 1 ms over both directions, or the
fifth bad CRC of one flit in a row, fault the link, and its higher-index tile is to retire. -/
def State.flitFail (s : State) (p q flit : Nat) : State :=
  let hi := max p q
  let key := linkKey p q
  let dir := bit (decide (q < p))
  let l : LinkErr := fgetD {} s.linkErrs key
  let now := s.firm.aon
  let times := l.times.filter (fun t => now < t + msCycles) ++ [now]
  let fails := match fget l.fails dir with | some (f, n) => if f = flit then n + 1 else 1 | none => 1
  let faulted := decide (64 ≤ times.length) || decide (5 ≤ fails)
  let s := { s with linkErrs := fset s.linkErrs key { fails := fset l.fails dir (flit, fails), times, faulted := l.faulted || faulted } }
  let s := (s.modCluster (clusterOf hi) fun c => { c with replays := satInc c.replays }).breakAll
  if faulted && !l.faulted then
    (s.modCluster (clusterOf hi) fun c => { c with linkFaults := satInc c.linkFaults }).queueRetirement { tile := hi, cause := 3 }
  else s

/-- FLIT_CRC_FAIL: a tile finds a bad CRC in a flit that reaches it on one side. -/
def execFlitCrcFail (tile : Nat) (side : Dir) (flit : Nat) (s : State) : Out :=
  done (match (if s.power.tclkStopped then none else s.mesh.baseLogical tile) with
    | none => s
    | some (x, y) =>
      match neighbour x y side with
      | none => s
      | some (nx, ny) => s.flitFail tile (s.mesh.basePhys nx ny) flit)

/-- A packet leaves a router by an output port, or is diverted into the park buffer of a retirement that moves its
destination. A reserved KIND fails as a bad CRC does where it would be received (R205). -/
def State.hop (s : State) (p : Nat) (port : Dir) : State :=
  match s.mesh.baseLogical p with
  | none => s
  | some (x, y) =>
    let r := s.router p
    let waiting := (List.range 4).filter fun c => !(s.contenders p x y port c).isEmpty
    match r.pickClass port waiting with
    | none => s
    | some cls =>
      let slot := dirIndex port * 4 + cls
      match pickContender s.mesh.ageLimit.toNat (fgetD 0 r.rr slot) (s.contenders p x y port cls) with
      | none => s
      | some (c, aged) =>
        match badFlit c.pkt with
        | some i =>
          match neighbour x y port with
          | some (nx, ny) => s.flitFail (s.mesh.basePhys nx ny) p i
          | none => s
        | none =>
        let s := s.modRouter p fun r =>
          { (r.pop c.key) with
            used := fset r.used slot (fgetD 0 r.used slot + (pktFlits c.pkt)),
            rr := fset r.rr slot ((c.index + 1) % 10) }
        let s := if aged then s.modCluster (clusterOf p) fun k => { k with ageWins := satInc k.ageWins } else s
        match (if pktFoundation c.pkt then none else s.movingCluster c.pkt.dstX c.pkt.dstY) with
        | some k => s.modCluster k fun m => { m with parked := m.parked ++ [c.pkt] }
        | none =>
          match neighbour x y port with
          | some (nx, ny) =>
            s.modRouter (s.mesh.basePhys nx ny) fun r => r.push (bufKey (opposite port) cls (pktReply c.pkt)) c.pkt
          | none => s

/-- R179: whether a PUT waits for an earlier one of its context to its tile that travels in another class. -/
def Tile.putWaits (t : Tile) (before : List Packet) (k : Packet) : Bool :=
  let dst := logicalIndex k.dstX k.dstY
  k.kind == 0
    && (before.any (fun b => b.kind == 0 && b.ctx == k.ctx && logicalIndex b.dstX b.dstY == dst && b.cls != k.cls)
      || t.flying.any fun f => f.1 == dst && f.2.1 != k.cls && f.2.2 == some k.ctx)

/-- R214, R179: the first packet of the local port's queue that may leave it: no earlier packet of its class waits, its class is
below the limit of 32, no earlier PUT is to be written before it, and the router's local buffer has room. -/
def State.injectable (s : State) (p : Nat) : List Packet → List Packet → Option Packet
  | _, [] => none
  | before, k :: r =>
    let full := (pktAcked k) && decide (32 ≤ fgetD 0 (s.tile p).unacked k.cls)
    if !before.any (·.cls == k.cls) && !full && !(s.tile p).putWaits before k && (s.router p).hasRoom (bufKey .loc k.cls (pktReply k)) k then some k
    else s.injectable p (before ++ [k]) r

/-- A packet enters the mesh from the local port of its tile. -/
def State.inject (s : State) (p : Nat) : State :=
  match s.injectable p [] (s.tile p).outq with
  | none => s
  | some k =>
    let s := s.modTile p fun t =>
      { t with
        outq := t.outq.erase k,
        unacked := if (pktAcked k) then fset t.unacked k.cls (fgetD 0 t.unacked k.cls + 1) else t.unacked,
        flying := if (pktAcked k) then t.flying ++ [(logicalIndex k.dstX k.dstY, k.cls, if k.kind = 0 then some k.ctx else none)] else t.flying }
    s.modRouter p fun r => r.push (bufKey .loc k.cls (pktReply k)) k

/-- PACKET_HOP: the output port of a router, or its local port, sends its next packet on. -/
def execPacketHop (tile : Nat) (port : Dir) (s : State) : Out :=
  done (s.tclk fun s => match port with
    | .loc => s.inject tile
    | _ => s.hop tile port)

/-! ## Delivery -/

/-- R215: an ACK to a source for the packets delivered from it. -/
def State.sendAck (s : State) (p src : Nat) : State :=
  match s.mesh.serves p, fget (s.tile p).toAck src with
  | some (x, y), some ns =>
    if ns.sum = 0 then s
    else
      let s := s.modTile p fun t => { t with toAck := fdel t.toAck src }
      let o := BitVec.ofNat 32 (ns.getD 0 0 + 256 * ns.getD 1 0 + 65536 * ns.getD 2 0)
      s.send p [{ dstX := src % 64, dstY := src / 64, srcX := x, srcY := y, kind := 3, cls := 0, operand := o }]
  | _, _ => s

/-- R215: a delivered packet is counted, and eight of one source are acknowledged. -/
def State.countDelivered (s : State) (p : Nat) (k : Packet) : State :=
  let s := s.modCluster (clusterOf p) fun c => { c with maxAge := if c.maxAge.toNat < k.age then BitVec.ofNat 10 k.age else c.maxAge }
  if (pktAcked k) && decide (1 ≤ k.cls) then
    let src := logicalIndex k.srcX k.srcY
    let ns := (fgetD [0, 0, 0] (s.tile p).toAck src).zipIdx.map fun (n, i) => if i + 1 = k.cls then n + 1 else n
    let s := s.modTile p fun t => { t with toAck := fset t.toAck src ns }
    if 8 ≤ ns.sum then s.sendAck p src else s
  else s

/-- R218: whether a packet is kept from a tile that its guest does not own. -/
def State.isolated (s : State) (p : Nat) (k : Packet) : Bool :=
  let own := match s.mesh.serves p with | some (x, y) => s.owner x y | none => none
  (k.kind == 0 || k.kind == 1 || k.kind == 4 || k.kind == 5) && !k.fw && own != some k.guest

/-- The words that a GET reads at its source: a word of a poisoned unit travels as EMPTY (notes/assumptions/15.md). -/
def State.sourceWords (s : State) (p a n : Nat) : List TWord :=
  let t := s.tile p
  (List.range n).map fun i => if t.bad (a + 8 * i) then {} else asSent (t.word (a + 8 * i))

/-- The class of what moves words: that of the first (R206). -/
def classOf (ws : List TWord) : Nat := match ws.head? with | some w => if w.tag = .tally then 1 else 2 | none => 2

/-- The class of the reply to a GET_REQ: that of the GET's first word, which its first packet has found (R206, R208; notes/assumptions/82.md). -/
def Tile.getClass (t : Tile) (k : Packet) (ws : List TWord) : Nat := (fget t.gets (8 * logicalIndex k.srcX k.srcY + k.ctx)).getD (classOf ws)

/-- A source's request is noted while more of its GET follow. -/
def Tile.noteGet (t : Tile) (k : Packet) (cls : Nat) : Tile :=
  let key := 8 * logicalIndex k.srcX k.srcY + k.ctx
  { t with gets := if k.more then fset t.gets key cls else fdel t.gets key }

/-- The reply to a GET_REQ (R179). -/
def getReply (k : Packet) (cls : Nat) (ws : List TWord) : Packet :=
  { dstX := k.srcX, dstY := k.srcY, srcX := k.dstX, srcY := k.dstY, kind := 2, cls, units := k.units, ctx := k.ctx, addr := k.retAddr, payload := ws }

/-- A grouped context's combined anchor arrives: it goes on down the tree, and the waiting bundle may issue (R226). -/
def State.anchorDown (s : State) (p n number : Nat) (a : Option Int) : State :=
  let c := s.ctx p n
  if c.exch.started && c.exch.combined.isNone && c.exch.number == number then
    let s : State := match s.mesh.serves p with
      | some (x, y) =>
        match s.groupOf x y n c.job with
        | some g => s.spreadAnchor p n x y g (a.getD 0)
        | none => s.modCtx p n fun c => { c with exch := { c.exch with combined := some (a.getD 0) } }
      | none => s
    if s.chosen p = some n then s.issueNext p n else s
  else s

/-- R228: the root of a module's group that an anchor's address names: its tile, its context and its job's guest. -/
def State.anchorRoot (s : State) (guest a : Nat) : Option (Nat × Nat) :=
  let x := bitsOf a 37 32
  let y := bitsOf a 44 38
  let n := (bitsOf a 20 0 - 0x180000) / 8
  if bitOf a 63 && bitsOf a 31 21 == 0 && bitsOf a 62 45 == 0 && decide (0x180000 ≤ bitsOf a 20 0) && decide (n < 8)
      && s.jobs.any fun e => e.2.live && e.2.guest == guest && e.2.groups.any fun g => g.ctx == n && g.x0 == x && g.y0 == y && decide (1 < g.modules) then
    some (s.phys x y, n)
  else none

/-- R228: an anchor of another module's root arrives, which is data from outside the module (R280). -/
def State.moduleAnchor (s : State) (p n w : Nat) : State :=
  let s := s.breakJob (s.ctx p n).job
  let k : Packet := { operand := BitVec.ofNat 32 w }
  if bitOf w 32 then s.anchorDown p n (tmaxNumber k) (tmaxAnchor k)
  else (s.modCtx p n fun c => { c with exch := { c.exch with mods := c.exch.mods ++ [(tmaxNumber k, w / 2 ^ 48, tmaxAnchor k)] } }).combine p n

/-- The packets that an ACK acknowledges are no longer under way: of n to a destination in a class, those that are no PUT first
(notes/assumptions/82.md). -/
def settleFlying (l : List (Nat × Nat × Option Nat)) (dst cls n : Nat) : List (Nat × Nat × Option Nat) :=
  let mine := l.filter fun f => f.1 == dst && f.2.1 == cls
  let gone := (mine.filter (·.2.2.isNone) ++ mine.filter (·.2.2.isSome)).take n
  gone.foldl List.erase l

/-- What a packet does where it arrives, by its kind (R205). A CTRL packet acts as firmware defines; here it is absorbed
(notes/assumptions/16.md). -/
def State.act (s : State) (p : Nat) (k : Packet) : State :=
  match k.kind with
  | 0 => s.arrive p k.addr k.payload
  | 1 =>
    let n := 4 * k.units
    let ws := s.sourceWords p k.addr n
    let cls := (s.tile p).getClass k ws
    let s := s.readFinds p ((List.range n).map fun i => k.addr + 8 * i)
    (s.modTile p fun t => t.noteGet k cls).send p [getReply k cls ws]
  | 2 => s.arrive p k.addr k.payload
  | 3 => s.modTile p fun t =>
      let dec := fun (u : FMap Nat) c n => fset u c (fgetD 0 u c - n)
      let o := k.operand.toNat
      let src := logicalIndex k.srcX k.srcY
      let gone := fun l c n => settleFlying l src c n
      { t with
        unacked := dec (dec (dec t.unacked 1 (bitsOf o 7 0)) 2 (bitsOf o 15 8)) 3 (bitsOf o 23 16),
        flying := gone (gone (gone t.flying 1 (bitsOf o 7 0)) 2 (bitsOf o 15 8)) 3 (bitsOf o 23 16) }
  | 4 =>
    (s.modCtx p k.ctx fun c =>
      { c with exch := { c.exch with up := c.exch.up ++ [(tmaxNumber k, logicalIndex k.srcX k.srcY, tmaxAnchor k)] } }).combine p k.ctx
  | 5 => s.anchorDown p k.ctx (tmaxNumber k) (tmaxAnchor k)
  | 8 => s.arrive p k.addr k.payload
  | 9 => s.modTile p fun t => { t with imageIn := t.imageIn ++ k.payload.zipIdx.map fun (w, i) => (k.operand.toNat + 8 * i, w) }
  | _ => s

/-- R218 and R205: a packet is delivered at a tile. -/
def State.deliver (s : State) (p : Nat) (k : Packet) : State :=
  if s.isolated p k then
    let s := s.modCluster (clusterOf p) fun c => { c with isolation := satInc c.isolation }
    let s := if k.kind = 1 then s.send p [getReply k 2 (List.replicate (4 * k.units) {})] else s
    s.countDelivered p k
  else (s.act p k).countDelivered p k

/-- What the local output port of a tile's router serves next, and whether the age rule chose it (R219, R222). -/
def State.localNext (s : State) (p : Nat) : Option (Contender × Bool) :=
  match s.mesh.baseLogical p with
  | none => none
  | some (x, y) =>
    let r := s.router p
    let waiting := (List.range 4).filter fun c => !(s.contenders p x y .loc c).isEmpty
    match r.pickClass .loc waiting with
    | none => none
    | some cls => pickContender s.mesh.ageLimit.toNat (fgetD 0 r.rr (dirIndex .loc * 4 + cls)) (s.contenders p x y .loc cls)

/-- The local output port serves a contender. -/
def State.serveLocal (s : State) (p : Nat) (c : Contender) (aged : Bool) : State :=
  let slot := dirIndex .loc * 4 + c.key / 2 % 4
  let s := s.modRouter p fun r =>
    { (r.pop c.key) with used := fset r.used slot (fgetD 0 r.used slot + pktFlits c.pkt), rr := fset r.rr slot ((c.index + 1) % 10) }
  if aged then s.modCluster (clusterOf p) fun k => { k with ageWins := satInc k.ageWins } else s

/-- An arrival: the packet of a kind that the local output port serves next is delivered, or parked while its coordinate moves. -/
def State.arrival (s : State) (p kind : Nat) : State :=
  match s.localNext p with
  | none => s
  | some (c, aged) =>
    if c.pkt.kind ≠ kind then s
    else
      let s' := s.serveLocal p c aged
      match s.movingCluster c.pkt.dstX c.pkt.dstY with
      | some k => s'.modCluster k fun m => { m with parked := m.parked ++ [c.pkt] }
      | none => s'.deliver p c.pkt

def execPutArrive (tile : Nat) (s : State) : Out := done (s.tclk (·.arrival tile 0))
def execGetReqArrive (tile : Nat) (s : State) : Out := done (s.tclk (·.arrival tile 1))
def execGetReplyArrive (tile : Nat) (s : State) : Out := done (s.tclk (·.arrival tile 2))
def execAckArrive (tile : Nat) (s : State) : Out := done (s.tclk (·.arrival tile 3))
def execTmaxUpArrive (tile : Nat) (s : State) : Out := done (s.tclk (·.arrival tile 4))
def execTmaxDownArrive (tile : Nat) (s : State) : Out := done (s.tclk (·.arrival tile 5))
def execFndReplyArrive (tile : Nat) (s : State) : Out := done (s.tclk (·.arrival tile 8))
def execImageArrive (tile : Nat) (s : State) : Out := done (s.tclk (·.arrival tile 9))
def execCtrlArrive (tile : Nat) (s : State) : Out := done (s.tclk (·.arrival tile 10))

/-- ACK_TIMER_EXPIRE: 32 TCLK have passed since the earliest unacknowledged delivery from a source (R215). -/
def execAckTimerExpire (tile source : Nat) (s : State) : Out := done (s.tclk (·.sendAck tile source))

/-! ## Foundation packets (R202, R207, R212, R302 to R308, R386) -/

/-- A foundation request's header as its issuer and its source's router give it: GUEST the source's OWNER and class 2 for a tile's DMA or engine,
and with FW 1 class 0 for firmware, 3 for the Porter, scrub and zero-fill and 2 for cluster DMA (R204, R207, R217). -/
def State.stamped (s : State) (k : Packet) : Packet :=
  if k.fw then { k with cls := if k.cls = 3 ∨ k.cls = 2 then k.cls else 0 }
  else { k with cls := 2, guest := (s.owner k.srcX k.srcY).getD 0 }

/-- The router of a coordinate's die column at which its foundation traffic crosses (R202, R212). -/
def State.crossing (s : State) (x y : Nat) : Nat := s.mesh.basePhys x (y / 17 * 17)

/-- A foundation request that waits at the crossing of its die column leaves the mesh there; one that the model holds in no buffer comes as it is
(notes/assumptions/81.md). -/
def State.takeCrossing (s : State) (k : Packet) : State :=
  let at' := s.mesh.routeTo { dstX := k.srcX, dstY := k.srcY }
  s.modRouter (s.crossing at'.1 at'.2) fun r =>
    match r.bufs.find? fun e => e.2.head? == some k with
    | some e => r.pop e.1
    | none => r

/-- The tile store that a firmware or Porter request names, and the offset there: any slot for the tile's own Innkeeper and the Porter, that of a
serving tile for other cores and cluster DMA (R31). -/
def State.fndSlot (s : State) (k : Packet) (n : Nat) : Option (Nat × Nat) :=
  match mapAddr k.paddr with
  | .tile p off =>
    let own := k.cls == 3 || (k.cls == 0 && k.core == innkeeper (clusterOf p))
    if k.fw && decide (off + n ≤ 0x180000) && (own || (s.mesh.serves p).isSome) then some (p, off) else none
  | _ => none

/-- A word of a foundation read as it arrives: PACK, or EMPTY where the read failed (R156, R304). -/
def State.fndWord (s : State) (a : Nat) : TWord :=
  if s.wordStatus a = .ok then { tag := .pack, data := BitVec.ofNat 64 (leNat (s.memBytes a 8)) } else {}

/-- R299, R243: whether a request for n bytes reaches the fixed-table area that it names: the Steward's, and the Porter's to the ledger header table. -/
def pktFixed (k : Packet) (n : Nat) : Bool :=
  k.fw && decide (fixedArea ≤ k.paddr) && decide (k.paddr + n ≤ stackTop)
    && ((k.cls == 0 && k.core == steward) || (k.cls == 3 && decide (0xBFFF780000 ≤ k.paddr)))

/-- A word of the fixed-table area: of a redirection table, or as it was written; what nobody has written of the header table is a free value, since
the spec leaves the layout of a header open (notes/assumptions/2.md). -/
def State.fixedWord (s : State) (a : Nat) : TWord :=
  let off := a - fixedArea
  { tag := .pack,
    data :=
      if off / 0xC0000 < s.mem.retirements.length then BitVec.ofNat 64 (leNat ((List.range 8).map fun i => s.mem.tableByte (off + i)))
      else (fget s.mem.fixed a).getD (if 0xBFFF780000 ≤ a then Config.freeWord a else 0) }

/-- The words of a foundation read, and the state with what it finds. -/
def State.fndRead (s : State) (k : Packet) : List TWord × State :=
  let n := 4 * k.units
  match s.fndSlot k (32 * k.units) with
  | some (p, off) =>
    let t := s.tile p
    ((List.range n).map fun i => if t.bad (off + 8 * i) then {} else { tag := .pack, data := (t.word (off + 8 * i)).data },
      s.readFinds p ((List.range n).map fun i => off + 8 * i))
  | none =>
    if pktFixed k (32 * k.units) then ((List.range n).map fun i => s.fixedWord (k.paddr + 8 * i), s)
    else ((List.range n).map fun i => s.fndWord (k.paddr + 8 * i), (s.memRead k.paddr (32 * k.units)).2.2)

/-- The jobs of a tile that an access of its own to cellar memory or to an erroneous line concerns (R280). -/
def State.fndBreaks (s : State) (k : Packet) (n : Nat) : State :=
  let p := s.phys k.srcX k.srcY
  let cellar := match mapAddr k.paddr with | .cellar _ _ => true | _ => false
  if !k.fw && (cellar || s.meetsError k.paddr n) then s.breakTile p else s

/-- Whether a foundation request reaches its address: firmware's always does, that of a tile only in the memory of the guest that owns it (R386). -/
def State.fndAllowed (s : State) (k : Packet) (n : Nat) : Bool :=
  k.fw || (s.owner k.srcX k.srcY == some k.guest && s.guestMem k.guest k.paddr n)

/-- FND_RD_ARRIVE: a foundation read reads its words and sends the reply, which enters the mesh at the crossing of the
requester's die column (R212). ADDR is where the reply is written (notes/assumptions/17.md). -/
def execFndRdArrive (pkt : Packet) (s : State) : Out :=
  let k := s.stamped pkt
  let n := 32 * k.units
  let ok := s.fndAllowed k n
  let (ws, s') := if ok then (s.fndBreaks k n).fndRead k else (List.replicate (4 * k.units) {}, s.guestFault k.guest)
  let reply : Packet := { dstX := k.srcX, dstY := k.srcY, srcX := k.dstX, srcY := k.dstY, kind := 8, cls := k.cls, guest := k.guest, fw := k.fw,
                          units := k.units, ctx := k.ctx, addr := k.addr, payload := ws }
  let dest := s.mesh.routeTo reply
  let entry := s.crossing dest.1 dest.2
  let key := bufKey .north reply.cls true
  if !s.power.tclkStopped && k.kind == 6 && (s.router entry).hasRoom key reply then
    done ((s'.takeCrossing pkt).modRouter entry fun r => r.push key reply)
  else done s

/-- FND_WR_ARRIVE: a foundation write is stored directly or merged (R305, R306); outside its guest's memory it is dropped. -/
def execFndWrArrive (pkt : Packet) (s : State) : Out :=
  if pkt.kind = 7 ∧ !s.power.tclkStopped then
    let k := s.stamped pkt
    let b := k.payload.flatMap fun w => leBytes 8 w.data.toNat
    let s := s.takeCrossing pkt
    if s.fndAllowed k b.length then
      done (match s.fndSlot k b.length with
        | some (p, off) => s.arriveBytes p off b
        | none =>
          if pktFixed k b.length then
            s.fixedWords k.paddr (k.payload.map (·.data))
          else (s.fndBreaks k b.length).memWrite k.paddr b (if k.fw then .firmware else .tile (s.phys k.srcX k.srcY)))
    else done (s.guestFault k.guest)
  else done s

/-! ## Age ticks (R221) -/

/-- AGE_TICK: packets held in routers age by one tick, and each fourth tick, 32 TCLK, begins a new arbitration window. -/
def execAgeTick (s : State) : Out :=
  let ticks := s.mesh.ticks + 1
  let s := s.modMesh fun m => { m with ticks := ticks }
  done <| s.tclk fun s => { s with routers := fmap s.routers fun _ r =>
    { r with
      bufs := fmap r.bufs fun _ b => b.map fun k => { k with age := min 1023 (k.age + 1) },
      used := if ticks % 4 = 0 then [] else r.used } }

end Sys2Proof.Machine
end

