-- ==== Sys2Proof/Machine/Courier.lean ====
section
/-! DEFINITION. The courier (R438 to R453): packets, placement by count, acknowledgement and resends, memory keys, work requests and
completions, and its messages (R457 to R459). -/

namespace Sys2Proof.Machine

/-! ## Packets (R438, R440) -/

/-- The fields of a courier header that differ from packet to packet. -/
structure CHead where
  op : Nat
  flags : Nat := 0
  conn : Nat
  gen : Nat
  status : Nat := 0
  msn : Nat
  ssn : Nat := 0
  offset : Nat := 0
  length : Nat := 0
  addr : Nat := 0
  key : Nat := 0
  sent : Nat := 0
  deriving DecidableEq, Repr

/-- The 40-byte header, most significant byte first (R3). -/
def CHead.bytes (h : CHead) : List Byte :=
  [BitVec.ofNat 8 (16 + h.op), BitVec.ofNat 8 h.flags] ++ beBytes 2 h.conn ++ beBytes 2 h.gen ++ beBytes 2 h.status
    ++ beBytes 4 h.msn ++ beBytes 4 h.ssn ++ beBytes 4 h.offset ++ beBytes 4 h.length ++ beBytes 8 h.addr ++ beBytes 4 h.key
    ++ beBytes 4 h.sent

/-- An n-byte big-endian field. -/
def beField (l : List Byte) (off n : Nat) : Nat := beNat (slice l off n)

def parseHead (p : List Byte) : CHead :=
  { op := beField p 0 1 % 16, flags := beField p 1 1, conn := beField p 2 2, gen := beField p 4 2, status := beField p 6 2,
    msn := beField p 8 4, ssn := beField p 12 4, offset := beField p 16 4, length := beField p 20 4, addr := beField p 24 8,
    key := beField p 32 4, sent := beField p 36 4 }

/-- The UDP checksum of a datagram whose checksum field is 0. -/
def udpSum (src dst dg : List Byte) : Nat :=
  let x := 0xFFFF - onesSum (pseudoHeader src dst dg.length ++ dg)
  if x = 0 then 0xFFFF else x

/-- An untagged frame with the courier's IPv6 and UDP headers. -/
def udpFrame (p : NetPort) (c : Conn) (sport dport : Nat) (payload : List Byte) : List Byte :=
  let src := beBytes 16 p.courierAddr.toNat
  let dst := beBytes 16 c.peerAddr.toNat
  let len := 8 + payload.length
  let tc := c.dscp * 4 + 2
  let dg := fun (sum : Nat) => beBytes 2 sport ++ beBytes 2 dport ++ beBytes 2 len ++ beBytes 2 sum ++ payload
  beBytes 6 c.peerMac.toNat ++ beBytes 6 p.mac.toNat ++ [0x86, 0xDD] ++ beBytes 4 (6 * 2 ^ 28 + tc * 2 ^ 20) ++ beBytes 2 len
    ++ [17, 64] ++ src ++ dst ++ dg (udpSum src dst (dg 0))

/-- A packet leaves by the queue of its connection's DSCP, in the FIFO of the connection's room (R462, R463); `msg` is the request whose packet it is. -/
def State.sendFrame (s : State) (cn : Nat) (msg : Option Nat) (frame : List Byte) : State :=
  let c := s.conn cn
  s.offer c.port { queue := fgetD (8 + c.dscp) (s.egress c.port).dscp c.dscp, room := some (cn / 64), conn := some cn, msg, bytes := frame }

def State.sendNative (s : State) (cn path : Nat) (h : CHead) (payload : List Byte) : State :=
  let c := s.conn cn
  let h := { h with conn := c.peerConn % 65536, gen := c.peerGen % 65536, sent := s.net.time.toNat }
  s.sendFrame cn (if h.op ≤ 3 then some h.msn else none) (udpFrame (s.netPort c.port) c (0xC000 + path % c.paths) s.net.courierUdp.toNat (h.bytes ++ payload))

/-- A message of bytes cut into packets of PKT (R440). -/
def State.sendMessage (s : State) (cn : Nat) (h : CHead) (m : List Byte) : State :=
  let c := s.conn cn
  ((chunks c.pkt m).zipIdx).foldl (fun s (b, i) => s.sendNative cn (h.msn + i) { h with offset := i * c.pkt } b) s

/-- ACK and NACK. -/
def State.sendAckMsn (s : State) (cn msn : Nat) (ece : Bool) : State :=
  s.sendNative cn msn { op := 5, flags := bit ece, conn := 0, gen := 0, msn } []
def State.sendNack (s : State) (cn msn status : Nat) : State := s.sendNative cn msn { op := 6, status, conn := 0, gen := 0, msn } []

/-! ## RoCE v2 packets (R454), as InfiniBand Volume 1 gives them (PRESUMED, notes/assumptions/23.md) -/

/-- The invariant CRC of a frame without it: CRC-32 over 8 bytes of ones and the frame's IPv6 packet with its variant fields
set to ones, least significant byte first. -/
def icrcBit (c : BitVec 32) : BitVec 32 := if c.getLsbD 0 then (c >>> 1) ^^^ 0xEDB88320 else c >>> 1
def icrc (frame : List Byte) : List Byte :=
  let m := (frame.drop 14).zipIdx.map fun (b, i) =>
    if i = 0 then b ||| 0x0F else if i ≤ 3 ∨ i = 7 ∨ i = 46 ∨ i = 47 ∨ i = 52 then 0xFF else b
  let c := (List.replicate 8 (0xFF : Byte) ++ m).foldl
    (fun (c : BitVec 32) b => (List.range 8).foldl (fun c _ => icrcBit c) (c ^^^ b.setWidth 32)) 0xFFFFFFFF
  leBytes 4 (~~~c).toNat

/-- A RoCE v2 packet leaves on its connection: base transport header, the extended headers, the payload padded to 4 bytes. -/
def State.sendRoce (s : State) (cn op psn : Nat) (ackReq : Bool) (ext payload : List Byte) : State :=
  let c := s.conn cn
  let pad := (4 - payload.length % 4) % 4
  let bth := [BitVec.ofNat 8 op, BitVec.ofNat 8 (pad * 16)] ++ [0xFF, 0xFF, 0] ++ beBytes 3 c.peerConn ++ [if ackReq then 0x80 else 0]
    ++ beBytes 3 psn
  let p := s.netPort c.port
  let sport := 0xC000 + cn % 16384
  let body := bth ++ ext ++ payload ++ zeros pad
  let crc := icrc (udpFrame p c sport 4791 (body ++ zeros 4) |>.dropLast.dropLast.dropLast.dropLast)
  s.sendFrame cn (if op ≤ 12 then some psn else none) (udpFrame p c sport 4791 (body ++ crc))

/-- The extended transport header of WRITE and READ. -/
def reth (addr key len : Nat) : List Byte := beBytes 8 addr ++ beBytes 4 key ++ beBytes 4 len

/-- First, middle, last and only packets of a message whose opcodes start at `first`. -/
def roceOp (first last only i n : Nat) : Nat := if n = 1 then only else if i = 0 then first else if i + 1 = n then last else first + 1

/-- The packets of a SEND or WRITE whose first PSN is given, from a packet on. -/
def State.roceMessage (s : State) (cn op psn skip addr key : Nat) (m : List Byte) : State :=
  let ps := chunks (s.conn cn).pkt m
  (ps.zipIdx.drop skip).foldl (fun s (b, i) =>
    let o := if op = 1 then roceOp 0 2 4 i ps.length else roceOp 6 8 10 i ps.length
    s.sendRoce cn o ((psn + i) % 2 ^ 24) (i + 1 == ps.length) (if op = 2 ∧ i = 0 then reth addr key m.length else []) b) s

/-- The responses of a READ. -/
def State.roceResponses (s : State) (cn psn : Nat) (m : List Byte) : State :=
  let ps := chunks (s.conn cn).pkt m
  (ps.zipIdx).foldl (fun s (b, i) =>
    let o := roceOp 13 15 16 i ps.length
    s.sendRoce cn o ((psn + i) % 2 ^ 24) false (if o = 14 then [] else [0x1F, 0, 0, 0]) b) s

/-- ACK and NAK: a syndrome for a PSN. -/
def State.roceAck (s : State) (cn psn syndrome : Nat) : State :=
  s.sendRoce cn 17 psn false (BitVec.ofNat 8 syndrome :: [0, 0, 0]) []

/-- The PSNs that a request of n bytes takes. -/
def psnCount (pkt n : Nat) : Nat := ceilDiv n pkt

/-! ## Memory keys (R447, R448) -/

/-- The reserve rows and tiles that a guest owns. -/
def State.ownsTile (s : State) (g x y : Nat) : Bool := decide (x < 64) && decide (y < 68) && s.owner x y == some g

/-- The tile and offset of a KIND 1 tile address of n bytes; none if other bits are set or the range leaves the store. -/
def tileRange (a n : Nat) : Option (Nat × Nat × Nat) :=
  if bitOf a 63 && bitsOf a 31 21 == 0 && bitsOf a 62 45 == 0 && decide (bitsOf a 20 0 + n ≤ 0x180000) then
    some (bitsOf a 37 32, bitsOf a 44 38, bitsOf a 20 0)
  else none

/-- R448: the key that a request names, if it allows the operation on n bytes for a guest. -/
def State.keyAllows (s : State) (g : Nat) (key : Nat) (write : Bool) (a n : Nat) : Option MemKey :=
  match fget s.net.keys (key % 4096) with
  | none => none
  | some k =>
    let cover :=
      if k.kind = 0 then true
      else if bitOf a 63 then (match tileRange a n with | some (x, y, _) => s.ownsTile g x y | none => false)
      else s.guestMem g a n
    if k.tag.toNat = key / 4096 ∧ k.guest = g ∧ (if write then k.write else k.read) ∧ cover then some k else none

/-- A courier write of bytes under a key of a kind (R449): host memory, module memory, or a tile store with PACK words; data from outside the
module breaks the steps of the jobs that it is for (R280). -/
def State.keyWrite (s : State) (g kind a : Nat) (b : List Byte) : State :=
  if kind = 0 then s.guestWrite g a b
  else
    match tileRange a b.length with
    | some (x, y, off) => (s.arriveBytes (s.phys x y) off b).breakTile (s.phys x y)
    | none => (s.memWrite a b .courier).outsideData a b.length

/-- The bytes of module memory or of a tile store under a key of KIND 1, and the state with what the read finds. -/
def State.keyRead (s : State) (a n : Nat) : Option (List Byte) × State :=
  match tileRange a n with
  | some (x, y, off) =>
    let p := s.phys x y
    let words := wordsIn off n
    let bad := words.any (s.tile p).bad
    ((if bad then none else some ((s.tile p).bytes off n)), s.readFinds p words)
  | none =>
    let r := s.memRead a n
    ((if r.2.1 = .ok then some r.1 else none), r.2.2)

/-! ## Completions (R452) -/

/-- A completion entry is written to a connection's completion ring and its vector is raised. -/
def State.courierEntry (s : State) (cn : Nat) (cookie msn bytes status op : Nat) : State :=
  let c := s.conn cn
  let e := leBytes 4 cookie ++ leBytes 4 msn ++ leBytes 4 bytes ++ [BitVec.ofNat 8 status, BitVec.ofNat 8 op, BitVec.ofNat 8 (bit c.cqPhase), 0]
  let s := s.guestWrite c.guest (c.cqRing + 16 * c.cqTail) e
  let s := s.modConn cn fun c =>
    if c.cqTail + 1 = c.cqEntries then { c with cqTail := 0, cqPhase := !c.cqPhase } else { c with cqTail := c.cqTail + 1 }
  s.raiseVector c.vector

/-- A send request ends. -/
def State.endSend (s : State) (cn : Nat) (w : WorkRequest) (msn status bytes : Nat) : State :=
  if w.signal ∨ status ≠ 0 then s.courierEntry cn w.cookie.toNat msn bytes status w.op else s

/-- The requests that end when a connection stops: those in flight, those waiting in the send ring, and the receives. -/
def State.flushConn (s : State) (cn status : Nat) (recvs : Bool) : State :=
  let c := s.conn cn
  let s := s.modConn cn fun c => { c with flights := [], sends := [], recvs := if recvs then [] else c.recvs, trackers := [] }
  let s := c.flights.foldl (fun s f => s.endSend cn f.wr f.msn status f.got) s
  let s := c.sends.foldl (fun s w => s.endSend cn w c.nextMsn status 0) s
  if recvs then c.recvs.foldl (fun s e => s.courierEntry cn e.2.cookie.toNat 0 0 status 8) s else s

/-- A connection enters ERROR: every request ends FLUSHED, those that are still to be fetched as they arrive, and the cause is reported (R443, R453). A storage command that moves
data over it sees its target gone (R417). -/
def State.connError (s : State) (cn cause : Nat) : State :=
  let c := s.conn cn
  let s := ((s.modConn cn fun c => { c with state := .error }).flushConn cn 5 true).dropConnParts cn
  s.netEvent 2 c.port ((s.guest c.guest).localNo 64 cn) cause c.guest 0

/-- A request in flight ends, and leaves the connection's list. -/
def State.endFlight (s : State) (cn : Nat) (f : InFlight) (status bytes : Nat) : State :=
  (s.modConn cn fun c => { c with flights := c.flights.filter (·.msn != f.msn) }).endSend cn f.wr f.msn status bytes

/-- R443: an acknowledgement moves the in-flight limit. -/
def Conn.adjust (c : Conn) (ece : Bool) : Conn :=
  { c with limit := if ece then max c.pkt (c.limit / 2) else min c.inflight (c.limit + c.pkt) }

/-! ## Sending (R440, R443, R451) -/

/-- Bytes that a connection has unacknowledged. -/
def Conn.unacked (c : Conn) : Nat := ((c.flights.filter (·.wr.op != 3)).map (·.wr.length)).sum

/-- The header of a request. -/
def InFlight.head (f : InFlight) : CHead :=
  { op := f.wr.op, flags := if f.wr.solicit then 2 else 0, conn := 0, gen := 0, msn := f.msn, ssn := if f.wr.op = 1 then f.ssn else 0,
    length := f.wr.length, addr := if f.wr.op = 1 then 0 else f.wr.remoteAddr,
    key := if f.wr.op = 1 then 0 else f.wr.remoteKey.toNat }

/-- What a request sends once its data is at hand. -/
def State.sendRequest (s : State) (cn : Nat) (f : InFlight) (m : List Byte) : State :=
  if (s.conn cn).roce then s.roceMessage cn f.wr.op f.msn f.skip f.wr.remoteAddr f.wr.remoteKey.toNat m else s.sendMessage cn f.head m

/-- The guest and kind of a local key. -/
def State.localKind (s : State) (g : Nat) (w : WorkRequest) (write : Bool) : Option Nat :=
  if w.tally then some 1 else (s.keyAllows g w.localKey.toNat write w.localAddr w.length).map (·.kind)

/-- Every packet of a request leaves, once its local data is at hand: a READ at once, module memory is read at once, host
memory by a read on the guest's link. A buffer that cannot be read ends the connection (notes/assumptions/20.md). -/
def State.transmit (s : State) (cn : Nat) (f : InFlight) : State :=
  let c := s.conn cn
  match f.wr.data with
  | some b => s.sendRequest cn f b
  | none =>
  if f.wr.op = 3 then
    if c.roce then s.sendRoce cn 12 f.msn true (reth f.wr.remoteAddr f.wr.remoteKey.toNat f.wr.length) []
    else s.sendNative cn f.msn f.head []
  else
    match s.localKind c.guest f.wr false with
    | none => s.endFlight cn f 6 0
    | some 0 =>
      let r := s.guestRead c.guest f.wr.localAddr f.wr.length (.courierData cn f.msn)
      if r.2 then r.1 else s.connError cn 2
    | some _ =>
      match s.keyRead f.wr.localAddr f.wr.length with
      | (some b, s) => s.sendRequest cn f b
      | (none, s) => s.connError cn 2

/-- The flight of an MSN. -/
def Conn.flight (c : Conn) (msn : Nat) : Option InFlight := c.flights.find? (·.msn == msn)

/-- Whether message m of a connection has completed at this module: complete, or already behind its window (R451). -/
def Conn.completed (c : Conn) (m : Nat) : Bool := c.complete.contains m || decide (2 ^ 31 ≤ (m + 2 ^ 32 - c.base) % 2 ^ 32)

/-- Whether the head of a send ring may start: no HOLD, or its trigger has fired. -/
def State.triggered (s : State) (c : Conn) (w : WorkRequest) : Bool :=
  !w.hold || (if w.trigger = 1 then
      (match (s.guest c.guest).moduleNo 64 w.trigConn with | some t => (s.conn t).completed w.trigMsn | none => false)
    else w.fired)

/-- Whether one more request fits the window and the in-flight limit; a message longer than the limit starts alone
(notes/assumptions/21.md). -/
def Conn.mayStart (c : Conn) (w : WorkRequest) : Bool :=
  (if c.roce then w.op != 3 || decide ((c.flights.filter (·.wr.op = 3)).length < 16) else match c.flights with | f :: _ => decide ((c.nextMsn + 2 ^ 32 - f.msn) % 2 ^ 32 < 4096) | [] => true)
    && (w.op == 3 || c.unacked == 0 || decide (c.unacked + w.length ≤ c.limit))

/-- COURIER_REQUEST_START: the head send request starts with the next MSN; a bad one ends BAD_REQUEST and takes none. -/
def State.startRequest (s : State) (cn : Nat) : State :=
  let c := s.conn cn
  match c.sends with
  | [] => s
  | w :: rest =>
    if c.state ≠ .opened ∨ 3 ≤ s.stage ∨ s.firm.mstate = .safeHold ∨ s.quietHeld c.guest ∨ (s.saving c.guest && (w.data.isNone || w.tally)) then s
    else if w.data.isNone && (w.bad || (s.localKind c.guest w (w.op == 3)).isNone) then
      (s.modConn cn fun c => { c with sends := rest }).endSend cn w c.nextMsn 6 0
    else if s.triggered c w && c.mayStart w then
      let f : InFlight := { wr := w, msn := c.nextMsn, ssn := c.nextSsn }
      let s := s.modConn cn fun c =>
        { c with
          sends := rest, nextMsn := if c.roce then (c.nextMsn + psnCount c.pkt w.length) % 2 ^ 24 else (c.nextMsn + 1) % 2 ^ 32, nextSsn := if w.op = 1 then (c.nextSsn + 1) % 2 ^ 32 else c.nextSsn,
          flights := c.flights ++ [f] }
      s.transmit cn f
    else s

/-- COURIER_RTO_EXPIRE: the message is sent again, or after RETRIES resends the request times out and the connection fails. -/
def State.rtoExpire (s : State) (cn msn : Nat) : State :=
  let c := s.conn cn
  match c.flight msn with
  | none => s
  | some f =>
    if c.state ≠ .opened then s
    else if c.retries ≤ f.resends then (s.endFlight cn f 2 f.got).connError cn 2
    else
      let f := { f with resends := f.resends + 1, skip := 0 }
      let s := s.modConn cn fun c => { c with flights := c.flights.map fun x => if x.msn = msn then f else x }
      if c.roce then ((s.conn cn).flights.dropWhile (·.msn != msn)).foldl (fun s x => s.transmit cn x) s else s.transmit cn f

/-! ## Receiving (R439, R441, R442, R444 to R448) -/

/-- R439's conditions on a packet for a connection; one that runs RoCE v2 takes no native packet (R454). -/
def State.discards (s : State) (sumOk : Bool) (p : List Byte) : Bool :=
  let h := parseHead p
  let c := s.conn h.conn
  let age : Int := (s.net.time - BitVec.ofNat 32 h.sent).toInt
  c.roce || !sumOk || decide (p.length < 40) || beField p 0 1 / 16 != 1 || h.op == 0 || decide (6 < h.op) || decide (3 < h.flags)
    || (bitOf h.flags 0 && h.op != 5) || (h.op != 6 && h.status != 0) || c.state != .opened || h.gen != c.gen
    || decide (8000 < age) || decide (age < -1000)

/-- The trackers in use. -/
def State.trackersUsed (s : State) : Nat := (s.net.conns.map fun e => e.2.trackers.length).sum

/-- An MSN is marked complete, and the window moves past what is complete (R444); a refused message stays known behind it (R448). -/
def Conn.mark (c : Conn) (msn : Nat) : Conn :=
  let done := addTo c.complete msn
  let n := ((List.range 4096).find? fun i => !done.contains ((c.base + i) % 2 ^ 32)).getD 4096
  let inWindow := fun (b m : Nat) => decide ((m + 2 ^ 32 - b) % 2 ^ 32 < 4096)
  let behind := fun (b m : Nat) => decide ((b + 2 ^ 32 - m) % 2 ^ 32 < 2 ^ 31)
  let base := (c.base + n) % 2 ^ 32
  { c with
    base, complete := done.filter (inWindow base ·), refusedMsns := c.refusedMsns.filter fun e => inWindow base e.1 || behind base e.1,
    dupAcks := c.dupAcks.filter (inWindow base ·.1) }

/-- The bytes of a packet are placed where its message goes. -/
def State.placeMessage (s : State) (cn : Nat) (h : CHead) (b : List Byte) : State :=
  let c := s.conn cn
  if h.op = 1 then
    match fget c.recvs h.ssn with
    | some w => match s.localKind c.guest w true with
      | some k => s.keyWrite c.guest k (w.localAddr + h.offset) b
      | none => s
    | none => s
  else
    match fget s.net.keys (h.key % 4096) with
    | some k => s.keyWrite c.guest k.kind (h.addr + h.offset) b
    | none => s

/-- R232: the receive block of a group of more than one module that an arriving WRITE fills, by its address and length. -/
def State.tallyBlock (s : State) (g : Nat) (h : CHead) : Bool :=
  h.op == 2 && h.length == 3072 && s.jobs.any fun e =>
    e.2.live && e.2.guest == g && e.2.groups.any fun x =>
      decide (1 < x.modules) && decide (x.recv ≤ h.addr) && decide (h.addr < x.recv + 3072 * 17) && (h.addr - x.recv) % 3072 == 0

/-- A tally block's words: TALLY for words 0 to 6 of each slot, INT for the flag words; the last flag word waits for the
whole block. -/
def State.placeTally (s : State) (h : CHead) (b : List Byte) : State :=
  match tileRange h.addr 3072 with
  | none => s
  | some (x, y, off) =>
    let p := s.phys x y
    let s := s.breakTile p
    (chunks 8 b).zipIdx.foldl (fun s (w, i) =>
      let k := h.offset / 8 + i
      if k = 383 then s
      else s.arrive p (off + 8 * k) [{ tag := if k % 8 = 7 then .int else .tally, data := BitVec.ofNat 64 (leNat w) }]) s

/-- R442: a message is complete: its entry, its mark, one ACK, and the tracker is freed. -/
def State.completeMessage (s : State) (cn : Nat) (t : Tracker) (h : CHead) (tally : Bool) : State :=
  let c := s.conn cn
  let s := match (if tally then t.flag else none), tileRange h.addr 3072 with
    | some f, some (x, y, off) => s.arrive (s.phys x y) (off + 3064) [{ tag := .int, data := f }]
    | _, _ => s
  let s :=
    if t.op = 1 then
      match fget c.recvs t.ssn with
      | some w => (s.courierEntry cn w.cookie.toNat t.msn t.length 0 8).modConn cn fun c => { c with recvs := fdel c.recvs t.ssn }
      | none => s
    else if t.solicit then s.courierEntry cn 0 t.msn t.length 0 2
    else s
  let s := s.modConn cn fun c => ({ c with trackers := c.trackers.filter (·.msn != t.msn) } : Conn).mark t.msn
  s.sendAckMsn cn t.msn t.ce

/-- A message is refused with a status: marked complete, and it and its later packets are answered with NACK (R448; for RECV_SHORT
notes/assumptions/22.md). -/
def State.refuseMessage (s : State) (cn msn status : Nat) : State :=
  let s := s.modConn cn fun c =>
    ({ c with trackers := c.trackers.filter (·.msn != msn), refusedMsns := fset c.refusedMsns msn status } : Conn).mark msn
  s.sendNack cn msn status

/-- READ: the responder answers with the bytes read; the requester completes by count (R442). -/
def State.serveRead (s : State) (cn : Nat) (h : CHead) (again : Bool) : State :=
  let c := s.conn cn
  match s.keyAllows c.guest h.key false h.addr h.length with
  | none =>
    (s.modNet fun n => { n with key := satInc n.key }).refuseMessage cn h.msn 1
  | some k =>
    let mark := fun (s : State) => if again then s else s.modConn cn fun c => c.mark h.msn
    let resp : CHead := { op := 4, conn := 0, gen := 0, msn := h.msn, length := h.length }
    if k.kind = 0 then
      let s := s.modConn cn fun c =>
        { c with trackers := (c.trackers.filter (·.msn != h.msn)) ++ [{ msn := h.msn, op := 3, length := h.length }] }
      let r := s.guestRead c.guest h.addr h.length (.courierData (cn + 65536) h.msn)
      if r.2 then r.1 else r.1.refuseMessage cn h.msn 1
    else
      match s.keyRead h.addr h.length with
      | (some b, s) => mark (s.sendMessage cn resp b)
      | (none, s) => s.refuseMessage cn h.msn 1

/-- R228: an anchor of another module arrives as a message of its own, which completes at once. -/
def State.placeAnchor (s : State) (cn : Nat) (h : CHead) (ce : Bool) (root : Nat × Nat) (b : List Byte) : State :=
  (s.completeMessage cn { msn := h.msn, op := 2, length := 8, ce } h false).moduleAnchor root.1 root.2 (leNat b)

/-- The root to which a WRITE carries an anchor. -/
def State.anchorOf (s : State) (guest op length addr : Nat) : Option (Nat × Nat) := if op = 2 ∧ length = 8 then s.anchorRoot guest addr else none

/-- The status with which a SEND's packet of n bytes is refused: ACCESS where the key of its receive buffer no longer holds (R457,
notes/assumptions/103.md), RECV_SHORT where it would go beyond the buffer (R441). -/
def State.recvRefuses (s : State) (c : Conn) (h : CHead) (n : Nat) : Option Nat :=
  match (if h.op = 1 then fget c.recvs h.ssn else none) with
  | some w => if (s.localKind c.guest w true).isNone then some 1 else if w.length < h.offset + n then some 3 else none
  | none => none

/-- A packet of a SEND or WRITE inside the window whose message is not complete (R441). -/
def State.placePacket (s : State) (cn : Nat) (h : CHead) (ce : Bool) (b : List Byte) : State :=
  let c := s.conn cn
  let known := c.trackers.find? (·.msn == h.msn)
  let expected := min c.pkt (h.length - h.offset)
  if h.length = 0 ∨ 2097152 < h.length ∨ h.offset % c.pkt ≠ 0 ∨ h.length ≤ h.offset ∨ b.length ≠ expected then s
  else if known.isNone ∧ 3 ≤ s.stage then s
  else if let some root := s.anchorOf c.guest h.op h.length h.addr then s.placeAnchor cn h ce root b
  else if h.op = 2 ∧ (s.keyAllows c.guest h.key true (h.addr + h.offset) b.length).isNone then
    (s.modNet fun n => { n with key := satInc n.key }).refuseMessage cn h.msn 1
  else if h.op = 1 ∧ (fget c.recvs h.ssn).isNone then s
  else if let some st := s.recvRefuses c h b.length then
    let cookie := (fgetD {} c.recvs h.ssn).cookie.toNat
    let got := match known with | some t => t.count | none => 0
    let s := if st = 1 then s.modNet fun n => { n with key := satInc n.key } else s
    ((s.courierEntry cn cookie h.msn got st 8).modConn cn fun c => { c with recvs := fdel c.recvs h.ssn }).refuseMessage cn h.msn st
  else if known.isNone ∧ 16384 ≤ s.trackersUsed then s.modNet fun n => { n with noTracker := satInc n.noTracker }
  else
    let t := known.getD { msn := h.msn, op := h.op, length := h.length, ssn := h.ssn, solicit := bitOf h.flags 1 }
    let t := { t with ce := t.ce || ce }
    let cs := (List.range (ceilDiv b.length 1024)).map (h.offset / 1024 + ·)
    let put := fun (s : State) (t : Tracker) =>
      s.modConn cn fun c => { c with trackers := (c.trackers.filter (·.msn != h.msn)) ++ [t] }
    if cs.any t.chunks.contains then put s t
    else
      let tally := s.tallyBlock c.guest h
      let s := if tally then s.placeTally h b else s.placeMessage cn h b
      let t := { t with chunks := t.chunks ++ cs, count := t.count + b.length,
                        flag := if tally && h.offset + b.length == 3072 then some (BitVec.ofNat 64 (leNat (b.drop (b.length - 8)))) else t.flag }
      let s := put s t
      if t.count = t.length then s.completeMessage cn t h tally else s

/-- A READ_RESP packet: placed at its offset in the READ's local buffer, and the READ completes by count (R441). -/
def State.readResponse (s : State) (cn : Nat) (h : CHead) (b : List Byte) : State :=
  let c := s.conn cn
  match c.flight h.msn with
  | none => s
  | some f =>
    let cs := (List.range (ceilDiv b.length 1024)).map (h.offset / 1024 + ·)
    if f.wr.op ≠ 3 ∨ h.length ≠ f.wr.length ∨ h.offset % c.pkt ≠ 0 ∨ b.length ≠ min c.pkt (h.length - h.offset) ∨ b = []
        ∨ cs.any f.chunks.contains then s
    else
      match s.localKind c.guest f.wr true with
      | none => s.endFlight cn f 6 f.got
      | some k =>
        let s := s.keyWrite c.guest k (f.wr.localAddr + h.offset) b
        let f := { f with got := f.got + b.length, chunks := f.chunks ++ cs }
        let s := s.modConn cn fun c => { c with flights := c.flights.map fun x => if x.msn = f.msn then f else x }
        if f.got = f.wr.length then s.endFlight cn f 0 f.got else s

/-- The packets of a connection's requests that have not entered a queue stay behind where they need no longer be sent. -/
def State.stopResend (s : State) (cn : Nat) (gone : Nat → Bool) : State :=
  s.modEgress (s.conn cn).port fun e => { e with waiting := e.waiting.filter fun x => !(x.conn == some cn && x.msg.any gone) }

/-- An ACK (R443). -/
def State.ackArrives (s : State) (h : CHead) : State :=
  match (s.conn h.conn).flight h.msn with
  | none => s
  | some f =>
    if f.wr.op = 3 then s
    else ((s.modConn h.conn fun c => c.adjust (bitOf h.flags 0)).stopResend h.conn (· == h.msn)).endFlight h.conn f 0 f.wr.length

/-- A NACK ends the request with its status (R448). -/
def State.nackArrives (s : State) (h : CHead) : State :=
  match (s.conn h.conn).flight h.msn with
  | none => s
  | some f => s.endFlight h.conn f h.status f.got

/-- R444: a duplicate is answered with an ACK; duplicates of one message within 8 µs, 200 AON cycles, share it. -/
def State.ackDuplicate (s : State) (cn msn : Nat) : State :=
  let now := s.firm.aon
  match fget (s.conn cn).dupAcks msn with
  | some t => if now < t + 200 then s else (s.modConn cn fun c => { c with dupAcks := fset c.dupAcks msn now }).sendAckMsn cn msn false
  | none => (s.modConn cn fun c => { c with dupAcks := fset c.dupAcks msn now }).sendAckMsn cn msn false

/-- A SEND, WRITE or READ meets the receive window (R444); a READ that finds no tracker free is discarded (R446). -/
def State.dataArrives (s : State) (h : CHead) (ce : Bool) (b : List Byte) : State :=
  let c := s.conn h.conn
  let d := (h.msn + 2 ^ 32 - c.base) % 2 ^ 32
  let done := c.complete.contains h.msn
  if (fget c.refusedMsns h.msn).isSome then s.sendNack h.conn h.msn (fgetD 1 c.refusedMsns h.msn)
  else if 4096 ≤ d then s.modNet fun n => { n with window := satInc n.window }
  else if h.op = 3 then
    if 3 ≤ s.stage ∧ !done then s
    else if !c.trackers.any (·.msn == h.msn) ∧ 16384 ≤ s.trackersUsed then s.modNet fun n => { n with noTracker := satInc n.noTracker }
    else s.serveRead h.conn h done
  else if done then s.ackDuplicate h.conn h.msn
  else s.placePacket h.conn h ce b

/-- A native packet of any OP that has reached the courier. -/
def State.nativeArrives (s : State) (sumOk ce : Bool) (p : List Byte) : State :=
  if s.discards sumOk p then s.modNet fun n => { n with stale := satInc n.stale }
  else
    let h := parseHead p
    match h.op with
    | 4 => s.readResponse h.conn h (p.drop 40)
    | 5 => s.ackArrives h
    | 6 => s.nackArrives h
    | _ => s.dataArrives h ce (p.drop 40)

/-- The host bytes that a message waits for arrive: a request's own data, or what a READ asked for (R440). -/
def State.courierBytes (s : State) (cn msn : Nat) (b : List Byte) : State :=
  if cn < 65536 then
    match (s.conn cn).flight msn with
    | some f => s.sendRequest cn f b
    | none => s
  else
    let c := cn - 65536
    match (s.conn c).trackers.find? (·.msn == msn) with
    | some t =>
      let s := s.modConn c fun x => { x with trackers := x.trackers.filter (·.msn != msn) }
      if (s.conn c).roce then s.roceResponses c msn b
      else (s.sendMessage c { op := 4, conn := 0, gen := 0, msn, length := t.length } b).modConn c fun x => x.mark msn
    | none => s

/-- Those bytes cannot be read: the requester's connection fails, and a READ is refused (notes/assumptions/20.md). -/
def State.courierNoBytes (s : State) (cn msn : Nat) : State :=
  if cn < 65536 then (if ((s.conn cn).flight msn).isSome then s.connError cn 2 else s)
  else if (s.conn (cn - 65536)).trackers.any (·.msn == msn) then
    if (s.conn (cn - 65536)).roce then (s.roceAck (cn - 65536) msn 0x63).connError (cn - 65536) 1 else s.refuseMessage (cn - 65536) msn 1
  else s

/-! ## Work requests (R450) -/

/-- A work request as it stands in a ring. -/
def parseWr (b : List Byte) (recv : Bool) : WorkRequest :=
  let op := field b 0 1
  let fl := field b 1 1
  let trig := field b 2 1
  let hold := bitOf fl 1
  let len := field b 12 4
  { op, solicit := bitOf fl 0, hold, signal := bitOf fl 2, trigger := trig, trigConn := field b 4 2, trigMsn := field b 8 4,
    length := len, localAddr := field b 16 8, localKey := BitVec.ofNat 32 (field b 24 4), remoteKey := BitVec.ofNat 32 (field b 28 4),
    remoteAddr := field b 32 8, watch := field b 40 8, cookie := BitVec.ofNat 32 (field b 48 4),
    bad := (if recv then op != 8 else !(op == 1 || op == 2 || op == 3)) || bitOf fl 3 || decide (15 < fl)
      || (if hold then !(trig == 1 || trig == 2) || recv else trig != 0) || field b 3 1 != 0 || field b 6 2 != 0
      || field b 52 12 != 0 || len == 0 || decide (2097152 < len) }

/-- The work requests of a connection that are on their way into the store. -/
def State.fetching (s : State) (cn : Nat) : Nat := bit (s.awaits (.wrFetch cn false)) + bit (s.awaits (.wrFetch cn true))

/-- The requests of a connection that the store holds a place for. -/
def State.inStore (s : State) (e : Nat × Conn) : Nat := e.2.sends.length + e.2.recvs.length + e.2.flights.length + s.fetching e.1

/-- The requests that a guest has in the module's store. -/
def State.storedRequests (s : State) (g : Nat) : Nat :=
  ((s.net.conns.filter fun e => e.2.guest == g && e.2.state != .closed).map s.inStore).sum

/-- All requests in the store. -/
def State.storeUsed (s : State) : Nat := (s.net.conns.map s.inStore).sum

/-- Where the next work request of a ring stands; none if none is posted. -/
def Conn.nextWr (c : Conn) (recv : Bool) : Option Nat :=
  let r := if recv then (c.recvFetched, c.recvEntries, c.recvProd, c.recvRing) else (c.sendFetched, c.sendEntries, c.sendProd, c.sendRing)
  if r.1 % r.2.1 = r.2.2.1 % r.2.1 then none else some (r.2.2.2 + 64 * (r.1 % r.2.1))

/-- The host reads of a connection. -/
def Purpose.ofConn (cn : Nat) : Purpose → Bool
  | .wrFetch k _ => k == cn
  | .courierData k _ => k % 65536 == cn
  | _ => false

/-- A close is over: the connection is CLOSED and each close of it is reported (R459). -/
def State.closed (s : State) (cn : Nat) : State :=
  let c := s.conn cn
  let now := s.firm.aon
  let s := s.disown (·.ofConn cn)
  let s := s.modConn cn fun c => { gen := c.gen, closedAt := some now, guest := c.guest }
  c.closing.foldl (fun s seq => s.netEvent 3 c.port ((s.guest c.guest).localNo 64 cn) 0 c.guest seq) s

/-- A close that waits goes on once no posted request is left to end. -/
def State.settleClose (s : State) (cn : Nat) : State :=
  let c := s.conn cn
  if c.closing ≠ [] ∧ c.nextWr false = none ∧ c.nextWr true = none then s.closed cn else s

/-- WR_FETCH: the next work request of a ring is read, one at a time, while the store has room; in SAFE_HOLD none is accepted (R48). Those of a
connection in ERROR are read too, to end FLUSHED; a close does not wait for one that cannot be read. -/
def State.wrFetch (s : State) (cn : Nat) (recv : Bool) : State :=
  let c := s.conn cn
  match c.nextWr recv with
  | none => s
  | some a =>
    if c.state = .closed ∨ s.awaits (.wrFetch cn recv)
        ∨ (c.state = .opened ∧ (s.firm.mstate = .safeHold ∨ 1024 * (s.guest c.guest).open.length ≤ s.storedRequests c.guest ∨ 1048576 ≤ s.storeUsed)) then s
    else
      let r := s.guestRead c.guest a 64 (.wrFetch cn recv)
      if !r.2 && c.closing != [] then r.1.closed cn else r.1

/-- A fetched work request joins its connection; a bad receive ends at once, and so does every request of a connection in ERROR. -/
def State.wrArrives (s : State) (cn : Nat) (recv : Bool) (b : List Byte) : State :=
  let c := s.conn cn
  let w := parseWr b recv
  if c.state = .closed then s
  else if c.state = .error then
    let s := s.modConn cn fun c =>
      if recv then { c with recvFetched := c.recvFetched + 1 } else { c with sendFetched := c.sendFetched + 1 }
    (if recv then s.courierEntry cn w.cookie.toNat 0 0 5 8 else s.endSend cn w c.nextMsn 5 0).settleClose cn
  else if recv then
    let n := c.recvFetched
    let s := s.modConn cn fun c => { c with recvFetched := n + 1, recvs := fset c.recvs (n % 2 ^ 32) w }
    if w.bad || (s.localKind c.guest w true).isNone then
      (s.modConn cn fun c => { c with recvs := fdel c.recvs (n % 2 ^ 32) }).courierEntry cn w.cookie.toNat 0 0 6 8
    else s
  else s.modConn cn fun c => { c with sendFetched := c.sendFetched + 1, sends := c.sends ++ [w] }

/-- A work request could not be read: a close does not wait for it. -/
def State.wrFails (s : State) (cn : Nat) : State := if (s.conn cn).closing ≠ [] then s.closed cn else s

/-! ## Commands -/

/-- The OP of a packet handed to the courier. -/
def packetOp (p : List Byte) : Nat := beField p 0 1 % 16

def execCourierPacketReceive (_port : Nat) (sumOk ce : Bool) (packet : List Byte) (s : State) : Out :=
  if packetOp packet = 5 ∨ packetOp packet = 6 then done s else done (s.nativeArrives sumOk ce packet)
def execCourierAckReceive (_port : Nat) (sumOk ce : Bool) (packet : List Byte) (s : State) : Out :=
  if packetOp packet = 5 then done (s.nativeArrives sumOk ce packet) else done s
def execCourierNackReceive (_port : Nat) (sumOk ce : Bool) (packet : List Byte) (s : State) : Out :=
  if packetOp packet = 6 then done (s.nativeArrives sumOk ce packet) else done s
def execCourierRtoExpire (conn msn : Nat) (s : State) : Out := done (s.rtoExpire conn msn)
def execCourierRequestStart (conn : Nat) (s : State) : Out := done (s.startRequest conn)

/-! ## Messages (R457 to R459) -/

/-- The conditions of R457. -/
def courierKeyBlock : ReqBlock :=
  { opcode := 0x0810, sender := .guest,
    bad := fun r _ =>
      decide (1 < r.f 0 1) || r.resv 3 1
        || (if r.f 0 1 = 0 then decide (1 < r.f 1 1) || r.f 2 1 == 0 || decide (3 < r.f 2 1) || r.f 4 4 != 0
            else r.f 1 1 != 0 || r.f 2 1 != 0),
    conflict := fun r s =>
      (s.guest? r.guest).isNone || (r.f 0 1 == 1 && (match fget s.net.keys (r.f 4 4 % 4096) with
        | some k => k.guest != r.guest || k.tag.toNat != r.f 4 4 / 4096
        | none => true)),
    short := fun r s =>
      r.f 0 1 == 0 && (decide (64 ≤ (s.net.keys.filter (·.2.guest = r.guest)).length) || decide (4096 ≤ s.net.keys.length)),
    run := fun r s =>
      if r.f 0 1 = 0 then
        let i := ((List.range' 0 4096).find? fun i => (fget s.net.keys i).isNone).getD 0
        let tag := BitVec.ofNat 20 s.net.keyCount
        let s := s.modNet fun n =>
          { n with
            keyCount := n.keyCount + 1,
            keys := fset n.keys i { tag, guest := r.guest, kind := r.f 1 1, read := bitOf (r.f 2 1) 0, write := bitOf (r.f 2 1) 1 } }
        { state := s, payload := leBytes 4 (i + 4096 * tag.toNat) }
      else { state := s.modNet fun n => { n with keys := fdel n.keys (r.f 4 4 % 4096) }, payload := zeros 4 } }

/-- AON cycles of 16 ms (R445). -/
def reopenCycles : Nat := 16 * 25000

/-- Whether a connection closed less than 16 ms ago. -/
def State.closedLately (s : State) (cn : Nat) : Bool :=
  match (s.conn cn).closedAt with | some t => decide (s.firm.aon < t + reopenCycles) | none => false

def courierOpenBlock : ReqBlock :=
  { opcode := 0x0811, sender := .guest,
    unsupported := fun r s => r.f 3 1 == 1 && !s.feature 4,
    bad := fun r s =>
      let roce := r.f 3 1 == 1
      let pkt := 1024 * 2 ^ r.f 14 1
      let ring := fun (off : Nat) => r.f off 8 % 4096 != 0
      decide (s.netPorts ≤ r.f 2 1) || decide (1 < r.f 3 1)
        || (match s.guest? r.guest with
            | some g => (g.moduleNo 64 (r.f 0 2)).isNone || (g.moduleNo 8 (r.f 38 2)).isNone
            | none => false)
        || decide ((if roce then 2 ^ 24 else 2 ^ 16) ≤ r.f 4 4) || decide ((if roce then 2 ^ 24 else 2 ^ 16) ≤ r.f 8 4)
        || r.f 12 2 == 0 || decide ((if roce then 1 else 16384) < r.f 12 2) || decide (2 < r.f 14 1)
        || decide ((s.netPort (r.f 2 1)).maxFrame - 4 < pkt + 102) || decide (63 < r.f 15 1) || decide (r.f 40 4 < 10)
        || decide (1000000 < r.f 40 4) || r.f 44 1 == 0 || decide (15 < r.f 44 1) || r.resv 45 3 || decide (r.f 48 4 < pkt)
        || decide (16777216 < r.f 48 4) || r.resv 52 4 || ring 56 || ring 64 || ring 72 || decide (r.f 80 2 < 16)
        || decide (4096 < r.f 80 2) || decide (r.f 82 2 < 16) || decide (4096 < r.f 82 2)
        || decide (r.f 84 2 < r.f 80 2 + r.f 82 2) || decide (8192 < r.f 84 2) || r.resv 86 2,
    conflict := fun r s =>
      match s.guest? r.guest with
      | none => true
      | some g =>
        match g.moduleNo 64 (r.f 0 2) with
        | none => true
        | some cn =>
          let c := s.conn cn
          !g.holdsNo 64 cn || c.state != .closed || !(s.netPort (r.f 2 1)).courierEn
            || s.closedLately cn,
    run := fun r s =>
      let g := s.guest r.guest
      let cn := (g.moduleNo 64 (r.f 0 2)).getD 0
      let old := s.conn cn
      let roce := r.f 3 1 == 1
      let gen := (old.gen + 1) % 65536
      let c : Conn :=
        { state := .opened, gen, guest := r.guest, port := r.f 2 1, roce, peerConn := r.f 4 4, peerGen := r.f 8 4, paths := r.f 12 2,
          pkt := 1024 * 2 ^ r.f 14 1, dscp := r.f 15 1, peerAddr := BitVec.ofNat 128 (leNat (r.b 16 16)),
          peerMac := BitVec.ofNat 48 (leNat (r.b 32 6)), vector := (g.moduleNo 8 (r.f 38 2)).getD 0, rtoUs := r.f 40 4,
          retries := r.f 44 1, inflight := r.f 48 4, limit := r.f 48 4, sendRing := r.f 56 8, recvRing := r.f 64 8, cqRing := r.f 72 8,
          sendEntries := r.f 80 2, recvEntries := r.f 82 2, cqEntries := r.f 84 2, nextMsn := if roce then r.f 8 4 else 0,
          base := if roce then r.f 8 4 else 0 }
      { state := s.modConn cn fun _ => c, payload := leBytes 2 (if roce then 0 else gen) ++ [0, 0] ++ leBytes 4 cn } }

/-- R459: a connection closes: every request ends FLUSHED, those that are posted and not yet fetched as WR_FETCH brings them, its trackers are
freed, and the close is reported. -/
def State.closeConn (s : State) (cn seq : Nat) : State :=
  if (s.conn cn).state = .closed then s
  else
    let s := s.modConn cn fun c => { c with state := .error, closing := c.closing ++ [seq] }
    ((s.flushConn cn 5 true).dropConnParts cn).settleClose cn

def courierCloseBlock : ReqBlock :=
  { opcode := 0x0812, sender := .guest,
    bad := fun r s => r.resv 2 6 || (match s.guest? r.guest with | some g => (g.moduleNo 64 (r.f 0 2)).isNone | none => false),
    conflict := fun r s =>
      match s.guest? r.guest with
      | none => true
      | some g => match g.moduleNo 64 (r.f 0 2) with | some cn => (s.conn cn).state == .closed | none => true,
    run := fun r s =>
      match (s.guest r.guest).moduleNo 64 (r.f 0 2) with
      | some cn => deferred (s.closeConn cn r.seq)
      | none => deferred s }

def execCourierKey (slot : Nat) (s : State) : Out := done (serve courierKeyBlock slot s)
def execCourierOpen (slot : Nat) (s : State) : Out := done (serve courierOpenBlock slot s)
def execCourierClose (slot : Nat) (s : State) : Out := done (serve courierCloseBlock slot s)

end Sys2Proof.Machine
end

