-- ==== Sys2Proof/Machine/MemRows.lean ====
section
/-! DEFINITION. The rows of chapter 09 for stack memory: refresh, scrub, the merge buffer's timeout, and the retirement of
pseudo-channels. -/

namespace Sys2Proof.Machine

/-! ## Refresh, scrub and merge timeouts (R306, R310, R311) -/

/-- The refresh interval of a stack, in FCLK (R311); while a job under reproducible-timing mode runs, every stack keeps that of the hottest (R278). -/
def State.refreshInterval (s : State) (k : Nat) : Nat :=
  let hot := if s.jobs.any fun e => e.2.live && e.2.timed then (List.range 16).any fun k => (s.stack k).hot else (s.stack k).hot
  if hot then 2496 else 4992

/-- Whether the stacks work: they are in self-refresh at stage S4, and off without main power. -/
def State.stacksOn (s : State) : Bool := decide (s.stage < 4) && s.firm.mstate != .auxOnly

/-- REFRESH: a pseudo-channel takes its refresh; the cycles for which it is closed are timing, which the model leaves out. -/
def execRefresh (stack pc : Nat) (s : State) : Out :=
  if stack < 16 ∧ pc < 64 ∧ s.stacksOn then
    done (s.modStack stack fun c => { c with refreshed := fset c.refreshed pc (fgetD 0 c.refreshed pc + 1) })
  else done s

/-- MERGE_TIMEOUT: an entry that has been open 256 FCLK is written back. -/
def execMergeTimeout (stack line : Nat) (s : State) : Out :=
  match (s.stack stack).merge.find? (·.line = line) with
  | some e => if stack < 16 ∧ s.stacksOn then done (s.writeBack e) else done s
  | none => done s

/-- Lines of a stack: 12 GiB and their order by address (R298). -/
def stackLines : Nat := 12582912 * 64
def lineOf (stack n : Nat) : Nat := (n / 64 * 16 + stack) * 64 + n % 64

/-- Whether the scrubber runs: it pauses at stage S1 or deeper, and while a job under reproducible-timing mode has run for less
than 3,600 s (R279, R310). -/
def State.scrubs (s : State) : Bool := s.stage == 0 && s.firm.mstate != .auxOnly && !s.jobs.any fun e => e.2.live && e.2.timed && !e.2.limitPassed

/-- The line that the scrubber of a stack reads next, if one is served there, and its controller after it has been taken: the repair queue is served
before the pass (R303, R317). -/
def Mem.takeLine (m : Mem) (c : Stack) (k : Nat) : Option Nat × Stack :=
  match c.repairQueue with
  | l :: r => (some l, { c with repairQueue := r })
  | [] =>
    let n := c.scrubLine + 1
    (m.servedAt (lineOf k c.scrubLine), if n < stackLines then { c with scrubLine := n } else { c with scrubLine := 0, pass := c.pass + 1 })

/-- The scrubber reads a line: a corrected one is written back, and its row is repaired once two passes have met it, or is owed its
repair; an uncorrectable one is poisoned; one with an unwritten word is left (R302, R310, R312, R314). -/
def State.scrub (s : State) (k line : Nat) : State :=
  if s.mem.twoSymbol.contains line then
    let s := (s.modStack k fun c => { c with uncorrectable := satInc c.uncorrectable }).repairRow line
    let s := s.modMem fun m => { m with poison := addTo m.poison line, wrong := fdel m.wrong line }
    s.memEvent 3 k (s.mem.pcAt line % 64) 0 (64 * line)
  else if s.mem.oneSymbol.contains line && !s.mem.poison.contains line && fgetD 0 s.mem.written line == 0xFF then
    let s := s.noteCorrected line
    let s := s.modMem fun m => { m with wrong := fdel m.wrong line }
    let row := s.mem.pcAt line % 64 + 64 * s.mem.rowAt line
    let before := fget (s.stack k).correctedRows row
    let s := s.modStack k fun c =>
      { c with repairQueue := c.repairQueue.filter (· != line), correctedRows := fset c.correctedRows row (before.getD c.pass) }
    match before with
    | some p =>
      if p = (s.stack k).pass then s
      else if s.timedRuns then s.modStack k fun c => { c with owed := addTo c.owed line }
      else s.repairRow line
    | none => s
  else s

/-- SCRUB_LINE: an owed repair is made once no timed job runs; then the next line is read. -/
def State.scrubNext (s : State) (k : Nat) : State :=
  if s.scrubs then
    let s := if s.timedRuns then s else (s.stack k).owed.foldl (fun s l => if (s.stack k).owed.contains l then
      (s.modStack k fun c => { c with owed := c.owed.filter (· != l) }).repairRow l else s) s
    let (line, c) := s.mem.takeLine (s.stack k) k
    let s := s.modStack k fun _ => c
    match line with
    | some l => s.scrub k l
    | none => s
  else s

def execScrubLine (stack : Nat) (s : State) : Out := if stack < 16 then done (s.scrubNext stack) else done s

/-! ## Pseudo-channel retirement (R316 to R320, R337) -/

/-- R318: the granules that retirement k moves, in order. -/
def Mem.moving (m : Mem) (pc k : Nat) : List Nat :=
  (((List.range 196608).map (granuleAddr pc)).filter (outsideAreas k))
    ++ ((m.retirements.flatMap fun r => (r.slots.filter fun e =>
        pcIndex (slotBase + 4096 * e.2) == pc && outsideAreas k (4096 * e.1)).map fun e => 4096 * e.1).mergeSort)

/-- The slots that retirement k may assign, lowest first: those of healthy pseudo-channels that no granule outside every give-up
area uses. -/
def Mem.freeSlots (m : Mem) (pc k : Nat) : List Nat :=
  let bad := pc :: m.retirements.map (·.pc)
  let used := m.retirements.flatMap fun r => (r.slots.filter fun e => outsideAreas k (4096 * e.1)).map (·.2)
  ((List.range (k * 196608)).map fun i => (16 - k) * 196608 + i).filter fun i =>
    !bad.contains (pcIndex (slotBase + 4096 * i)) && !used.contains i

/-- The granules that retirement k moves and the slots they take. -/
def Mem.redirect (m : Mem) (pc k : Nat) : List (Nat × Nat) := (m.moving pc k).zip (m.freeSlots pc k)

/-- A pseudo-channel's redirection table, by granule number, with the moved granules that are its own at their new slots (R317). -/
def redirectTable (table : FMap Nat) (pc : Nat) (moves : List (Nat × Nat)) : FMap Nat :=
  (moves.filter fun e => pcIndex e.1 == pc).foldl (fun t e => fset t (e.1 / 4096) e.2) table

def memRetirePcBlock : ReqBlock :=
  { opcode := 0x0501, states := [.ready, .degraded],
    bad := fun r _ => decide (15 < r.f 0 1) || decide (63 < r.f 1 1) || r.resv 2 6,
    conflict := fun r s =>
      let pc := 64 * r.f 0 1 + r.f 1 1
      s.mem.retirements.any (·.pc = pc) || s.mem.retiring.isSome || s.mem.cellars.any (·.2.releasing) || s.stage != 0
        || (s.mem.retirements.length < 16 && r.f 8 8 != giveUpBase (s.mem.retirements.length + 1)),
    short := fun _ s => decide (16 ≤ s.mem.retirements.length),
    run := fun r s =>
      let pc := 64 * r.f 0 1 + r.f 1 1
      let s := s.markFailing pc
      deferred (s.modMem fun m => { m with retiring := some { pc, seq := r.seq } }) }

/-- R317, R319, R321: a pseudo-channel is retired: its granules are served at their slots, the give-up area is a hole, and the retirement is
recorded. -/
def State.retirePc (s : State) (pc seq : Nat) : State :=
  let k := s.mem.retirements.length + 1
  let area := giveUpBase k
  let moves := s.mem.redirect pc k
  let m := s.mem
  let moved := fun l => m.pcAt l == pc && decide (l < stackTop / 64)
  let e : PcRetirement := { pc, slots := redirectTable [] pc moves, done := true, seq }
  let s := (List.range 16).foldl (fun s i => ((s.stack i).merge.filter fun x => moved x.line).foldl State.writeBack s) s
  let s := s.modMem fun m =>
    { (m.fresh moved) with
      failing := m.failing.filter (· != pc), retirements := (m.retirements.map fun (x : PcRetirement) => { x with slots := redirectTable x.slots x.pc moves }) ++ [e],
      poison := (m.twoSymbol.filter moved).foldl addTo m.poison, cells := cellsZero m.cells area 0x30000000 }
  s.writeRecord fun x => { x with pcs := x.pcs ++ [e], failing := x.failing.filter (· != pc) }

/-- PC_RETIRE_DONE: every granule of the retiring pseudo-channel is served at its slot, the give-up area is a hole, and the retirement
is recorded (R319). A reproducible-timing job defers it (R314). -/
def State.pcRetired (s : State) : State :=
  match s.mem.retiring with
  | none => s
  | some r =>
    if s.timedRuns || !s.stacksOn then s
    else
      let area := giveUpBase (s.mem.retirements.length + 1)
      let s := (s.modMem fun m => { m with retiring := none }).retirePc r.pc r.seq
      (s.degrade).raise 0x0580 ([1, BitVec.ofNat 8 (r.pc / 64), BitVec.ofNat 8 (r.pc % 64), 0] ++ zeros 4 ++ leBytes 8 area) 0xFFFF r.seq

def execMemRetirePc (slot : Nat) (s : State) : Out := done (serve memRetirePcBlock slot s)
def execPcRetireDone (s : State) : Out := done s.pcRetired

end Sys2Proof.Machine
end

