-- ==== Sys2Proof/Machine/LedgerRows.lean ====
section
/-! DEFINITION. The rows of chapter 07: the end of streams and appends, the step barrier, run moves, and the ledger messages. -/

namespace Sys2Proof.Machine

/-! ## Deleting a ledger (R265) -/

/-- ASTREAMs outstanding on a ledger. -/
def State.ledgerStreams (s : State) (n : Nat) : Nat := (s.tiles.map fun e => (e.2.streams.filter (·.ledger == n)).length).sum

/-- A ledger's runs and directory page return to their pools, and its number is free. -/
def State.freeLedger (s : State) (n : Nat) : State :=
  match s.ledger? n with
  | none => s
  | some l =>
    let h := BitVec.ofNat 64 (s.handle n)
    let s := l.runs.foldl (fun s e =>
      let s := s.giveRun l.guest e.2.pool e.2.addr
      match e.2.fresh with
      | some f => s.giveRun l.guest f.1 f.2
      | none => s) s
    let s := s.modGuest l.guest fun g =>
      match fget g.pools l.pool with
      | some p => { g with pools := fset g.pools l.pool { p with freeDirs := p.freeDirs.filter (· < l.dir) ++ l.dir :: p.freeDirs.filter (l.dir < ·) } }
      | none => g
    let s := { s with tiles := fmap s.tiles fun _ t => { t with handles := t.handles.filter (· != h) } }
    let s := s.modLedgers fun m => { m with live := fdel m.live n, generations := fupd 0 m.generations n (· + 1) }
    s.unfull l.guest

/-- A ledger that is being deleted goes once no ASTREAM on it is outstanding. -/
def State.tryDelete (s : State) (n : Nat) : State :=
  match s.ledger? n with
  | none => s
  | some l =>
    match l.deleting with
    | none => s
    | some slot =>
      if s.ledgerStreams n ≠ 0 then s
      else
        let s := s.freeLedger n
        match s.beganBy slot with
        | some c => if (s.hole slot).num 2 2 = 0x0403 then (s.finish c).respond slot .ok [] else s
        | none => s

/-- Every ledger of a guest is deleted (R383). -/
def State.deleteLedgers (s : State) (g : Nat) : State :=
  (s.ledgers.live.filter (·.2.guest == g)).foldl (fun s e => (s.modLedger e.1 fun l => { l with deleting := some 32 }).tryDelete e.1) s

/-! ## The engine (R247, R248) -/

/-- The engine of a tile ends the ASTREAM it works on; under a halt it ends the one in progress and pauses (R138, R251). -/
def State.engineDone (s : State) (p : Nat) (append : Bool) : State :=
  match (s.tile p).streams with
  | o :: _ =>
    if o.append = append ∧ !(s.halted p && (s.tile p).streamed) ∧ !s.power.tclkStopped then
      let s := if s.halted p then s.modTile p fun t => { t with streamed := true } else s
      (if append then s.appendDone p o else s.streamDone p o).tryDelete o.ledger
    else s
  | [] => s

def execAstreamStreamDone (tile : Nat) (s : State) : Out := done (s.engineDone tile false)
def execAstreamAppendDone (tile : Nat) (s : State) : Out := done (s.engineDone tile true)

/-! ## The step barrier (R252, R253, R537) -/

/-- The logical tiles of a guest: those of its rooms, and of the rows lent to it. -/
def State.guestTiles (s : State) (g : Nat) : List (Nat × Nat) :=
  (s.guest g).open.flatMap roomTiles
    ++ if s.mesh.lentTo = some g then (List.range s.mesh.lentRows).flatMap fun r => (List.range 64).map fun x => (x, 64 + r) else []

/-- The barrier group: (tile, context). -/
def State.barrierGroup (s : State) (g : Nat) : List (Nat × Nat) :=
  (s.guestTiles g).flatMap fun c =>
    let p := s.phys c.1 c.2
    ((s.tile p).ctxs.filter fun e => e.2.assigned && !e.2.stopped).map fun e => (p, e.1)

/-- The 64 KiB pages of a job's saved regions (R511). -/
def regionPages (rs : List (Nat × Nat)) : List Nat :=
  (rs.flatMap fun r => (List.range (if r.2 = 0 then 0 else (r.1 + r.2 - 1) / 65536 - r.1 / 65536 + 1)).map (r.1 / 65536 + ·)).dedup

/-- The ranges of a job's region table. -/
def State.regionRanges (s : State) (l : Layout) : List (Nat × Nat) :=
  (List.range l.regionCount).map fun i => (leNat (s.memBytes (l.regions + 80 * i) 8), leNat (s.memBytes (l.regions + 80 * i + 8) 8))

/-- A step of a job completes at its barrier; a shard save that names it marks its regions. -/
def State.stepJob (s : State) (j : Nat) : State :=
  match fget s.jobs j with
  | none => s
  | some x =>
    let n := x.steps + 1
    let s := s.modJob j fun x => { x with steps := n }
    match x.save, x.config with
    | some v, some l =>
      if v.kind = 1 ∧ !v.copying ∧ (v.atStep = 0 ∨ v.atStep = n) then
        let rs := s.regionRanges l
        let s := s.modJob j fun x => { x with save := some { v with
          copying := true, marks := regionPages rs, data := rs.map fun r => s.memBytes r.1 r.2, step := n } }
        s.modGuest x.guest fun g => { g with barrierWait := true }
      else s
    | _, _ => s

/-- STEP_BARRIER_COMPLETE: every context of the group is held at STEP with its ASTREAMs done; the Steward starts the advance. -/
def State.barrierComplete (s : State) (g : Nat) : State :=
  let group := s.barrierGroup g
  let held := fun (e : Nat × Nat) => (s.ctx e.1 e.2).atStep && !(s.ctx e.1 e.2).streaming
  if group = [] ∨ !group.all held ∨ (s.guest g).barrier ∨ !s.coreUp steward then s
  else
    let jobs := (group.map fun e => (s.ctx e.1 e.2).job).dedup
    let s := s.advance g
    let s := s.modGuest g fun x => { x with barrier := true }
    jobs.foldl State.stepJob s

/-- Whether a guest's connections have no unacknowledged or incomplete message (R508, R537). -/
def State.connsQuiet (s : State) (g : Nat) : Bool :=
  s.net.conns.all fun e => e.2.guest != g || (e.2.flights.isEmpty && e.2.trackers.isEmpty)

/-- R280: whether something that breaks the steps of a job still goes on as its next step begins: a stage, throttle or clamp; a core of the Steward,
the Doorkeeper or the Hearth that is down, an Innkeeper of its clusters, or a swap; a halt of its tiles; a retirement; a Porter save. -/
def State.disturbed (s : State) (j : Nat) : Bool :=
  let mine := fun (p : Nat) => (s.tile p).halts != [] || (s.core (innkeeper (clusterOf p))).run == .restarting
  s.stage != 0 || s.power.clamp != .off || s.mesh.halts != [] || s.clusters.any (·.2.moving.isSome)
    || s.firm.cores.any (fun e => e.2.run == .swapping || (decide (e.1 < 3) && e.2.run != .running))
    || s.jobs.any (·.2.save.isSome)
    || (match fget s.jobs j with | some x => (s.jobTiles x).any mine | none => false)

/-- BARRIER_RELEASE: every held context of the group is released, and the next step of its jobs begins. -/
def State.barrierRelease (s : State) (g : Nat) : State :=
  if (s.guest g).barrier && (!(s.guest g).barrierWait || s.connsQuiet g) && s.coreUp steward then
    let group := s.barrierGroup g
    let jobs := (group.map fun e => (s.ctx e.1 e.2).job).dedup
    let s := group.foldl (fun s e => s.modCtx e.1 e.2 fun c => { c with atStep := false }) s
    let s := jobs.foldl (fun s j =>
      let late := ((fget s.jobs j).map (·.limitPassed)).getD false
      let s := s.modJob j fun x => { x with broken := false }
      if late || s.disturbed j then s.breakJob j else s) s
    s.modGuest g fun x => { x with barrier := false, barrierWait := false }
  else s

def execStepBarrierComplete (guest : Nat) (s : State) : Out := done (s.barrierComplete guest)
def execBarrierRelease (guest : Nat) (s : State) : Out := done (s.barrierRelease guest)

/-! ## Run moves (R258) -/

/-- RUN_MOVE_DONE: a run's copy completes; its old run is free. -/
def execRunMoveDone (ledger span : Nat) (s : State) : Out :=
  match s.ledger? ledger with
  | some l => done ((s.runMoveDone ledger span).unfull l.guest)
  | none => done s

/-! ## Messages (R263 to R268) -/

/-- The head width that a WIDTH field names. -/
def widthOf (w : Nat) : Nat := 64 * 2 ^ w

/-- R237: whether a shape is legal. -/
def shapeOk (layers heads width fmt : Nat) : Bool :=
  decide (1 ≤ layers) && decide (layers ≤ 256) && decide (1 ≤ heads) && decide (heads ≤ 64) && decide (layers * heads ≤ 1024)
    && decide (width ≤ 2) && decide (fmt ≤ 1)

/-- A range lies wholly in stack memory, or in one cellar window. -/
def oneTier (a n : Nat) : Bool :=
  match mapAddr a, mapAddr (a + n - 1) with
  | .stack _, .stack _ => true
  | .cellar p _, .cellar q _ => p == q
  | _, _ => false

def inStack (a n : Nat) : Bool := match mapAddr a, mapAddr (a + n - 1) with | .stack _, .stack _ => true | _, _ => false

def ledgerPoolBlock : ReqBlock :=
  { opcode := 0x0401, sender := .guest,
    bad := fun r s =>
      let base := r.f 0 8
      let len := r.f 8 8
      base % 65536 != 0 || len % 65536 != 0 || !oneTier base len || !s.guestMem r.guest base len || r.resv 24 8
        || (s.guest r.guest).pools.any (fun e => overlaps base len e.2.base e.2.length)
        || !shapeOk (r.f 16 2) (r.f 18 2) (r.f 20 1) (r.f 21 1) || (r.f 22 2 != 0 && !inStack base len) || decide (len < 65536 * r.f 22 2),
    short := fun r s => decide (16 ≤ (s.guest r.guest).pools.length),
    run := fun r s =>
      let n := ((List.range 16).find? fun i => (fget (s.guest r.guest).pools i).isNone).getD 0
      let base := r.f 0 8
      let dirs := r.f 22 2
      let p : Pool := { base, length := r.f 8 8, cellar := !inStack base (r.f 8 8), layers := r.f 16 2, heads := r.f 18 2,
                        width := widthOf (r.f 20 1), fmt := r.f 21 1 }
      let runs := (p.length - 65536 * dirs) / p.runBytes
      let p := { p with freeDirs := (List.range dirs).map fun i => base + 65536 * i,
                        freeRuns := (List.range runs).map fun i => base + 65536 * dirs + p.runBytes * i }
      { state := s.modGuest r.guest fun g =>
          { g with pools := fset g.pools n p, idleSteps := if g.poolGiven then g.idleSteps else 0, poolGiven := true },
        payload := leBytes 2 n ++ [0, 0] ++ leBytes 4 runs } }

/-- R235: whether a guest may hold one more ledger. -/
def State.ledgerRoom (s : State) (g : Nat) : Bool :=
  decide ((s.ledgers.live.filter (·.2.guest == g)).length
    < 32 * (s.guest g).open.length + if s.mesh.lentTo = some g then 512 * s.mesh.lentRows else 0)

/-- The lowest free ledger number. -/
def State.freeLedgerNo (s : State) : Option Nat := (List.range' 0 34816).find? fun n => (s.ledger? n).isNone

/-- A handle is written, tagged SEQ, into a tile (R264). -/
def State.deliverHandle (s : State) (n x y addr : Nat) : State :=
  s.arrive (s.phys x y) addr [{ tag := .seq, data := BitVec.ofNat 64 (s.handle n) }]

/-- Where a handle may be delivered. -/
def deliverBad (x y addr : Nat) : Bool := decide (63 < x) || decide (67 < y) || addr % 8 != 0 || decide (0x180000 ≤ addr)

/-- A stack pool of a guest. -/
def State.stackPool (s : State) (g pool : Nat) : Option Pool :=
  match fget (s.guest g).pools pool with
  | some p => if p.cellar then none else some p
  | none => none

/-- A ledger is created with a directory page of a pool, and the given number of its runs (R264, R268); false if the pool or the
table lacks one. -/
def State.makeLedger (s : State) (g pool tokens spans : Nat) : Option (Nat × State) :=
  match s.freeLedgerNo, s.stackPool g pool with
  | some n, some p =>
    match p.freeDirs with
    | dir :: dirs =>
      if spans ≤ p.freeRuns.length then
        let l : Ledger := { guest := g, pool, dir, layers := p.layers, heads := p.heads, width := p.width, fmt := p.fmt, tokens }
        let s := s.modGuest g fun x => { x with pools := fset x.pools pool { p with freeDirs := dirs, freeRuns := p.freeRuns.drop spans } }
        let s := s.modLedgers fun m => { m with live := fset m.live n l }
        let s := s.memZero dir 65536
        some (n, (p.freeRuns.take spans).zipIdx.foldl (fun s (a, i) => (s.clearTail a p.layers p.heads p.width).setRun n i (some { addr := a, pool })) s)
      else none
    | [] => none
  | _, _ => none

def ledgerCreateBlock : ReqBlock :=
  { opcode := 0x0402, sender := .guest,
    bad := fun r s => (s.stackPool r.guest (r.f 0 2)).isNone || deliverBad (r.f 2 1) (r.f 3 1) (r.f 4 4) || r.resv 8 8,
    conflict := fun r s => s.owner (r.f 2 1) (r.f 3 1) != some r.guest,
    short := fun r s => !s.ledgerRoom r.guest || (s.makeLedger r.guest (r.f 0 2) 0 1).isNone,
    run := fun r s =>
      match s.makeLedger r.guest (r.f 0 2) 0 1 with
      | some (n, s) => { state := s.deliverHandle n (r.f 2 1) (r.f 3 1) (r.f 4 4), payload := leBytes 8 (s.handle n) }
      | none => { state := s, status := .noResource } }

/-- The ledger that a message's HANDLE names. -/
def Req.ledger (r : Req) (s : State) : Option Nat := s.ledgerOf (r.f 0 8) r.guest

def ledgerDeleteBlock : ReqBlock :=
  { opcode := 0x0403, sender := .guest,
    conflict := fun r s =>
      match (r.ledger s).bind s.ledger? with
      | some l => l.exportTo.isSome
      | none => true,
    run := fun r s =>
      match r.ledger s with
      | some n =>
        if s.ledgerStreams n = 0 then { state := s.freeLedger n }
        else { state := s.modLedger n fun l => { l with deleting := some r.slot }, later := true }
      | none => { state := s } }

def ledgerMoveBlock : ReqBlock :=
  { opcode := 0x0404, sender := .guest,
    bad := fun r _ => decide (1 < r.f 8 1) || r.resv 9 7,
    conflict := fun r s =>
      match (r.ledger s).bind s.ledger? with
      | some l => l.moveTo.isSome || s.stage != 0
      | none => true,
    short := fun r s => match (r.ledger s).bind s.ledger? with | some l => (s.freeRun l (r.f 8 1 == 1)).isNone | none => true,
    run := fun r s => match r.ledger s with | some n => deferred (s.startMove n (r.f 8 1 == 1) (some r.seq)) | none => deferred s }

/-- STATE of LEDGER_QUERY. -/
def State.ledgerState (s : State) (l : Ledger) : Nat :=
  if l.moveTo.isSome then 2 else if l.full then 4 else if (s.runCounts l).1 = 0 ∧ l.runs ≠ [] then 3 else 1

def ledgerQueryBlock : ReqBlock :=
  { opcode := 0x0405, sender := .guest,
    conflict := fun r s => (r.ledger s).isNone,
    run := fun r s =>
      match (r.ledger s).bind s.ledger? with
      | some l =>
        let c := s.runCounts l
        { state := s, payload := leBytes 4 l.tokens ++ leBytes 2 l.marks.length ++ leBytes 1 (s.ledgerState l) ++ [0] ++ leBytes 2 c.1
            ++ leBytes 2 c.2 ++ leBytes 4 l.idle }
      | none => { state := s } }

def ledgerIdleBlock : ReqBlock :=
  { opcode := 0x0406, sender := .guest,
    bad := fun r _ => r.resv 4 4,
    run := fun r s => { state := s.modGuest r.guest fun g => { g with idleSteps := r.f 0 4 } } }

/-- Spans that an export form carries. -/
def formSpans (tokens : Nat) : Nat := ceilDiv tokens 32

def ledgerExportBlock : ReqBlock :=
  { opcode := 0x0407, sender := .guest,
    bad := fun r s =>
      let n := match (r.ledger s).bind s.ledger? with | some l => 4096 + formSpans l.tokens * l.runBytes | none => 4096
      r.f 8 8 % 4096 != 0 || !inStack (r.f 8 8) n || !s.guestMem r.guest (r.f 8 8) n,
    conflict := fun r s =>
      match (r.ledger s).bind s.ledger? with
      | some l => l.marks != [] || l.moveTo.isSome || l.exportTo.isSome
      | none => true,
    run := fun r s =>
      match r.ledger s with
      | some n => deferred (s.modLedger n fun l => { l with exportTo := some (r.f 8 8), exportSeq := r.seq })
      | none => deferred s }

/-- The bytes of a range as they stand, and whether none of it is beyond correction. -/
def State.rawBytes (s : State) (a n : Nat) : List Byte × Bool :=
  let st := (wordsIn a n).map s.wordStatus
  ((List.range n).map fun i => s.memByte (a + i), !(st.contains .hole || st.contains .uncorrectable || st.contains .poisoned))

/-- LEDGER_EXPORT_DONE: the header and the runs of the spans that hold tokens are written (R261, R267). -/
def State.exportDone (s : State) (n : Nat) : State :=
  match s.ledger? n with
  | none => s
  | some l =>
    match l.exportTo with
    | none => s
    | some a =>
      let spans := formSpans l.tokens
      let reads := (List.range spans).map fun i => match fget l.runs i with
        | some r => s.rawBytes r.addr l.runBytes
        | none => (zeros l.runBytes, false)
      let runs := (reads.map (·.1)).flatten
      let s := (List.range spans).foldl (fun s i => match fget l.runs i with | some r => (s.memRead r.addr l.runBytes).2.2 | none => s) s
      let head := [0x55, 0x4C, 0x4C, 0x47] ++ leBytes 2 1 ++ leBytes 1 l.fmt ++ leBytes 1 (l.width / 128) ++ leBytes 2 l.layers
        ++ leBytes 2 l.heads ++ leBytes 4 l.tokens ++ leBytes 4 spans ++ zeros 12 ++ sha256 runs ++ zeros 4032
      let s := s.memWrite a (head ++ runs) .firmware
      let s := s.modLedger n fun l => { l with exportTo := none }
      s.ledgerEvent 6 0 l.tokens (s.handle n) l.guest l.exportSeq (if reads.all (·.2) then 0 else Status.faulted.code)

/-- The header of an export form. -/
structure FormHeader where
  good : Bool
  fmt : Nat
  width : Nat
  layers : Nat
  heads : Nat
  tokens : Nat
  spans : Nat
  digest : List Byte

def parseForm (b : List Byte) : FormHeader :=
  { good := slice b 0 4 == [0x55, 0x4C, 0x4C, 0x47] && field b 4 2 == 1, fmt := field b 6 1, width := widthOf (field b 7 1),
    layers := field b 8 2, heads := field b 10 2, tokens := field b 12 4, spans := field b 16 4, digest := slice b 32 32 }

def ledgerImportBlock : ReqBlock :=
  { opcode := 0x0408, sender := .guest,
    bad := fun r s =>
      let h := parseForm (s.memBytes (r.f 0 8) 64)
      match s.stackPool r.guest (r.f 8 2) with
      | none => true
      | some p =>
        deliverBad (r.f 10 1) (r.f 11 1) (r.f 12 4) || !inStack (r.f 0 8) (4096 + h.spans * p.runBytes)
          || !s.guestMem r.guest (r.f 0 8) (4096 + h.spans * p.runBytes)
          || !(p.fmt == h.fmt && p.width == h.width && p.layers == h.layers && p.heads == h.heads),
    conflict := fun r s => s.owner (r.f 10 1) (r.f 11 1) != some r.guest,
    short := fun r s => !s.ledgerRoom r.guest || (s.makeLedger r.guest (r.f 8 2) 0 (parseForm (s.memBytes (r.f 0 8) 64)).spans).isNone,
    run := fun r s =>
      let i : Import := { source := r.f 0 8, pool := r.f 8 2, x := r.f 10 1, y := r.f 11 1, addr := r.f 12 4, seq := r.seq }
      deferred ((s.memRead (r.f 0 8) 64).2.2.modGuest r.guest fun g => { g with imports := g.imports ++ [i] }) }

/-- The spans that an import gives runs beyond those of its form (R268). -/
def importSpans (tokens : Nat) : List Nat :=
  ((List.range ((tokens + 16) / 32 + 1 - formSpans tokens)).map (formSpans tokens + ·)).filter (· < 8192)

/-- LEDGER_IMPORT_DONE: the oldest import of a guest ends. -/
def State.importDone (s : State) (g : Nat) : State :=
  match (s.guest g).imports with
  | [] => s
  | i :: rest =>
    let s := s.modGuest g fun x => { x with imports := rest }
    let h := parseForm (s.memBytes i.source 64)
    let s := (s.memRead i.source 64).2.2
    let fail := fun (s : State) => s.ledgerEvent 5 0 0 0 g i.seq Status.faulted.code
    match s.stackPool g i.pool with
    | none => fail s
    | some p =>
      let (runs, ok) := s.rawBytes (i.source + 4096) (h.spans * p.runBytes)
      let s := (s.memRead (i.source + 4096) (h.spans * p.runBytes)).2.2
      if !h.good || !ok || sha256 runs != h.digest || h.spans != formSpans h.tokens || decide (262144 < h.tokens) || !s.ledgerRoom g then fail s
      else
        match s.makeLedger g i.pool h.tokens h.spans with
        | none => fail s
        | some (n, s) =>
          let s := (List.range h.spans).foldl (fun s k =>
            match (s.ledger? n).bind fun l => fget l.runs k with
            | some r => s.memWrite r.addr ((runs.drop (k * p.runBytes)).take p.runBytes) .firmware
            | none => s) s
          let s := (importSpans h.tokens).foldl (fun s k =>
            match (s.stackPool g i.pool).bind (·.freeRuns.head?) with
            | some a => ((s.takeRun g i.pool a).clearTail a p.layers p.heads p.width).setRun n k (some { addr := a, pool := i.pool })
            | none => s.modLedger n fun l => { l with full := true }) s
          let s := if h.tokens = 262144 then s.modLedger n fun l => { l with full := true } else s
          let full := ((s.ledger? n).map (·.full)).getD false
          let s := if full then s.ledgerEvent 3 0 h.tokens (s.handle n) g 0 0 else s
          (s.deliverHandle n i.x i.y i.addr).ledgerEvent 5 0 h.tokens (s.handle n) g i.seq 0

def execLedgerPool (slot : Nat) (s : State) : Out := done (serve ledgerPoolBlock slot s)
def execLedgerCreate (slot : Nat) (s : State) : Out := done (serve ledgerCreateBlock slot s)
def execLedgerDelete (slot : Nat) (s : State) : Out := done (serve ledgerDeleteBlock slot s)
def execLedgerMove (slot : Nat) (s : State) : Out := done (serve ledgerMoveBlock slot s)
def execLedgerQuery (slot : Nat) (s : State) : Out := done (serve ledgerQueryBlock slot s)
def execLedgerIdle (slot : Nat) (s : State) : Out := done (serve ledgerIdleBlock slot s)
def execLedgerExport (slot : Nat) (s : State) : Out := done (serve ledgerExportBlock slot s)
def execLedgerExportDone (ledger : Nat) (s : State) : Out := done (s.exportDone ledger)
def execLedgerImport (slot : Nat) (s : State) : Out := done (serve ledgerImportBlock slot s)
def execLedgerImportDone (guest : Nat) (s : State) : Out := done (s.importDone guest)

end Sys2Proof.Machine
end

