-- ==== Sys2Proof/Machine/JobRows.lean ====
section
/-! DEFINITION. Launching and ending jobs (R610 to R613), the function unit's results (R127), the random generator (R284) and the
passports (R288 to R296). -/

namespace Sys2Proof.Machine

/-! ## Starting a job (R157, R611) -/

/-- R157: a context with a program assigned. -/
def startCtx (job x y n entry : Nat) (args : List TWord) (ready : Bool) : Ctx :=
  let first : List TWord := [{ tag := .int, data := BitVec.ofNat 64 (x + 256 * y) }, { tag := .int, data := BitVec.ofNat 64 n }]
  { assigned := true, job, ready, pc := entry,
    s := ((first ++ args).zipIdx.filter fun e => e.1 != {}).map fun e => (e.2, e.1) }

/-- R26: rows are lent to a guest, and stand-ins serve those of their coordinates whose tiles are retired; a change of the stand-in table
breaks every job's step (R22, R280). -/
def State.lendRows (s : State) (g n : Nat) : State :=
  let old := s.mesh.standIns
  let busy := s.busyReserve 4608
  let s := s.modMesh fun m =>
    let m := { m with lentRows := n, lentTo := if n = 0 then none else some g }
    m.assignStandIns busy ((List.range (64 * n)).map (4096 + ·))
  if s.mesh.standIns = old then s else s.breakAll

/-- R228: the pre-posted anchor requests of a group are armed to the ranks next to it in the tree across modules. -/
def Group.arm (g : Group) : Group :=
  if 1 < g.modules then { g with armed := ((childRanks g.rank g.modules) ++ (sendLevel g.rank).toList).map (·.2) } else g

/-- R228, R232: the pre-posted request of a group's level is armed on the connection to the parent rank. -/
def State.armGroup (s : State) (guest job : Nat) (g : Group) : State :=
  match (if 1 < g.modules then sendLevel g.rank else none) with
  | none => s
  | some (k, r) =>
    let e := s.memBytes (g.peers + 16 * r) 16
    match (s.guest guest).moduleNo 64 (field e 0 2) with
    | none => s
    | some cn =>
      let blk := g.send + 3072 * k
      let w : WorkRequest :=
        { op := 2, hold := true, tally := true, trigger := 2, length := 3072, localAddr := tileKey g.x0 g.y0 blk,
          remoteKey := BitVec.ofNat 32 (field e 4 4), remoteAddr := field e 8 8 + 3072 * k,
          watch := tileKey g.x0 g.y0 (blk + 47 * 64 + 56), job := some job }
      s.modConn cn fun c => { c with sends := c.sends ++ [w] }

/-- The contexts of a mask. -/
def maskCtxs (m : BitVec 8) : List Nat := (List.range 8).filter fun n => m.getLsbD n

/-- R611 step 5: a job starts. What its passport reports of that moment is kept (R288), and its first step begins (R280). -/
def State.jobBegins (s : State) (j : Nat) : State :=
  let s := s.modJob j fun x => { x with started := true, divisor := s.power.divisor, profile := s.power.profile, release := s.firm.running.release }
  if s.disturbed j then s.breakJob j else s

/-- R611 steps 2 to 5 for a job that has its number and its rows. The program's words are copied as the memory holds them, whatever the outcome of
the read, which the manual does not name (DESIGN CHOICE, notes/assumptions/100.md); a context whose registers are set has fresh codes in all of them. -/
def State.startJob (s : State) (j : Nat) : State :=
  match fget s.jobs j with
  | none => s
  | some x =>
    let prog := s.memBytes x.program x.programLen
    let ready := !x.timed
    let s := (s.memRead x.program x.programLen).2.2
    let s := x.coords.foldl (fun s c =>
      let p := s.phys c.1 c.2
      let s := s.arriveBytes p x.load prog
      s.modTile p fun t =>
        let ns := maskCtxs x.ctxMask
        let t := { t with regErrs := t.regErrs.filter fun e => !ns.contains e.1 }
        ns.foldl (fun t n => t.setCtx n { startCtx j c.1 c.2 n x.entry x.args ready with streaming := t.streams.any (·.ctx == n) }) t) s
    let s := x.groups.foldl (fun s g => s.armGroup x.guest j g) s
    let s := s.modJob j fun x => { x with started := ready, groups := x.groups.map Group.arm }
    if ready then s.jobBegins j else s

/-- R613: every entry of the table of 4,096 is a live job's. -/
def State.jobsFull (s : State) : Bool := decide (4096 ≤ s.jobs.length) && s.jobs.all (·.2.live)

/-- R613: an entry for one more job: that of the oldest ended job is reused when the table is full. -/
def State.roomForJob (s : State) : State :=
  if s.jobs.length < 4096 then s
  else
    let ended := s.jobs.filter fun e => !e.2.live
    match ended.foldl (fun (b : Option (Nat × Nat)) e => match b with
        | some x => if e.2.order < x.2 then some (e.1, e.2.order) else some x
        | none => some (e.1, e.2.order)) none with
    | some (k, _) => { s with jobs := fdel s.jobs k }
    | none => s

/-- A job is entered under the next number. -/
def State.addJob (s : State) (x : Job) : Nat × State :=
  let s := s.roomForJob
  let n := s.firm.nextJob
  let s := { s with jobs := fset s.jobs n x }
  (n, s.modFirm fun f => { f with nextJob := n + 1 })

/-- Live jobs of a guest. -/
def State.hasLiveJob (s : State) (g : Nat) : Bool := s.jobs.any fun e => e.2.live && e.2.guest == g

/-! ## JOB_LAUNCH (R610, R611) -/

/-- A tag that a launch argument may carry. -/
def argTag (n : Nat) : Tag := if n = 1 then .int else if n = 2 then .float else if n = 3 then .pack else if n = 4 then .addr else .empty

def Req.arg (r : Req) (a : Nat) : TWord := { tag := argTag (r.f (176 + a) 1), data := BitVec.ofNat 64 (r.f (64 + 8 * a) 8) }

/-- A reduction group of a launch. -/
def Req.group (r : Req) (i : Nat) : Group :=
  let o := 192 + 32 * i
  { x0 := r.f o 1, y0 := r.f (o + 1) 1, x1 := r.f (o + 2) 1, y1 := r.f (o + 3) 1, ctx := r.f (o + 4) 1, modules := r.f (o + 8) 4,
    rank := r.f (o + 12) 4, peers := r.f (o + 16) 8, send := r.f (o + 24) 4 }

def Req.groups (r : Req) : List Group := (List.range (r.f 48 1)).map r.group

/-- The rectangle of a launch, before any row is lent. -/
def Req.rect (r : Req) : Job := { guest := r.guest, x0 := r.f 20 1, y0 := r.f 21 1, x1 := r.f 22 1, y1 := r.f 23 1 }

/-- Two rectangles have a tile in common. -/
def Group.meets (a b : Group) : Bool :=
  decide (a.x0 ≤ b.x1) && decide (b.x0 ≤ a.x1) && decide (a.y0 ≤ b.y1) && decide (b.y0 ≤ a.y1)

/-- The connections that a group's peer table names, those of the other ranks. -/
def State.peerConns (s : State) (guest : Nat) (g : Group) : List (Option Nat) :=
  ((List.range g.modules).filter (· != g.rank)).map fun r => (s.guest guest).moduleNo 64 (leNat (s.memBytes (g.peers + 16 * r) 2))

/-- Whether a launch argument is one that R610 refuses. -/
def badArg (tag data : Nat) : Bool :=
  decide (4 < tag) || (tag == 0 && data != 0) || (tag == 2 && decide (2 ^ 32 ≤ data)) || (tag == 4 && decide (0x180000 ≤ data))

/-- The payload of a launch's response. -/
def launched (n : Nat) : List Byte := leBytes 4 n ++ zeros 4

/-- JOB_LAUNCH. A SEND_g that is no multiple of 8, or whose block for level 0 ends past the tile store, counts as a field that breaks its row (DESIGN
CHOICE, notes/assumptions/100.md). -/
def jobLaunchBlock : ReqBlock :=
  { opcode := 0x0301, sender := .guest,
    unsupported := fun r s =>
      (r.f 26 1 == 2 && !s.feature 10) || (r.f 27 1 == 1 && !s.feature 3) || (bitOf (r.f 25 1) 0 && !s.feature 2),
    bad := fun r s =>
      let len := r.f 8 4
      let load := r.f 12 4
      let entry := r.f 16 4
      let lend := bitOf (r.f 25 1) 0
      let tiles := { r.rect with lentRows := if lend then s.rowsToLend else 0 }
      let gs := r.groups
      len == 0 || len % 16 != 0 || load % 16 != 0 || decide (0x180000 < load + len) || entry % 16 != 0 || decide (entry < load)
        || decide (load + len - 16 < entry) || decide (63 < r.f 22 1) || decide (r.f 22 1 < r.f 20 1) || decide (63 < r.f 23 1)
        || decide (r.f 23 1 < r.f 21 1) || r.f 24 1 == 0 || decide (1 < r.f 25 1) || decide (2 < r.f 26 1) || decide (1 < r.f 27 1)
        || r.f 28 4 % 1024 != 0 || decide (0x180000 < r.f 28 4 + 8192) || decide (8 < r.f 48 1) || r.resv 49 15 || r.resv 190 2
        || !s.guestMem r.guest (r.f 0 8) len || (List.range 14).any (fun a => badArg (r.f (176 + a) 1) (r.f (64 + 8 * a) 8))
        || (lend && r.f 189 1 != 0)
        || (List.range (r.f 48 1)).any (fun i =>
            let g := r.group i
            let o := 192 + 32 * i
            r.resv (o + 5) 3 || r.resv (o + 28) 4 || g.modules == 0 || decide (65536 < g.modules) || decide (g.modules ≤ g.rank)
              || decide (g.x1 < g.x0) || decide (g.y1 < g.y0)
              || (List.range (g.y1 + 1 - g.y0)).any (fun dy => !tiles.has g.x0 (g.y0 + dy) || !tiles.has g.x1 (g.y0 + dy)) || decide (7 < g.ctx) || !bitOf (r.f 24 1) g.ctx
              || (if g.modules = 1 then g.peers != 0 || g.send != 0
                  else g.send % 8 != 0 || decide (0x180000 < g.send + 3072) || !s.guestMem r.guest g.peers (16 * g.modules)))
        || (List.range gs.length).any (fun i => (List.range i).any fun k => (r.group i).ctx == (r.group k).ctx && (r.group i).meets (r.group k)),
    conflict := fun r s =>
      match s.guest? r.guest with
      | none => true
      | some g =>
        let lend := bitOf (r.f 25 1) 0
        let j := r.rect
        let cs := ({ j with lentRows := if lend then s.rowsToLend else 0 } : Job).coords
        j.coords.any (fun c => !g.open.contains (roomOf c.1 c.2) || s.mesh.closing.contains (roomOf c.1 c.2))
          || (lend && (g.open.length != 1024 || s.jobs.any fun e => e.2.live && e.2.guest == r.guest && e.2.lentRows != 0))
          || cs.any (fun c => (maskCtxs (BitVec.ofNat 8 (r.f 24 1))).any fun n => (s.ctx (s.phys c.1 c.2) n).assigned)
          || r.groups.any (fun x => decide (1 < x.modules) && (s.peerConns r.guest x).any fun c => match c with
              | some cn => (s.conn cn).state != .opened || (s.conn cn).guest != r.guest
              | none => true),
    short := fun _ s => decide (4096 ≤ (s.jobs.filter (·.2.live)).length),
    run := fun r s =>
      let lend := bitOf (r.f 25 1) 0
      let rows := if lend then s.rowsToLend else 0
      let s := if lend then s.lendRows r.guest rows else s
      let args := (List.range 14).map r.arg
      let args := if lend then args.set 13 { tag := .int, data := BitVec.ofNat 64 rows } else args
      let groups := r.groups.map fun g => { g with recv := if 1 < g.modules then leNat (s.memBytes (g.peers + 16 * g.rank + 8) 8) else 0 }
      let x : Job :=
        { r.rect with
          program := r.f 0 8, programLen := r.f 8 4, load := r.f 12 4, entry := r.f 16 4, ctxMask := BitVec.ofNat 8 (r.f 24 1), lend,
          lentRows := rows, level := r.f 26 1, timed := r.f 27 1 == 1 && s.ledgers.rtm && s.feature 3,
          genKey := BitVec.ofNat 128 (r.f 32 16), drawOffset := r.f 28 4, args, groups }
      let s := r.groups.foldl (fun s g => if 1 < g.modules then (s.memRead g.peers (16 * g.modules)).2.2 else s) s
      let (n, s) := s.addJob { x with answer := if x.timed then some r.slot else none, steps := ((s.guest r.guest).restored).getD 0 }
      let s := s.modGuest r.guest fun g => { g with restored := none }
      { state := s.startJob n, payload := launched n, later := x.timed } }

/-- R611: the launch of a job that started at an epoch edge returns OK, unless its request was cut off meanwhile (R63, notes/assumptions/100.md). -/
def State.answerLaunch (s : State) (j : Nat) : State :=
  match (fget s.jobs j).bind (·.answer) with
  | none => s
  | some slot =>
    let s := s.modJob j fun x => { x with answer := none }
    match s.beganBy slot with
    | some c => if (s.hole slot).num 2 2 = 0x0301 then (s.finish c).respond slot .ok (launched j) else s
    | none => s

/-- EPOCH_JOB_START: at an epoch edge, the jobs launched under reproducible-timing mode start, their contexts become ready, and their launches
return (R277, R611). -/
def State.epochStart (s : State) : State :=
  let js := (s.jobs.filter fun e => !e.2.started).map (·.1)
  let s := s.modMesh fun m => { m with epoch := m.epoch + 1 }
  let s := js.foldl (fun s j => (s.jobBegins j).answerLaunch j) s
  { s with tiles := fmap s.tiles fun _ t => { t with ctxs := fmap t.ctxs fun _ c => if c.assigned && js.contains c.job then { c with ready := true } else c } }

def jobEndBlock : ReqBlock :=
  { opcode := 0x0302, sender := .guest,
    bad := fun r _ => r.resv 4 4,
    conflict := fun r s =>
      match fget s.jobs (r.f 0 4) with
      | some j => !j.live || j.guest != r.guest || j.ending.isSome
      | none => true,
    run := fun r s => deferred ((s.haltToEnd (r.f 0 4) 1 r.seq).endAtRest (r.f 0 4)) }

def execJobLaunch (slot : Nat) (s : State) : Out := done (serve jobLaunchBlock slot s)
def execEpochJobStart (s : State) : Out := done s.epochStart
def execJobEnd (slot : Nat) (s : State) : Out := done (serve jobEndBlock slot s)
def execResultProduced (tile : Nat) (s : State) : Out := done (s.tclk (·.produce tile))

/-- RTM_LIMIT_EXPIRE: a timed job has run 3,600 s; scrub resumes, and its later steps break (R279). -/
def execRtmLimitExpire (job : Nat) (s : State) : Out :=
  match fget s.jobs job with
  | some j => if j.live && j.timed then done (s.modJob job fun x => { x with limitPassed := true }) else done s
  | none => done s

/-! ## The random generator (R281 to R287) -/

/-- The cause for which a captured draw request fails (R284); 0 for none. -/
def DrawRequest.cause (d : DrawRequest) : Nat :=
  let n := d.w0.data.toNat
  let count := bitsOf n 37 32
  if d.w0.tag ≠ .int ∨ d.w1.tag ≠ .int ∨ d.w2.tag ≠ .int then 1
  else if count = 0 ∨ 60 < count then 2
  else if n / 2 ^ 38 ≠ 0 ∨ d.w2.data.toNat / 2 ^ 32 ≠ 0 then 3
  else 0

/-- One output block (R281). -/
def drawBlock (key : BitVec 128) (tensor block phase : Nat) : List Byte :=
  aesEnc (leBytes 16 key.toNat) (leBytes 4 tensor ++ leBytes 8 block ++ leBytes 4 phase)

/-- DRAW_DONE: the generator of a tile finishes its oldest request; under a halt, that in progress alone, at the rest point too (R287). -/
def State.drawDone (s : State) (p : Nat) : State :=
  let t := s.tile p
  match t.draws with
  | [] => s
  | d :: r =>
    if s.power.tclkStopped ∨ (s.halted p ∧ t.drawn) then s
    else
      let s := s.modTile p fun t => { t with draws := r, drawn := s.halted p }
      match fget s.jobs d.job with
      | none => s
      | some j =>
        let area := j.drawOffset + 1024 * d.ctx
        let cause := d.cause
        let count := bitsOf d.w0.data.toNat 37 32
        let out := (List.range count).flatMap fun k =>
          drawBlock j.genKey (d.w0.data.toNat % 2 ^ 32) (d.w1.data.toNat + k) (d.w2.data.toNat % 2 ^ 32)
        let s := if cause = 0 then s.arriveBytes p (area + 64) out else s.modLedgers fun l => { l with drawFaults := satInc l.drawFaults }
        s.arrive p (area + 56)
          [{ tag := .pack, data := BitVec.ofNat 64 (if cause = 0 then count else 256 + 4096 * cause) }]

def execDrawDone (tile : Nat) (s : State) : Out := done (s.drawDone tile)

/-! ## Passports (R288 to R296) -/

/-- PASSPORT_EVENT. -/
def State.passportEvent (s : State) (kind slot job : Nat) (digest : List Byte) (guest seq : Nat) (ok : Bool) : State :=
  s.raise 0x0380 (leBytes 1 kind ++ leBytes 1 slot ++ [0, 0] ++ leBytes 4 job ++ digest) guest seq (if ok then 0 else Status.faulted.code)

def State.digestSlot (s : State) (g n : Nat) : DigestSlot := fgetD {} (s.guest g).digests n
def State.modDigest (s : State) (g n : Nat) (f : DigestSlot → DigestSlot) : State :=
  s.modGuest g fun x => { x with digests := fupd {} x.digests n f }

/-- Whether a seal in progress names a digest slot. -/
def Guest.sealed (g : Guest) (n : Nat) : Bool := g.seals.any fun x => x.program == n || x.weights == n || x.inputs == n

/-- A region of a digest request: source, length, destination. -/
def Req.region (r : Req) (i : Nat) : Nat × Nat × Nat := (r.f (8 + 24 * i) 8, r.f (16 + 24 * i) 8, r.f (24 + 24 * i) 8)

def passportDigestBlock : ReqBlock :=
  { opcode := 0x0310, sender := .guest, unsupported := fun _ s => !s.feature 6,
    bad := fun r s =>
      let rs := (List.range (r.f 2 1)).map r.region
      decide (1 < r.f 0 1) || decide (15 < r.f 1 1) || r.f 2 1 == 0 || decide (16 < r.f 2 1) || r.resv 3 5
        || rs.any (fun x => x.2.1 == 0 || !s.guestMem r.guest x.1 x.2.1
            || (x.2.2 != 0 && (!s.guestMem r.guest x.2.2 x.2.1 || rs.any fun y => overlaps x.2.2 x.2.1 y.1 y.2.1))),
    conflict := fun r s => (s.digestSlot r.guest (r.f 1 1)).filling || (s.guest r.guest).sealed (r.f 1 1),
    run := fun r s =>
      deferred (s.modDigest r.guest (r.f 1 1) fun _ =>
        { mode := r.f 0 1, filling := true, regions := (List.range (r.f 2 1)).map r.region, seq := r.seq }) }

/-- DIGEST_DONE: a digest completes; each byte is hashed as it passes to its destination (R292, R294); an address that is the guest's no longer
is a hole for the engine (R386). -/
def State.digestDone (s : State) (g n : Nat) : State :=
  let d := s.digestSlot g n
  if !d.filling then s
  else
    let reads := d.regions.map fun r => ((s.rawBytes r.1 r.2.1).1, s.rangeStatus r.1 r.2.1 == .ok && s.guestMem g r.1 r.2.1)
    let ok := reads.all (·.2)
    let all := (reads.map (·.1)).flatten
    let digest := if d.mode = 0 then sha256 all else merkleRoot all
    let s := d.regions.foldl (fun s r => s.engineRead g r.1 r.2.1) s
    let s := (d.regions.zip reads).foldl (fun s (r, b) =>
      if r.2.2 = 0 then s
      else if b.2 then s.engineWrite g r.2.2 b.1 .firmware
      else
        let (f, s) := s.freeBytes r.2.1
        s.engineWrite g r.2.2 f .firmware) s
    let s := s.modDigest g n fun _ => if ok then { mode := d.mode, full := true, digest } else {}
    s.passportEvent 0 n 0 (if ok then digest else zeros 32) g d.seq ok

/-- The number that PROFILE gives a TCLK divisor (R288). -/
def divisorCode (d : Nat) : Nat := if d = 4 then 0 else if d = 5 then 1 else if d = 6 then 2 else if d = 8 then 3 else 4

/-- Whether a digest slot holds a digest of a mode. -/
def DigestSlot.holds (d : DigestSlot) (mode : Nat) : Bool := d.full && !d.filling && d.mode == mode

def passportSealBlock : ReqBlock :=
  { opcode := 0x0311, sender := .guest, unsupported := fun _ s => !s.feature 6,
    bad := fun r s =>
      decide (15 < r.f 4 1) || decide (15 < r.f 5 1) || decide (15 < r.f 6 1) || r.resv 7 1 || r.f 16 8 == 0
        || !s.guestMem r.guest (r.f 8 8) (r.f 16 8) || r.f 24 8 % 8 != 0 || !s.guestMem r.guest (r.f 24 8) 64
        || overlaps (r.f 24 8) 64 (r.f 8 8) (r.f 16 8),
    conflict := fun r s =>
      (match fget s.jobs (r.f 0 4) with | some j => j.guest != r.guest | none => true)
        || !(s.digestSlot r.guest (r.f 4 1)).holds 0 || !(s.digestSlot r.guest (r.f 5 1)).holds 1 || !(s.digestSlot r.guest (r.f 6 1)).holds 0,
    run := fun r s =>
      match fget s.jobs (r.f 0 4) with
      | none => deferred s
      | some j =>
        let x : Sealing :=
          { job := r.f 0 4, program := r.f 4 1, weights := r.f 5 1, inputs := r.f 6 1, result := r.f 8 8, resultLen := r.f 16 8,
            record := r.f 24 8, level := if j.downgraded then 1 else j.level,
            flags := bit (j.timed && !j.everBroken) + 2 * bit j.downgraded + 4 * bit j.activated,
            profile := divisorCode j.divisor + 256 * j.profile, seq := r.seq }
        deferred (s.modGuest r.guest fun g => { g with seals := g.seals ++ [x] }) }

/-- SEAL_DONE: the oldest seal of a guest completes: the result buffer is hashed and the record is written (R288, R295). -/
def State.sealDone (s : State) (g : Nat) : State :=
  match (s.guest g).seals with
  | [] => s
  | x :: r =>
    let s := s.modGuest g fun y => { y with seals := r }
    let j := (fget s.jobs x.job).getD { guest := g }
    let m := (s.rawBytes x.result x.resultLen).1
    let ok := s.rangeStatus x.result x.resultLen == .ok && s.guestMem g x.result x.resultLen
    let s := s.engineRead g x.result x.resultLen
    let digest := sha256 m
    let head := ((s.digestSlot g x.program).digest.take 16) ++ ((s.digestSlot g x.weights).digest.take 16)
      ++ (sha256 (leBytes 16 j.genKey.toNat ++ (s.digestSlot g x.inputs).digest)).take 16
      ++ leBytes 1 x.level ++ leBytes 1 x.flags ++ leBytes 2 x.profile ++ leBytes 4 j.release.toNat
    let rec64 := head ++ (sha256 (head ++ digest)).take 8
    let s := if ok then s.engineWrite g x.record rec64 .firmware else s
    s.passportEvent 1 0xFF x.job (if ok then digest else zeros 32) g x.seq ok

def execPassportDigest (slot : Nat) (s : State) : Out := done (serve passportDigestBlock slot s)
def execDigestDone (guest digestSlot : Nat) (s : State) : Out := done (s.digestDone guest digestSlot)
def execPassportSeal (slot : Nat) (s : State) : Out := done (serve passportSealBlock slot s)
def execSealDone (guest : Nat) (s : State) : Out := done (s.sealDone guest)

end Sys2Proof.Machine
end

