-- ==== Sys2Proof/Machine/Storage.lean ====
section
/-! DEFINITION. The storage queues (chapter 12): doorbells, fetching and posting, the commands of R407, and the storage messages. -/

namespace Sys2Proof.Machine

/-! ## Doorbells (R390, R392, R412) -/

/-- A guest's dropped doorbell write is counted. -/
def State.dropped (s : State) (g : Nat) : State :=
  s.modHosts fun h => { h with guestDropped := fupd 0 h.guestDropped g satInc }

/-- The enabled pair that a doorbell of a guest names; none where R392 drops the write. -/
def State.doorbellPair (s : State) (g q : Nat) : Option Nat :=
  match s.guest? g with
  | none => none
  | some x =>
    if x.destroying.isSome then none
    else
      match x.pairNo g q with
      | none => none
      | some m => if (s.pair m).state = 0 || (q != 0 && !x.holdsNo 4 m) then none else some m

def State.badDoorbell (s : State) : State := s.modStorage fun t => { t with badDoorbell := satInc t.badDoorbell }

/-- A submission-queue tail doorbell. -/
def State.sqTail (s : State) (g q v : Nat) : State :=
  match s.doorbellPair g q with
  | none => s.dropped g
  | some m => if v < (s.pair m).sqSize then s.modPair m fun p => { p with tail := v } else s.badDoorbell

/-- Entries of a completion ring that are posted and not released. -/
def Pair.unreleased (p : Pair) : Nat := (p.cqTail + p.cqSize - p.cqHead) % p.cqSize

/-- A completion-queue head doorbell. -/
def State.cqHead (s : State) (g q v : Nat) : State :=
  match s.doorbellPair g q with
  | none => s.dropped g
  | some m =>
    let p := s.pair m
    if v < p.cqSize ∧ (v + p.cqSize - p.cqHead) % p.cqSize ≤ p.unreleased then s.modPair m fun p => { p with cqHead := v } else s.badDoorbell

/-- A request to BAR2 on a link, whichever guest's page it names (R340, R393): its effect, or Unsupported Request where that link takes no memory
request (R348). -/
def State.bar2 (s : State) (link : Nat) (read : Bool) (f : State → State) : State :=
  if 2 ≤ link ∨ !(s.link link).up then s else if (s.link link).memory then f s else s.unsupported link read

def execSqTail (page : Page) (queue : Nat) (value : BitVec 32) (s : State) : Out :=
  done (if page.guest < 1024 ∧ queue ≤ 4096 then s.bar2 page.link false (·.sqTail page.guest queue value.toNat) else s)
def execCqHead (page : Page) (queue : Nat) (value : BitVec 32) (s : State) : Out :=
  done (if page.guest < 1024 ∧ queue ≤ 4096 then s.bar2 page.link false (·.cqHead page.guest queue value.toNat) else s)

/-! ## Fetching (R407, R413, R416) -/

/-- The commands that a pair may have fetched and not completed: those that OUTSTANDING can count, and R407's limit for an admin pair. -/
def State.fetchLimit (s : State) (m : Nat) : Nat := if m < 4096 then 4096 else min 64 (4 * (s.guest (s.pair m).guest).open.length)

/-- Commands fetched and not completed (R424). -/
def Pair.outstanding (p : Pair) : Nat := p.cmds.length + p.toPost.length

/-- Whether the module lets a guest's pair fetch now; in SAFE_HOLD it accepts no new work (R48). -/
def State.mayFetch (s : State) (m : Nat) : Bool :=
  let p := s.pair m
  p.state == 1 && s.firm.mstate != .safeHold && !s.saving p.guest && !p.fetching && p.head != p.tail
    && decide (p.outstanding < 4096) && decide (p.cmds.length < s.fetchLimit m)

/-- The first number after `last` in cyclic order that a list holds. -/
def nextAfter (last : Nat) (l : List Nat) : Option Nat :=
  match (l.filter (last < ·)).min? with
  | some n => some n
  | none => l.min?

/-- The pairs of a guest that may fetch, by local number. -/
def State.fetchable (s : State) (g : Nat) : List Nat :=
  let x := s.guest g
  (s.storage.pairs.filter fun e => e.2.guest == g && s.mayFetch e.1).map fun e => x.localPair e.1

/-- SQ_FETCH: the next guest, and its next queue, fetches one entry. -/
def State.sqFetch (s : State) : State :=
  match nextAfter s.storage.lastGuest ((s.guests.filter fun e => s.fetchable e.1 != []).map (·.1)) with
  | none => s
  | some g =>
    let x := s.guest g
    match nextAfter x.lastQueue (s.fetchable g) with
    | none => s
    | some q =>
      match x.pairNo g q with
      | none => s
      | some m =>
        let p := s.pair m
        let s := s.modStorage fun t => { t with lastGuest := g }
        let s := s.modGuest g fun x => { x with lastQueue := q }
        let (s, ok) := s.guestRead g (p.sqBase + 64 * p.head) 64 (.sqFetch m)
        if ok then s.modPair m fun p => { p with fetching := true } else s.failPair m 1

/-- A fetched entry arrives; one of an opcode that is not executed completes at once. -/
def State.entryArrives (s : State) (m : Nat) (b : List Byte) : State :=
  let p := s.pair m
  if !p.fetching then s
  else
    let p := { p with fetching := false }
    if p.state ≠ 1 ∧ p.state ≠ 2 then s.modPair m fun _ => p
    else
      let c : Cmd := { entry := slice b 0 64, cid := field b 2 2 }
      let gone := match s.ns? p.guest c.nsid with | some n => n.deleting.isSome | none => true
      let s := s.modPair m fun _ => { p with head := (p.head + 1) % p.sqSize, cmds := p.cmds ++ [{ c with nsGone := gone }] }
      if executes (decide (4096 ≤ m)) c.opcode then s else s.complete m c.cid invalidOpcode

/-! ## Posting (R414, R415) -/

/-- The 16 bytes of a completion entry. -/
def Cqe.bytes (c : Cqe) (sqid head : Nat) (phase : Bool) : List Byte :=
  leBytes 4 c.dw0.toNat ++ zeros 4 ++ leBytes 2 head ++ leBytes 2 sqid ++ leBytes 2 c.cid ++ leBytes 2 (bit phase + statusField c.sct c.sc c.dnr)

/-- Whether a ring has a free entry. -/
def Pair.cqFree (p : Pair) : Bool := decide (p.unreleased + 1 < p.cqSize)

/-- CQ_POST: the oldest completion of a pair is written to its ring, and its vector is raised. -/
def State.cqPost (s : State) (m : Nat) : State :=
  let p := s.pair m
  match p.toPost with
  | [] => s
  | c :: r =>
    let up := [MState.ready, .degraded, .shedding].contains s.firm.mstate && decide (s.stage < 4)
    if p.state = 0 ∨ p.cause ≠ 0 ∨ !p.cqFree ∨ !up then s
    else
      let x := s.guest p.guest
      if !(s.link x.link).up then s.failPair m 2
      else
        let s := s.guestWrite p.guest (p.cqBase + 16 * p.cqTail) (c.bytes (x.localPair m) p.head p.phase)
        let wrap := p.cqTail + 1 = p.cqSize
        let s := s.modPair m fun p =>
          { p with toPost := r, cqTail := if wrap then 0 else p.cqTail + 1, phase := if wrap then !p.phase else p.phase }
        if p.ien then s.raiseVector p.vector else s

def execSqFetch (s : State) : Out := done s.sqFetch
def execCqPost (pair : Nat) (s : State) : Out := done (s.cqPost pair)

/-! ## Starting a command (R417) -/

/-- The host data that a command moves. -/
def Cmd.length (c : Cmd) (admin : Bool) : Nat :=
  if admin then
    match c.opcode with
    | 2 => 4 * (c.f 42 2 + 2 ^ 16 * c.f 44 2 + 1)
    | 6 => 4096
    | _ => 0
  else
    match c.opcode with
    | 1 => 4096 * c.nlb
    | 2 => 4096 * c.nlb
    | 9 => 16 * (c.f 40 1 + 1)
    | _ => 0

/-- The second row of R417 as far as the entry itself decides it: its fused bits and PSDT, and a transfer above MDTS. -/
def Cmd.badFields (c : Cmd) (admin : Bool) : Bool := c.f 1 1 % 4 != 0 || c.f 1 1 / 64 != 0 || decide (2 ^ 21 < c.length admin)

/-- The rows of R417 that the namespace of an I/O command decides, in the table's order; none if it may go on. -/
def State.nsVerdict (s : State) (m : Nat) (c : Cmd) : Option CmdStatus :=
  let blocks := c.opcode == 1 || c.opcode == 2 || c.opcode == 8
  let writes := c.opcode == 1 || c.opcode == 8
  match s.ns? (s.pair m).guest c.nsid with
  | none => some invalidNamespace
  | some n =>
    if c.nsGone then some invalidNamespace
    else if n.lost then some notReady
    else if blocks && decide (n.size < c.slba + c.nlb) then some outOfRange
    else if writes && n.readOnly then some readOnlyRange
    else if blocks && (match n.keySlot with | some k => s.slotKind k != some .xtsLo | none => false) then some accessDenied
    else none

/-- What decides a command's status before its host data moves, once the second row of R417 has been passed. -/
def State.verdict (s : State) (m : Nat) (c : Cmd) : Option CmdStatus :=
  if m < 4096 then s.nsVerdict m c
  else if c.opcode = 2 then (if c.f 40 1 = 1 ∨ c.f 40 1 = 4 then none else some invalidLogPage)
  else if c.opcode = 6 then
    if 2 < c.f 40 1 then some invalidField
    else if c.f 40 1 == 0 && (c.nsGone || (s.ns? (s.pair m).guest c.nsid).isNone) then some invalidNamespace else none
  else none

/-- Pages that the host buffer covers. -/
def Cmd.pageCount (c : Cmd) (len : Nat) : Nat := if len = 0 then 0 else ceilDiv (c.prp1 % 4096 + len) 4096

/-- A PRP list, or the rest of it that its page holds, is read. -/
def State.fetchList (s : State) (m cid addr : Nat) : State :=
  match (s.pair m).cmd? cid with
  | none => s
  | some c =>
    let n := min (8 * (c.need - c.pages.length)) (4096 - addr % 4096)
    let (s, ok) := s.guestRead (s.pair m).guest addr n (.prpList m cid)
    if ok then s else s.complete m cid ((s.verdict m c).getD transferError)

/-! ## Admin data (R406, R407) -/

/-- Bytes of a page that this manual gives, over those it leaves open (notes/assumptions/2.md). -/
def pageWith (page n : Nat) (given : List (Nat × List Byte)) : List Byte :=
  (List.range n).map fun i =>
    match given.find? fun e => decide (e.1 ≤ i) && decide (i < e.1 + e.2.length) with
    | some e => e.2.getD (i - e.1) 0
    | none => Config.nvmePage page i

/-- Identify Controller of a guest. -/
def identifyController (g : Nat) : List Byte :=
  pageWith 1 4096
    [(77, [9]), (78, leBytes 2 (g + 1)), (80, leBytes 4 0x20000), (258, [3]), (259, [3]), (512, [0x66]), (513, [0x44]),
      (516, leBytes 4 256), (520, leBytes 2 0x0C), (522, leBytes 2 0), (525, [1]), (536, leBytes 4 0)]

/-- Identify Namespace: its size, and the one format of 4,096-byte blocks. -/
def identifyNamespace (n : Namespace) : List Byte :=
  pageWith 0 4096
    [(0, leBytes 8 n.size), (8, leBytes 8 n.size), (25, [0]), (26, [0]), (28, [0]), (29, [0]), (128, [0, 0, 12, 0])]

/-- A list of numbers as 32-bit words in n bytes. -/
def wordList (n : Nat) (l : List Nat) : List Byte := slice (l.flatMap (leBytes 4)) 0 n

/-- The existing namespaces of a guest, in order. -/
def State.nsids (s : State) (g : Nat) : List Nat := (s.storage.namespaces.filter (·.1 / 512 == g)).map (·.1 % 512)

/-- An entry of the Error Information log as the Base Specification lays it out (PRESUMED, notes/assumptions/101.md). -/
def ErrorEntry.bytes (e : ErrorEntry) : List Byte :=
  leBytes 8 e.count ++ leBytes 2 e.sqid ++ leBytes 2 e.cid ++ leBytes 2 e.status ++ leBytes 2 0xFFFF ++ leBytes 8 e.lba ++ leBytes 4 e.nsid ++ zeros 36

/-- The data that an admin command returns. -/
def State.adminData (s : State) (g : Nat) (c : Cmd) : List Byte :=
  if c.opcode = 6 then
    match c.f 40 1 with
    | 0 => match s.ns? g c.nsid with | some n => identifyNamespace n | none => zeros 4096
    | 1 => identifyController g
    | _ => wordList 4096 ((s.nsids g).filter (c.nsid < ·))
  else
    let off := c.f 48 8
    let page := if c.f 40 1 = 1 then slice ((s.guest g).log01.flatMap ErrorEntry.bytes) 0 4096 else wordList 4096 (s.guest g).log04
    slice page off (c.length true)

/-! ## A command's course -/

/-- The key slot of the namespace that a command names. -/
def State.cmdKey (s : State) (m : Nat) (c : Cmd) : Option Nat := (s.ns? (s.pair m).guest c.nsid).bind (·.keySlot)

/-- The data of a write is at hand: it is encrypted if the namespace names a key slot, and goes to the backing. -/
def State.writeData (s : State) (m cid : Nat) (data : List Byte) : State :=
  match (s.pair m).cmd? cid with
  | none => s
  | some c =>
    let ps := match s.ns? (s.pair m).guest c.nsid with | some n => n.parts c.slba c.nlb | none => []
    let s := s.modCmd m cid fun c => { c with data, parts := ps }
    match s.cmdKey m c with
    | some k => s.cipherCmd m cid k true
    | none => s.sendParts m cid

/-- The ranges of a Dataset Management command: first block and count. -/
def dsmRanges (n : Nat) (data : List Byte) : List (Nat × Nat) := (List.range n).map fun i => (field data (16 * i + 8) 8, field data (16 * i + 4) 4)

/-- The host pages of a command are known and its host data, if it takes any, has been read. -/
def State.proceed (s : State) (m cid : Nat) (data : List Byte) : State :=
  let p := s.pair m
  match p.cmd? cid with
  | none => s
  | some c =>
    if 4096 ≤ m then
      let (s, ok) := s.dataOut p.guest c (s.adminData p.guest c)
      let s := if c.opcode = 2 ∧ c.f 40 1 = 4 ∧ !bitOf (c.f 40 4) 15 ∧ ok then s.modGuest p.guest fun g => { g with log04 := [] } else s
      s.complete m cid (if ok then {} else transferError)
    else
      match s.ns? p.guest c.nsid with
      | none => s.complete m cid invalidNamespace
      | some n =>
        match c.opcode with
        | 1 => s.writeData m cid data
        | 2 => (s.modCmd m cid fun c => { c with parts := n.parts c.slba c.nlb }).sendParts m cid
        | 8 =>
          match n.keySlot with
          | some _ => s.writeData m cid (zeros (4096 * c.nlb))
          | none => (s.modCmd m cid fun x => { x with parts := n.parts c.slba c.nlb }).sendParts m cid
        | 9 =>
          let rs := dsmRanges (c.f 40 1 + 1) data
          if !bitOf (c.f 44 4) 2 then s.complete m cid {}
          else if rs.any fun r => decide (n.size < r.1 + r.2) then s.complete m cid outOfRange
          else if n.readOnly then s.complete m cid readOnlyRange
          else (s.modCmd m cid fun x => { x with parts := rs.flatMap fun r => n.parts r.1 r.2 }).sendParts m cid
        | _ =>
          (s.modCmd m cid fun x =>
            { x with parts := n.extents.map fun e =>
                { remote := e.remote, port := e.port, conn := e.conn, backNsid := e.backNsid, lba := e.start } }).sendParts m cid

/-- Every page of a command's host buffer is known: data that the command takes is read from them. -/
def State.pagesKnown (s : State) (m cid : Nat) : State :=
  let p := s.pair m
  match p.cmd? cid with
  | none => s
  | some c =>
    let takes := decide (m < 4096) && (c.opcode == 1 || c.opcode == 9)
    if takes then
      if !(s.link (s.guest p.guest).link).up then s.complete m cid transferError
      else
        ((c.chunks (c.length false)).zipIdx).foldl
          (fun s (ch, i) => (s.guestRead p.guest ch.1 ch.2 (.dataIn m cid i)).1) s
    else s.proceed m cid []

/-- The second row of R417 has been passed: the rows below it decide, or the command's host data moves. -/
def State.judged (s : State) (m cid : Nat) : State :=
  match (s.pair m).cmd? cid with
  | none => s
  | some c =>
    match s.verdict m c with
    | some st => s.complete m cid st
    | none => s.pagesKnown m cid

/-- A command starts: its own fields decide its status, or its host pages are found (R417). The entries of a PRP list are read before the namespace
decides anything. -/
def State.startCmd (s : State) (m cid : Nat) : State :=
  match (s.pair m).cmd? cid with
  | none => s
  | some c =>
    let admin := decide (4096 ≤ m)
    if c.badFields admin then s.complete m cid invalidField
    else
      let need := c.pageCount (c.length admin)
      let s := s.modCmd m cid fun c => { c with started := true, need, pages := if need = 0 then [] else [c.prp1] }
      if need ≤ 1 then s.judged m cid
      else if need = 2 then
        if c.prp2 % 4096 ≠ 0 then s.complete m cid invalidField
        else (s.modCmd m cid fun c => { c with pages := [c.prp1, c.prp2] }).judged m cid
      else s.fetchList m cid c.prp2

/-- A PRP list arrives; the last entry of a full page that is not the last of the buffer names the next page of the list. -/
def State.listArrives (s : State) (m cid : Nat) (b : List Byte) : State :=
  match (s.pair m).cmd? cid with
  | none => s
  | some c =>
    let es := (List.range (b.length / 8)).map fun i => field b (8 * i) 8
    let more := decide (es.length < c.need - c.pages.length)
    let ps := if more then es.dropLast else es
    if ps.any (· % 4096 != 0) then s.complete m cid invalidField
    else
      let s := s.modCmd m cid fun c => { c with pages := c.pages ++ ps }
      if more then s.fetchList m cid (es.getLastD 0) else s.judged m cid

/-- A page of a command's host data arrives; with the last of them the command goes on. -/
def State.pageArrives (s : State) (m cid i : Nat) (b : List Byte) : State :=
  match (s.pair m).cmd? cid with
  | none => s
  | some c =>
    let got := fset c.got i b
    let s := s.modCmd m cid fun c => { c with got }
    if got.length = c.need then (s.proceed m cid (got.map (·.2)).flatten).pump else s

/-- A transfer of a command fails: the command ends with Data Transfer Error. -/
def State.pageFails (s : State) (m cid : Nat) : State :=
  match (s.pair m).cmd? cid with
  | none => s
  | some _ => s.complete m cid transferError

/-- The read of a PRP list fails: a row of R417 above that of the failed transfer still decides. -/
def State.listFails (s : State) (m cid : Nat) : State :=
  match (s.pair m).cmd? cid with
  | none => s
  | some c => s.complete m cid ((s.verdict m c).getD transferError)

/-- A command's row: the fetched, not yet started command of a pair with an identifier and an opcode. -/
def State.command (s : State) (m cid op : Nat) (admin : Bool) (f : Cmd → State → State) : State :=
  let p := s.pair m
  if admin != decide (4096 ≤ m) || p.state == 0 then s
  else
    match p.cmd? cid with
    | none => s
    | some c => if c.opcode = op ∧ !c.started then (f c s).pump else s

/-! ## The commands (R407) -/

def execGetLogPage (pair cid : Nat) (s : State) : Out := done (s.command pair cid 2 true fun _ s => s.startCmd pair cid)

def execIdentify (pair cid : Nat) (s : State) : Out := done (s.command pair cid 6 true fun _ s => s.startCmd pair cid)

/-- Abort completes with bit 0 of DW0 set and aborts nothing (R418). -/
def execAbort (pair cid : Nat) (s : State) : Out :=
  done (s.command pair cid 8 true fun _ s => s.complete pair cid {} 1)

def execSetFeatures (pair cid : Nat) (s : State) : Out :=
  done (s.command pair cid 9 true fun c s =>
    if c.badFields true then s.complete pair cid invalidField
    else if c.f 40 1 = 0x0B then
        (s.modGuest (s.pair pair).guest fun g => { g with asyncConfig := BitVec.ofNat 32 (c.f 44 4) }).complete pair cid {}
      else s.complete pair cid invalidField)

def execGetFeatures (pair cid : Nat) (s : State) : Out :=
  done (s.command pair cid 10 true fun c s =>
    let g := s.guest (s.pair pair).guest
    if c.badFields true then s.complete pair cid invalidField
    else if c.f 40 1 = 7 then
        let n := 4 * g.open.length - 1
        s.complete pair cid {} (BitVec.ofNat 32 (n + 2 ^ 16 * n))
      else if c.f 40 1 = 0x0B then s.complete pair cid {} g.asyncConfig
      else s.complete pair cid invalidField)

/-- An Asynchronous Event Request waits; AERL allows four. -/
def execAsynchronousEventRequest (pair cid : Nat) (s : State) : Out :=
  done (s.command pair cid 12 true fun c s =>
    let g := (s.pair pair).guest
    if c.badFields true then s.complete pair cid invalidField
    else if 4 ≤ (s.guest g).aers.length then s.complete pair cid asyncLimit
      else (s.modCmd pair cid fun c => { c with started := true }).modGuest g fun x => { x with aers := x.aers ++ [cid] })

def execFlush (pair cid : Nat) (s : State) : Out := done (s.command pair cid 0 false fun _ s => s.startCmd pair cid)
def execWrite (pair cid : Nat) (s : State) : Out := done (s.command pair cid 1 false fun _ s => s.startCmd pair cid)
def execRead (pair cid : Nat) (s : State) : Out := done (s.command pair cid 2 false fun _ s => s.startCmd pair cid)
def execWriteZeroes (pair cid : Nat) (s : State) : Out := done (s.command pair cid 8 false fun _ s => s.startCmd pair cid)
def execDatasetManagement (pair cid : Nat) (s : State) : Out := done (s.command pair cid 9 false fun _ s => s.startCmd pair cid)

/-- BACKING_COMPLETE: a part of a command ends at its drive or target. -/
def execBackingComplete (pair cid part sct sc : Nat) (dnr : Bool) (bytes : List Byte) (s : State) : Out :=
  let remote := match (s.pair pair).cmd? cid with
    | some c => match c.parts[part]? with | some p => p.remote | none => false
    | none => false
  done (s.partEnds pair cid part (backingStatus remote sct sc dnr) bytes).pump

/-- BACKING_TIMEOUT: a part at a drive reaches the 8 s limit. -/
def execBackingTimeout (pair cid part : Nat) (s : State) : Out :=
  match (s.pair pair).cmd? cid with
  | none => done s
  | some c =>
    match c.parts[part]? with
    | none => done s
    | some p =>
      if c.sent && !p.done && !p.remote then
        done ((s.modStorage fun t => { t with backingTimeouts := satInc t.backingTimeouts }).partEnds pair cid part internalError [])
      else done s

/-! ## Deletion (R419 to R421) -/

/-- R419 steps 1 and 2: a pair stops fetching, and commands that have not gone to their backing end. A deletion (R420) of a pair that is being reset
makes the reset a deletion. -/
def State.drainPair (s : State) (m seq : Nat) (reset : Bool) : State :=
  let p := s.pair m
  if p.state = 0 then s
  else if p.state = 4 then if reset then s else s.modPair m fun p => { p with reset := false, deleteSeq := if p.reset then seq else p.deleteSeq }
  else
    let gone := p.cmds.filter fun c => !c.sent
    let s := s.modPair m fun p => { p with state := 4, deleteSeq := seq, reset, fetching := false, aborted := gone.length }
    let s := gone.foldl (fun s c => s.complete m c.cid sqDeletion) (s.disown (·.ofFetch m))
    if 4096 ≤ m then s.modGuest p.guest fun g => { g with aers := [] } else s

/-- R419 steps 3 to 6: the commands at their backing have finished; what cannot be posted is discarded, and the pair is disabled or
reset. -/
def State.queueDeleteDone (s : State) (m : Nat) : State :=
  let p := s.pair m
  if p.state = 4 ∧ p.cmds = [] ∧ (p.toPost = [] ∨ p.cause ≠ 0 ∨ !p.cqFree) then
    let lost := p.discarded + p.toPost.length
    let loc := (s.guest p.guest).localPair m
    let s :=
      if p.reset then
        s.modPair m fun p =>
          { p with
            state := if 3 ≤ s.stage then 2 else 1, cause := 0, head := 0, tail := 0, cqTail := 0, cqHead := 0, phase := true, toPost := [],
            deleteSeq := 0, reset := false, aborted := 0, discarded := 0 }
      else s.modStorage fun t => { t with pairs := fdel t.pairs m }
    s.storageEvent (if p.reset then 1 else 0) 0 loc 0 p.aborted lost p.guest p.deleteSeq
  else s

/-- NS_DELETE_DONE: no command in execution names a namespace that is being deleted, and it is removed (R421). -/
def State.nsDeleteDone (s : State) (g nsid : Nat) : State :=
  match s.ns? g nsid with
  | none => s
  | some n =>
    match n.deleting with
    | none => s
    | some seq =>
      if s.storage.pairs.any fun e => e.2.guest == g && decide (e.1 < 4096) && e.2.cmds.any fun c => c.nsid == nsid && !c.nsGone then s
      else
        let s := s.modStorage fun t => { t with namespaces := fdel t.namespaces (nsKey g nsid) }
        let aers := (s.guest g).aers
        let s := s.modGuest g fun x =>
          { x with log04 := (x.log04.filter (· < nsid)) ++ nsid :: x.log04.filter (nsid < ·), aers := x.aers.drop 1 }
        let s := match aers with
          | cid :: _ => s.complete (adminPair g) cid {} 0x040002
          | [] => s
        s.storageEvent 3 0 0xFFFF nsid 0 0 g seq

def execNsDeleteDone (guest nsid : Nat) (s : State) : Out := done (s.nsDeleteDone guest nsid)

/-! ## Messages (R422, R423) -/

/-- An extent of a STORAGE_NS_CREATE. -/
def Req.extent (r : Req) (s : State) (i : Nat) : Extent :=
  let o := 16 + 32 * i
  { remote := r.f o 1 == 1, port := r.f (o + 1) 1,
    conn := if r.f o 1 = 1 then ((s.guest r.guest).moduleNo 64 (r.f (o + 2) 2)).getD 0 else 0,
    backNsid := r.f (o + 4) 4, start := r.f (o + 8) 8, count := r.f (o + 16) 8 }

/-- Two extents share a backing block. -/
def Extent.meets (a b : Extent) : Bool :=
  a.remote == b.remote && a.backNsid == b.backNsid && (if a.remote then a.conn == b.conn else a.port == b.port)
    && overlaps a.start a.count b.start b.count

/-- What the backing reports of an extent's namespace: whether its format is right, and its blocks (R422). -/
def Extent.backing (e : Extent) : Bool × Nat :=
  if e.remote then Config.targetNamespace e.conn e.backNsid else Config.driveNamespace e.port e.backNsid

def nsCreateBlock : ReqBlock :=
  { opcode := 0x0701, sender := .guest, states := [.ready, .degraded],
    bad := fun r s =>
      let n := r.f 4 1
      let es := (List.range n).map (r.extent s)
      r.f 0 4 == 0 || decide (256 < r.f 0 4) || n == 0 || decide (16 < n) || decide (1 < r.f 5 1) || r.resv 8 8
        || (List.range n).any (fun i =>
            let o := 16 + 32 * i
            let kind := r.f o 1
            decide (1 < kind) || (kind == 0 && (decide (7 < r.f (o + 1) 1) || r.f (o + 2) 2 != 0)) || (kind == 1 && r.f (o + 1) 1 != 0)
              || r.resv (o + 24) 8 || r.f (o + 16) 8 == 0
              || (kind == 1 && (s.guest? r.guest).isSome && ((s.guest r.guest).moduleNo 64 (r.f (o + 2) 2)).isNone))
        || es.any (fun e => !e.backing.1 || decide (e.backing.2 < e.start + e.count) || s.storage.namespaces.any fun x => x.2.extents.any e.meets)
        || (List.range n).any (fun i => (List.range i).any fun j => (r.extent s i).meets (r.extent s j))
        || (r.f 6 2 != 0xFFFF && (s.guest? r.guest).isSome && ((s.guest r.guest).moduleNo 8 (r.f 6 2)).isNone),
    conflict := fun r s =>
      (s.guest? r.guest).isNone || (s.ns? r.guest (r.f 0 4)).isSome
        || (List.range (r.f 4 1)).any fun i =>
            let e := r.extent s i
            if e.remote then (s.conn e.conn).state != .opened || (s.conn e.conn).guest != r.guest
            else (s.port e.port).state != .on || (s.port e.port).cxl,
    short := fun _ s => decide (4096 ≤ s.storage.namespaces.length),
    run := fun r s =>
      let es := (List.range (r.f 4 1)).map (r.extent s)
      let n : Namespace :=
        { extents := es, readOnly := r.f 5 1 == 1,
          keySlot := if r.f 6 2 = 0xFFFF then none else (s.guest r.guest).moduleNo 8 (r.f 6 2),
          unmapped := [(0, (es.map (·.count)).sum)] }
      { state := s.modStorage fun t => { t with namespaces := fset t.namespaces (nsKey r.guest (r.f 0 4)) n } } }

def nsDeleteBlock : ReqBlock :=
  { opcode := 0x0702, sender := .guest,
    bad := fun r _ => r.f 0 4 == 0 || decide (256 < r.f 0 4) || r.resv 4 4,
    conflict := fun r s => match s.ns? r.guest (r.f 0 4) with | some n => n.deleting.isSome | none => true,
    run := fun r s => deferred (s.modNs r.guest (r.f 0 4) fun n => { n with deleting := some r.seq }) }

/-- The pair that a message's LOCAL names. -/
def Req.pairNo (r : Req) (s : State) : Option Nat := (s.guest r.guest).pairNo r.guest (r.f 0 2)

def queueCreateBlock : ReqBlock :=
  { opcode := 0x0703, sender := .guest,
    bad := fun r s =>
      ((s.guest? r.guest).isSome && ((r.pairNo s).isNone || ((s.guest r.guest).moduleNo 8 (r.f 6 2)).isNone)) || decide (4096 < r.f 0 2)
        || decide (r.f 2 2 < 2) || decide (4096 < r.f 2 2) || decide (r.f 4 2 < r.f 2 2) || decide (4096 < r.f 4 2)
        || r.f 8 8 % 4096 != 0 || r.f 16 8 % 4096 != 0 || decide (1 < r.f 24 1) || r.resv 25 7,
    conflict := fun r s =>
      match s.guest? r.guest, r.pairNo s, (s.guest r.guest).moduleNo 8 (r.f 6 2) with
      | some g, some m, some v => (decide (m < 4096) && !g.holdsNo 4 m) || !g.holdsNo 8 v || (s.pair m).state != 0
      | _, _, _ => true,
    run := fun r s =>
      match r.pairNo s with
      | none => { state := s }
      | some m =>
        { state := s.modPair m fun _ =>
            { state := if 3 ≤ s.stage then 2 else 1, guest := r.guest, sqBase := r.f 8 8, cqBase := r.f 16 8, sqSize := r.f 2 2,
              cqSize := r.f 4 2, vector := ((s.guest r.guest).moduleNo 8 (r.f 6 2)).getD 0, ien := r.f 24 1 == 1 } } }

def queueDeleteBlock : ReqBlock :=
  { opcode := 0x0704, sender := .guest,
    bad := fun r s =>
      ((s.guest? r.guest).isSome && (r.pairNo s).isNone) || decide (4096 < r.f 0 2) || decide (1 < r.f 2 1) || r.resv 3 5,
    conflict := fun r s =>
      match (s.guest? r.guest).bind fun _ => r.pairNo s with
      | some m => (s.pair m).state == 0 || (s.pair m).state == 4
      | none => true,
    run := fun r s =>
      match r.pairNo s with
      | some m => deferred (s.drainPair m r.seq (r.f 2 1 == 1))
      | none => deferred s }

def execStorageNsCreate (slot : Nat) (s : State) : Out := done (serve nsCreateBlock slot s)
def execStorageNsDelete (slot : Nat) (s : State) : Out := done (serve nsDeleteBlock slot s)
def execStorageQueueCreate (slot : Nat) (s : State) : Out := done (serve queueCreateBlock slot s)
def execStorageQueueDelete (slot : Nat) (s : State) : Out := done (serve queueDeleteBlock slot s)

end Sys2Proof.Machine
end

