-- ==== Sys2Proof/Machine/PorterOps.lean ====
section
/-! DEFINITION. The Porter (chapter 16): image and shard saves, stripes and parity, restores, drains, and the checkpoint messages. -/

namespace Sys2Proof.Machine

def unitSize : Nat := 0x400000

/-! ## Region tables (R524, R536) -/

/-- A field of an 80-byte region-table entry. -/
def entryBase (e : List Byte) : Nat := field e 0 8
def entryLen (e : List Byte) : Nat := field e 8 8
def entryDims (e : List Byte) : Nat := field e 21 1
def entryDim (e : List Byte) (d : Nat) : Nat × Nat × Nat := (field e (32 + 12 * d) 4, field e (36 + 12 * d) 4, field e (40 + 12 * d) 4)

/-- The entries of a region table. -/
def State.entries (s : State) (addr count : Nat) : List (List Byte) := (List.range count).map fun i => s.memBytes (addr + 80 * i) 80

/-- COUNT of each dimension. -/
def entryCounts (e : List Byte) : List Nat := (List.range (entryDims e)).map fun d => (entryDim e d).2.2

/-- R524: whether an entry is well formed. -/
def entryOk (e : List Byte) : Bool :=
  let elem := field e 20 1
  decide (1 ≤ elem) && decide (elem ≤ 16) && decide (1 ≤ entryDims e) && decide (entryDims e ≤ 4) && field e 22 2 == 0
    && decide (1 ≤ field e 24 4) && decide (field e 28 4 < field e 24 4)
    && (List.range (entryDims e)).all (fun d => decide ((entryDim e d).2.1 + (entryDim e d).2.2 ≤ (entryDim e d).1))
    && entryLen e == (entryCounts e).foldl (· * ·) elem

/-- The coordinates of element n of a block, the last dimension fastest, in the tensor. -/
def elemCoords (e : List Byte) (n : Nat) : List Nat :=
  let cs := entryCounts e
  (List.range cs.length).map fun d => n / ((cs.drop (d + 1)).foldl (· * ·) 1) % cs.getD d 1 + (entryDim e d).2.1

/-- The number, in a saved block, of the element at tensor coordinates, if the block holds it (R525). -/
def elemIndex (e : List Byte) (xs : List Nat) : Option Nat :=
  let cs := entryCounts e
  if xs.zipIdx.all fun (x, d) => decide ((entryDim e d).2.1 ≤ x) && decide (x < (entryDim e d).2.1 + cs.getD d 0) then
    some (xs.zipIdx.foldl (fun n (x, d) => n * cs.getD d 1 + (x - (entryDim e d).2.1)) 0)
  else none

/-- Whether two blocks are of one tensor (R525). -/
def sameTensor (a b : List Byte) : Bool :=
  field a 16 4 == field b 16 4 && field a 20 1 == field b 20 1 && entryDims a == entryDims b
    && (List.range (entryDims a)).all fun d => (entryDim a d).1 == (entryDim b d).1

/-! ## Layouts (R536) -/

/-- A layout as CKPT_CONFIG's bytes from an offset on give it, less SHAPES. -/
def Req.layout (r : Req) (o : Nat) : Layout :=
  { modules := r.f o 4, rank := r.f (o + 4) 4, quietMs := r.f (o + 8) 4, group := r.f (o + 12) 8, area := r.f (o + 20) 8,
    areaLen := r.f (o + 28) 8, image := r.f (o + 36) 8, imageLen := r.f (o + 44) 8, peers := r.f (o + 52) 8, regions := r.f (o + 60) 8,
    regionCount := r.f (o + 68) 2 }

/-- Bytes of an image area for a number of tiles (R536). -/
def imageBytes (tiles : Nat) : Nat := 1792 * 1024 * tiles

def inCellar (a n : Nat) : Bool := match mapAddr a, mapAddr (a + n - 1) with | .cellar p _, .cellar q _ => p == q | _, _ => false

/-- R536: whether a layout is refused; `tiles` is the job's, where a job is named. -/
def State.badLayout (s : State) (g : Nat) (l : Layout) (tiles : Option Nat) : Bool :=
  let es := s.entries l.regions l.regionCount
  l.modules == 0 || decide (65536 < l.modules) || decide (l.modules ≤ l.rank) || l.quietMs == 0 || decide (10000 < l.quietMs)
    || l.area % unitSize != 0 || l.areaLen % unitSize != 0 || decide (l.areaLen < 64 * 1048576) || !inCellar l.area l.areaLen
    || !s.guestMem g l.area l.areaLen
    || (l.imageLen != 0 && (l.image % 65536 != 0 || !inStack l.image l.imageLen || !s.guestMem g l.image l.imageLen))
    || (match tiles with | some n => l.imageLen != 0 && l.imageLen != imageBytes n | none => false)
    || !s.guestMem g l.peers (16 * l.modules)
    || l.regionCount == 0 || decide (4096 < l.regionCount) || !s.guestMem g l.regions (80 * l.regionCount)
    || es.any fun e => !entryOk e || !s.guestMem g (entryBase e) (entryLen e)
        || overlaps (entryBase e) (entryLen e) l.area l.areaLen || overlaps (entryBase e) (entryLen e) l.image l.imageLen

/-! ## Events, halts and quiet (R508, R509, R216) -/

/-- CKPT_EVENT. -/
def State.ckptEvent (s : State) (kind cause job step units aside guest seq : Nat) (ok : Bool) : State :=
  s.raise 0x0B80 (leBytes 1 kind ++ leBytes 1 cause ++ [0, 0] ++ leBytes 4 job ++ leBytes 4 step ++ leBytes 4 units ++ leBytes 4 aside
    ++ zeros 4) guest seq (if ok then 0 else Status.faulted.code)

/-- The tiles that an image save halts: those of the job's rooms and lent rows. -/
def State.saveTiles (s : State) (j : Job) : List Nat :=
  let rooms := ((j.coords.filter (·.2 < 64)).map fun c => roomOf c.1 c.2).dedup
  ((rooms.flatMap roomTiles) ++ j.coords.filter (64 ≤ ·.2)).map fun c => s.phys c.1 c.2

def State.unhaltSave (s : State) (j : Nat) (x : Job) : State := (s.saveTiles x).foldl (fun s p => s.unhalt p (.porter j)) s

/-- A save ends with kind 5 (R509, R522, R535). -/
def State.endSave (s : State) (j cause : Nat) : State :=
  match fget s.jobs j with
  | none => s
  | some x =>
    match x.save with
    | none => s
    | some v =>
      let s := if v.kind = 0 then s.unhaltSave j x else s
      let s := (s.modJob j fun x => { x with save := none }).settleWaits
      let s := s.modGuest x.guest fun g => { g with barrierWait := false }
      let s := { s with porter := { s.porter with savesEnded := satInc s.porter.savesEnded } }
      s.ckptEvent 5 cause j v.step v.units 0 x.guest v.seq false

/-- No foundation reply to a tile is outstanding: no request of it and no reply to it is under way. -/
def State.repliesIn (s : State) (p : Nat) : Bool :=
  s.routers.all fun r => r.2.bufs.all fun b => b.2.all fun k =>
    !((k.kind == 8 && s.phys k.dstX k.dstY == p) || (k.kind == 6 && s.phys k.srcX k.srcY == p))

/-- R216: the local ports of a tile hold no unacknowledged packet, no foundation reply to it is outstanding, and nothing for it waits parked. -/
def State.meshQuiet (s : State) (p : Nat) : Bool :=
  let t := s.tile p
  t.outq.isEmpty && t.unacked.all (·.2 == 0) && s.repliesIn p && s.clusters.all fun e => e.2.parked.all fun k => s.phys k.dstX k.dstY != p

/-- R508 step 2: whether a job is quiet. -/
def State.jobQuiet (s : State) (x : Job) : Bool :=
  (s.saveTiles x).all (fun p => (s.tile p).atRest && s.meshQuiet p) && s.connsQuiet x.guest
    && s.storage.pairs.all fun e => e.2.guest != x.guest || (e.2.cmds.isEmpty && e.2.toPost.isEmpty && !e.2.fetching)

/-- Whether a retirement halts a tile that an image save halts: the capture waits for it (R149, R535). -/
def State.retires (s : State) (x : Job) : Bool :=
  (s.saveTiles x).any fun p => (s.tile p).halts.any fun h => match h with | .retirement _ => true | _ => false

/-- R508 steps 3 and 4: a capture that is to begin does, once no retirement holds it up: every page of every saved region is marked, with the bytes
it holds (R514). -/
def State.beginCapture (s : State) (j : Nat) : State :=
  match fget s.jobs j with
  | none => s
  | some x =>
    match x.save, x.config with
    | some v, some l =>
      if !v.capturing && !s.retires x then
        let rs := s.regionRanges l
        s.modJob j fun x => { x with save := some { v with
          wanted := true, capturing := true, marks := regionPages rs, data := rs.map fun r => s.memBytes r.1 r.2, step := x.steps } }
      else s.modJob j fun x => { x with save := some { v with wanted := true } }
    | _, _ => s

/-- CKPT_QUIET: a job that an image save halts is quiet; with one module its capture begins at once. -/
def State.ckptQuiet (s : State) (j : Nat) : State :=
  match fget s.jobs j with
  | none => s
  | some x =>
    match x.save, x.config with
    | some v, some l =>
      if v.kind = 0 ∧ !v.quiet ∧ s.jobQuiet x ∧ s.coreUp steward then
        let s := s.modJob j fun x => { x with save := some { v with quiet := true } }
        let s := s.ckptEvent 0 0 j x.steps 0 0 x.guest v.seq true
        if l.modules = 1 then s.beginCapture j else s
      else s
    | _, _ => s

/-- CKPT_QUIET_TIMEOUT: QUIET_MS has passed without quiet. -/
def State.ckptQuietTimeout (s : State) (j : Nat) : State :=
  match (fget s.jobs j).bind (·.save) with
  | some v => if v.kind = 0 ∧ !v.quiet then s.endSave j 1 else s
  | none => s

/-! ## Stripes and parity (R517 to R519) -/

/-- D, and the redundant units of each stripe. -/
def stripeShape (m : Nat) : Nat × Nat :=
  if m ≤ 2 then (1, 0) else if m = 3 then (1, 1) else if m = 4 then (1, 2) else if m ≤ 32 then (m - 3, 2) else (30, 2)

/-- The rank that holds a position of a stripe of rank r. -/
def unitRank (m r s j : Nat) : Nat := (r + 1 + (s + j) % (m - 1)) % m

/-- The product in GF(2^8) with the polynomial of R518. -/
def gfMul (a b : Byte) : Byte :=
  ((List.range 8).foldl (fun (x : Byte × Byte) i =>
    (if b.getLsbD i then x.1 ^^^ x.2 else x.1, if x.2.getLsbD 7 then (x.2 <<< 1) ^^^ 0x1D else x.2 <<< 1)) (0, a)).1

/-- g^j for g = 2. -/
def gfPow (j : Nat) : Byte := (List.range j).foldl (fun b _ => gfMul b 2) 1

/-- P and Q of the data units of a stripe. -/
def parityP (us : List (List Byte)) : List Byte := (List.range unitSize).map fun i => us.foldl (fun b u => b ^^^ u.getD i 0) 0
def parityQ (us : List (List Byte)) : List Byte :=
  (List.range unitSize).map fun i => us.zipIdx.foldl (fun b (u, j) => b ^^^ gfMul (gfPow j) (u.getD i 0)) 0

/-- The redundant units of a stripe. -/
def redundancy (m : Nat) (us : List (List Byte)) : List (List Byte) :=
  match (stripeShape m).2 with
  | 0 => []
  | 1 => us.take 1
  | _ => if m = 4 then us.take 1 ++ us.take 1 else [parityP us, parityQ us]

/-! ## Packing (R515, R517, R520 to R523) -/

/-- The catalogue entry of a unit: GROUP, kind, position, D_s, step, source rank and stripe, and the digest in its last 16 bytes (R520; the places are
the model's, notes/assumptions/105.md). -/
def catEntry (l : Layout) (kind step : Nat) (u : CkptUnit) : List Byte :=
  leBytes 8 l.group ++ leBytes 1 kind ++ leBytes 1 u.position ++ leBytes 1 u.data ++ [0] ++ leBytes 4 step ++ leBytes 4 l.rank ++ leBytes 4 u.stripe
    ++ zeros 24 ++ u.digest

/-- What an entry of a catalogue says of its unit: GROUP, kind and step; none for a free slot. -/
def listedAs (e : List Byte) : Option (Nat × Nat × Nat) :=
  if (slice e 48 16).all (· == 0) then none else some (field e 0 8, field e 8 1, field e 12 4)

/-- What the map unit holds: the region table, and for each region of more than one replica a reference record, which is its entry of the table: that
names its TENSOR, its ranges and R (R515, R517, notes/assumptions/105.md). -/
def mapBytes (es : List (List Byte)) : List Byte := es.flatten ++ (es.filter fun e => decide (1 < field e 24 4)).flatten

/-- A region's units that this replica writes: the region, the unit's number, and its bytes. -/
def regionUnits (i : Nat) (e data : List Byte) : List (Option (Nat × Nat) × List Byte) :=
  ((List.range (ceilDiv (entryLen e) unitSize)).filter fun u => u % field e 24 4 == field e 28 4).map fun u =>
    (some (i, u), (data.drop (u * unitSize)).take unitSize)

/-- What a rank writes, in order: the map unit, the image units, and the region units. -/
def packUnits (map image : List Byte) (es data : List (List Byte)) : List (Option (Nat × Nat) × List Byte) :=
  (none, map) :: (chunks unitSize image).map (fun u => (none, u)) ++ (es.zip data).zipIdx.flatMap fun (x, i) => regionUnits i x.1 x.2

/-- The unit slots of an area, and the bytes of its catalogue (R520). -/
def catalogueUnits (len : Nat) : Nat := ceilDiv (64 * (len / unitSize)) unitSize
def areaSlots (len : Nat) : Nat := len / unitSize - catalogueUnits len
def slotAddr (l : Layout) (slot : Nat) : Nat := l.area + unitSize * (catalogueUnits l.areaLen + slot)

/-- Slots of an area in use. -/
def usedSlots (cs : List Checkpoint) (area : Nat) : List Nat := (cs.filter (·.layout.area == area)).flatMap fun c => c.units.map (·.slot)

/-- The oldest complete checkpoint of an area that R522 lets the Porter free: not the newest of its kind. -/
def freeable (cs : List Checkpoint) (area : Nat) : Option Checkpoint :=
  let mine := cs.filter fun c => c.layout.area == area && c.complete
  mine.find? fun c => (mine.filter (·.kind == c.kind)).getLast? != some c

/-- Checkpoints with as many of the oldest freed as n slots need. -/
def makeRoom : Nat → List Checkpoint → Layout → Nat → List Checkpoint
  | 0, cs, _, _ => cs
  | f + 1, cs, l, n =>
    if n + (usedSlots cs l.area).length ≤ areaSlots l.areaLen then cs
    else match freeable cs l.area with
      | some c => makeRoom f (cs.erase c) l n
      | none => cs

/-- The catalogue entry of a slot of an area. -/
def State.slotEntry (s : State) (l : Layout) (slot : Nat) : List Byte := s.memBytes (l.area + 64 * slot) 64

/-- The slots that R522 frees have no entry any more. -/
def State.clearEntries (s : State) (cs : List Checkpoint) : State :=
  cs.foldl (fun s c => c.units.foldl (fun s u => s.memWrite (c.layout.area + 64 * u.slot) (zeros 64) .porter) s) s

/-- A checkpoint's units go into this module's own area (one module), each before its entry. -/
def State.writeUnits (s : State) (c : Checkpoint) (us : List (Option (Nat × Nat) × List Byte)) : Option State :=
  let l := c.layout
  let cs := makeRoom s.porter.checkpoints.length s.porter.checkpoints l us.length
  let used := usedSlots cs l.area
  let free := (List.range (areaSlots l.areaLen)).filter fun k => !used.contains k
  if free.length < us.length then none
  else
    let recs := (us.zip free).zipIdx.map fun (x, i) =>
      ({ slot := x.2, stripe := i, position := 0, region := x.1.1, length := x.1.2.length, digest := (sha256 x.1.2).take 16 } : CkptUnit)
    let s := s.clearEntries (s.porter.checkpoints.filter fun k => !cs.contains k)
    let s := ((us.map (·.2)).zip recs).foldl (fun s x =>
      (s.memWrite (slotAddr l x.2.slot) x.1 .porter).memWrite (l.area + 64 * x.2.slot) (catEntry l c.kind c.step x.2) .porter) s
    some { s with porter := { s.porter with checkpoints := cs ++ [{ c with units := recs, written := us.length }] } }

/-- A unit and its catalogue entry go to a rank of the group: messages of the Porter in the send ring of the connection that the peer table names
(R521). Which slot of the other area they take is open (notes/assumptions/105.md). -/
def State.porterSend (s : State) (g j : Nat) (l : Layout) (rank : Nat) (bytes entry : List Byte) : State :=
  let e := s.memBytes (l.peers + 16 * rank) 16
  match (s.guest g).moduleNo 64 (field e 0 2) with
  | none => s
  | some cn =>
    let slot := (Config.freeWord s.fresh).toNat % (max 1 (areaSlots l.areaLen))
    let a := field e 8 8 + unitSize * (catalogueUnits l.areaLen + slot)
    let s := { s with fresh := s.fresh + 1 }
    let wr := fun (a : Nat) (b : List Byte) =>
      ({ op := 2, length := b.length, remoteKey := BitVec.ofNat 32 (field e 4 4), remoteAddr := a, job := some j, data := some b } : WorkRequest)
    let ms := (chunks 0x200000 bytes).zipIdx.map (fun (b, i) => wr (a + 0x200000 * i) b) ++ [wr (field e 8 8 + 64 * slot) entry]
    s.modConn cn fun c => { c with sends := c.sends ++ ms }

/-- The checkpoint that a save of a job makes, less its units. -/
def State.checkpointOf (s : State) (j : Nat) (x : Job) (v : Save) (l : Layout) (old : Option Checkpoint) : Checkpoint :=
  let c : Checkpoint :=
    { guest := x.guest, kind := v.kind, step := v.step, layout := l, rooms := (s.guest x.guest).rooms,
      entries := s.entries l.regions l.regionCount, data := v.data, jobNo := j, job := some x }
  match old with
  | some o => { c with tiles := o.tiles, conns := o.conns, pairs := o.pairs, ledgers := o.ledgers }
  | none => c

/-- R508 step 5's copy of a job's state: kept, not complete, until the save is. -/
def State.captureState (s : State) (x : Job) : Checkpoint :=
  { guest := x.guest, kind := 0, step := x.steps, layout := {},
    tiles := x.coords.foldl (fun m c => fset m (logicalIndex c.1 c.2) (s.tile (s.phys c.1 c.2))) [],
    conns := s.net.conns.filter (·.2.guest == x.guest), pairs := s.storage.pairs.filter (·.2.guest == x.guest),
    ledgers := s.ledgers.live.filter (·.2.guest == x.guest) }

/-- A job's open checkpoint: the captured state of the image save in progress. -/
def State.openCheckpoint (s : State) (j : Nat) : Option Checkpoint := s.porter.checkpoints.find? fun c => c.jobNo == j && !c.complete && c.units.isEmpty

def State.dropOpen (s : State) (j : Nat) : State :=
  { s with porter := { s.porter with checkpoints := s.porter.checkpoints.filter fun c => !(c.jobNo == j && !c.complete && c.units.isEmpty) } }

/-- A capture that a retirement has put off begins once that is over. -/
def State.lateCapture (s : State) (j : Nat) : State :=
  match (fget s.jobs j).bind (·.save) with
  | some v => if v.wanted ∧ !v.capturing ∧ s.coreUp steward then s.beginCapture j else s
  | none => s

/-- CKPT_CAPTURED: the tile images and the engine state are copied into the image area, the halts are withdrawn, and the
background copy begins. -/
def State.ckptCaptured (s : State) (j : Nat) : State :=
  let s := s.lateCapture j
  match fget s.jobs j with
  | none => s
  | some x =>
    match x.save, x.config with
    | some v, some l =>
      if v.kind = 0 ∧ v.capturing ∧ !v.copying ∧ !s.retires x ∧ s.coreUp steward then
        let c := { s.captureState x with jobNo := j }
        let s := (s.saveTiles x).foldl State.imageFinds s
        let (img, s) := s.freeBytes l.imageLen
        let s := s.memWrite l.image img .porter
        let s := s.dropOpen j
        let s := { s with porter := { s.porter with checkpoints := s.porter.checkpoints ++ [c] } }
        let s := s.modJob j fun x => { x with save := some { v with copying := true } }
        let s := s.unhaltSave j x
        s.ckptEvent 1 0 j v.step 0 0 x.guest v.seq true
      else s
    | _, _ => s

/-- The background copy has copied every page: the units are packed and written, to this module's area or to other ranks'. -/
def State.packSave (s : State) (j : Nat) : State :=
  match fget s.jobs j with
  | none => s
  | some x =>
    match x.save, x.config with
    | some v, some l =>
      if v.copying ∧ v.marks = [] ∧ !v.packed ∧ s.porter.waits.all (·.who != .porter) then
        let c := s.checkpointOf j x v l (s.openCheckpoint j)
        let head := mapBytes c.entries
        let (tail, s) := s.freeBytes (unitSize - head.length)
        let map := head ++ tail
        let img := if v.kind = 0 then s.memBytes l.image l.imageLen else []
        let us := packUnits map img c.entries c.data
        let s := s.dropOpen j
        if l.modules = 1 then
          match s.writeUnits c us with
          | some s => s.modJob j fun x => { x with save := some { v with packed := true, units := us.length } }
          | none => s.endSave j 2
        else
          let d := (stripeShape l.modules).1
          let stripes := chunks d (us.map (·.2))
          let all := stripes.map fun st => st ++ redundancy l.modules st
          let s := all.zipIdx.foldl (fun s (st, k) =>
            let n := ((stripes[k]?).getD []).length
            st.zipIdx.foldl (fun s (u, i) => s.porterSend x.guest j l (unitRank l.modules l.rank k i) u
              (catEntry l v.kind v.step { slot := 0, stripe := k, position := i, data := n, length := u.length, digest := (sha256 u).take 16 })) s) s
          let n := (all.map (·.length)).sum
          let s := { s with porter := { s.porter with checkpoints := s.porter.checkpoints ++ [{ c with written := n }] } }
          s.modJob j fun x => { x with save := some { v with packed := true, units := n } }
      else s
    | _, _ => s

/-- A page of a save is copied and its mark cleared; the writes that waited for it proceed (R512). -/
def State.copyPage (s : State) (j page : Nat) : State :=
  match (fget s.jobs j).bind (·.save) with
  | some v =>
    if v.marks.contains page then
      ((s.modJob j fun x => { x with save := some { v with marks := v.marks.filter (· != page) } }).settleWaits).packSave j
    else s
  | none => s

/-- Every page that a waiting write waits for is copied ahead, and every marked page of a range, so that the writes proceed and a write of the range need
not wait (R512, R513). -/
def State.serveAheads (s : State) (a n : Nat) : State :=
  let pages := s.porter.waits.flatMap (fun w => pagesOf w.addr w.data.length) ++ pagesOf a n
  s.jobs.foldl (fun s e => pages.foldl (fun s p => s.copyPage e.1 p) s) s

/-- CKPT_PAGE_COPY: the background copy takes the lowest marked page; it pauses from stage S2 on (R511, R535). -/
def State.pageCopy (s : State) (j : Nat) : State :=
  match (fget s.jobs j).bind (·.save) with
  | some v =>
    match v.marks.min? with
    | some p => if v.copying ∧ s.stage < 2 then s.copyPage j p else s
    | none => if s.stage < 2 then s.packSave j else s
  | none => s

/-- COPY_AHEAD: the Porter copies, ahead of the background copy, a marked page that a write waits for; it serves the four oldest copy-aheads at a
time (R512, R513). -/
def execCopyAhead (job page : Nat) (s : State) : Out :=
  done (if (s.porter.aheads.take 4).contains page then s.copyPage job page else s)
def execCkptPageCopy (job : Nat) (s : State) : Out := done (s.pageCopy job)
def execCkptQuiet (job : Nat) (s : State) : Out := done (s.ckptQuiet job)
def execCkptQuietTimeout (job : Nat) (s : State) : Out := done (s.ckptQuietTimeout job)
def execCkptCaptured (job : Nat) (s : State) : Out := done (s.ckptCaptured job)

/-- Messages of a job's save that have not been acknowledged. -/
def State.porterPending (s : State) (j : Nat) : Bool :=
  s.net.conns.any fun e => e.2.sends.any (fun w => w.job == some j && w.data.isSome) || e.2.flights.any fun f => f.wr.job == some j && f.wr.data.isSome

/-- Whether a connection that a save of a group needs is open. -/
def State.groupReach (s : State) (g : Nat) (l : Layout) : Bool :=
  ((List.range l.modules).filter (· != l.rank)).all fun r =>
    match (s.guest g).moduleNo 64 (leNat (s.memBytes (l.peers + 16 * r) 2)) with
    | some cn => (s.conn cn).state == .opened
    | none => false

/-- CKPT_SAVE_COMPLETE: every unit and entry of this rank is written (R523); a shard save with STOP ends its job (R531). -/
def State.saveComplete (s : State) (j : Nat) : State :=
  match fget s.jobs j with
  | none => s
  | some x =>
    match x.save, x.config with
    | some v, some l =>
      if v.packed ∧ s.stage < 2 then
        if 1 < l.modules ∧ !s.groupReach x.guest l then s.endSave j 5
        else if s.porterPending j || s.porter.waits.any (·.who == .porter) then s
        else
          let s := { s with porter := { s.porter with checkpoints := s.porter.checkpoints.map fun (c : Checkpoint) => if c.jobNo = j then { c with complete := true } else c } }
          let s := s.modJob j fun x => { x with save := none }
          let s := s.ckptEvent 2 0 j v.step v.units 0 x.guest v.seq true
          if v.stop then s.endJob j 4 0 else s
      else s
    | _, _ => s

def execCkptSaveComplete (job : Nat) (s : State) : Out := done (s.saveComplete job)

/-! ## Restore (R525 to R530) -/

/-- Whether the catalogue lists a checkpoint's unit and its bytes still have the digest of the entry (R520). -/
def State.unitOk (s : State) (c : Checkpoint) (u : CkptUnit) : Bool :=
  s.slotEntry c.layout u.slot == catEntry c.layout c.kind c.step u
    && (sha256 (s.memBytes (slotAddr c.layout u.slot) u.length)).take 16 == u.digest

/-- A byte of a saved region: from the unit that holds it in this module's area, or, with other modules in the group, from the unit that this
rank wrote; what another replica wrote comes from that replica (R515). -/
def State.savedByte (s : State) (c : Checkpoint) (i o : Nat) : Option Byte :=
  if 1 < c.layout.modules then
    let e := (c.entries[i]?).getD []
    if o / unitSize % field e 24 4 = field e 28 4 then (c.data[i]?).bind fun d => d[o]? else none
  else
    match c.units.find? (·.region == some (i, o / unitSize)) with
    | some u => if s.unitOk c u then some (s.memByte (slotAddr c.layout u.slot + o % unitSize)) else none
    | none => none

/-- Byte k of an element of a restoring block, from the saved block that holds the element. -/
def State.elemByte (s : State) (c : Checkpoint) (e : List Byte) (n k : Nat) : Option Byte :=
  c.entries.zipIdx.findSome? fun (b, i) =>
    if sameTensor e b then
      match elemIndex b (elemCoords e n) with
      | some m => s.savedByte c i (m * field e 20 1 + k)
      | none => none
    else none

/-- The bytes of a restoring block; none where an element cannot be filled. -/
def State.blockBytes (s : State) (c : Checkpoint) (e : List Byte) : List (Option Byte) :=
  (List.range (entryLen e)).map fun o => s.elemByte c e (o / field e 20 1) (o % field e 20 1)

/-- R526: whether a step's checkpoint is complete for a restore with a region table. -/
def State.stepComplete (s : State) (c : Checkpoint) (es : List (List Byte)) : Bool :=
  c.complete && (if c.layout.modules = 1 then
      c.units.all (s.unitOk c) && (c.kind == 0 || es.all fun e => (s.blockBytes c e).all (·.isSome))
    else (Config.freeWord s.fresh).getLsbD 0)

/-- Bytes with those that no saved block of this module holds left free. -/
def State.fill (s : State) (l : List (Option Byte)) : List Byte × State :=
  let (f, s) := s.freeBytes l.length
  (List.zipWith (fun o b => o.getD b) l f, s)

/-- The restoring regions of a shard restore are written (R530). -/
def State.writeShard (s : State) (c : Checkpoint) (es : List (List Byte)) : State :=
  es.foldl (fun s e =>
    let (b, s) := s.fill (s.blockBytes c e)
    s.memWrite (entryBase e) b .porter) s

/-- The checkpoint that the catalogues of the other ranks list, with what its units hold: they are read by courier READ, and what they hold is free. -/
opaque peerCheckpoint : Nat → Option Checkpoint

/-- The checkpoints that a restore considers: those of its GROUP and kind that this module has made in the area, newest first, and among them, for more
than one module, the one that the peers hold, which another module or another arrangement may have made (R506, R526). -/
def State.candidates (s : State) (g kind : Nat) (l : Layout) : List Checkpoint :=
  let of := fun (c : Checkpoint) => c.guest == g && c.layout.group == l.group && c.kind == kind && c.complete
  let own := (s.porter.checkpoints.filter fun c => of c && c.layout.area == l.area).reverse
  match (if 1 < l.modules then (peerCheckpoint s.fresh).filter of else none) with
  | some c => (own.takeWhile fun k => decide (c.step ≤ k.step)) ++ c :: own.dropWhile fun k => decide (c.step ≤ k.step)
  | none => own

/-- The catalogue entries of an area that list a unit of a GROUP and kind of another step than the one chosen (R527). -/
def State.otherSteps (s : State) (l : Layout) (kind step : Nat) : List (List Byte) :=
  ((List.range (areaSlots l.areaLen)).map (s.slotEntry l)).filter fun e =>
    match listedAs e with | some x => x.1 == l.group && x.2.1 == kind && x.2.2 != step | none => false

/-- The catalogue entries of the units that a restore sets aside, as far as this module's area lists them. -/
def State.asideEntries (s : State) (l : Layout) (all : List Checkpoint) (c : Checkpoint) : List (List Byte) :=
  if 1 < l.modules then s.otherSteps l c.kind c.step
  else all.flatMap fun k => (k.units.filter fun u => k != c || !s.unitOk k u).map (catEntry k.layout k.kind k.step)

/-- R507: a ledger as an image restores it: its header, and its runs where the page of its directory lies in a saved region; elsewhere those that it has
now. -/
def Ledger.restored (saved : Ledger) (es : List (List Byte)) (now : FMap Run) : Ledger :=
  { saved with runs := if es.any fun e => decide (entryBase e ≤ saved.dir) && decide (saved.dir + 65536 ≤ entryBase e + entryLen e) then saved.runs else now }

/-- R529: a job is made anew from an image: its tiles, its guest's connections, queue pairs and ledgers, and its regions. -/
def State.restoreImage (s : State) (c : Checkpoint) (l : Layout) : Nat × State :=
  match c.job with
  | none => (0, s)
  | some x =>
    let (n, s) := s.addJob { x with live := true, save := none, ending := none, config := some l, steps := c.step, groups := x.groups }
    let s := c.tiles.foldl (fun s e =>
      let p := s.phys (e.1 % 64) (e.1 / 64)
      let t := e.2
      s.setTile p
        { t with
          halts := (s.tile p).halts, atRest := (s.tile p).atRest, latent := [], soft := [], regErrs := [], softCount := (s.tile p).softCount,
          ctxs := fmap t.ctxs fun _ k => if k.assigned && k.job == c.jobNo then { k with job := n } else k.released }) s
    let s := c.conns.foldl (fun s e => s.modConn e.1 fun _ =>
      { e.2 with sends := e.2.sends.map fun w => if w.job = some c.jobNo then { w with job := some n } else w }) s
    let s := c.pairs.foldl (fun s e => s.modPair e.1 fun _ => { e.2 with state := if e.2.state = 2 then 1 else e.2.state }) s
    let s := c.ledgers.foldl (fun s e =>
      match s.ledger? e.1 with
      | some k => if k.guest = c.guest then s.modLedger e.1 fun _ => e.2.restored c.entries k.runs else s
      | none => s.modLedgers fun m => { m with live := fset m.live e.1 (e.2.restored c.entries []) }) s
    let s := c.entries.zipIdx.foldl (fun s (e, i) =>
      let (b, s) := s.fill ((List.range (entryLen e)).map (s.savedByte c i))
      s.memWrite (entryBase e) b .porter) s
    (n, s)

/-- R538: whether a layout differs from the checkpoint's map unit. -/
def State.shapeDiffers (s : State) (c : Checkpoint) (l : Layout) : Bool :=
  c.layout.modules != l.modules || c.layout.rank != l.rank || c.rooms != (s.guest c.guest).rooms
    || (c.entries.map fun e => (entryBase e, entryLen e)) != s.regionRanges l

/-- R529: whether an image would reopen a connection less than 16 ms after its job last ran on it, or after it closed (notes/assumptions/92.md). -/
def State.ranLately (s : State) (c : Checkpoint) : Bool :=
  let ran := match fget s.jobs c.jobNo with
    | some x => x.live || (match x.endedAt with | some t => decide (s.firm.aon < t + reopenCycles) | none => false)
    | none => false
  c.conns.any fun e => e.2.state == .opened && (ran || s.closedLately e.1)

/-- CKPT_RESTORE_DONE: a guest's restore chooses its step and writes what it restores, or reports why it cannot. The next job that the guest launches
after a shard restore adds the checkpoint's steps to its own (R507, notes/assumptions/105.md). An image finds no entry where every
job of the table is live (R613, notes/assumptions/88.md). -/
def State.restoreDone (s : State) (g : Nat) : State :=
  match (s.guest g).restore with
  | none => s
  | some r =>
    let l := r.layout
    let es := s.entries l.regions l.regionCount
    let all := s.candidates g r.kind l
    let newest := r.step == 0xFFFFFFFF
    let chosen := (all.filter fun c => newest || c.step == r.step).find? fun c => s.stepComplete c es
    let early := match chosen with | some c => r.kind == 0 && !r.reportOnly && s.ranLately c | none => false
    if !s.coreUp steward ∨ early = true then s
    else
      let s := s.modGuest g fun x => { x with restore := none }
      let s := { s with fresh := s.fresh + 1 }
      match chosen with
      | none => s.ckptEvent 3 3 0 (if newest then 0 else r.step) 0 0 g r.seq false
      | some c =>
        let listed := if newest then s.asideEntries l all c else []
        let far := if newest ∧ 1 < l.modules then (Config.freeWord s.fresh).toNat % 2 ^ 32 else 0
        let aside := listed.length + far
        let room := min aside (r.reportLen / 64)
        let (more, s) := s.freeBytes (64 * (room - min room listed.length))
        let rep := (listed.take room).flatten ++ more
        let s := if rep = [] then s else s.memWrite r.report rep .porter
        let s := { s with porter := { s.porter with setAside := satAdd s.porter.setAside aside } }
        if r.reportOnly then s.ckptEvent 3 0 0 c.step 0 aside g r.seq true
        else if r.kind = 1 then ((s.writeShard c es).modGuest g fun x => { x with restored := some c.step }).ckptEvent 3 0 0 c.step 0 aside g r.seq true
        else if s.shapeDiffers c l then s.ckptEvent 3 7 0 c.step 0 aside g r.seq false
        else if s.jobsFull then s.ckptEvent 3 0 0 c.step 0 aside g r.seq false
        else
          let (n, s) := s.restoreImage c l
          s.ckptEvent 3 0 n c.step 0 aside g r.seq true

def execCkptRestoreDone (guest : Nat) (s : State) : Out := done (s.restoreDone guest)

/-- R533, R534: a job goes on from its last complete shard checkpoint with a region table and a number of lent rows, its program
launched again; none if there is no such checkpoint. -/
def State.resumeShard (s : State) (j table rows : Nat) : Option State :=
  match fget s.jobs j with
  | none => none
  | some x =>
    match x.config with
    | none => none
    | some l =>
      match s.candidates x.guest 1 l with
      | [] => none
      | c :: _ =>
        let s := (s.releaseJob j).writeShard c (s.entries table l.regionCount)
        let args := if x.lend then x.args.set 13 { tag := .int, data := BitVec.ofNat 64 rows } else x.args
        let s := (s.modJob j fun x => { x with lentRows := rows, args, steps := c.step, stopped := 0, save := none }).settleWaits
        some (s.startJob j)

/-- R533: a job whose lent row is taken back is re-sliced, or ends where no shape is named. -/
def State.reslice (s : State) (j rows : Nat) : State :=
  match fget s.jobs j with
  | none => s
  | some x =>
    let table := match x.config with | some l => l.shapes.getD rows 0 | none => 0
    match (if table = 0 then none else s.resumeShard j table rows) with
    | some s => s
    | none => (s.ckptEvent 5 4 j x.steps 0 0 x.guest 0 false).endJob j 3 0

/-- R534: a job whose tile image is lost goes on from its last complete shard checkpoint on the same shape; without one it ends with CAUSE 3, for
which the spec names no outcome (notes/assumptions/72.md). -/
def State.resumeSame (s : State) (j : Nat) : State :=
  match fget s.jobs j with
  | none => s
  | some x =>
    match (match x.config with | some l => s.resumeShard j l.regions x.lentRows | none => none) with
    | some s => s
    | none => s.endJob j 3 0

/-! ## Drains (R535) -/

/-- CKPT_DRAIN_DONE: every unit that the module holds for a step is in the namespace, each followed by its catalogue entry; drains to
storage pause from stage S1 on, and while a job runs under reproducible-timing mode (R279). -/
def State.drainDone (s : State) (g : Nat) : State :=
  match (s.guest g).drain with
  | none => s
  | some d =>
    if s.stage ≠ 0 ∨ s.jobs.any (fun e => e.2.live && e.2.timed) then s
    else
      let s := s.modGuest g fun x => { x with drain := none }
      let cs := s.porter.checkpoints.filter fun c => c.guest == g && c.layout.group == d.group && c.step == d.step
      let own := (cs.map fun c => c.units.length).sum
      let n := if cs.any fun c => decide (1 < c.layout.modules) then (Config.freeWord s.fresh).toNat % 2 ^ 32 else own
      let s := { s with fresh := s.fresh + 1 }
      match s.ns? g d.nsid with
      | none => s.ckptEvent 4 0 0 d.step 0 0 g d.seq false
      | some ns =>
        if ns.size < d.start + 1025 * n then s.ckptEvent 4 0 0 d.step 0 0 g d.seq false
        else (s.modNs g d.nsid fun x => x.map d.start (1025 * n)).ckptEvent 4 0 0 d.step n 0 g d.seq true

def execCkptDrainDone (guest : Nat) (s : State) : Out := done (s.drainDone guest)

/-! ## Messages (R506, R536 to R538) -/

/-- The live job of the message's guest that its JOB names. -/
def Req.job (r : Req) (s : State) : Option Job :=
  match fget s.jobs (r.f 0 4) with
  | some j => if j.live && j.guest == r.guest then some j else none
  | none => none

def ckptConfigBlock : ReqBlock :=
  { opcode := 0x0B01, sender := .guest,
    bad := fun r s =>
      let shapes := (List.range 5).map fun i => r.f (80 + 8 * i) 8
      s.badLayout r.guest (r.layout 4) ((r.job s).map fun j => j.coords.length) || r.resv 74 6
        || shapes.any (fun a => a != 0 && ((match r.job s with | some j => !j.lend | none => false) || !s.guestMem r.guest a (80 * r.f 72 2))),
    conflict := fun r s => match r.job s with | some j => j.save.isSome | none => true,
    run := fun r s =>
      { state := s.modJob (r.f 0 4) fun j => { j with config := some { r.layout 4 with shapes := (List.range 5).map fun i => r.f (80 + 8 * i) 8 } } } }

def ckptStartBlock : ReqBlock :=
  { opcode := 0x0B02, sender := .guest, unsupported := fun r s => r.f 4 1 == 1 && !s.feature 11,
    bad := fun r _ => decide (1 < r.f 4 1) || decide (r.f 4 1 < r.f 5 1) || r.resv 6 2 || r.resv 12 4,
    conflict := fun r s =>
      match r.job s with
      | some j => (match j.config with | some l => r.f 4 1 == 0 && l.imageLen == 0 | none => true) || j.save.isSome
      | none => true,
    run := fun r s =>
      let j := r.f 0 4
      match r.job s with
      | none => deferred s
      | some x =>
        let v : Save := { kind := r.f 4 1, stop := r.f 5 1 == 1, atStep := r.f 8 4, seq := r.seq }
        let s := (s.modJob j fun x => { x with save := some v }).breakAll
        deferred (if v.kind = 0 then (s.saveTiles x).foldl (fun s p => s.halt p (.porter j)) s else s) }

def ckptCaptureBlock : ReqBlock :=
  { opcode := 0x0B03, sender := .guest,
    bad := fun r _ => r.resv 4 4,
    conflict := fun r s =>
      match (r.job s).bind (·.save) with
      | some v => !(v.kind == 0 && v.quiet && !v.wanted)
      | none => true,
    run := fun r s => { state := s.beginCapture (r.f 0 4) } }

def ckptRestoreBlock : ReqBlock :=
  { opcode := 0x0B04, sender := .guest,
    bad := fun r s =>
      decide (1 < r.f 0 1) || decide (1 < r.f 1 1) || r.resv 2 2 || r.resv 78 2 || s.badLayout r.guest (r.layout 8) none
        || (r.f 88 8 != 0 && !s.guestMem r.guest (r.f 80 8) (r.f 88 8)),
    conflict := fun r s => match s.guest? r.guest with | some g => g.restore.isSome | none => true,
    run := fun r s =>
      let x : Restore := { kind := r.f 0 1, reportOnly := r.f 1 1 == 1, step := r.f 4 4, layout := r.layout 8, report := r.f 80 8,
                           reportLen := r.f 88 8, seq := r.seq }
      deferred (s.modGuest r.guest fun g => { g with restore := some x }) }

def ckptDrainBlock : ReqBlock :=
  { opcode := 0x0B05, sender := .guest,
    bad := fun r _ => r.f 12 4 == 0 || decide (256 < r.f 12 4),
    conflict := fun r s =>
      match s.guest? r.guest with
      | some g => g.drain.isSome || (match s.ns? r.guest (r.f 12 4) with | some n => n.deleting.isSome || n.lost || n.readOnly | none => true)
      | none => true,
    run := fun r s =>
      let d : Drain := { group := r.f 0 8, step := r.f 8 4, nsid := r.f 12 4, start := r.f 16 8, seq := r.seq }
      deferred (s.modGuest r.guest fun g => { g with drain := some d }) }

def execCkptConfig (slot : Nat) (s : State) : Out := done (serve ckptConfigBlock slot s)
def execCkptStart (slot : Nat) (s : State) : Out := done (serve ckptStartBlock slot s)
def execCkptCapture (slot : Nat) (s : State) : Out := done (serve ckptCaptureBlock slot s)
def execCkptRestore (slot : Nat) (s : State) : Out := done (serve ckptRestoreBlock slot s)
def execCkptDrain (slot : Nat) (s : State) : Out := done (serve ckptDrainBlock slot s)

end Sys2Proof.Machine
end

