-- ==== Sys2Proof/Machine/Guests.lean ====
section
/-! DEFINITION. Guests (chapter 11): their creation and destruction, grants, doorbells, the parlour, the closure of rooms, and the
dirty-page logs. -/

namespace Sys2Proof.Machine

/-- GUEST_EVENT. -/
def State.guestEvent (s : State) (kind map room flags dirty guest seq : Nat) (ok : Bool := true) : State :=
  s.raise 0x0280 ([BitVec.ofNat 8 kind, BitVec.ofNat 8 map] ++ leBytes 2 room ++ leBytes 1 flags ++ zeros 3 ++ leBytes 8 dirty) guest seq
    (if ok then 0 else Status.faulted.code)

/-! ## Dirty-page logs (R399 to R404) -/

/-- The bits that a log has set in a map. -/
def DirtyLog.count (l : DirtyLog) (b : Bool) : Nat := (l.dirty.filter (·.1 == b)).length

/-- The reads that are out for a guest's log. -/
def Purpose.ofLog (g : Nat) : Purpose → Bool
  | .logWord a _ _ => a == g
  | .fence a _ => a == g
  | _ => false

/-- A log ends at once, with OVERFLOW (R404). The map reported is the one being drained, or else the active one. -/
def State.endLog (s : State) (g : Nat) : State :=
  match (s.guest g).log with
  | none => s
  | some l =>
    let b := if l.fence.isSome then !l.activeB else l.activeB
    let s := (s.modGuest g fun x => { x with log := none }).disown (·.ofLog g)
    s.guestEvent 4 (bit b) 0xFFFF 1 (l.count b) g (match l.fence with | some f => f.2 | none => 0)

/-- R404: a warm start or the reset of a link ends every log. -/
def State.endLogs (s : State) : State := s.guests.foldl (fun s e => s.endLog e.1) s

/-- R403 steps 3 and 4: words of the drained map that have been read are written back; after the last, the second read goes out. -/
def State.drainMap (s : State) (g : Nat) : State :=
  match (s.guest g).log with
  | none => s
  | some l =>
    if l.fence.isSome ∧ l.stage = 1 then
      let s := (l.words.filter fun w => w.mapB != l.activeB && w.read).foldl (fun s w => s.writeBackWord g w) s
      if l.words.any fun w => w.mapB != l.activeB && !w.read then s
      else
        let (s, up) := s.mgrRead 0 0 (.fence g true)
        s.modLog g fun l => { l with stage := if up then 2 else 3, fenceFailed := l.fenceFailed || !up }
    else s

/-- A fence's zero-length read has completed, or has failed. -/
def State.fenceRead (s : State) (g : Nat) (second ok : Bool) : State :=
  match (s.guest g).log with
  | none => s
  | some l =>
    if l.fence.isSome ∧ l.stage = (if second then 2 else 0) then
      let s := s.modLog g fun l => { l with stage := if second then 3 else 1, fenceFailed := l.fenceFailed || !ok }
      if second then s else s.drainMap g
    else s

/-- R402: the host's word of a bitmap has been read and is ORed in, or its read has failed. -/
def State.logWordRead (s : State) (g : Nat) (mapB : Bool) (word : Nat) (value : Option (BitVec 64)) : State :=
  let s := s.modLog g fun l =>
    match value with
    | some v => { l with words := l.words.map fun (w : LogWord) => if w.mapB = mapB ∧ w.word = word ∧ !w.read then { w with bits := w.bits ||| v, read := true } else w }
    | none => { l with words := l.words.filter fun w => !(w.mapB == mapB && w.word == word && !w.read), overflow := true }
  s.drainMap g

/-- LOG_FENCE_DONE: the drained map stands in host memory, and the fence or the log ends. -/
def State.fenceDone (s : State) (g : Nat) : State :=
  match (s.guest g).log with
  | none => s
  | some l =>
    match l.fence with
    | none => s
    | some (stop, seq) =>
      if l.stage = 3 then
        let b := !l.activeB
        let ovf := l.overflow || l.fenceFailed
        let s := s.modGuest g fun x =>
          { x with log :=
              if stop then none
              else some { l with fence := none, stage := 0, overflow := false, fenceFailed := false, dirty := l.dirty.filter (·.1 != b) } }
        s.guestEvent (if stop then 4 else 3) (bit b) 0xFFFF (bit ovf) (l.count b) g seq (!l.fenceFailed)
      else s

def execLogFenceDone (guest : Nat) (s : State) : Out := done (s.fenceDone guest)

def logStartBlock : ReqBlock :=
  { opcode := 0x0210, sender := .guest, unsupported := fun _ s => !s.feature 7,
    bad := fun r _ => r.f 0 8 % 4096 != 0 || r.f 8 8 == 0 || decide (2 ^ 36 < r.f 8 8) || r.f 16 8 % 8 != 0 || r.f 24 8 % 8 != 0,
    conflict := fun r s => match s.guest? r.guest with | some g => g.log.isSome | none => true,
    short := fun _ s => decide (16 ≤ (s.guests.filter fun e => e.2.log.isSome).length),
    run := fun r s =>
      { state := s.modGuest r.guest fun g => { g with log := some { base := r.f 0 8, pages := r.f 8 8, mapA := r.f 16 8, mapB := r.f 24 8 } } } }

/-- R403 steps 1 and 2. -/
def State.startFence (s : State) (g : Nat) (stop : Bool) (seq : Nat) : State :=
  let s := s.modLog g fun l => { l with activeB := !l.activeB, fence := some (stop, seq), stage := 0, fenceFailed := false }
  let (s, up) := s.guestRead g 0 0 (.fence g false)
  if up then s else s.fenceRead g false false

def fenceBlock (op : Nat) (stop : Bool) : ReqBlock :=
  { opcode := op, sender := .guest,
    bad := fun r _ => r.resv 0 8,
    conflict := fun r s => match (s.guest r.guest).log with | some l => l.fence.isSome | none => true,
    run := fun r s => deferred (s.startFence r.guest stop r.seq) }

def execLogStart (slot : Nat) (s : State) : Out := done (serve logStartBlock slot s)
def execLogFence (slot : Nat) (s : State) : Out := done (serve (fenceBlock 0x0211 false) slot s)
def execLogStop (slot : Nat) (s : State) : Out := done (serve (fenceBlock 0x0212 true) slot s)

/-! ## The closure of a room (R397) -/

/-- The live jobs with a context in a room. -/
def State.roomJobs (s : State) (k : Nat) : List Nat :=
  (s.jobs.filter fun e => e.2.live && (roomTiles k).any fun c => e.2.has c.1 c.2).map (·.1)

/-- What a guest owns in a room goes: its queue pairs are deleted, its connections closed, its key slots zeroised, its vectors
masked, its frames dropped and its share written with zeros (R381, R383, R397). -/
def State.clearRoom (s : State) (k seq : Nat) : State :=
  let s := (List.range 4).foldl (fun s j => s.drainPair (4 * k + j) seq false) s
  let s := (List.range 64).foldl (fun s j => s.closeConn (64 * k + j) seq) s
  let s := (((s.clearRoomSlots k).clearVectors k).dropRoom k)
  s.memZero (burstShare k) 0x40000

/-- R397 step 4, once the pairs and connections of the room are gone: the closure is reported. -/
def State.finishEmpty (s : State) (k g : Nat) : State :=
  if ((List.range 4).all fun j => (s.pair (4 * k + j)).state == 0) && (List.range 64).all fun j => (s.conn (64 * k + j)).state == .closed then
    let s := s.modMesh fun m => { m with emptying := m.emptying.filter (·.1 != k) }
    if (s.guest? g).isSome then (s.guestEvent 0 0 k 0 0 g 0).parlourVector g else s
  else s

/-- The closures whose pairs and connections are gone are reported. -/
def State.finishEmpties (s : State) : State := s.mesh.emptying.foldl (fun s e => s.finishEmpty e.1 e.2) s

/-- QUEUE_DELETE_DONE; it may be the last of a room that closes. -/
def execQueueDeleteDone (pair : Nat) (s : State) : Out := done (s.queueDeleteDone pair).finishEmpties

/-- WR_FETCH; it may be what the closing of a connection of a room waits for. -/
def execWrFetch (conn : Nat) (recv : Bool) (s : State) : Out := done (s.wrFetch conn recv).finishEmpties

/-- R397 steps 2 to 4, once no job of the guest has a context in the room. Pages of a save that the copy and the zeros meet are copied ahead first. -/
def State.finishClose (s : State) (k : Nat) : State :=
  if s.mesh.closing.contains k ∧ s.roomJobs k = [] then
    match s.holder k with
    | none => s.modMesh fun m => { m with closing := m.closing.filter (· != k), closed := addTo m.closed k }
    | some g =>
      let old := (s.guest g).home
      let s := s.serveAheads (burstShare k) 0x40000
      let s := s.modGuest g fun x => { x with closedRooms := addTo x.closedRooms k, lastHome := x.home.getD x.lastHome }
      let s := s.modMesh fun m => { m with closing := m.closing.filter (· != k), closed := addTo m.closed k, emptying := m.emptying ++ [(k, g)] }
      let s := match (s.guest g).home with
        | some h => if old = some k then (s.serveAheads (burstShare h) 0x4000).memCopy (burstShare k) (burstShare h) 0x4000 else s
        | none => s
      (s.clearRoom k 0).finishEmpty k g
  else s

/-- R23, R397: a room closes. The saves of its jobs end with CAUSE 6, and the jobs end at a rest point with CAUSE 2. -/
def State.closeRoom (s : State) (k : Nat) : State :=
  if s.mesh.closed.contains k || s.mesh.closing.contains k then s
  else
    let old := s.firm.mstate
    let s := s.modMesh fun m => { m with closing := m.closing ++ [k] }
    let s := s.modFirm fun f =>
      { f with mstate := if f.mstate = .ready then .degraded else f.mstate, shedFrom := if f.mstate = .shedding then .degraded else f.shedFrom }
    let s := s.stateEvent old 5
    let s := (s.roomJobs k).foldl (fun s j =>
      let s := s.endSave j 6
      let s := if ((fget s.jobs j).bind (·.ending)).isSome then s else s.haltToEnd j 2 0
      s.endAtRest j) s
    s.finishClose k

/-- The closures that can go on do. -/
def State.finishCloses (s : State) : State := s.mesh.closing.foldl (fun s k => s.finishClose k) s

/-! ## Creation and destruction (R378 to R383) -/

/-- The rooms of a 1,024-bit map. -/
def Req.rooms (r : Req) : List Nat := (List.range 1024).filter fun k => (r.body.getD (k / 8) 0).getLsbD (k % 8)

def guestCreateBlock : ReqBlock :=
  { opcode := 0x0201, sender := .guest, states := [.ready, .degraded],
    unsupported := fun r s => decide (r.rooms.length = 1024) && !s.feature 2,
    bad := fun r _ => r.rooms == [] || decide (2 ^ 20 ≤ r.f 128 4) || decide (1 < r.f 132 1) || r.resv 133 3,
    conflict := fun r s =>
      (s.guest? r.guest).isSome
        || r.rooms.any (fun k => (s.guests.any fun e => e.2.rooms.contains k) || s.mesh.closed.contains k || s.mesh.closing.contains k)
        || s.guests.any fun e => e.2.link == r.f 132 1 && e.2.pasid == r.f 128 4,
    run := fun r s =>
      let g : Guest := { rooms := r.rooms, pasid := r.f 128 4, link := r.f 132 1, lastHome := r.rooms.headD 0 }
      let s := { s with guests := fset s.guests r.guest g }
      { state := r.rooms.foldl (fun s k => (s.clearRoomSlots k).clearVectors k) s } }

/-- R382: what keeps a guest from being destroyed. -/
def State.busyGuest (s : State) (n : Nat) (g : Guest) : Bool :=
  g.destroying.isSome || s.hasLiveJob n || g.log.isSome || (g.digests.any fun d => d.2.filling) || g.seals != [] || g.imports != []
    || s.ledgers.live.any fun e => e.2.guest == n && e.2.exportTo.isSome

def guestDestroyBlock : ReqBlock :=
  { opcode := 0x0202, sender := .guest,
    bad := fun r _ => r.resv 0 8,
    conflict := fun r s => match s.guest? r.guest with | some g => s.busyGuest r.guest g | none => true,
    run := fun r s =>
      let n := r.guest
      let s := s.modGuest n fun g => { g with destroying := some r.seq, restore := none, drain := none }
      let pairs := (s.storage.pairs.filter fun e => e.2.guest == n).map (·.1)
      let s := pairs.foldl (fun s m => s.drainPair m r.seq false) s
      let conns := (s.net.conns.filter fun e => e.2.guest == n && e.2.state != .closed).map (·.1)
      let s := conns.foldl (fun s c => s.closeConn c r.seq) s
      let s := (s.deleteLedgers n).modGuest n fun g => { g with pools := [] }
      deferred (s.modStorage fun t =>
        { t with namespaces := fmap t.namespaces fun k x => if k / 512 = n ∧ x.deleting.isNone then { x with deleting := some r.seq } else x }) }

/-- GUEST_DESTROY_DONE: a guest whose pairs, connections, ledgers and namespaces are gone gives up the rest (R383 steps 3 to 5). Writes that were accepted before
land first, cellar regions that are not filled are filled first, and a revoke that is pending ends with its range. -/
def State.guestGone (s : State) (n : Nat) : State :=
  match s.guest? n with
  | none => s
  | some g =>
    match g.destroying with
    | none => s
    | some seq =>
      if s.storage.pairs.any (fun e => e.2.guest == n) || s.ledgers.live.any (fun e => e.2.guest == n)
          || s.storage.namespaces.any (fun e => e.1 / 512 == n) || s.net.conns.any (fun e => e.2.guest == n && e.2.state != .closed) then s
      else if g.grants.any fun x => s.unfilledIn x.base x.length then g.grants.foldl (fun s x => s.askFill x.base x.length) s
      else
        let s := g.open.foldl (fun s k => (s.serveAheads (burstShare k) 0x40000).clearRoom k seq) s
        let s := g.grants.foldl (fun s x => (s.serveAheads x.base x.length).memZero x.base x.length) s
        let s := g.grants.foldl (fun s x => match x.revoking with | some (_, q) => s.guestEvent 2 0 0xFFFF 0 x.base n q | none => s) s
        let s := s.modNet fun m => { m with keys := m.keys.filter (·.2.guest != n) }
        let s := { s with jobs := s.jobs.filter (·.2.guest != n) }
        let s := { s with porter := { s.porter with checkpoints := s.porter.checkpoints.filter (·.guest != n) } }
        let s := { s with guests := fdel s.guests n }
        s.guestEvent 1 0 0xFFFF 0 0 n seq

def execGuestDestroyDone (guest : Nat) (s : State) : Out := done (s.guestGone guest)

/-! ## Grants (R388, R389) -/

/-- A range lies wholly in stack memory, or wholly in one cellar window. -/
def oneWindow (a n : Nat) : Bool :=
  match mapAddr a, mapAddr (a + n - 1) with
  | .stack _, .stack _ => true
  | .cellar p _, .cellar q _ => p == q
  | _, _ => false

def guestGrantBlock : ReqBlock :=
  { opcode := 0x0203, sender := .guest,
    bad := fun r s =>
      let a := r.f 0 8
      let n := r.f 8 8
      a % 0x200000 != 0 || n % 0x200000 != 0 || n == 0 || !oneWindow a n || s.mem.rangeHole a n
        || s.guests.any fun e => e.2.grants.any fun x => overlaps a n x.base x.length,
    conflict := fun r s => (s.guest? r.guest).isNone,
    short := fun r s => decide (64 ≤ (s.guest r.guest).grants.length),
    run := fun r s => { state := s.modGuest r.guest fun g => { g with grants := g.grants ++ [{ base := r.f 0 8, length := r.f 8 8 }] } } }

def guestRevokeBlock : ReqBlock :=
  { opcode := 0x0204, sender := .guest,
    bad := fun r s =>
      decide (1 < r.f 16 1) || r.resv 17 7
        || !(s.guest r.guest).grants.any fun x => x.base == r.f 0 8 && x.length == r.f 8 8,
    conflict := fun r s =>
      match s.guest? r.guest with
      | none => true
      | some g =>
        g.destroying.isSome || s.hasLiveJob r.guest || g.pools.any (fun p => overlaps p.2.base p.2.length (r.f 0 8) (r.f 8 8))
          || g.grants.any fun x => x.base == r.f 0 8 && x.revoking.isSome,
    run := fun r s =>
      deferred (s.modGuest r.guest fun g =>
        { g with grants := g.grants.map fun (x : Grant) => if x.base = r.f 0 8 then { x with revoking := some (r.f 16 1 == 1, r.seq) } else x }) }

/-- GUEST_REVOKE_DONE: the oldest revoke of a guest writes its zeros and ends. Requests admitted before complete first: those that wait for a marked
page proceed, and a region that holds some, or is to be zeroed, is filled first (R389). -/
def State.revokeDone (s : State) (n : Nat) : State :=
  match (s.guest n).grants.find? (·.revoking.isSome) with
  | none => s
  | some x =>
    match x.revoking with
    | none => s
    | some (zero, seq) =>
      let s := s.serveAheads x.base x.length
      if s.unfilledIn x.base x.length && (zero || s.pendingIn x.base x.length) then s.askFill x.base x.length
      else
      let s := if zero then s.memZero x.base x.length else s
      let s := s.modGuest n fun g => { g with grants := g.grants.filter (· != x) }
      s.guestEvent 2 0 0xFFFF 0 x.base n seq

def execGuestCreate (slot : Nat) (s : State) : Out := done (serve guestCreateBlock slot s)
def execGuestDestroy (slot : Nat) (s : State) : Out := done (serve guestDestroyBlock slot s)
def execGuestGrant (slot : Nat) (s : State) : Out := done (serve guestGrantBlock slot s)
def execGuestRevoke (slot : Nat) (s : State) : Out := done (serve guestRevokeBlock slot s)
def execGuestRevokeDone (guest : Nat) (s : State) : Out := done (s.revokeDone guest)

/-! ## Doorbells and the parlour (R390 to R396, R450) -/

/-- COURIER_DB: a new producer index of a ring of an enabled connection; bit 63 names the receive ring, [62:32] hold the index. -/
def State.courierDb (s : State) (g : Nat) (v : BitVec 64) : State :=
  match s.guest? g with
  | none => s.dropped g
  | some x =>
    match x.moduleNo 64 (bitsOf v.toNat 15 0) with
    | none => s.dropped g
    | some cn =>
      if x.destroying.isSome || !x.holdsNo 64 cn || (s.conn cn).state == .closed || bitsOf v.toNat 31 16 != 0 then s.dropped g
      else
        let n := bitsOf v.toNat 62 32
        if (s.conn cn).closing ≠ [] then s
        else s.modConn cn fun c => if v.getLsbD 63 then { c with recvProd := n } else { c with sendProd := n }

/-- PARLOUR_RING: the manager's bit of the guest sets, and its interrupt is raised as it does (R395, R573). -/
def State.parlourRing (s : State) (g : Nat) : State :=
  match s.guest? g with
  | none => s.dropped g
  | some x =>
    if x.destroying.isSome then s.dropped g
    else if s.hosts.parlour.contains g then s
    else (s.modHosts fun h => { h with parlour := addTo h.parlour g }).msix 2

/-- The home room whose share a guest's parlour window reaches. -/
def State.parlourHome (s : State) (g : Nat) : Option Nat :=
  match s.guest? g with
  | some x => if x.destroying.isSome then none else x.home
  | none => none

/-- PARLOUR_WINDOW_ACCESS: a read or a write on a link, of 1 to 64 bytes in the first 16 KiB of the home room's share (R391, R392). -/
def State.parlourAccess (s : State) (link g : Nat) (write : Bool) (off n : Nat) (bytes : List Byte) : State :=
  if n = 0 ∨ 64 < n ∨ 64 < off % 64 + n ∨ 0x4000 < off + n ∨ (write ∧ bytes.length ≠ n) then s.unsupported link (!write)
  else
    let answer := fun (s : State) (b : List Byte) => s.modLink link fun l => { l with sent := l.sent ++ [.completion b .success] }
    match s.parlourHome g with
    | some h =>
      let a := burstShare h + off
      if write then (s.memWrite a bytes (.upstream link)).outsideData a n else answer s (s.memBytes a n)
    | none => if write then s.dropped g else answer s (zeros n)

/-- GUEST_INFO (R390); a room counts as closed once its closure is reported (R397). -/
def State.guestInfo (s : State) (g : Nat) : Nat :=
  match s.guest? g with
  | none => g
  | some x =>
    let closed := x.closedRooms.filter fun k => !s.mesh.emptying.any (·.1 == k)
    let held := x.rooms.filter fun k => !closed.contains k
    let home := match held with | [] => x.lastHome | k :: r => r.foldl min k
    g + 2 ^ 10 * held.length + 2 ^ 21 * bit (held.length == 1024) + 2 ^ 32 * home + 2 ^ 42 * closed.length

/-- What a read of a guest's page of BAR2 returns (R390, R391): 0 from a doorbell, COURIER_DB or PARLOUR_RING at its own size, GUEST_INFO, or the parlour;
none where R348 answers with Unsupported Request. -/
def State.bar2Read (s : State) (g off n : Nat) : Option (List Byte) :=
  if 0x1000 ≤ off ∧ off < 0x1000 + 8 * 4097 ∧ n = 4 ∧ off % 4 = 0 then some (zeros 4)
  else if off = 0xA000 ∧ n = 8 then some (zeros 8)
  else if off = 0xB000 ∧ n = 4 then some (zeros 4)
  else if off = 0xB008 ∧ n = 8 then some (leBytes 8 (s.guestInfo g))
  else if 0xC000 ≤ off ∧ off + n ≤ 0x10000 ∧ n ≠ 0 ∧ off % 64 + n ≤ 64 then
    some (match s.parlourHome g with | some h => s.memBytes (burstShare h + (off - 0xC000)) n | none => zeros n)
  else none

def execCourierDb (page : Page) (value : BitVec 64) (s : State) : Out := done (s.bar2 page.link false (·.courierDb page.guest value))
def execParlourRing (page : Page) (s : State) : Out := done (s.bar2 page.link false (·.parlourRing page.guest))
def execParlourWindowAccess (page : Page) (write : Bool) (offset length : Nat) (bytes : List Byte) (s : State) : Out :=
  done (s.bar2 page.link (!write) (·.parlourAccess page.link page.guest write offset length bytes))

/-- GUEST_RING: the guest's parlour vector is raised; a number that names no guest is ignored. -/
def execGuestRing (guest : Nat) (s : State) : Out :=
  let s := s.modHosts fun h => { h with guestRing := BitVec.ofNat 10 guest }
  match s.guest? guest with
  | some _ => done (s.parlourVector guest)
  | none => done s

end Sys2Proof.Machine
end

