-- ==== Sys2Proof/Machine/Upstream.lean ====
section
/-! DEFINITION. The upstream links (chapter 10): completions, timeouts and quarantine, link resets, the power states of a link, the
configuration space, BAR4, and the requests that are answered with Unsupported Request. -/

namespace Sys2Proof.Machine

/-! ## What a read finishes (R350, R352) -/

/-- A read of the module has its data, or has failed: its requester goes on. -/
def State.readDone (s : State) (why : Purpose) (data : Option (List Byte)) : State :=
  match why, data with
  | .sqFetch m, some b => s.entryArrives m b
  | .sqFetch m, none => s.failPair m 1
  | .dataIn m cid i, some b => s.pageArrives m cid i b
  | .dataIn m cid _, none => s.pageFails m cid
  | .prpList m cid, some b => s.listArrives m cid b
  | .prpList m cid, none => s.listFails m cid
  | .wrFetch cn recv, some b => (s.wrArrives cn recv b).finishEmpties
  | .wrFetch cn _, none => (s.wrFails cn).finishEmpties
  | .frameTxDesc n, some b => s.txDescArrives n b
  | .frameRxDesc n, some b => s.rxDescArrives n b
  | .frameData n, some b => s.txFrameArrives n b
  | .frameData n, none => s.txDone n true
  | .courierData cn msn, some b => s.courierBytes cn msn b
  | .courierData cn msn, none => s.courierNoBytes cn msn
  | .logWord g mapB w, some b => s.logWordRead g mapB w (some (BitVec.ofNat 64 (leNat (slice b 0 8))))
  | .logWord g mapB w, none => s.logWordRead g mapB w none
  | .fence g second, some _ => s.fenceRead g second true
  | .fence g second, none => s.fenceRead g second false
  | _, _ => s

/-- Whether a request is one of those that carry a split read. -/
def HostTx.ofSplit (id : Nat) : HostTx → Bool
  | .read _ _ _ (.piece k _) => k == id
  | _ => false

/-- One of the requests of a link that carry a read has its data, or has failed, which fails the read. -/
def State.pieceDone (s : State) (n id i : Nat) (data : Option (List Byte)) : State :=
  match fget (s.link n).splits id, data with
  | none, _ => s
  | some x, none =>
    (s.modLink n fun l => { l with splits := fdel l.splits id, held := l.held.filter fun t => !t.ofSplit id }).readDone x.why none
  | some x, some b =>
    let parts := fset x.parts i b
    if x.left ≤ 1 then (s.modLink n fun l => { l with splits := fdel l.splits id }).readDone x.why (some (parts.flatMap (·.2)))
    else s.modLink n fun l => { l with splits := fset l.splits id { x with left := x.left - 1, parts } }

/-- A request of a link that leaves the module's tables: what it waited for has come, or it has failed. -/
def State.txDoneWith (s : State) (n : Nat) (tx : HostTx) (data : Option (List Byte)) : State :=
  match tx with
  | .read _ _ _ (.piece id i) => s.pieceDone n id i data
  | .read _ _ _ why => s.readDone why data
  | _ => s

def HostTx.length : HostTx → Nat
  | .read _ _ n _ => n
  | _ => 0

/-- AER bits of the Uncorrectable Error Status register, Completion Timeout, Poisoned TLP Received and Unexpected Completion, and of the Correctable Error Status
register, Advisory Non-Fatal Error. -/
def aerTimeout : BitVec 32 := 0x4000
def aerPoisoned : BitVec 32 := 0x1000
def aerUnexpected : BitVec 32 := 0x10000
def aerAdvisory : BitVec 32 := 0x2000

/-- A completion for an upstream tag: it adds its data, finishes the request once all has come, or fails it; with no request of its
tag it is discarded and counted (R351, R352). -/
def State.completion (s : State) (n tag : Nat) (st : CplStatus) (b : List Byte) : State :=
  match fget (s.link n).outstanding tag with
  | none => s.modLink n fun l => { l with late := satInc l.late, aer := l.aer ||| aerUnexpected, aerCor := l.aerCor ||| aerAdvisory }
  | some o =>
    let got := o.got ++ b
    let free := fun (s : State) => s.modLink n fun l => { l with outstanding := fdel l.outstanding tag }
    let flush := fun (s : State) => s.modLink n (·.flush)
    if st = .success then
      if o.tx.length ≤ got.length then flush ((free s).txDoneWith n o.tx (some (got.take o.tx.length)))
      else s.modLink n fun l => { l with outstanding := fset l.outstanding tag { o with got := got } }
    else
      let s := if st = .poisoned then s.modLink n fun l => { l with aer := l.aer ||| aerPoisoned } else s
      flush ((free s).txDoneWith n o.tx none)

/-- A request times out: it fails, is logged and counted, and its tag enters quarantine for its T (R350). -/
def State.timeout (s : State) (n tag : Nat) : State :=
  match fget (s.link n).outstanding tag with
  | none => s
  | some o =>
    let s := s.modLink n fun l =>
      { l with
        outstanding := fdel l.outstanding tag, quarantine := fset l.quarantine tag o.timeoutMs, timeouts := satInc l.timeouts,
        aer := l.aer ||| aerTimeout, aerCor := l.aerCor ||| aerAdvisory }
    s.txDoneWith n o.tx none

/-- Every outstanding request of a link fails; with `keep` its tags enter quarantine (R355), else they return to the pool. -/
def State.failOutstanding (s : State) (n : Nat) (keep : Bool) : State :=
  let os := (s.link n).outstanding
  let s := s.modLink n fun l =>
    { l with outstanding := [], quarantine := if keep then os.foldl (fun q e => fset q e.1 e.2.timeoutMs) l.quarantine else [] }
  os.foldl (fun s e => s.txDoneWith n e.2.tx none) s

/-! ## Link resets (R353, R404, R582, R588) -/

/-- The pair whose completion queue a held write of a guest belongs to. -/
def State.cqOf (s : State) (pasid : Option Nat) (n a : Nat) : Option Nat :=
  (s.storage.pairs.find? fun e =>
    (e.2.state == 1 || e.2.state == 2 || e.2.state == 4) && (s.guest e.2.guest).link == n && pasid == some (s.guest e.2.guest).pasid
      && decide (e.2.cqBase ≤ a) && decide (a < e.2.cqBase + 16 * e.2.cqSize)).map (·.1)

/-- A held request of a link that goes down fails at once (R341, R416). -/
def State.failHeld (s : State) (n : Nat) (tx : HostTx) : State :=
  match tx with
  | .read _ _ _ _ => s.txDoneWith n tx none
  | .write pasid a _ => match s.cqOf pasid n a with | some m => s.failPair m 2 | none => s
  | _ => s

/-- A link goes down or is reset: its outstanding requests fail, its tags return, its configuration space takes its ROM values, and
the logs end; on a link that is down the held requests fail too. -/
def State.linkReset (s : State) (n : Nat) (down : Bool) : State :=
  let held := (s.link n).held
  let s := s.modLink n fun l =>
    { l with
      up := l.up && !down, speed := if down then 0 else l.speed, width := if down then 0 else l.width,
      d3hot := false, bme := false, mse := false, l1 := false, aspm := false, exiting := false, pmeEn := false, pmeStatus := false,
      cto := 0, mrrs := 2, config := [], msixEnable := false, msixMaskAll := false, aer := 0, aerCor := 0, held := if down then [] else l.held }
  let s := s.endLogs
  let s := if n = s.mgr ∧ s.irq.teleRunning then s.modIrq fun i => { i with teleRunning := false } else s
  let s := s.failOutstanding n false
  if down then held.foldl (fun s tx => s.failHeld n tx) s else s

def execLinkReset (link : Nat) (down : Bool) (s : State) : Out :=
  done (if link < 2 ∧ (s.link link).up then s.linkReset link down else s)

/-- UPSTREAM_LINK_UP: a link trains; while the module has only auxiliary power the links stay down (R339), and before the overlay has been read at
cold start step 1 they do not train (R343). -/
def execUpstreamLinkUp (link speed width : Nat) (s : State) : Out :=
  if link < 2 ∧ s.firm.mstate ≠ .auxOnly ∧ !(s.firm.mstate = .coldStart ∧ s.firm.startStep.toNat ≤ 1) ∧ !(s.link link).up then
    done (s.modLink link fun l => { l with up := true, speed := BitVec.ofNat 3 speed, width := BitVec.ofNat 5 width })
  else done s

/-! ## Power states of a link (R354, R580, R581) -/

/-- What waits for a link leaves it, as far as the link is open: held requests, pending manager vectors, then guests' messages. -/
def State.wakeLink (s : State) (n : Nat) : State := (s.modLink n fun l => l.flush.sendPending).sendExpired n

/-- ASPM_L1_ENTRY: an idle link whose ASPM L1 is enabled enters L1. -/
def execAspmL1Entry (link : Nat) (s : State) : Out :=
  let l := s.link link
  if link < 2 ∧ l.up ∧ l.aspm ∧ !l.d3hot ∧ l.outstanding = [] ∧ l.held = [] then done (s.modLink link fun l => { l with l1 := true })
  else done s

/-- L1_EXIT_DONE: the link is back in L0, and the messages that waited for it leave. -/
def execL1ExitDone (link : Nat) (s : State) : Out :=
  if link < 2 ∧ (s.link link).exiting then done ((s.modLink link fun l => { l with exiting := false, l1 := false }).wakeLink link)
  else done s

/-- PME_REPEAT: PME_Status is still 1 100 ms after the last PM_PME. -/
def execPmeRepeat (link : Nat) (s : State) : Out :=
  let l := s.link link
  if link < 2 ∧ l.up ∧ l.d3hot ∧ l.pmeEn ∧ l.pmeStatus then done (s.modLink link fun l => { l with sent := l.sent ++ [.pme] })
  else done s

/-! ## Configuration space (R342, R343) -/

/-- A 32-bit word with some bits replaced. -/
def under (mask new old : BitVec 32) : BitVec 32 := (old &&& ~~~mask) ||| (new &&& mask)

/-- What R342 and R344 fix of a dword, as (mask, value): the BARs' types and sizes, and the fields of the capabilities, placed as the Base
Specification places them (PRESUMED, notes/assumptions/18.md). -/
def romFixed (dw : Nat) : BitVec 32 × BitVec 32 :=
  if dw = 4 ∨ dw = 6 then (0x03FFFFFF, 0x4)
  else if dw = 8 then (0xFFFFFFFF, 0xC)
  else if dw = 9 then (0xF, 0)
  else if dw = Config.capability 0 then (0xFE0000FF, 0x40000001)
  else if dw = Config.capability 0 + 1 then (0x8, 0x8)
  else if dw = Config.capability 1 then (0xFF00FF, 0x20010)
  else if dw = Config.capability 1 + 1 then (0x10000027, 0x10000022)
  else if dw = Config.capability 1 + 3 then (0xC00, 0x800)
  else if dw = Config.capability 1 + 9 then (0x333DF, 0x3000E)
  else if dw = Config.capability 2 then (0x07FF00FF, 0x003F0011)
  else if dw = Config.capability 2 + 1 then (0xFFFFFFFF, 0x20000)
  else if dw = Config.capability 2 + 2 then (0xFFFFFFFF, 0x21000)
  else if dw = Config.capability 3 then (0xFFFF, 0x1)
  else if dw = Config.capability 3 + 6 then (0x1E0, 0)
  else if dw = Config.capability 4 then (0xFFFF, 0x1B)
  else if dw = Config.capability 4 + 1 then (0x1F06, 0x1400)
  else if dw = Config.capability 5 then (0xFFFF, 0x3)
  else if dw = Config.capability 5 + 1 then (0xFFFFFFFF, Config.serial.setWidth 32)
  else if dw = Config.capability 5 + 2 then (0xFFFFFFFF, Config.serial.extractLsb' 32 32)
  else if dw = Config.capability 6 then (0xFFFF, 0x2F)
  else if dw = Config.capability 6 + 1 then (0xE, 0x6)
  else match ([0x25, 0x26, 0x2A, 0x31, 0x27] : List Nat).zipIdx.find? fun e => dw == Config.capability (7 + e.2) with
    | some e => (0xFFFF, BitVec.ofNat 32 e.1)
    | none => (0, 0)

/-- The bits of a dword that software may write: all of a BAR's beyond its size, and elsewhere those of the ROM that are not fixed. -/
def romMask (dw : Nat) : BitVec 32 :=
  (if dw = 4 ∨ dw = 5 ∨ dw = 6 ∨ dw = 7 ∨ dw = 9 then 0xFFFFFFFF else Config.configMask dw) &&& ~~~(romFixed dw).1

/-- The dword of a function's configuration space; where two of the ROM's registers could meet, the first named here holds. -/
def State.configRead (s : State) (n dw : Nat) : BitVec 32 :=
  let l := s.link n
  let base := under (romFixed dw).1 (romFixed dw).2 (fgetD (Config.configRom dw) l.config dw)
  let b := fun (x : Bool) (k : Nat) => if x then (1 : BitVec 32) <<< k else 0
  if dw = 0 then 0x43521F6E
  else if dw = 1 then under 0x6 (b l.mse 1 ||| b l.bme 2) base
  else if dw = 2 then 0x120000B0
  else if dw = 3 then base &&& 0xFF00FFFF
  else if dw = 11 then l.ssid ++ l.svid
  else if dw = 12 then 0
  else if dw = 15 then base &&& 0xFFFF00FF
  else if dw = Config.capability 0 + 1 then
    under 0x8103 ((if l.d3hot then 3 else 0) ||| b l.pmeEn 8 ||| b l.pmeStatus 15) base
  else if dw = Config.capability 1 + 2 then under 0x7000 (l.mrrs.setWidth 32 <<< 12) base
  else if dw = Config.capability 1 + 4 then under 0x3 (b l.aspm 1) base
  else if dw = Config.capability 1 + 10 then under 0xF (l.cto.setWidth 32) base
  else if dw = Config.capability 2 then under 0xC0000000 (b l.msixEnable 31 ||| b l.msixMaskAll 30) base
  else if dw = Config.capability 3 + 1 then l.aer
  else if dw = Config.capability 3 + 4 then l.aerCor
  else base

/-- A dword written: the fields that act, and the writable bits of the others. A Function Level Reset resets the link (R353). -/
def State.configWrite (s : State) (n dw : Nat) (v : BitVec 32) : State :=
  let keep := fun (s : State) => s.modLink n fun l =>
    { l with config := fset l.config dw (under (romMask dw) v (fgetD (Config.configRom dw) l.config dw)) }
  let s := if dw = 1 then (s.modLink n fun l => { l with mse := v.getLsbD 1, bme := v.getLsbD 2 }) else s
  if dw = 0 ∨ dw = 2 ∨ dw = 3 ∨ dw = 11 ∨ dw = 12 then s
  else if dw = Config.capability 0 + 1 then
    (s.modLink n fun l =>
      { l with
        d3hot := if v.getLsbD 0 && v.getLsbD 1 then true else if v.getLsbD 0 || v.getLsbD 1 then l.d3hot else false,
        pmeEn := v.getLsbD 8, pmeStatus := l.pmeStatus && !v.getLsbD 15, l1 := false }).wakeLink n
  else if dw = Config.capability 1 + 2 then
    if v.getLsbD 15 then s.linkReset n false else keep (s.modLink n fun l => { l with mrrs := v.extractLsb' 12 3 })
  else if dw = Config.capability 1 + 4 then keep (s.modLink n fun l => { l with aspm := v.getLsbD 1 })
  else if dw = Config.capability 1 + 10 then keep (s.modLink n fun l => { l with cto := v.setWidth 4 })
  else if dw = Config.capability 2 then (s.modLink n fun l => { l with msixEnable := v.getLsbD 31, msixMaskAll := v.getLsbD 30 }).wakeLink n
  else if dw = Config.capability 3 + 1 then s.modLink n fun l => { l with aer := l.aer &&& ~~~v }
  else if dw = Config.capability 3 + 4 then s.modLink n fun l => { l with aerCor := l.aerCor &&& ~~~v }
  else (keep s).wakeLink n

/-- CONFIG_ACCESS: a Type 0 access of 1, 2 or 4 bytes within one dword; a write replaces the bytes it names. -/
def State.configAccess (s : State) (n : Nat) (write : Bool) (off size : Nat) (v : BitVec 32) : State :=
  if !(s.link n).up then s
  else if size = 0 ∨ 4 < off % 4 + size ∨ 4096 ≤ off then s.unsupported n true
  else
    let dw := off / 4
    let now := s.configRead n dw
    if write then
      let mask := BitVec.ofNat 32 ((2 ^ (8 * size) - 1) * 2 ^ (8 * (off % 4)))
      -- bytes that a write does not name keep their bits; bits that clear when written are written as 0 there
      let old := if dw = Config.capability 3 + 1 ∨ dw = Config.capability 3 + 4 then 0 else if dw = Config.capability 0 + 1 then now &&& 0xFFFF7FFF else now
      (s.configWrite n dw (under mask (v <<< (8 * (off % 4))) old)).modLink n fun l => { l with sent := l.sent ++ [.completion [] .success] }
    else s.modLink n fun l => { l with sent := l.sent ++ [.completion ((leBytes 4 now.toNat).drop (off % 4) |>.take size) .success] }

def execConfigAccess (link : Nat) (write : Bool) (offset size : Nat) (value : BitVec 32) (s : State) : Out :=
  done (if link < 2 then s.configAccess link write offset size value else s)

/-! ## Memory requests (R346 to R348) -/

/-- A read of stack memory as the host sees it through BAR4: its data, EP, or Unsupported Request at a hole (R346). -/
def State.hostRead (s : State) (a n : Nat) : Option (List Byte × CplStatus) × State :=
  let (b, st, s) := s.memRead a n
  match st with
  | .hole => (none, s)
  | .ok => (some (b, .success), s)
  | _ => (some (b, .poisoned), s)

/-- BAR4_ACCESS. -/
def State.bar4 (s : State) (n : Nat) (write : Bool) (off len : Nat) (bytes : List Byte) : State :=
  let l := s.link n
  if !l.up then s
  else if !l.memory ∨ len = 0 ∨ 512 < len ∨ 2 ^ 36 < off + len ∨ (write ∧ bytes.length ≠ len) then s.unsupported n (!write)
  else
    let a := l.aperture.toNat * 2 ^ 30 + off
    if write then if s.rangeStatus a len = .hole then s.unsupported n false else (s.memWrite a bytes (.upstream n)).outsideData a len
    else
      match s.hostRead a len with
      | (some (b, st), s) => s.modLink n fun l => { l with sent := l.sent ++ [.completion b st] }
      | (none, s) => s.unsupported n true

def execBar4Access (link : Nat) (write : Bool) (offset length : Nat) (bytes : List Byte) (s : State) : Out :=
  done (if link < 2 then s.bar4 link write offset length bytes else s)

/-- UNSUPPORTED_HOST_REQUEST: a request of a kind that the module refuses; Vendor-Defined Type 1 messages are discarded in silence,
and messages and posted writes get no completion (R348). -/
def execUnsupportedHostRequest (link : Nat) (request : BadRequest) (s : State) : Out :=
  if link < 2 ∧ (s.link link).up then
    match request with
    | .vendorType1 => done s
    | .vendorType0 => done (s.unsupported link false)
    | .memOutside write => done (s.unsupported link (!write))
    | .bar2 write => done (s.unsupported link (!write))
    | _ => done (s.unsupported link true)
  else done s

end Sys2Proof.Machine
end

