-- ==== Sys2Proof/Machine/Downstream.lean ====
section
/-! DEFINITION. The downstream ports (chapter 10): slot and contained mode, peer windows, the port messages, and the cellar devices
behind the ports (R324 to R332, R338). -/

namespace Sys2Proof.Machine

/-- A slot state as SLOT_STAT_n and PORT_EVENT number it. -/
def SlotState.code : SlotState → Nat
  | .empty => 0 | .off => 1 | .buttonWait => 2 | .powering => 3 | .on => 4 | .requested => 5 | .releasing => 6 | .fault => 7
  | .frozen => 8 | .resetting => 9

/-- PORT_EVENT. -/
def State.portEvent (s : State) (kind port cause seq : Nat) (ok : Bool := true) : State :=
  s.raise 0x0680 ([kind, port, (s.port port).state.code, cause].map (BitVec.ofNat 8) ++ zeros 4) 0xFFFF seq
    (if ok then 0 else Status.faulted.code)

/-! ## Cellar devices (R324 to R332) -/

def State.cellar (s : State) (n : Nat) : Cellar := fgetD {} s.mem.cellars n
def State.modCellar (s : State) (n : Nat) (f : Cellar → Cellar) : State := s.modMem fun m => { m with cellars := fupd {} m.cellars n f }

/-- The module address of a region, by its key in the region map. -/
def regionAddr (key : Nat) : Nat := cellarBase + key / 1024 * 2 ^ 40 + key % 1024 * 2 ^ 30

/-- The regions that a device backs, by key. -/
def Mem.backed (m : Mem) (d : Nat) : List Nat := (m.regions.filter fun e => e.2.device == some d).map (·.1)

/-- A device is enumerated: it backs the vacated regions of every window in ascending order, up to its capacity, and then the
regions of its own window that never had a backing (R324, R331). -/
def State.cellarEnumerated (s : State) (n capacity : Nat) : State :=
  let vacated := (s.mem.regions.filter (·.2.vacated)).map (·.1)
  let fresh := ((List.range 1024).map (1024 * n + ·)).filter fun k => (fget s.mem.regions k).isNone
  let keys := (vacated ++ fresh).take (min capacity 1024)
  ((s.modMem fun m =>
    { m with regions := keys.zipIdx.foldl (fun r (k, i) => fset r k { device := some n, devRegion := i, port := n }) m.regions }).modCellar n fun c =>
      { c with present := true, capacity := min capacity 1024, releasing := false, released := false, lost := false, targets := [], switched := 0, copied := 0 }).settle

/-- R332: a device has left without release, or has failed: the regions that it still backs are lost and vacated, and an evacuation of it ends. -/
def State.cellarLost (s : State) (n : Nat) : State :=
  if !(s.cellar n).present ∨ (s.cellar n).released then s
  else
    let ks := s.mem.backed n
    let s := s.modMem fun m =>
      { m with regions := fmap m.regions fun k (r : Region) => if ks.contains k then { r with device := none, lost := true, vacated := true, held := [] } else r }
    let s := s.modCellar n fun c => { c with present := false, releasing := false, lost := true, targets := [], switched := 0, copied := 0 }
    (s.memEvent 6 n 0xFF ks.length 0).degrade

/-- Whether the cellar fills run: they pause at stage S1 or deeper and under R279. -/
def State.fills (s : State) : Bool := s.stage == 0 && !s.timedRuns && s.firm.mstate != .auxOnly

/-- CELLAR_FILL_DONE: the region that a device fills next (one that holds writes, else its lowest) holds zeros, and the held writes
complete (R325, R326). -/
def State.fillDone (s : State) (n region : Nat) : State :=
  let open_ := (s.mem.regions.filter fun e => e.2.device == some n && !e.2.filled)
  let waiting := open_.any fun e => e.2.held != []
  let lowest := open_.foldl (fun (b : Option Nat) e => match b with | some x => some (min x e.2.devRegion) | none => some e.2.devRegion) none
  match open_.find? fun e => e.2.devRegion == region with
  | none => s
  | some (key, r) =>
    if s.fills && (if waiting then r.held != [] else lowest == some region) then
      let s := (s.modMem fun m => { m with regions := fset m.regions key { r with filled := true, held := [] } }).storeRange r.place 0x40000000 [] (fun _ => none) []
      let s := r.held.foldl (fun s w => s.putData w.1 w.2 (.cellar n)) s
      if open_.length = 1 then s.memEvent 4 n 0xFF (s.mem.backed n).length 0 else s
    else s

def execCellarFillDone (port region : Nat) (s : State) : Out := done (s.fillDone port region)

/-- The written regions of a device, in ascending order. -/
def Mem.writtenRegions (m : Mem) (d : Nat) : List Nat :=
  (m.regions.filter fun e => e.2.device == some d && (e.2.written || e.2.held != [])).map (·.1)

/-- Whether a device's regions are all filled and it is in use (STATE 2). -/
def State.cellarReady (s : State) (n : Nat) : Bool :=
  let c := s.cellar n
  c.present && !c.releasing && !c.released && s.mem.regions.all fun e => e.2.device != some n || e.2.filled

/-- R328: the targets that a release may reserve, in order, as module addresses. -/
def State.evacTargets (s : State) (d base len : Nat) : List Nat :=
  ((s.mem.regions.filter fun e =>
      e.2.filled && !e.2.written && !e.2.hole && !e.2.lost && (match e.2.device with | some x => x != d && !(s.cellar x).releasing | none => false)).map
    fun e => regionAddr e.1) ++ (List.range (len / 0x40000000)).map fun i => base + i * 0x40000000

def cellarReleaseBlock : ReqBlock :=
  { opcode := 0x0502, states := [.ready, .degraded],
    bad := fun r s =>
      let a := r.f 8 8
      let n := r.f 16 8
      decide (7 < r.f 0 1) || r.resv 1 7 || a % 0x40000000 != 0 || n % 0x40000000 != 0 || (n == 0 && a != 0)
        || decide (giveUpBase s.mem.retirements.length < a + n),
    conflict := fun r s =>
      let p := s.port (r.f 0 1)
      !s.cellarReady (r.f 0 1) || p.contained || !(p.state == .on || p.state == .requested)
        || s.mem.cellars.any (·.2.releasing) || s.mem.retiring.isSome || s.stage != 0,
    short := fun r s =>
      decide ((s.evacTargets (r.f 0 1) (r.f 8 8) (r.f 16 8)).length < (s.mem.writtenRegions (r.f 0 1)).length),
    run := fun r s =>
      let d := r.f 0 1
      let ts := (s.mem.writtenRegions d).zip (s.evacTargets d (r.f 8 8) (r.f 16 8))
      let taken := ts.map (·.2)
      let s := s.modMem fun m =>
        { m with
          regions := fmap m.regions fun k (x : Region) => if taken.contains (regionAddr k) then { x with hole := true } else x,
          stackHoles := if r.f 16 8 = 0 then m.stackHoles else m.stackHoles ++ [(r.f 8 8, r.f 16 8)] }
      let s := s.modCellar d fun c => { c with releasing := true, targets := ts, switched := 0, copied := 0, seq := r.seq }
      deferred (s.modPort d fun p => { p with state := .releasing }) }

def execCellarRelease (slot : Nat) (s : State) : Out := done (serve cellarReleaseBlock slot s)

/-- Whether an address lies in a region that a device backs. -/
def Mem.onDevice (m : Mem) (d a : Nat) : Bool :=
  match mapAddr a with
  | .cellar p o => match m.region? p o with | some r => r.device == some d | none => false
  | _ => false

/-- R329 step 1: the run that a ledger run of a departing device moves to: one on another device, else one in stack memory. -/
def State.evacRun (s : State) (d : Nat) (l : Ledger) : Option (Nat × Nat) :=
  let inTier := fun (cellar : Bool) => (s.guest l.guest).pools.findSome? fun e =>
    if e.2.fits l && e.2.cellar == cellar then (e.2.freeRuns.find? fun a => !s.mem.onDevice d a).map fun a => (e.1, a) else none
  match inTier true with
  | some r => some r
  | none => inTier false

/-- R329 step 1: the runs that lie on a departing device and have somewhere to go, or are on their way: ledger and span. A run with no free target
stays and moves with its region. -/
def State.evacRuns (s : State) (d : Nat) : List (Nat × Nat) :=
  s.ledgers.live.flatMap fun e =>
    (e.2.runs.filter fun r => s.mem.onDevice d r.2.addr && (r.2.moving || (s.evacRun d e.2).isSome)).map fun r => (e.1, r.1)

/-- Such a run begins to move by R258; one that waits for the next step barrier does not, and a ledger moves one run at a time. -/
def State.beginEvac (s : State) (d n span : Nat) : State :=
  match s.ledger? n with
  | none => s
  | some l =>
    match fget l.runs span, s.evacRun d l with
    | some r, some (pool, a) =>
      if s.mem.onDevice d r.addr && !l.runs.any (·.2.moving) && decide (r.restarts < 4) && !s.timedGuest l.guest then
        (s.takeRun l.guest pool a).setRun n span (some { r with moving := true, fresh := some (pool, a) })
      else s
    | _, _ => s

/-- Whether a run moves. -/
def State.runMoves (s : State) (n span : Nat) : Bool := (((s.ledger? n).bind fun l => fget l.runs span).map (·.moving)).getD false

/-- R329 step 2: a region's map entry switches to its target. -/
def Mem.switchRegion (m : Mem) (k t : Nat) : Mem :=
  match fget m.regions k with
  | none => m
  | some r =>
    match mapAddr t with
    | .cellar p o =>
      match fget m.regions (regionKey p o) with
      | some x =>
        { m with regions := fset (fset m.regions k { r with device := x.device, devRegion := x.devRegion, port := x.port }) (regionKey p o) { x with device := none } }
      | none => m
    | _ => { m with regions := fset m.regions k { r with device := none, stackBase := some t } }

/-- Units of 64 KiB of the next written region are copied; with its last the region switches. -/
def State.evacUnits (s : State) (d n : Nat) : State :=
  let c := s.cellar d
  match c.targets[c.switched]? with
  | none => s
  | some (k, t) =>
    let n := min n (16384 - c.copied)
    let from_ := ((fget s.mem.regions k).map (·.place)).getD 0
    let s := s.copyPlace (from_ + 65536 * c.copied) (s.mem.targetPlace t + 65536 * c.copied) (65536 * n)
    if c.copied + n < 16384 then s.modCellar d fun c => { c with copied := c.copied + n }
    else (s.modMem (·.switchRegion k t)).modCellar d fun c => { c with switched := c.switched + 1, copied := 0 }

/-- Whether an evacuation of a device goes on now: it pauses at stage S1 or deeper. -/
def State.evacuating (s : State) (d : Nat) : Bool := (s.cellar d).releasing && s.stage == 0 && s.firm.mstate != .auxOnly

/-- A piece of an evacuation's work: a run begins or completes its move, or, when no run is left to move, a unit of a region is copied. -/
def State.evacTick (s : State) (d : Nat) : State :=
  if s.evacuating d then
    match s.evacRuns d with
    | [] => s.evacUnits d 1
    | e :: r =>
      match (e :: r).find? fun x => s.runMoves x.1 x.2 with
      | some x => s.runMoveDone x.1 x.2
      | none => (e :: r).foldl (fun s x => s.beginEvac d x.1 x.2) s
  else s

/-- EVACUATION_DONE: every run that can has moved, every written region has switched to its target, and the device is released and
its slot powered down (R329, R330). What is left of the copying is done by then; while a run still has to wait, the evacuation is not done. -/
def State.evacuated (s : State) (d : Nat) : State :=
  let c := s.cellar d
  if !s.evacuating d then s
  else
    let s := (s.evacRuns d).foldl (fun s e => (if s.runMoves e.1 e.2 then s else s.beginEvac d e.1 e.2).runMoveDone e.1 e.2) s
    if s.evacRuns d ≠ [] then s
    else
      let s := (List.range c.targets.length).foldl (fun s _ => s.evacUnits d 16384) s
      let s := s.modMem fun m =>
        { m with regions := fmap m.regions fun k (r : Region) =>
            if r.device = some d ∨ c.targets.any (fun t => t.2 == regionAddr k) then { vacated := true } else r }
      let s := s.modCellar d fun c => { c with present := false, releasing := false, released := true, targets := [], switched := 0, copied := 0 }
      let s := s.modPort d fun p =>
        { p with state := .off, powerEn := false, refclk := false, powerGood := false, perstHigh := false, linkUp := false, speed := 0, width := 0, outstanding := [], probing := false }
      let s := s.raise 0x0580 ([5, BitVec.ofNat 8 d, 0xFF, 0] ++ leBytes 4 c.targets.length ++ zeros 8) 0xFFFF c.seq
      s.portEvent 3 d 0 0

def execEvacuationDone (port : Nat) (s : State) : Out := done (s.evacuated port)

/-- CELLAR_MEDIA_EVENT: a device in service has an event record (R327). -/
def execCellarMediaEvent (port address : Nat) (s : State) : Out :=
  if (s.cellar port).present then done (s.memEvent 9 port 0xFF 0 address) else done s

/-! ## Slots (R358 to R363) -/

/-- A device loses its link: its requests fail, their tags being free, and its commands end (R361, R362, R366). -/
def State.cutRequests (s : State) (n : Nat) : State :=
  (s.modPort n fun p => { p with linkUp := false, probing := false, speed := 0, width := 0, outstanding := [], held := [], onSeq := none }).dropDriveParts n

/-- A slot whose power was on becomes EMPTY or FAULT: power goes off, and what the device held is lost (R361, R332). In FAULT the port is down
(R47, notes/assumptions/74.md). -/
def State.slotOff (s : State) (n : Nat) (st : SlotState) : State :=
  let on := (s.port n).powerEn
  let s := s.modPort n fun p => { p with state := st, powerEn := false, refclk := false, powerGood := false, perstHigh := if p.powerEn then false else p.perstHigh }
  let s := if on then ((s.cutRequests n).loseDrive n).cellarLost n else s
  if st = .fault then s.portLost n else s.portBack n

/-- A slot begins to power on (R363). -/
def State.slotPowerOn (s : State) (n : Nat) (seq : Option Nat) : State :=
  s.modPort n fun p => { p with state := .powering, powerEn := true, refclk := true, powerGood := false, perstHigh := false, linkUp := false, onSeq := seq }

/-- SLOT_PRESENCE_CHANGE: a contained port records presence and does not act on it (R364); BUTTON_WAIT entered from OFF has no such transition
(R360). -/
def State.presence (s : State) (n : Nat) (present : Bool) : State :=
  let p := s.port n
  let s := s.modPort n fun p => { p with present }
  if p.contained ∨ p.present = present then s
  else if present then (if p.state = .empty then s.modPort n fun p => { p with state := .off } else s)
  else if p.powerEn then (s.slotOff n .empty).portEvent 4 n 0 0
  else if p.state = .off ∨ p.state = .fault then (s.modPort n fun p => { p with state := .empty }).portBack n
  else s

def execSlotPresenceChange (port : Nat) (present : Bool) (s : State) : Out := done (if port < 8 then s.presence port present else s)

/-- SLOT_BUTTON_PRESS. -/
def execSlotButtonPress (port : Nat) (s : State) : Out :=
  let p := s.port port
  if 8 ≤ port ∨ p.contained then done s
  else if p.state = .off ∨ p.state = .on then done (s.modPort port fun p => { p with before := p.state, state := .buttonWait })
  else if p.state = .buttonWait then done ((s.modPort port fun p => { p with state := p.before }).portEvent 1 port 0 0)
  else done s

/-- SLOT_BUTTON_TIMEOUT: 5 s in BUTTON_WAIT without a press. -/
def execSlotButtonTimeout (port : Nat) (s : State) : Out :=
  let p := s.port port
  if 8 ≤ port ∨ p.state ≠ .buttonWait then done s
  else if p.before = .on then done ((s.modPort port fun p => { p with state := .requested }).portEvent 0 port 0 0)
  else done (s.slotPowerOn port none)

/-- Whether a port is on its way into service: powering on, resetting, a contained port before its first link or whose device is still being
enumerated, or a frozen port that PORT_RELEASE resets (R362 to R364, R367). -/
def Port.starting (p : Port) : Bool :=
  p.powerEn && (p.probing || p.state == .powering || p.state == .resetting || (p.contained && p.state == .off) || (p.state == .frozen && p.releaseSeq.isSome))

def execSlotPowerGood (port : Nat) (s : State) : Out :=
  done (if port < 8 ∧ (s.port port).starting then s.modPort port fun p => { p with powerGood := true } else s)

def execSlotPerstRelease (port : Nat) (s : State) : Out :=
  let p := s.port port
  done (if port < 8 ∧ p.starting ∧ p.powerGood then s.modPort port fun p => { p with perstHigh := true } else s)

/-- The lowest of a downstream port's 1,024 tags that is free (R349, R357). -/
def Port.freeTag (p : Port) : Option Nat := (List.range 1024).find? fun t => (fget p.outstanding t).isNone && (fget p.quarantine t).isNone

/-- A request to a device takes the lowest free tag, and waits while none is free (R349, R357). -/
def Port.request (p : Port) (tx : HostTx) : Port :=
  match p.freeTag with
  | some t => { p with outstanding := fset p.outstanding t { tx, timeoutMs := 40 } }
  | none => { p with held := p.held ++ [tx] }

/-- A freed tag goes to the oldest request that waits. -/
def Port.flush (p : Port) : Port :=
  match p.held, p.freeTag with
  | tx :: r, some _ => ({ p with held := r } : Port).request tx
  | _, _ => p

/-- SLOT_LINK_UP: the link is up, a contained port enters ON at its first (R364), and the first configuration request goes out. -/
def execSlotLinkUp (port speed width : Nat) (s : State) : Out :=
  let p := s.port port
  done (if port < 8 ∧ p.starting ∧ p.perstHigh then
    s.modPort port fun p =>
      ({ p with
        linkUp := true, probing := true, speed := BitVec.ofNat 3 speed, width := BitVec.ofNat 4 width,
        state := if p.contained && p.state == .off then .on else p.state } : Port).request (.read none 0 4 .other)
    else s)

/-- SLOT_ENUMERATED: the port enters ON; a cellar device of the given whole regions backs its regions. -/
def State.enumerated (s : State) (n capacity : Nat) : State :=
  let p := s.port n
  if p.starting && p.linkUp then
    let s := s.modPort n fun p => { p with state := .on, probing := false, outstanding := [], onSeq := none, releaseSeq := none }
    let s := (if p.cxl then s.cellarEnumerated n capacity else s).portBack n
    if p.state = .frozen then s.portEvent 7 n 0 (p.releaseSeq.getD 0)
    else if p.contained then s
    else s.portEvent 2 n 0 (p.onSeq.getD 0)
  else s

def execSlotEnumerated (port capacity : Nat) (s : State) : Out := done (if port < 8 then s.enumerated port capacity else s)

/-- SLOT_POWER_TIMEOUT: no power good within 100 ms, or no link within 1 s. -/
def State.powerTimeout (s : State) (n : Nat) : State :=
  let p := s.port n
  if p.starting && !p.linkUp then
    if p.state = .powering then (s.slotOff n .fault).portEvent 5 n 0 (p.onSeq.getD 0) false
    else if p.state = .resetting then (s.slotOff n .fault).portEvent 9 n p.freezeCause.toNat 0
    else if p.state = .frozen then
      (s.modPort n fun p => { p with releaseSeq := none, perstHigh := false }).portEvent 7 n 0 (p.releaseSeq.getD 0) false
    else s
  else s

def execSlotPowerTimeout (port : Nat) (s : State) : Out := done (if port < 8 then s.powerTimeout port else s)

/-- SLOT_POWER_FAULT: DN_n_PWR_FLT_L goes low on a slot whose power is on. -/
def execSlotPowerFault (port : Nat) (s : State) : Out :=
  let p := s.port port
  if port < 8 ∧ !p.contained ∧ p.powerEn then done ((s.slotOff port .fault).portEvent 5 port 0 (p.onSeq.getD 0) false) else done s

/-! ## Freezes (R362, R365, R366) -/

/-- AON cycles of 60 s. -/
def minuteCycles : Nat := 60 * 25000000

/-- FREEZE_TRIGGER: a contained port freezes, in OFF too; a slot-mode port in use goes into RESETTING, and at the third trigger within 60 s into
FAULT; in any other state the trigger is recorded alone, and in FROZEN it changes nothing. -/
def State.freeze (s : State) (n cause : Nat) : State :=
  let p := s.port n
  let now := s.firm.aon
  let times := p.triggers.filter (fun t => now < t + minuteCycles) ++ [now]
  let third := decide (3 ≤ times.length)
  let count := fun (s : State) => s.modPort n fun p =>
    { p with freezeCause := BitVec.ofNat 4 cause, recoveries := satInc p.recoveries, triggers := times,
             timeouts := if cause = 4 then satInc p.timeouts else p.timeouts }
  let note := fun (s : State) => s.modPort n fun p =>
    { p with freezeCause := BitVec.ofNat 4 cause, timeouts := if cause = 4 then satInc p.timeouts else p.timeouts }
  if p.contained then
    if p.state = .frozen then s
    else
      let s := ((count s).modPort n fun p => { p with state := .frozen, releaseSeq := none }).cutRequests n
      ((s.portEvent 6 n cause 0).cellarLost n).portLost n
  else if p.state = .on ∨ p.state = .requested ∨ (p.state = .buttonWait ∧ p.before = .on) then
    let s := ((count s).modPort n fun p => { p with state := .resetting, perstHigh := false }).cutRequests n
    let s := (s.portEvent 8 n cause 0).cellarLost n
    if third then (s.slotOff n .fault).portEvent 9 n cause 0 else s
  else if p.state = .resetting then
    let s := (note s).modPort n fun p => { p with triggers := times }
    if third then (s.slotOff n .fault).portEvent 9 n cause 0 else s
  else note s

def execFreezeTrigger (port cause : Nat) (s : State) : Out := done (if port < 8 ∧ 1 ≤ cause ∧ cause ≤ 8 then s.freeze port cause else s)

/-! ## Completions of either side (R349 to R352, R357) -/

/-- A completion on a downstream port: one with CA status, with poisoned data, or for no request, is a freeze trigger (R365). -/
def State.portCompletion (s : State) (n tag : Nat) (st : CplStatus) (b : List Byte) : State :=
  match fget (s.port n).outstanding tag with
  | none => s.freeze n 5
  | some o =>
    let fin := o.tx.length ≤ o.got.length + b.length ∨ st ≠ .success
    let s := s.modPort n fun p =>
      if fin then ({ p with outstanding := fdel p.outstanding tag } : Port).flush
      else { p with outstanding := fset p.outstanding tag { o with got := o.got ++ b } }
    match st with
    | .ca => s.freeze n 8
    | .poisoned => s.freeze n 2
    | _ => s

/-- A request to a device times out: a freeze trigger, its tag in quarantine. -/
def State.portTimeout (s : State) (n tag : Nat) : State :=
  match fget (s.port n).outstanding tag with
  | none => s
  | some o =>
    (s.modPort n fun p => { p with outstanding := fdel p.outstanding tag, quarantine := fset p.quarantine tag o.timeoutMs }).freeze n 4

/-- COMPLETION_ARRIVE, COMPLETION_TIMEOUT and QUARANTINE_EXPIRE: links 0 and 1 are UP_0 and UP_1, and 2 + n is DN_n. -/
def execCompletionArrive (link tag : Nat) (status : CplStatus) (bytes : List Byte) (s : State) : Out :=
  done (if link < 2 then (if (s.link link).up then s.completion link tag status bytes else s)
    else if link < 10 then (if (s.port (link - 2)).linkUp then s.portCompletion (link - 2) tag status bytes else s) else s)

def execCompletionTimeout (link tag : Nat) (s : State) : Out :=
  done (if link < 2 then s.timeout link tag else if link < 10 then s.portTimeout (link - 2) tag else s)

def execQuarantineExpire (link tag : Nat) (s : State) : Out :=
  done (if link < 2 then (s.modLink link fun l => { l with quarantine := fdel l.quarantine tag }.flush)
    else if link < 10 then s.modPort (link - 2) fun p => ({ p with quarantine := fdel p.quarantine tag } : Port).flush else s)

/-! ## Peer windows (R368 to R372) -/

def Window.base (w : Window) : Nat := 4096 * w.devBase.toNat
def Window.size (w : Window) : Nat := 4096 * w.length.toNat
def Window.holds (w : Window) (a : Nat) : Bool := w.valid && decide (w.base ≤ a) && decide (a < w.base + w.size)

/-- The lowest-numbered active window of a bus address. -/
def Port.window (p : Port) (a : Nat) : Option Window := ((List.range 16).find? fun k => (fgetD {} p.active k).holds a).map fun k => fgetD {} p.active k

/-- A write at a module physical address from a device: tile stores in use take PACK words (R31, R156); burst-queue memory is none of a peer's
(R387). -/
def State.busWrite (s : State) (n a : Nat) (b : List Byte) : State :=
  match mapAddr a with
  | .tile p off =>
    if (s.mesh.serves p).isSome ∧ off + b.length ≤ 0x180000 then (s.arriveBytes p off b).breakTile p else s
  | .burst _ => s
  | _ => (s.memWrite a b (.port n)).outsideData a b.length

/-- A read at a module physical address by a device; none at a hole. -/
def State.busRead (s : State) (a n : Nat) : Option (List Byte × CplStatus) × State :=
  match mapAddr a with
  | .tile p off =>
    if (s.mesh.serves p).isSome ∧ off + n ≤ 0x180000 then
      let bad := (wordsIn off n).any (s.tile p).bad
      (some ((s.tile p).bytes off n, if bad then .poisoned else .success), s.readFinds p (wordsIn off n))
    else (none, s)
  | .burst _ => (none, s)
  | _ => s.hostRead a n

/-- PEER_REQUEST: an inbound request below the engine range is translated, or refused and counted; one in that range is an engine's own, whose
tables the spec does not lay out: a read is answered with free bytes, and a write changes nothing here (R357, notes/assumptions/45.md). One that a
drain holds back, or that a frozen port discards, changes nothing. -/
def State.peerRequest (s : State) (n : Nat) (write : Bool) (a len : Nat) (bytes : List Byte) : State :=
  let p := s.port n
  let answer := fun (s : State) (b : List Byte) (st : CplStatus) => s.modPort n fun p => { p with sent := p.sent ++ [.completion b st] }
  if !p.linkUp ∨ p.draining ∨ p.state = .frozen ∨ len = 0 ∨ (write ∧ bytes.length ≠ len) then s
  else if 2 ^ 63 ≤ a then
    if write then s
    else
      let (b, s) := s.freeBytes len
      answer s b .success
  else
    match p.window a with
    | some w =>
      if a + len ≤ w.base + w.size ∧ (if write then w.write else w.read) then
        let t := 4096 * w.target.toNat + (a - w.base)
        if write then s.busWrite n t bytes
        else match s.busRead t len with
          | (some (b, st), s) => answer s b st
          | (none, s) => answer s [] .ur
      else
        let s := s.modPort n fun p => { p with winMiss := satInc p.winMiss }
        if write then s else answer s [] .ur
    | none =>
      let s := s.modPort n fun p => { p with winMiss := satInc p.winMiss }
      if write then s else answer s [] .ur

def execPeerRequest (port : Nat) (write : Bool) (address length : Nat) (bytes : List Byte) (s : State) : Out :=
  done (if port < 8 then s.peerRequest port write address length bytes else s)

/-- WINDOW_COMMIT: a write of 1 to COMMIT starts the drain; a port that is not ON copies its shadow set at once. -/
def State.windowCommit (s : State) (n : Nat) : State :=
  let p := s.port n
  if p.commit then s
  else if p.state = .on then s.modPort n fun p => { p with commit := true, draining := true }
  else s.modPort n fun p => { p with active := p.shadow }

def execWindowCommit (port : Nat) (s : State) : Out := done (if port < 8 then s.windowCommit port else s)

/-- Whether a write that a window of the port has let in still waits for a cellar region (R326, R371). -/
def State.peerWaits (s : State) (p : Port) : Bool :=
  s.mem.regions.any fun e => e.2.held.any fun w => p.active.any fun x => x.2.valid && decide (4096 * x.2.target.toNat ≤ w.1) && decide (w.1 < 4096 * x.2.target.toNat + x.2.size)

/-- WINDOW_SWAP: the requests already taken have completed, and the shadow set becomes the active one. -/
def execWindowSwap (port : Nat) (s : State) : Out :=
  let p := s.port port
  done (if port < 8 ∧ p.commit ∧ !s.peerWaits p ∧ s.porter.waits.all (·.who != .port port) then
    s.modPort port fun p => { p with active := p.shadow, commit := false, draining := false } else s)

/-! ## Messages (R374 to R377) -/

def portConfigBlock : ReqBlock :=
  { opcode := 0x0601,
    bad := fun r _ => decide (7 < r.f 0 1) || decide (1 < r.f 1 1) || decide (1 < r.f 2 1) || r.resv 3 5,
    conflict := fun r s => let st := (s.port (r.f 0 1)).state; !(st == .empty || st == .off || st == .frozen),
    run := fun r s =>
      let n := r.f 0 1
      let contained := r.f 1 1 == 1
      let cxl := r.f 2 1 == 1
      let s := s.writeRecord fun x => { x with ports := fset x.ports n (contained, cxl) }
      { state := s.modPort n fun p =>
          if contained = p.contained then { p with cxl }
          else if contained then { p with contained, cxl, state := .off, powerEn := true, refclk := true, powerGood := false, perstHigh := false, attnHold := false }
          else { p with contained, cxl, state := if p.present then .off else .empty, powerEn := false, refclk := false, powerGood := false, perstHigh := false, releaseSeq := none } } }

/-- Whether a drive backs a namespace. -/
def State.driveInUse (s : State) (n : Nat) : Bool :=
  s.storage.namespaces.any fun e => e.2.extents.any fun x => !x.remote && x.port == n

def slotControlBlock : ReqBlock :=
  { opcode := 0x0602,
    bad := fun r _ => decide (7 < r.f 0 1) || decide (4 < r.f 1 1) || r.resv 2 6,
    conflict := fun r s =>
      let n := r.f 0 1
      let p := s.port n
      p.contained || (match r.f 1 1 with
        | 0 => !(p.state == .off || (p.state == .fault && p.present)) || s.stage != 0
        | 1 => !(p.state == .on || p.state == .requested) || (p.cxl && (s.cellar n).present && !(s.cellar n).released)
            || s.driveInUse n || p.active.any (·.2.valid)
        | 2 => p.state != .requested
        | _ => false),
    run := fun r s =>
      let n := r.f 0 1
      match r.f 1 1 with
      | 0 => deferred (s.slotPowerOn n (some r.seq))
      | 1 =>
        let s := (s.modPort n fun p => { p with state := .off, powerEn := false, refclk := false, powerGood := false, perstHigh := false }).cutRequests n
        { state := s.portEvent 3 n 0 r.seq }
      | 2 => { state := (s.modPort n fun p => { p with state := .on }).portEvent 1 n 0 r.seq }
      | 3 => { state := s.modPort n fun p => { p with attnHold := true } }
      | _ => { state := s.modPort n fun p => { p with attnHold := false } } }

def portReleaseBlock : ReqBlock :=
  { opcode := 0x0603,
    bad := fun r _ => decide (7 < r.f 0 1) || r.resv 1 7,
    conflict := fun r s => (s.port (r.f 0 1)).state != .frozen || (s.port (r.f 0 1)).releaseSeq.isSome,
    run := fun r s => deferred (s.modPort (r.f 0 1) fun p => { p with releaseSeq := some r.seq, perstHigh := false, linkUp := false, probing := false }) }

def overlaySetBlock : ReqBlock :=
  { opcode := 0x0604, states := [.ready, .degraded],
    conflict := fun _ s => s.firm.staging.isSome || s.firm.activation.isSome,
    run := fun r s =>
      let h := fun o => BitVec.ofNat 16 (r.f o 2)
      deferred (s.modFirm fun f => { f with overlayWrites := f.overlayWrites ++ [({ svid0 := h 0, ssid0 := h 2, svid1 := h 4, ssid1 := h 6 }, r.seq)] }) }

/-- OVERLAY_WRITE_DONE: the Doorkeeper has written the overlay to every device with power (R377). -/
def State.overlayDone (s : State) : State :=
  match s.firm.overlayWrites with
  | [] => s
  | (o, seq) :: rest =>
    if s.coreUp doorkeeper then
      let put := fun (f : Flash) => if f.powered then { f with overlay := some o } else f
      let s := s.modFirm fun f => { f with overlayWrites := rest, flashA := put f.flashA, flashB := put f.flashB }
      s.raise 0x0680 ([10, 0xFF, 0, 0] ++ zeros 4) 0xFFFF seq
    else s

def execPortConfig (slot : Nat) (s : State) : Out := done (serve portConfigBlock slot s)
def execSlotControl (slot : Nat) (s : State) : Out := done (serve slotControlBlock slot s)
def execPortRelease (slot : Nat) (s : State) : Out := done (serve portReleaseBlock slot s)
def execOverlaySet (slot : Nat) (s : State) : Out := done (serve overlaySetBlock slot s)
def execOverlayWriteDone (s : State) : Out := done s.overlayDone

end Sys2Proof.Machine
end

