-- ==== Sys2Proof/Machine/Irq.lean ====
section
/-! DEFINITION. The firmware interrupt controllers (R567 to R571), the interrupt message store (R575 to R583), the sensor readings
(R584) and the telemetry ring (R585 to R589). -/

namespace Sys2Proof.Machine

/-! ## The firmware interrupt controller -/

/-- FIC_SOURCE_FIRE: a source of a core fires (R568); a core that is down keeps it pending (R572). -/
def execFicSourceFire (core source : Nat) (s : State) : Out :=
  done (if core < 19 ∧ source < 64 ∧ s.corePowered core then s.fire core source else s)

/-- FIC_TICK: 1 ms of AON time has passed. -/
def execFicTick (s : State) : Out := done (s.fireAll 2)

/-- R568: the lowest-numbered enabled and pending source becomes active; 64 if there is none. -/
def Core.claim (c : Core) : Nat × Core :=
  match (List.range 64).find? (c.claimable.getLsbD ·) with
  | some i =>
    let b : BitVec 64 := BitVec.ofNat 64 (2 ^ i)
    (i, { c with pend := c.pend &&& ~~~b, act := c.act ||| b })
  | none => (64, c)

/-- FIC_CLAIM: a read of FIC_CLAIM by a core's program. -/
def execFicClaim (core : Nat) (s : State) : Out :=
  done (if core < 19 ∧ s.coreUp core then s.modCore core fun c => c.claim.2 else s)

/-- R568, R571: an active source becomes inactive, an active-and-pending one pending; the watchdog starts anew at the time given. -/
def Core.complete (c : Core) (source now : Nat) : Core :=
  ({ c with act := c.act &&& ~~~(BitVec.ofNat 64 (2 ^ source)), watchdog := now } : Core).wake

/-- FIC_COMPLETE: a write to FIC_COMPLETE by a core's program. -/
def execFicComplete (core source : Nat) (s : State) : Out :=
  done (if core < 19 ∧ source < 64 ∧ s.coreUp core then s.modCore core fun c => c.complete source s.firm.aon else s)

/-- Whether a core takes an interrupt at its next bundle boundary (R569); a bundle that a branch's shadow or a repeat still holds
comes first (notes/assumptions/27.md). -/
def Core.takes (c : Core) : Bool :=
  !c.mask && c.due && c.ctx.shadow.isNone && c.ctx.rep.isNone && !c.ctx.stopped

/-- R569: the program counter is saved, MASK becomes 1, and issue goes on at SRAM offset 0x100. -/
def Core.interrupt (c : Core) : Core :=
  { c with epc := BitVec.ofNat 48 c.ctx.pc, mask := true, asleep := false, ctx := { c.ctx with pc := 0x100, waiting := none } }

/-- FIC_INTERRUPT_TAKE. -/
def execFicInterruptTake (core : Nat) (s : State) : Out :=
  done (if core < 19 ∧ s.coreUp core ∧ (s.core core).takes then s.modCore core Core.interrupt else s)

/-! ## The interrupt message store -/

/-- An entry as its 16 bytes read (R575). -/
def Vector.word (v : Vector) : Nat := 4 * v.addr.toNat + 2 ^ 64 * v.data.toNat + 2 ^ 96 * bit v.mask + 2 ^ 97 * bit v.pending

/-- An entry with its ADDR, DATA and MASK taken from 16 bytes. -/
def Vector.store (v : Vector) (w : Nat) : Vector :=
  { v with addr := BitVec.ofNat 62 (w / 4), data := BitVec.ofNat 32 (w / 2 ^ 64), mask := bitOf w 96 }

/-- A number with the `size` bytes at an offset replaced. -/
def spliceBytes (w off size v : Nat) : Nat :=
  w - bitsOf w (8 * (off + size) - 1) (8 * off) * 2 ^ (8 * off) + (v % 2 ^ (8 * size)) * 2 ^ (8 * off)

/-- IMS_WRITE: 4 or 8 aligned bytes of an entry are written. A pending message whose MASK becomes 0 leaves at once, unless its group's timer
still runs (R578). -/
def State.imsWrite (s : State) (v off size val : Nat) : State :=
  if v < 8192 ∧ s.firm.mstate ≠ .auxOnly ∧ (size = 4 ∨ size = 8) ∧ off % size = 0 ∧ off + size ≤ 16 then
    let e := s.vector v
    let s := s.modVector v fun e => e.store (spliceBytes e.word off size val)
    if e.mask ∧ !(s.vector v).mask ∧ e.pending ∧ (fget s.irq.timers (v / 8)).isNone then s.expireGroup (v / 8) else s
  else s

def execImsWrite (vector offset size : Nat) (value : BitVec 64) (s : State) : Out := done (s.imsWrite vector offset size value.toNat)

/-- HOLDOFF_EXPIRE: a running timer of a group expires. -/
def execHoldoffExpire (group : Nat) (s : State) : Out :=
  done (match fget s.irq.timers group with
    | some _ => (s.modIrq fun i => { i with timers := fdel i.timers group }).expireGroup group
    | none => s)

/-! ## Sensor readings -/

/-- The warmest reading, of two in two's complement. -/
def warmer (a b : BitVec 16) : BitVec 16 := if a.toInt < b.toInt then b else a

/-- SENSOR_SAMPLE: the sampler refreshes every reading and raises the peaks; a stack above 85 °C doubles its refreshes (R311), the first or the
last such stack changes REF for timed jobs, whose steps it breaks (R278, R280), and the supply is known to stand above 45.0 V or not (R541). -/
def State.sensorSample (s : State) (mainTenMv auxMv watts : BitVec 16) (temps : List (BitVec 16)) : State :=
  let ts := (temps.take 184).zipIdx
  let s := s.modIrq fun i =>
    { i with
      mainTenMv := mainTenMv, auxMv := auxMv, inputW := watts,
      peakW := if i.peakW.toNat < watts.toNat then watts else i.peakW,
      temps := ts.foldl (fun m (t, k) => fset m k t) i.temps,
      tempPeaks := ts.foldl (fun m (t, k) => fset m k (match fget m k with | some p => warmer p t | none => t)) i.tempPeaks }
  let hot := fun (s : State) => (List.range 16).any fun k => (s.stack k).hot
  let before := hot s
  let s := (ts.filter (168 ≤ ·.2)).foldl (fun s (t, k) => s.modStack (k - 168) fun c => { c with hot := decide (1360 < t.toInt) }) s
  let s := if hot s != before then s.breakAll else s
  s.modPower fun p => { p with main := decide (4500 < mainTenMv.toNat) }

def execSensorSample (mainTenMv auxMv watts : BitVec 16) (temps : List (BitVec 16)) (s : State) : Out :=
  done (if s.power.aux then s.sensorSample mainTenMv auxMv watts temps else s)

/-! ## The telemetry ring -/

/-- Whether records are only counted (R588). -/
def State.teleSkips (s : State) : Bool := decide (4 ≤ s.stage) || s.firm.mstate == .warmStart

/-- A record is written in ring order, or dropped and counted (R585, R587, R588). -/
def State.teleRecord (s : State) (type source : Nat) (data : List Byte) : State :=
  let i := s.irq
  if s.teleSkips ∨ i.teleEntries ≤ i.teleUsed then s.modIrq fun i => { i with teleLost := satInc i.teleLost, teleMark := true }
  else
    let bytes := [BitVec.ofNat 8 type, BitVec.ofNat 8 (bit i.telePhase + 2 * bit i.teleMark)] ++ leBytes 2 source
      ++ leBytes 4 s.net.time.toNat ++ slice data 0 56
    let wrap := decide (i.teleEntries ≤ i.teleTail + 1)
    (s.modIrq fun i =>
      { i with
        teleTail := if wrap then 0 else i.teleTail + 1, teleUsed := i.teleUsed + 1, teleMark := false,
        telePhase := if wrap then !i.telePhase else i.telePhase }).mgrWrite (i.teleBase + 64 * i.teleTail) bytes

/-- A type-2 sample of a queue of a port: DEPTH, queue and DELAY, as the last QUEUE_SAMPLE left them (R478, R585). -/
def Egress.sampleBytes (e : Egress) (q : Nat) : List Byte :=
  if 104 ≤ q then zeros 8
  else
    let x := fgetD (0, 0) e.sample q
    leBytes 3 x.1 ++ leBytes 1 q ++ leBytes 3 x.2 ++ [0]

/-- The 15 type-2 records of a port. -/
def State.teleQueues (s : State) (p : Nat) : State :=
  (List.range 15).foldl (fun s k =>
    s.teleRecord 2 p ((List.range 7).flatMap fun j => (s.egress p).sampleBytes (7 * k + j))) s

/-- TELE_QUEUE_BATCH: at a courier-time edge that QUEUE_US divides, the records of the selected ports and the ring's vector (R586). -/
def State.teleQueueBatch (s : State) : State :=
  let i := s.irq
  if i.teleRunning ∧ i.teleQueueUs ≠ 0 ∧ s.net.time.toNat % i.teleQueueUs = 0 then
    (((List.range 32).filter (i.telePorts.getLsbD ·)).foldl State.teleQueues s).msix i.teleVector
  else s

/-- TCLK_DIV's number for a divisor (R565). -/
def divCode (d : Nat) : Nat := if d = 4 then 0 else if d = 5 then 1 else if d = 6 then 2 else if d = 8 then 3 else 4

/-- TELE_SENSOR_BATCH: 7 records of 28 sensors each, one supply record, and the ring's vector (R586). -/
def State.teleSensorBatch (s : State) : State :=
  let i := s.irq
  if i.teleRunning ∧ i.teleSensorMs ≠ 0 then
    let s := (List.range 7).foldl (fun s k =>
      s.teleRecord 1 (28 * k) ((List.range 28).flatMap fun j =>
        if 183 < 28 * k + j then zeros 2 else leBytes 2 (fgetD 0 i.temps (28 * k + j)).toNat)) s
    let s := s.teleRecord 3 0 (leBytes 2 i.mainTenMv.toNat ++ leBytes 2 i.auxMv.toNat ++ leBytes 2 i.inputW.toNat
      ++ [BitVec.ofNat 8 s.stage, BitVec.ofNat 8 (divCode s.power.divisor)])
    s.msix i.teleVector
  else s

def execTeleQueueBatch (s : State) : Out := done s.teleQueueBatch
def execTeleSensorBatch (s : State) : Out := done s.teleSensorBatch

/-- A write of TELE_HEAD: the records before it are consumed, and their slots are free (R587). -/
def State.teleHeadWrite (s : State) (h : Nat) : State :=
  s.modIrq fun i =>
    let n := i.teleEntries
    { i with
      teleHead := BitVec.ofNat 15 h,
      teleUsed := if i.teleHead.toNat = h ∨ n = 0 then i.teleUsed else (i.teleTail + n - h % n) % n }

/-- Ports that a map selects. -/
def selected (m : Nat) : Nat := ((List.range 32).filter (bitOf m)).length

/-- R589: whether the ring would need more than 4 × 10^9 bytes per second. -/
def teleTooFast (ports queueUs sensorMs : Nat) : Bool :=
  let q := 15 * selected ports * 1000000
  let s := 8000
  if queueUs = 0 then (sensorMs != 0 && decide (4000000000 * sensorMs < 64 * s))
  else if sensorMs = 0 then decide (4000000000 * queueUs < 64 * q)
  else decide (4000000000 * queueUs * sensorMs < 64 * (q * sensorMs + s * queueUs))

def teleRingBlock : ReqBlock :=
  { opcode := 0x0D01,
    bad := fun r s =>
      let n := r.f 2 2
      decide (1 < r.f 0 1) || decide (63 < r.f 1 1) || decide (n < 64) || decide (32768 < n) || decide (2 ^ s.netPorts ≤ r.f 4 4)
        || r.f 8 8 % 4096 != 0 || decide (10000 < r.f 16 2) || r.resv 20 4 || teleTooFast (r.f 4 4) (r.f 18 2) (r.f 16 2),
    conflict := fun r s => (r.f 0 1 == 0) == s.irq.teleRunning,
    run := fun r s =>
      if r.f 0 1 = 0 then
        { state := s.modIrq fun i =>
            { i with
              teleRunning := true, teleHead := 0, teleVector := r.f 1 1, teleEntries := r.f 2 2, telePorts := BitVec.ofNat 32 (r.f 4 4),
              teleBase := r.f 8 8, teleSensorMs := r.f 16 2, teleQueueUs := r.f 18 2, teleTail := 0, teleUsed := 0, telePhase := true } }
      else { state := s.modIrq fun i => { i with teleRunning := false } } }

def execTeleRing (slot : Nat) (s : State) : Out := done (serve teleRingBlock slot s)

end Sys2Proof.Machine
end

