-- ==== Sys2Proof/Machine/Retire.lean ====
section
/-! DEFINITION. Rest points (R135 to R140), retirement in service (R17, R21 to R27, R142 to R153), and the record area's writes (R43). -/

namespace Sys2Proof.Machine

/-! ## Flash devices and record writes (R37, R43, R603) -/

/-- A flash device: FLASH_A (false) or FLASH_B (true). -/
def State.flash (s : State) (b : Bool) : Flash := if b then s.firm.flashB else s.firm.flashA
def State.modFlash (s : State) (b : Bool) (f : Flash → Flash) : State :=
  s.modFirm fun m => if b then { m with flashB := f m.flashB } else { m with flashA := f m.flashA }

/-- SERVICE_EVENT. -/
def State.serviceEvent (s : State) (kind device : Nat) (seq : Nat := 0) (ok : Bool := true) : State :=
  s.raise 0x0681 (leBytes 1 kind ++ leBytes 1 device ++ zeros 6) 0xFFFF seq (if ok then 0 else Status.faulted.code)

/-- R603: a releasing device whose record write has ended becomes released. -/
def State.finishRelease (s : State) (b : Bool) : State :=
  if (s.flash b).state = 2 ∧ !(s.firm.recordQueue.any (·.1 == b)) then
    ((s.modFlash b fun d => { d with state := 3 }).serviceEvent 1 (bit b) s.firm.releaseSeq).modFirm fun m => { m with releaseSeq := 0 }
  else s

/-- The write at the head of the queue completes: a device in service, or still finishing the write, holds that record, which it keeps
beside nothing that a cut-off write left. -/
def State.popRecord (s : State) : State :=
  match s.firm.recordQueue with
  | [] => s
  | (b, r) :: rest =>
    let s := s.modFirm fun m => { m with recordQueue := rest }
    let s := if (s.flash b).state = 1 ∨ (s.flash b).state = 2 then s.modFlash b fun d => { d with record := r, torn := none } else s
    s.finishRelease b

/-- Whether every write of a record has ended. -/
def State.recordDone (s : State) (seq : BitVec 32) : Bool := s.firm.recordQueue.all fun e => e.2.seq != seq

/-! ## How a retirement is served (R17, R21, R23, R26, R27) -/

/-- The die column's spare of a tile. -/
def spareOf (p : Nat) : Nat := physIndex (tileX p) (18 * (tileY p / 18) + 17)

/-- R17: whether the retirement of a tile shifts its die column. -/
def Mesh.shifts (m : Mesh) (p : Nat) : Bool :=
  m.skipRow (dieKeyOf p) == 17 && decide (tileY p % 18 ≤ 16) && !m.isRetired (spareOf p)

/-- The mapping with a tile retired and, for a shift, its local row skipped. -/
def Mesh.without (m : Mesh) (p : Nat) (shift : Bool) : Mesh :=
  { m with retired := addTo m.retired p, skip := if shift then fset m.skip (dieKeyOf p) (tileY p % 18) else m.skip }

/-- Reserve rows above the given number are no longer lent; the stand-ins that served their coordinates are released (R26). -/
def Mesh.takeBack (m : Mesh) (rows : Nat) : Mesh :=
  { m with
    lentRows := min m.lentRows rows, lentTo := if rows = 0 then none else m.lentTo,
    standIns := m.standIns.filter (·.1 < 64 * (64 + min m.lentRows rows)) }

/-- Of some coordinates, those in service that a retired tile serves, by logical index in ascending order. -/
def Mesh.needy (m : Mesh) (coords : List (Nat × Nat)) : List Nat :=
  ((coords.filter fun c => m.inService c.2 && m.isRetired (m.physicalOf c.1 c.2)).map fun c => logicalIndex c.1 c.2).mergeSort

/-- R21, R23, R27: stand-ins for the coordinates that need one, the busy reserve tiles aside; while none is left, the highest lent row is
taken back; what is left then is the coordinates whose rooms close. -/
def Mesh.fit : Nat → Mesh → List Nat → List (Nat × Nat) → Mesh × FMap Nat × List Nat
  | 0, m, _, cs => (m, [], m.needy cs)
  | f + 1, m, busy, cs =>
    let need := m.needy cs
    let free := m.reserveFree.filter fun l => !busy.contains l
    let given := need.zip free
    if free.length < need.length ∧ 0 < m.lentRows then (m.takeBack (m.lentRows - 1)).fit f busy cs
    else ({ m with standIns := given.foldl (fun t e => fset t e.1 e.2) m.standIns }, given, need.drop free.length)

/-- The tiles whose images a retirement may move, in the order of R145: those of the column from the spare's neighbour up to the retiring
tile for a shift, else the retiring tile. -/
def movers (p : Nat) (shift : Bool) : List Nat :=
  if shift then (List.range (17 - tileY p % 18)).map fun k => spareOf p - 64 * (k + 1) else [p]

/-- The plan of a retirement in the present mapping, without the halts. A reserve tile of a lent row whose column can still shift, for which
R26 names a stand-in and R17 a shift, shifts its column (notes/assumptions/62.md). -/
def State.plan (s : State) (r : Retirement) : Moving :=
  let m := s.mesh
  match m.serves r.tile with
  | none => { what := r, action := 4, lent := m.lentRows }
  | some _ =>
    let shift := m.shifts r.tile
    let from' := (movers r.tile shift).filterMap fun t => (m.serves t).map (t, ·)
    let (m', given, closes) := (m.without r.tile shift).fit 5 (s.busyReserve r.tile) (from'.map (·.2))
    let moved := from'.filter fun e =>
      m'.inService e.2.2 && !closes.contains (logicalIndex e.2.1 e.2.2) && m'.physicalOf e.2.1 e.2.2 != e.1
    { what := r,
      action := if shift then 1 else if m'.lentRows < m.lentRows then 5 else if closes = [] then 2 else 3,
      shift, given, lent := m'.lentRows, closes, coords := moved.map (·.2), moves := moved.map fun e => (e.1, m'.physicalOf e.2.1 e.2.2) }

/-- Every tile of the jobs that hold lent rows. -/
def State.lenderTiles (s : State) : List Nat := (s.jobs.filter fun e => e.2.live && e.2.lentRows != 0).flatMap fun e => s.jobTiles e.2

/-- The plan with step 1's halts: every tile of the rooms that own a moving coordinate, the moving tiles, the retiring tile, and, where a
lent row is taken back, every tile of the jobs that hold lent rows. -/
def State.planHalts (s : State) (r : Retirement) : Moving :=
  let m := s.plan r
  let rooms := ((m.coords.filter (·.2 < 64)).map fun c => roomOf c.1 c.2).dedup
  let lenders := if m.lent < s.mesh.lentRows then s.lenderTiles else []
  { m with
    rooms, since := s.firm.aon,
    halted := (r.tile :: (m.moves.map (·.1)) ++ ((rooms.flatMap roomTiles).map fun c => s.phys c.1 c.2) ++ lenders).dedup }

/-! ## The switch (R145 steps 4 and 5) -/

/-- The tile that receives an image: its own place, its counts and the halts of its cluster's Innkeeper, and everything the image holds with
the halts that follow the work (R143). -/
def Tile.receive (dst src : Tile) : Tile :=
  let crash := fun (h : Halter) => match h with | .crash _ => true | _ => false
  { src with
    halts := (dst.halts.filter crash ++ src.halts.filter (!crash ·)).dedup, atRest := true, latent := [], soft := [], regErrs := [],
    softCount := dst.softCount, imageIn := [] }

/-- A tile that holds no image any more keeps its halts. -/
def Tile.vacated (t : Tile) : Tile := { halts := t.halts, atRest := t.atRest, softCount := t.softCount }

/-- The reserve rows that stay lent: a row is taken back where the plan takes it back, or where it holds a stand-in that the plan gives
(R26, R27). -/
def Moving.lentAfter (m : Moving) (x : Mesh) : Nat :=
  (m.given.map fun e => e.2 / 64 - 64).foldl min (if m.action = 5 then min m.lent x.lentRows else x.lentRows)

/-- The coordinates that a retirement may move, from the present mapping: those planned, and the one that the retiring tile serves by now. -/
def Moving.allCoords (m : Moving) (x : Mesh) : List (Nat × Nat) := (m.coords ++ (x.serves m.what.tile).toList).dedup

/-- The tiles that serve the moving coordinates before and after a mapping. -/
def Moving.pairs (m : Moving) (a b : Mesh) : List (Nat × Nat) :=
  ((m.allCoords a).map fun c => (a.physicalOf c.1 c.2, b.physicalOf c.1 c.2)).filter fun e => e.1 != e.2 && !b.isRetired e.2

/-- A retirement's images at their new tiles; an image that could not be read arrives empty (R147). -/
def State.carry (s : State) (m : Moving) (moves : List (Nat × Nat)) : State :=
  let old := s.tiles
  let oldTile := fun (p : Nat) => fgetD {} old p
  let s := moves.foldl (fun s e =>
    let src := if m.unreadable && e.1 == m.what.tile then (oldTile e.1).vacated else oldTile e.1
    s.setTile e.2 ((oldTile e.2).receive src)) s
  s.modTile m.what.tile Tile.vacated

/-- The tile of an old place after moves. -/
def movedTo (moves : List (Nat × Nat)) (p : Nat) : Nat := match moves.find? (·.1 == p) with | some e => e.2 | none => p

/-- Router state follows the shifted rows: each router of the column below the retired row holds what its upper neighbour held. -/
def State.shiftRouters (s : State) (p : Nat) : State :=
  let old := s.routers
  { s with routers := fdel ((movers p true).foldl (fun r t => fset r (t + 64) (fgetD {} old t)) s.routers) p }

/-- R147, R534: jobs with a tile at a lost coordinate go on from their last step-boundary checkpoint. -/
def State.resumeLost (s : State) (c : Nat × Nat) : State :=
  (s.jobs.filter fun e => e.2.live && e.2.has c.1 c.2).foldl (fun s e => s.resumeSame e.1) s

/-- What a retirement comes to from the present mapping: the mapping, the stand-ins found only now, and the coordinates for which none is
left; `busy` are the reserve tiles of other retirements. A planned stand-in that serves another coordinate by now is not given again. -/
def Moving.fitted (m : Moving) (busy : List Nat) (x : Mesh) : Mesh × FMap Nat × List Nat :=
  let cs := (m.allCoords x).filter fun c => !m.closes.contains (logicalIndex c.1 c.2)
  let x := (x.without m.what.tile m.shift).takeBack (m.lentAfter x)
  ({ x with standIns := m.given.foldl (fun t e => if x.inService (e.1 / 64) && (x.standsFor e.2).isNone then fset t e.1 e.2 else t) x.standIns } : Mesh).fit
    5 busy cs

/-- The mapping that a retirement brings. -/
def Moving.after (m : Moving) (busy : List Nat) (x : Mesh) : Mesh := (m.fitted busy x).1

/-- The coordinates whose rooms a retirement closes: those planned, and those for which no stand-in is left any more (R23). -/
def Moving.allCloses (m : Moving) (busy : List Nat) (x : Mesh) : List Nat := (m.closes ++ (m.fitted busy x).2.2).dedup

/-- The tiles that step 1 has still to halt: those of the jobs that hold lent rows, where a row lent or first needed since the plan is taken
back (R27). -/
def State.lacking (s : State) (m : Moving) : List Nat :=
  if (m.after (s.busyReserve m.what.tile) s.mesh).lentRows < s.mesh.lentRows then (s.lenderTiles.filter fun p => !m.halted.contains p).dedup else []

/-- Whether the record areas' newest record holds the stand-ins that a retirement brings (R18). -/
def State.recorded (s : State) (m : Moving) : Bool :=
  let x := m.after (s.busyReserve m.what.tile) s.mesh
  (m.allCoords s.mesh).all fun c => fget s.firm.record.standIns (logicalIndex c.1 c.2) == fget x.standIns (logicalIndex c.1 c.2)

/-- Every router switches to the new mapping; parked packets are delivered, the halts are withdrawn, and the retirement is reported. -/
def State.switch (s : State) (c : Nat) (m : Moving) : State :=
  let p := m.what.tile
  let served := s.mesh.serves p
  let rows := s.mesh.lentRows
  let mesh := m.after (s.busyReserve p) s.mesh
  let closes := m.allCloses (s.busyReserve p) s.mesh
  let moves := m.pairs s.mesh mesh
  let parked := (s.cluster c).parked
  let s := s.carry m moves
  let s := if m.shift then s.shiftRouters p else s
  let after := fun (i : Nat) (k : Cluster) =>
    if i = c then
      ({ k with moving := none, parked := [], lastTile := BitVec.ofNat 9 (localIndex p), lastAction := BitVec.ofNat 4 m.action } : Cluster)
    else { k with moving := k.moving.map fun (o : Moving) => { o with halted := o.halted.map (movedTo moves) } }
  let s : State := { s with mesh := mesh, clusters := fmap s.clusters after }
  let s := parked.foldl (fun s k => s.deliver (s.phys k.dstX k.dstY) k) s
  let s := closes.foldl (fun s l => s.closeRoom (roomOf (l % 64) (l / 64))) s
  let s := (m.halted ++ moves.map (·.2)).foldl (fun s t => s.unhalt t (.retirement c)) s
  let s := if s.mesh.lentRows < rows then
      (s.jobs.filter fun e => e.2.live && e.2.lentRows != 0).foldl (fun s e => s.reslice e.1 s.mesh.lentRows) s
    else s
  let s := if m.unreadable then match served with | some xy => s.resumeLost xy | none => s else s
  let standIn := if m.shift then none else (m.given.head?).map fun e => s.phys (e.1 % 64) (e.1 / 64)
  let s := s.raise 0x0F80
    (leBytes 2 p ++ leBytes 1 m.what.cause ++ leBytes 1 m.action ++ leBytes 2 m.rooms.length ++ leBytes 2 (standIn.getD 0xFFFF)
      ++ leBytes 4 ((s.firm.aon - m.since) / 25) ++ zeros 4) 0xFFFF m.what.seq (if m.unreadable then Status.faulted.code else 0)
  s.breakAll

/-- The new map, skip rows and stand-in table of a retirement and of those that have asked before it are to be written. -/
def State.writeMap (s : State) (c : Nat) (m : Moving) : State :=
  let asked := ((s.clusters.filter (·.1 != c)).filterMap (·.2.moving)).filter (·.record.isSome)
  let x := (asked ++ [m]).foldl (fun x o => o.after (s.busyReserve o.what.tile) x) s.mesh
  let s := s.writeRecord fun r => { r with retired := x.retired, skip := x.skip, standIns := x.standIns }
  s.modCluster c fun k => { k with moving := some { m with record := some s.firm.record.seq } }

/-- Step 1 halts the tiles that it lacks, and the record waits for them. -/
def State.stretch (s : State) (c : Nat) (m : Moving) (lack : List Nat) : State :=
  let s := s.modCluster c fun k => { k with moving := some { m with halted := m.halted ++ lack, record := none } }
  (lack.foldl (fun s p => s.halt p (.retirement c)) s).breakAll

/-- R145 step 4: the switch comes once both records are written and every image has moved; IK_c's swap or restart holds it back (R75, R81).
What has changed since the plan is halted, and written, first (R18, R27, notes/assumptions/96.md). -/
def State.trySwitch (s : State) (c : Nat) : State :=
  match (s.cluster c).moving with
  | some m =>
    match m.record with
    | some q =>
      if m.moves = [] ∧ s.recordDone q ∧ s.coreUp (innkeeper c) then
        let lack := s.lacking m
        if lack = [] then (if s.recorded m then s.switch c m else s.writeMap c { m with record := none })
        else
          let s := s.stretch c m lack
          if lack.all fun p => (s.tile p).atRest then s.writeMap c { m with halted := m.halted ++ lack, record := none } else s
      else s
    | none => s
  | none => s

/-- R145 step 2: once the halted tiles are at rest points, the new map, skip rows and stand-in table are to be written. -/
def State.askRecord (s : State) (c : Nat) : State :=
  match (s.cluster c).moving with
  | some m =>
    if m.record = none ∧ m.halted.all (fun p => (s.tile p).atRest) ∧ s.coreUp (innkeeper c) then
      let lack := s.lacking m
      let t := if lack = [] then s else s.stretch c m lack
      if lack.all fun p => (s.tile p).atRest then (t.writeMap c { m with halted := m.halted ++ lack }).trySwitch c else t
    else s
  | none => s

/-! ## The rows -/

/-- Whether firmware serves its cluster now; a start's own steps come before its Innkeepers' work. -/
def State.inService (s : State) : Bool :=
  match s.firm.mstate with
  | .auxOnly | .coldStart | .warmStart => false
  | _ => true

/-- An Innkeeper takes the trigger at the head of its queue (R144, R145 step 1), and goes on at once where every tile that it halts stands at a
rest point already. A manager's request that finds its tile retired by now is reported with ACTION 4 (notes/assumptions/76.md). -/
def State.takeTrigger (s : State) (c : Nat) : State :=
  let k := s.cluster c
  match k.queue, k.moving with
  | r :: rest, none =>
    if s.coreUp (innkeeper c) then
      let s := s.modCluster c fun k => { k with queue := rest }
      if s.mesh.isRetired r.tile then
        if r.cause = 0 then s.raise 0x0F80 (leBytes 2 r.tile ++ [0, 4, 0, 0, 0xFF, 0xFF] ++ zeros 8) 0xFFFF r.seq else s
      else
        let m := s.planHalts r
        let s := s.modCluster c fun k => { k with moving := some m }
        ((m.halted.foldl (fun s p => s.halt p (.retirement c)) s).breakAll).askRecord c
    else s
  | _, _ => s

/-- RETIREMENT_BEGIN. -/
def State.beginRetirement (s : State) (c : Nat) : State := if s.inService then s.takeTrigger c else s

def execRetirementBegin (cluster : Nat) (s : State) : Out := done (if cluster < 16 then s.beginRetirement cluster else s)

/-- R135: a halted tile whose contexts have left every REPX and whose results have been delivered stands at a rest point. -/
def State.canRest (s : State) (p : Nat) : Bool :=
  let t := s.tile p
  s.halted p && !t.atRest && !s.power.tclkStopped && t.fnQueue.isEmpty && !t.ctxs.any fun e => e.2.assigned && e.2.inRepx

/-- What waits for rest points goes on: jobs that end, retirements and the closing of rooms. -/
def State.restPoint (s : State) : State :=
  let s := s.jobs.foldl (fun s e => s.endAtRest e.1) s
  let s := (List.range 16).foldl State.askRecord s
  s.finishCloses

/-- REST_POINT_REACHED. -/
def execRestPointReached (tile : Nat) (s : State) : Out :=
  done (if tile < 4608 ∧ s.canRest tile then (s.modTile tile fun t => { t with atRest := true }).restPoint else s)

/-- The next image of a retirement is carried: its reads find the source's errors, and the retiring tile's image may be unreadable
(R133, R143, R147). -/
def State.moveImage (s : State) (c : Nat) : State :=
  match (s.cluster c).moving with
  | some m =>
    match m.moves with
    | [] => s
    | (src, _) :: rest =>
      let bad := src == m.what.tile && (Config.freeWord s.fresh).getLsbD 0
      let s := if src = m.what.tile then { s with fresh := s.fresh + 1 } else s
      let s := if bad then s else s.imageFinds src
      s.modCluster c fun k => { k with moving := k.moving.map fun m => { m with moves := rest, unreadable := m.unreadable || bad } }
  | none => s

/-- IMAGE_MOVE_DONE: the Innkeeper moves images once the halted tiles are at rest points (R145 steps 2 and 3). -/
def execImageMoveDone (cluster : Nat) (s : State) : Out :=
  done (match (s.cluster cluster).moving with
    | some m => if cluster < 16 ∧ m.record.isSome ∧ s.coreUp (innkeeper cluster) ∧ !s.power.tclkStopped then (s.moveImage cluster).trySwitch cluster else s
    | none => s)

/-- R149: one cluster's retirement goes as far as the record writes allow, its halted tiles' state being kept as it stood. -/
def State.completeMove (s : State) (c : Nat) : State :=
  match (s.cluster c).moving with
  | some m =>
    let s := m.halted.foldl (fun s p => s.modTile p fun t => { t with atRest := true }) s
    let s := s.askRecord c
    let n := match (s.cluster c).moving with | some m => m.moves.length | none => 0
    ((List.range n).foldl (fun s _ => s.moveImage c) s).trySwitch c
  | none => s

/-- At warm start step 4 the Innkeepers complete the retirements that stage S4 stopped, and then those that wait (R149, R150,
notes/assumptions/77.md). -/
def State.completeMoves (s : State) : State :=
  (List.range 16).foldl (fun s c =>
    (List.range ((s.cluster c).queue.length + 1)).foldl (fun s _ => (s.completeMove c).takeTrigger c |>.completeMove c) s) s

def tileRetireBlock : ReqBlock :=
  { opcode := 0x0F10, states := [.ready, .degraded],
    bad := fun r _ => decide (4607 < r.f 0 2) || decide (1 < r.f 2 1) || r.resv 3 1,
    conflict := fun r s =>
      let m := s.plan { tile := r.f 0 2, cause := 0 }
      s.mesh.isRetired (r.f 0 2) || (r.f 2 1 == 0 && (m.closes != [] || decide (m.lent < s.mesh.lentRows))),
    run := fun r s => deferred (s.queueRetirement { tile := r.f 0 2, cause := 0, seq := r.seq }) }

def execTileRetire (slot : Nat) (s : State) : Out := done (serve tileRetireBlock slot s)

end Sys2Proof.Machine
end

