-- ==== Sys2Proof/Machine/FwCore.lean ====
section
/-! DEFINITION. The firmware cores (R34, R36, R74 to R85): images and their sections, crashes and restarts, SAFE_HOLD, the order of an
activation and its reversal, and the effective TCLK divisor (R546). -/

namespace Sys2Proof.Machine

/-! ## Images (R38, R39, R41) -/

/-- n bytes of an image from an offset: the 4 KiB header, then the body. -/
def Image.bytes (i : Image) (off n : Nat) : List Byte := slice (slice i.header 0 4096 ++ i.body) off n

/-- The entry of SECTIONS that a core's code comes from. -/
def sectionOf (core : Nat) : Nat := min core 3

/-- A core's section of an image, by SECTIONS of its header (notes/assumptions/28.md). -/
def Image.section (i : Image) (core : Nat) : List Byte :=
  let e := 80 + 8 * sectionOf core
  i.bytes (field i.header e 4) (field i.header (e + 4) 4)

/-- Code in a core's SRAM: PACK words from offset 0 on. -/
def sramOf (code : List Byte) : FMap TWord :=
  (List.range (ceilDiv code.length 8)).map fun k => (k, { tag := .pack, data := BitVec.ofNat 64 (field code (8 * k) 8) })

/-- R39: whether an image is valid at a rollback floor. -/
def Image.valid (i : Image) (floor : Nat) : Bool :=
  i.magic == 0x4B504C55 && i.hdrVersion == 1 && i.signed && decide (floor ≤ i.rollback) && i.intact

/-- R41: the measurement of an image. -/
def Image.measure (i : Image) : List Byte := sha384 (slice i.header 0 208)

/-! ## Loading a core -/

/-- A core's interrupt controller and context as a restart or a swap leaves them: FIC_PEND is kept, and what was active is pending again
(R572). -/
def Core.renew (c : Core) (run : CoreRun) : Core :=
  { c with
    run, ctx := {}, asleep := false, pend := c.pend ||| c.act, act := 0, enable := 0, mask := true, epc := 0 }

/-- A core runs code of an image from SRAM offset 0, with its watchdog started. -/
def State.loadCore (s : State) (c : Nat) (i : Image) : State :=
  s.modCore c fun k =>
    { (k.renew .running) with
      ctx := { assigned := true, ready := true }, sram := sramOf (i.section c), shadow := [], release := i.release, watchdog := s.firm.aon }

/-- R74: whether a core's context stands at a quiescent point: it owes no shadow and no repeat. -/
def Core.quiescent (k : Core) : Bool := k.ctx.shadow.isNone && k.ctx.rep.isNone

/-- R74: a core hands over to code of an image in its shadow bank. Its registers, its results in flight and its SRAM beyond the new code stay, and
it runs from SRAM offset 0 (notes/assumptions/75.md); of its interrupt controller FIC_PEND alone is kept (R572). -/
def Core.handOver (k : Core) (bank : FMap TWord) (release : BitVec 32) (now : Nat) : Core :=
  { k with
    pend := k.pend ||| k.act, act := 0, enable := 0, mask := true, epc := 0,
    run := .running, ctx := { k.ctx with assigned := true, ready := true, stopped := false, pc := 0, shadow := none, rep := none, waiting := none },
    asleep := false, sram := bank ++ k.sram.filter (bank.length ≤ ·.1), shadow := [], release, watchdog := now }

/-- A running core goes over to an image. -/
def State.handOver (s : State) (c : Nat) (i : Image) : State :=
  s.modCore c fun k => k.handOver (sramOf (i.section c)) i.release s.firm.aon

/-! ## The effective divisor (R546, R555, R557) -/

/-- The slowest divisor that the loop, the stage and the clamp ask for. -/
def State.divisorNow (s : State) : Nat :=
  let byStage := if s.stage = 0 then 4 else if s.stage = 1 then 5 else 8
  max s.power.loopDiv (max byStage (if s.power.clamp = .safe then 8 else 4))

/-- A divisor change is decided; it takes effect at the next epoch edge. -/
def State.decideDivisor (s : State) : State :=
  let d := s.divisorNow
  s.modPower fun p => { p with decided := if d = p.divisor then none else some d }

/-- The clamp's mode changes, which breaks every job's step (R280). -/
def State.setClamp (s : State) (c : Clamp) : State := ((s.modPower fun p => { p with clamp := c, clampRelease := false }).decideDivisor).breakAll

/-! ## SAFE_HOLD (R35, R48) -/

/-- The module enters SAFE_HOLD: every tile halts, and no start goes on. -/
def State.safeHold (s : State) (cause : Nat) (core : Nat := 0xFF) : State :=
  let old := s.firm.mstate
  let s := s.modFirm fun f => { f with mstate := .safeHold, startHeld := false, stepDone := false }
  (s.stateEvent old cause core).haltAll .safeHold

/-! ## Activation (R74 to R80) -/

/-- FW_EVENT. -/
def State.fwEvent (s : State) (kind core : Nat) (release : BitVec 32) (seq : Nat) (ok : Bool := true) : State :=
  s.raise 0x0E80 (leBytes 1 kind ++ leBytes 1 core ++ [0, 0] ++ leBytes 4 release.toNat) 0xFFFF seq (if ok then 0 else Status.faulted.code)

/-- The flash device that does not hold the running image. -/
def State.otherDevice (s : State) : Bool := !s.firm.runningB

/-- A device whose image is gone: erased, it holds no valid image and is failed (R602). -/
def State.eraseImage (s : State) (b : Bool) : State :=
  let s := s.modFlash b fun d => { d with image := none, state := if d.state = 1 then 5 else d.state }
  s.degrade

/-- What an Innkeeper's absence held back goes on (R75, R149). -/
def State.innkeeperBack (s : State) (c : Nat) : State := if c < 3 then s else (s.askRecord (c - 3)).trySwitch (c - 3)

/-- R79: every core already activated, and the core that failed, goes back to the previous image; the staged header is erased. -/
def State.revert (s : State) (core : Nat) : State :=
  match s.firm.activation with
  | none => s
  | some a =>
    let release := match s.firm.staged with | some i => i.release | none => 0
    let img := s.firm.running
    let swapping := (s.core core).run == .swapping
    let s := a.swapped.reverse.foldl (fun s c =>
      if (s.core c).run = .running then s.handOver c img else s) s
    let s := if swapping then s.loadCore core img else s
    let s := s.modFirm fun f => { f with activation := none, staged := none }
    let s := if s.power.clamp = .hold then s.setClamp .off else s
    let s := ((s.eraseImage s.otherDevice).fwEvent 5 core release a.seq false).breakAll
    if swapping then s.innkeeperBack core else s

/-- A core being swapped, before it stands at a quiescent point: it issues still (R74). Without power, at stage S4, it stands at one. -/
def State.settling (s : State) (c : Nat) : Bool := (s.core c).run == .swapping && !(s.core c).quiescent && s.corePowered c

/-- The order of the swaps (R74). -/
def nextSwap (c : Nat) : Nat := if c = 18 then 2 else if c = 2 then 0 else if c = 0 then 1 else c + 1

/-- EMERGENCY has read 0 for 1,000 ms, 25,000,000 AON cycles, as far as it has been 1 at all. -/
def State.calm (s : State) : Bool :=
  !s.emergency && (match s.power.emergencyEnd with | some t => decide (t + 25000000 ≤ s.firm.aon) | none => true)

/-- Whether a core is being swapped or restarted: then no further swap begins (R74, R80). -/
def State.coresBusy (s : State) : Bool := s.firm.cores.any fun e => e.2.run == .swapping || e.2.run == .restarting

/-- A core's swap begins: its shadow bank is loaded, and its duties pause as R75 gives. -/
def State.startSwap (s : State) (c : Nat) (i : Image) : State :=
  let s := s.modCore c fun k => { k with run := .swapping, shadow := sramOf (i.section c) }
  let s := if c < 3 then s else (s.cluster (c - 3)).queue.foldl (fun s r => s.halt r.tile (.retirement (c - 3))) s
  let s := if c = hearth ∧ s.power.clamp = .off then s.setClamp .hold else s
  ({ s with jobs := fmap s.jobs fun _ j => if j.live then { j with activated := true } else j } : State).breakAll

/-- R78: every core is swapped, and the new image is to be marked preferred in the record area. -/
def State.markPreferred (s : State) (a : Activation) : State :=
  let dev := s.otherDevice
  let s := s.writeRecord fun r => { r with preferred := some (bit dev) }
  s.modFirm fun f => { f with activation := some { a with marking := some f.record.seq } }

/-- R78: once the mark is written, and no core is restarting any more (R80, notes/assumptions/70.md), the activation is complete. -/
def State.tryComplete (s : State) : State :=
  match s.firm.activation, s.firm.staged with
  | some a, some i =>
    match a.marking with
    | some q =>
      if s.recordDone q && !s.coresBusy then
        let dev := s.otherDevice
        let s := s.modFirm fun f =>
          { f with
            running := i, runningB := dev, staged := none, activation := none, measurement := i.measure,
            rollbackFloor := max f.rollbackFloor i.rollback }
        s.fwEvent 4 0xFF i.release a.seq
      else s
    | none => s
  | _, _ => s

/-- The next swap of an activation begins, if nothing stands in its way; a core out of service is passed over, and the Hearth waits for
the end of an emergency (R77, R80). The swaps before it go on in any stage (R76, notes/assumptions/69.md). -/
def State.swapFuel : Nat → State → State
  | 0, s => s
  | f + 1, s =>
    match s.firm.activation, s.firm.staged with
    | some a, some i =>
      let c := a.next
      if !a.started || a.marking.isSome || s.coresBusy then s
      else
        if (s.core c).run ≠ .running then
          if c = hearth then (s.markPreferred a).tryComplete
          else (s.modFirm fun m => { m with activation := some { a with next := nextSwap c } }).swapFuel f
        else if c = hearth ∧ !s.calm then
          if a.waitHearth then s
          else (s.modFirm fun m => { m with activation := some { a with waitHearth := true } }).fwEvent 6 c i.release a.seq
        else s.startSwap c i
    | _, _ => s

def State.beginSwap (s : State) : State := s.swapFuel 20

/-- CORE_SWAP_DONE: at a quiescent point the core goes over to the new image, and the next swap begins. -/
def State.swapDone (s : State) (c : Nat) : State :=
  match s.firm.activation, s.firm.staged with
  | some a, some i =>
    if (s.core c).run ≠ .swapping ∨ s.settling c then s
    else
      let s := s.modCore c fun k => k.handOver k.shadow i.release s.firm.aon
      let a := { a with swapped := a.swapped ++ [c], next := nextSwap c }
      let s := (s.modFirm fun f => { f with activation := some a }).fwEvent 3 c i.release a.seq
      let s := s.innkeeperBack c
      if c = hearth then
        let s := if s.power.clamp = .hold then s.setClamp .off else s
        (s.markPreferred a).tryComplete
      else s.beginSwap
  | _, _ => s

/-! ## Crashes (R36, R81) -/

/-- Every tile of a cluster. -/
def clusterTiles (c : Nat) : List Nat := (List.range 288).map fun k => physIndex (16 * (c % 4) + k % 16) (18 * (c / 4) + k / 16)

/-- A core crashes: its requests end, it restarts from its image, and running work behaves as R81 gives. -/
def State.crash (s : State) (c : Nat) : State :=
  let k := s.core c
  if (k.run = .running ∨ k.run = .swapping) ∧ s.corePowered c then
    let s := (s.dropRequests c).modCore c (·.renew .restarting)
    let s := s.stateEvent s.firm.mstate 2 c
    let s := if c < 3 then s.breakAll else (clusterTiles (c - 3)).foldl (fun s p => s.halt p (.crash c)) s
    let s := if c = hearth then s.setClamp .safe else s
    if k.run = .swapping then s.revert c else s
  else s

/-- The image that a core restarts from. -/
def State.imageOf (s : State) (c : Nat) : Image :=
  match s.firm.activation, s.firm.staged with
  | some a, some i => if a.swapped.contains c then i else s.firm.running
  | _, _ => s.firm.running

/-- CORE_RESTART_DONE: the core reports alive; the tiles of an Innkeeper's cluster resume, and the clamp releases after the Hearth's first
full loop (R82 to R84). -/
def State.restartDone (s : State) (c : Nat) : State :=
  if (s.core c).run = .restarting then
    let s := (s.loadCore c (s.imageOf c)).modCore c fun k => { k with fails := 0 }
    let s := s.stateEvent s.firm.mstate 3 c
    let s := if c < 3 then s.breakAll
      else (clusterTiles (c - 3)).foldl (fun (s : State) p => (s.breakTile p).unhalt p (.crash c)) s
    let s := if c = hearth then s.modPower fun p => { p with clampRelease := true } else s
    ((s.innkeeperBack c).beginSwap).tryComplete
  else s

/-- R81: a cluster out of service: its compute die is reset, its reserve tiles work no more, its retirements end, and the rooms with tiles in it
close. -/
def State.clusterOut (s : State) (c : Nat) : State :=
  let tiles := clusterTiles (c - 3)
  let s := match (s.cluster (c - 3)).moving with
    | some m => m.halted.foldl (fun (s : State) p => s.unhalt p (.retirement (c - 3))) s
    | none => s
  let s := (s.modCluster (c - 3) fun k => { k with moving := none, queue := [], parked := [] }).modMesh fun m => { m with dead := addTo m.dead (c - 3) }
  let s := tiles.foldl (fun s p => s.setTile p { halts := [.crash c], atRest := true }) s
  let s := { s with routers := s.routers.filter fun e => !tiles.contains e.1 }
  let rooms := (List.range 1024).filter fun k => (roomTiles k).any fun xy => tiles.contains (s.phys xy.1 xy.2)
  rooms.foldl State.closeRoom s

/-- CORE_RESTART_TIMEOUT: the restart has failed and is tried again; after the third in a row the core's last column of R81 applies. -/
def State.restartFailed (s : State) (c : Nat) : State :=
  let k := s.core c
  if k.run ≠ .restarting then s
  else if k.fails < 2 then (s.modCore c fun k => { k with fails := k.fails + 1 }).stateEvent s.firm.mstate 4 c
  else
    let s := s.modCore c fun k => { k with fails := k.fails + 1, run := .out }
    if c = doorkeeper then (s.alarm 4).safeHold 4 c
    else if c = steward then s.safeHold 4 c
    else
      let s := s.stateEvent s.firm.mstate 4 c
      let s := if c = hearth then s else s.clusterOut c
      s.degrade.beginSwap.tryComplete

/-! ## The rows -/

/-- A core's watchdog period in AON cycles (R36). -/
def watchdogPeriod (c : Nat) : Nat := if c = hearth then 50000 else 100000

/-- WATCHDOG_EXPIRE: the period has passed since the watchdog was last restarted, which is a crash. -/
def execWatchdogExpire (core : Nat) (s : State) : Out :=
  done (if core < 19 ∧ (s.core core).watchdog + watchdogPeriod core ≤ s.firm.aon then s.crash core else s)

def execCoreRestartDone (core : Nat) (s : State) : Out := done (if core < 19 then s.restartDone core else s)
def execCoreRestartTimeout (core : Nat) (s : State) : Out := done (if core < 19 then s.restartFailed core else s)
def execCoreSwapDone (core : Nat) (s : State) : Out := done (if core < 19 then s.swapDone core else s)

/-- HEARTH_SWAP_START: EMERGENCY has read 0 for 1,000 ms, and the waiting swap begins (R77). -/
def execHearthSwapStart (s : State) : Out :=
  done (match s.firm.activation with
    | some a => if a.started ∧ a.waitHearth ∧ s.calm then s.beginSwap else s
    | none => s)

/-- SWAP_TIMEOUT: a core does not report alive within its longest swap time (R79). -/
def execSwapTimeout (core : Nat) (s : State) : Out :=
  done (if core < 19 ∧ (s.core core).run = .swapping then s.revert core else s)

end Sys2Proof.Machine
end

