-- ==== Sys2Proof/Machine/Start.lean ====
section
/-! DEFINITION. Losing main power, cold starts and warm starts (R37 to R47, R552, R553, R564, R614, R615), step by step. -/

namespace Sys2Proof.Machine

/-! ## What a start finds -/

/-- The records that a device's record area holds: the newest complete one, and what a cut-off write left. -/
def Flash.records (f : Flash) : List Record := if f.state = 1 then f.record :: f.torn.toList else []

/-- The record that a start reads: of the valid records of the devices in service, that with the highest sequence number (R43, R604). -/
def State.newestRecord (s : State) : Record :=
  match (s.firm.flashA.records ++ s.firm.flashB.records).filter (·.crcOk) with
  | [] => s.firm.record
  | r :: rs => rs.foldl (fun b r => if b.seq.toNat < r.seq.toNat then r else b) r

/-- The retired-tile map of the always-on domain, with the retirements whose records are both written (R18, R149). -/
def State.retiredMap (s : State) : List Nat :=
  s.clusters.foldl (fun l e =>
    match e.2.moving with
    | some m => match m.record with | some q => if s.recordDone q then addTo l m.what.tile else l | none => l
    | none => l) s.mesh.retired

/-- The base TCLK divisor and the input cap of a power profile (R544). -/
def baseDivisor (p : Nat) : Nat := if p ≤ 1 then 4 else if p = 2 then 5 else if p = 3 then 6 else if p = 4 then 8 else 16
def inputCap (p : Nat) : Nat := if p = 0 then 5200 else if p = 1 then 4600 else if p = 2 then 4000 else if p = 3 then 3400 else if p = 4 then 2600 else 1500

/-- A flash device after main power has gone: a release ends, and a fill cut short leaves no valid image (R602, R603). -/
def Flash.settled (f : Flash) : Flash :=
  { f with
    state := if f.state = 2 then 3 else if f.state = 4 then 5 else f.state, image := if f.state = 4 then none else f.image }

/-- The spare rows that the repair log leaves (R313). -/
def repairedStacks (log : List (Nat × Nat)) : FMap Stack :=
  log.foldl (fun m (pc, row) =>
    let bank := Config.bankOf row
    let key := pc % 64 + 64 * bank
    fupd {} m (pc / 64) fun c => { c with spares := fset c.spares key (fgetD (Config.spareRows bank) c.spares key - 1) }) []

/-- A record write that main power's loss cuts off leaves a record whose CRC-32C does not match (R43, notes/assumptions/73.md). -/
def State.tear (s : State) (b : Bool) (d : Flash) : Flash :=
  match s.firm.recordQueue with
  | (x, r) :: _ => if x == b && (d.state == 1 || d.state == 2) then { d with torn := some { r with crcOk := false } } else d
  | [] => d

/-- Everything but the always-on domain and the flash devices goes (R564), a verified staged image's own note with it
(notes/assumptions/67.md). -/
def State.wipe (s : State) (m : MState) : State :=
  let f := s.firm
  let r := { s.newestRecord with retired := s.retiredMap }
  let div := baseDivisor s.power.selected
  let config := r.netConfig.getD 0
  let cut := fun (b : Bool) (d : Flash) => if f.staging.isSome ∧ b = s.otherDevice ∧ d.state = 1 then { d with image := none, state := 5 } else d.settled
  { firm :=
      { mstate := m, startStep := 0, aon := f.aon, flashA := s.tear false (cut false f.flashA), flashB := s.tear true (cut true f.flashB), runningB := f.runningB,
        running := f.running, measurement := f.measurement, rollbackFloor := f.rollbackFloor, replaced := f.replaced, record := r,
        cores := (List.range 19).map fun c => (c, { run := .off, release := f.running.release }) },
    mesh := { retired := r.retired },
    mem := { retirements := r.pcs, failing := r.failing, stackCtl := repairedStacks r.repairs },
    hosts :=
      { links := [0, 1].map fun n =>
          (n, { up := false, speed := 0, width := 0, svid := (s.link n).svid, ssid := (s.link n).ssid }),
        ports := (List.range 8).map fun n =>
          let p := s.port n
          let c := fgetD (false, false) r.ports n
          (n, { contained := c.1, cxl := c.2, present := p.present, state := if p.present || c.1 then .off else .empty }) },
    net := { config := config },
    traffic := (List.range (portsOf config)).map fun p => (p, { wgMin := rateOf config / 8 }),
    cipher := if m = .auxOnly then s.cipher.kept else s.cipher.kept.zeroised,
    power :=
      { main := s.power.main, aux := s.power.aux, high := s.power.high, overvolt := s.power.overvolt, lockS5 := s.power.lockS5,
        profile := s.power.selected, selected := s.power.selected, loopDiv := div, divisor := div, tclkStopped := true, s1 := s.power.s1,
        s3 := s.power.s3, s4 := s.power.s4, trips := s.power.trips, rootLock := s.power.rootLock, aonBackup := s.power.aonBackup,
        refclk := s.power.refclk, lockLosses := s.power.lockLosses },
    irq :=
      { mainTenMv := s.irq.mainTenMv, auxMv := s.irq.auxMv, inputW := s.irq.inputW, temps := s.irq.temps, tempPeaks := s.irq.tempPeaks },
    service := if m = .auxOnly then s.service else {}, fresh := s.fresh, pending := s.pending }

/-- The S5 actions: every main domain goes off, and no event is written (R47, R548). -/
def State.mainOff (s : State) : State := s.wipe .auxOnly

/-- A cold start begins: the Doorkeeper runs from ROM, contained ports have power, and AON cycles count from now (R44, R53, R364). STATE_EVENT
carries CAUSE 0 (notes/assumptions/98.md). -/
def State.coldStart (s : State) : State :=
  let old := s.firm.mstate
  let s := s.wipe .coldStart
  let s := s.modFirm fun f => { f with aon := 0, startStep := 1 }
  let s := s.modCore doorkeeper fun c => { c with run := .running }
  let s := (List.range 8).foldl (fun s n => s.modPort n fun p => { p with powerEn := p.contained, refclk := p.contained }) s
  s.stateEvent old 0

/-! ## Warm starts (R46, R614) -/

/-- R453: the send requests of every open connection end INTERRUPTED and its trackers are emptied; the Porter's own messages wait to be
sent again (R535). -/
def State.interruptCourier (s : State) : State :=
  s.net.conns.foldl (fun s e =>
    if e.2.state = .opened then
      let own := (e.2.flights.map (·.wr) ++ e.2.sends).filter (·.data.isSome)
      let s := s.modConn e.1 fun c =>
        { c with flights := c.flights.filter (·.wr.data.isNone), sends := c.sends.filter (·.data.isNone) }
      (s.flushConn e.1 4 false).modConn e.1 fun c => { c with sends := own }
    else s) s

/-- A staging ends as for an invalid image: the header is erased and FW_EVENT kind 1 reports it (R71, R606). -/
def State.failStaging (s : State) : State :=
  match s.firm.staging with
  | none => s
  | some (src, _, seq, _) =>
    let release := BitVec.ofNat 32 (leNat (s.memBytes (src + 8) 4))
    let s := s.modFirm fun f => { f with staging := none }
    (s.eraseImage s.otherDevice).fwEvent 1 0xFF release seq false

/-- The values that a warm start gives the registers of the ports and engines; CLAMP reads 0 after it, the Hearth out of service or not
(notes/assumptions/71.md). -/
def State.warmValues (s : State) : State :=
  let s := s.modFirm fun f =>
    { f with
      holes := fmap f.holes fun _ h => { h with busy := false, dropped := false, server := 0xFF },
      cores := (List.range 19).map fun c =>
        let k := fgetD {} f.cores c
        (c, { run := if k.run = .out ∨ k.run = .swapping then k.run else if c = doorkeeper then .running else .off,
              shadow := if k.run = .swapping then k.shadow else [], fails := if k.run = .out then k.fails else 0, release := k.release, watchdog := f.aon }) }
  let s := { s with clusters := fmap s.clusters fun _ k => { k with maxAge := 0 } }
  let s := s.modNet fun n => { n with ruleBad := false }
  let s := { s with traffic := fmap s.traffic fun _ e => { e with frames := [], waiting := [], line := none, sample := [], peak := [] } }
  let s := s.modHosts fun h => { h with ports := fmap h.ports fun _ p => { p with commit := false, shadowLost := false, draining := false } }
  let s := (s.modCipher fun c => { c with clearing := [] }).flushWaits
  s.modPower fun p =>
    { p with profile := p.selected, loopDiv := baseDivisor p.selected, below := 0, clamp := .off, clampRelease := false, tclkStopped := true }

/-- The hash engines are idle after a warm start (R297): what they had in progress ends, with the event of its failure (notes/assumptions/79.md). -/
def State.stopHashes (s : State) : State :=
  s.guests.foldl (fun s e =>
    let g := e.1
    let s := e.2.digests.foldl (fun s d =>
      if d.2.filling then (s.modDigest g d.1 fun _ => {}).passportEvent 0 d.1 0 (zeros 32) g d.2.seq false else s) s
    let s := e.2.seals.foldl (fun s x => s.passportEvent 1 0xFF x.job (zeros 32) g x.seq false) s
    let s := e.2.imports.foldl (fun s i => s.ledgerEvent 5 0 0 0 g i.seq Status.faulted.code) s
    s.modGuest g fun x => { x with seals := [], imports := [] })
    (s.ledgers.live.foldl (fun s e =>
      if e.2.exportTo.isSome then
        (s.modLedger e.1 fun l => { l with exportTo := none }).ledgerEvent 6 0 e.2.tokens (s.handle e.1) e.2.guest e.2.exportSeq Status.faulted.code
      else s) s)

/-- Reads that are made again after a warm start: their failure ends nothing. -/
def Purpose.again : Purpose → Bool
  | .sqFetch _ => true
  | .wrFetch _ _ => true
  | .courierData _ _ => true
  | _ => false

/-- R355: what is outstanding on the host links fails. A pair fetches its entry again and stays in service (R416, R421), and so does a connection
(R453). -/
def State.failWarm (s : State) : State :=
  let s := s.disown Purpose.again
  let s := s.modStorage fun t => { t with pairs := fmap t.pairs fun _ p => { p with fetching := false } }
  (s.failOutstanding 0 true).failOutstanding 1 true

/-- A warm start begins, on command or on leaving stage S4. What is in progress ends, but for an activation, whose swaps go on (R76,
notes/assumptions/69.md); tiles, memory, guests, jobs and the session stay. -/
def State.warmStart (s : State) (fromS4 : Bool) : State :=
  let old := s.firm.mstate
  let s := s.failStaging
  let s := (List.range 19).foldl State.dropRequests s
  let s := s.interruptStorage.interruptCourier.failWarm.endLogs.stopEngines.endWaiting.stopHashes.warmValues
  let s := s.modFirm fun f =>
    { f with
      mstate := .warmStart, lastWarm := true, startStep := 1, stepDone := false,
      startHeld := fromS4 && (s.power.stages.contains 1 || !s.power.main) }
  ((s.haltAll .start).breakAll).stateEvent old (if fromS4 then 1 else 0)

/-! ## Image selection (R40, R42) -/

/-- The valid image of a device in service. -/
def State.validImage (s : State) (b : Bool) : Option Image :=
  if (s.flash b).state = 1 then (s.flash b).image.filter (·.valid s.firm.rollbackFloor) else none

/-- R40. -/
def State.selectImage (s : State) : Option (Bool × Image) :=
  let a := s.validImage false
  let b := s.validImage true
  match s.firm.record.preferred, a, b with
  | some 0, some i, _ => some (false, i)
  | some 1, _, some i => some (true, i)
  | _, some i, some j => if i.release.toNat < j.release.toNat then some (true, j) else some (false, i)
  | _, some i, none => some (false, i)
  | _, none, some j => some (true, j)
  | _, none, none => none

/-- R42: whether the running image loads at a warm start; the signature check is omitted if the measurement stands and no device has been
replaced. It is the running image whatever has become of the device that holds it (notes/assumptions/97.md). -/
def State.warmImageOk (s : State) : Bool :=
  let i := s.imageOf doorkeeper
  i.intact && ((i.measure == s.firm.measurement && !s.firm.replaced) || i.valid s.firm.rollbackFloor)

/-! ## The steps -/

/-- A port's state and shedding as a start completes: READY or DEGRADED, then SHEDDING if a stage or throttle stands. -/
def State.enterShedding (s : State) (cause : Nat) : State :=
  let old := s.firm.mstate
  if s.stage ≠ 0 ∧ (old = .ready ∨ old = .degraded) then
    (s.modFirm fun f => { f with mstate := .shedding, shedFrom := old }).stateEvent old cause
  else s

/-- R44 step 9, R46 step 6: the start is complete; run moves go on unless a stage stands (R260). -/
def State.completeStart (s : State) : State :=
  let old := s.firm.mstate
  let cold := old == .coldStart
  let s := s.modFirm fun f =>
    { f with
      mstate := if s.conditions then .degraded else .ready, measurement := if cold then f.running.measure else f.measurement,
      replaced := f.replaced && !cold }
  (((s.stateEvent old 0).unhaltAll .start).enterShedding 1).resumeMoves

/-- Whether a retirement is still to be completed before the mesh is rebuilt (R149). -/
def State.movesLeft (s : State) : Bool :=
  s.clusters.any fun e => decide (e.1 < 16) && s.coreUp (innkeeper e.1) && (e.2.moving.isSome || !e.2.queue.isEmpty)

/-- Whether the start waits at the end of its step: for the stage to clear and for MAIN_48V (R552, R553), for the record of a mesh that a cold start
has built (R18), for the retirements that warm start step 4 completes (R149), and, before a warm start is complete, for the end of an
activation, so that ACTIVATING reads 0 after it (R76, notes/assumptions/69.md). -/
def State.startPaused (s : State) : Bool :=
  let step := s.firm.startStep.toNat
  decide (3 ≤ s.stage) || s.firm.meshNext.isSome
    || (s.firm.mstate == .warmStart
        && ((step == 1 && s.firm.startHeld) || (step == 4 && s.movesLeft) || (step == 5 && s.firm.activation.isSome)))

/-- The next step of a start begins, or its last step is done. Before warm start step 4 TCLK restarts and the retirements that S4 stopped are
completed (R149, R277). -/
def State.nextStep (s : State) : State :=
  if s.startPaused then s.modFirm fun f => { f with stepDone := true }
  else
    let warm := s.firm.mstate == .warmStart
    let s := s.modFirm fun f => { f with startStep := f.startStep + 1, stepDone := false, startHeld := false }
    let n := s.firm.startStep
    let s := if warm ∧ n = 4 then (s.modPower fun p => { p with tclkStopped := false }).completeMoves else s
    if (warm ∧ n = 6) ∨ (!warm ∧ n = 9) then s.completeStart else s

/-- Every core runs its image, but for those out of service and one that is being swapped. -/
def State.loadAll (s : State) : State :=
  (List.range 19).foldl (fun s c => if (s.core c).run = .out ∨ (s.core c).run = .swapping then s else s.loadCore c (s.imageOf c)) s

/-- A stack is trained; its results are a free value (R44, R46, notes/assumptions/73.md). -/
def State.train (s : State) (k : Nat) : State :=
  ({ s with fresh := s.fresh + 1 } : State).modStack k fun x => { x with training := Config.freeWord s.fresh }

/-- The training results in use go to the record area. -/
def State.saveTraining (s : State) : State :=
  s.writeRecord fun r => { r with training := (List.range 16).map fun k => (k, (s.stack k).training) }

/-- Cold start step 3: all sixteen stacks are trained. -/
def State.trainAll (s : State) : State := ((List.range 16).foldl State.train s).saveTraining

/-- Warm start step 2: the stacks take the saved results; one with which a stack does not come up is trained anew, alone. -/
def State.retrain (s : State) (failing : List Nat) : State :=
  let s := (List.range 16).foldl (fun s k => s.modStack k fun x => { x with training := fgetD 0 s.firm.record.training k }) s
  let bad := failing.filter (· < 16)
  if bad = [] then s else (bad.foldl State.train s).saveTraining

/-- R321: pseudo-channels that a start finds failing are retired, up to sixteen, or fenced; a cold start retires those that became failing in
service too (notes/assumptions/78.md). -/
def State.startPcs (s : State) (pcs : List Nat) : State :=
  (pcs.filter (· < 1024)).foldl (fun s pc =>
    if s.mem.retirements.any (·.pc == pc) then s
    else if s.mem.retirements.length < 16 then s.retirePc pc 0
    else (s.modMem fun m => { m with fenced := true, failing := addTo m.failing pc }).memEvent 8 (pc / 64) (pc % 64) 0 0) s

/-- The lowest retired local row of a die column, or 17 (R17). -/
def lowestRetired (retired : List Nat) (r x : Nat) : Nat :=
  ((List.range 18).find? fun l => retired.contains (physIndex x (18 * r + l))).getD 17

/-- The logical mesh of a cold start: skip rows, stand-ins in ascending order, and rooms without a stand-in closed (R17, R21, R23). It is kept
aside until the record areas hold it (R18). -/
def State.buildMesh (s : State) (failing : List Nat) : State :=
  let retired := (failing.filter (· < 4608)).foldl addTo s.mesh.retired
  let skip : FMap Nat := ((List.range 256).map fun k => (k, lowestRetired retired (k / 64) (k % 64))).filter (·.2 != 17)
  let coords := (List.range 4096).map fun l => (l % 64, l / 64)
  let (m, _, closes) := ({ s.mesh with retired := retired, skip := skip, standIns := [] } : Mesh).fit 1 [] coords
  let closed := (closes.map fun l => roomOf (l % 64) (l / 64)).foldl addTo []
  let s := s.writeRecord fun r => { r with retired := retired, skip := skip, standIns := m.standIns }
  s.modFirm fun f => { f with meshNext := some ({ m with closed := closed }, f.record.seq) }

/-- R18: the built mesh takes effect once both record areas hold it. -/
def State.adoptMesh (s : State) : State :=
  match s.firm.meshNext with
  | some (m, q) =>
    if s.recordDone q then
      (s.modMesh fun x => { m with ticks := x.ticks, epoch := x.epoch }).modFirm fun f => { f with meshNext := none }
    else s
  | none => s

/-- A start that waited at the end of its step goes on, if nothing holds it any more. -/
def State.resumeStart (s : State) : State := if s.firm.stepDone ∧ !s.startPaused then s.nextStep else s

/-- What a record's write has held back goes on: a built mesh (R18), the switches (R145), an activation's end (R78) and the start. -/
def State.recordsMoved (s : State) : State :=
  let s := (List.range 16).foldl State.trySwitch s.adoptMesh.tryComplete
  let s := if s.firm.mstate = .warmStart ∧ s.firm.startStep = 4 then s.completeMoves else s
  s.resumeStart

/-- RECORD_WRITE_DONE: the Doorkeeper has written a record to one device, and goes on to the next (R43). -/
def execRecordWriteDone (s : State) : Out := done (if s.coreUp doorkeeper then s.popRecord.recordsMoved else s)

/-- Cold start step 1: the devices without a valid image are failed, an image is selected, and the overlay is applied (R40, R343). -/
def State.coldVerify (s : State) : State :=
  let check := fun (s : State) (b : Bool) =>
    if (s.flash b).state = 1 ∧ (s.validImage b).isNone then s.modFlash b fun d => { d with state := 5 } else s
  let read := fun (f : Flash) => if f.powered then f.overlay else none
  let o := ((read s.firm.flashA).or (read s.firm.flashB)).getD { svid0 := 0x1F6E, ssid0 := 0, svid1 := 0x1F6E, ssid1 := 0 }
  let image := s.selectImage
  let s := check (check s false) true
  let s := s.modLink 0 fun l => { l with svid := o.svid0, ssid := o.ssid0 }
  let s := s.modLink 1 fun l => { l with svid := o.svid1, ssid := o.ssid1 }
  match image with
  | none => s.safeHold 7
  | some (b, i) => (s.modFirm fun f => { f with runningB := b, running := i }).nextStep

/-- The ports among failing parts: DN_n as n, NET_p as 16 + p (notes/assumptions/74.md). -/
def State.failingPorts (s : State) (failing : List Nat) : List Nat := (failing.filter fun n => n < 8 || (16 ≤ n && n < 16 + s.netPorts)).dedup

/-- Cold start step 8: every present slot-mode device powers on; a port that fails stays down (R363). -/
def State.coldPorts (s : State) (failing : List Nat) : State :=
  let s := s.modFirm fun f => { f with portsDown := s.failingPorts failing }
  (List.range 8).foldl (fun s n =>
    let p := s.port n
    if failing.contains n then s.modPort n fun p => { p with powerEn := p.contained, refclk := p.contained }
    else if p.present && !p.contained && p.state == .off then s.slotPowerOn n none else s) s

/-- Warm start step 5: a port that fails stays down, with what was behind it lost, in FAULT, or, where it is contained, in OFF with its power on
(R364, notes/assumptions/99.md); one in FAULT or FROZEN, or an Ethernet port without its link, is down still. -/
def State.warmPorts (s : State) (failing : List Nat) : State :=
  let s := (s.failingPorts failing).foldl (fun s n =>
    if 8 ≤ n then s.netLink (n - 16) false
    else if (s.port n).contained then
      (((s.cutRequests n).loseDrive n).cellarLost n).modPort n fun p => { p with state := if p.state = .frozen then .frozen else .off, powerGood := false, perstHigh := false }
    else s.slotOff n .fault) s
  s.modFirm fun f =>
    { f with
      portsDown := (s.failingPorts failing ++ f.portsDown.filter (fun n => 16 ≤ n && !(s.netPort (n - 16)).linkUp)
        ++ (List.range 8).filter fun n => (s.port n).state == .fault || (s.port n).state == .frozen).dedup }

/-- A step of a cold start ends with the given failing parts. Where the load of code fails, STATE_EVENT carries CAUSE 7 and the first failing core's
number (notes/assumptions/65.md). -/
def State.coldStep (s : State) (failing : List Nat) : State :=
  match s.firm.startStep.toNat with
  | 1 => s.coldVerify
  | 2 => if failing = [] then s.loadAll.nextStep else s.safeHold 7 (failing.headD 0xFF)
  | 3 => (s.trainAll.startPcs (s.mem.failing ++ failing)).nextStep
  | 4 => (s.startPcs failing).nextStep
  | 5 => (s.startPcs failing).nextStep
  | 6 => (s.buildMesh failing).nextStep
  | 7 =>
    let s := if failing = [] then s else s.buildMesh failing
    ((s.modPower fun p => { p with tclkStopped := false }).modMesh fun m => { m with ticks := 0, epoch := 0 }).nextStep
  | 8 => (s.coldPorts failing).nextStep
  | _ => s

/-- A step of a warm start ends with the given failing parts. -/
def State.warmStep (s : State) (failing : List Nat) : State :=
  match s.firm.startStep.toNat with
  | 1 => if failing = [] ∧ s.warmImageOk then s.loadAll.nextStep else s.coldStart
  | 2 => (s.retrain failing).nextStep
  | 3 => (s.startPcs failing).nextStep
  | 4 => if failing = [] then ({ s with linkErrs := [] } : State).nextStep else s.coldStart
  | 5 => (s.warmPorts failing).nextStep
  | _ => s

/-- START_STEP_DONE. -/
def execStartStepDone (failing : List Nat) (s : State) : Out :=
  done (if s.firm.stepDone then s
    else match s.firm.mstate with
      | .coldStart => s.coldStep failing
      | .warmStart => s.warmStep failing
      | _ => s)

/-- WARM_START_HOLD_END: MAIN_48V has stood at or above 45.0 V for 20 ms (R552). -/
def execWarmStartHoldEnd (s : State) : Out :=
  done (if s.firm.mstate = .warmStart ∧ s.firm.startHeld then
    (s.modFirm fun f => { f with startHeld := false }).resumeStart
  else s)

/-- COLD_RESTART: the write starts a cold start without any core, if it carries CONFIRM 0xC01D (R47, R49). -/
def execColdRestart (value : BitVec 32) (s : State) : Out :=
  done (if value.getLsbD 0 ∧ value.extractLsb' 16 16 = 0xC01D ∧ (s.firm.mstate = .ready ∨ s.firm.mstate = .degraded ∨ s.firm.mstate = .safeHold) then
    s.coldStart
  else s)

end Sys2Proof.Machine
end

