-- ==== Sys2Proof/Machine/Power.lean ====
section
/-! DEFINITION. Power, heat and clocks (R540 to R566): the shedding stages and the thermal limits, the Hearth's loop, the clocks and crossings, and
the power profiles. -/

namespace Sys2Proof.Machine

/-! ## What a stage does (R548) -/

/-- R548: stage S4 is entered. The compute dies enter retention, the stacks self-refresh, every port but NET_0 goes off, the links go to L1, and
the Steward, the Innkeepers and the engines lose power. -/
def State.enterS4 (s : State) : State :=
  let s := s.modPower fun p => { p with tclkStopped := true }
  let s := s.flushMerges fun _ => false
  let s := (List.range s.netPorts).foldl (fun s p => if p = 0 then s else s.netLink p false) s
  let s := s.modHosts fun h => { h with links := fmap h.links fun _ l => { l with l1 := l.up }, ports := fmap h.ports fun _ p => { p with l1 := p.linkUp } }
  ((s.dropRequests steward).stopEngines).interruptStorage.interruptCourier

/-- How far a start must have come for the compute dies to run TCLK (R277). -/
def State.meshUp (s : State) : Bool :=
  match s.firm.mstate with
  | .coldStart => decide (8 ≤ s.firm.startStep.toNat)
  | .warmStart => decide (4 ≤ s.firm.startStep.toNat)
  | _ => true

/-- STAGE has changed from `old`: the divisor, the halts and the parts follow, the cores hear of it, and the module's state changes as R47
gives. -/
def State.stageChanged (s : State) (old cause : Nat) : State :=
  let new := s.stage
  if new = old then s.decideDivisor
  else
    let s := if new = 0 then s.modPower fun p => { p with emergencyEnd := some s.firm.aon } else s
    let s := (s.decideDivisor.fireAll 1).breakAll
    let activating := match s.firm.activation with | some a => a.started | none => false
    let s := if old = 0 ∧ activating = true then s.setClamp .safe else s
    let s := if old < 3 ∧ 3 ≤ new then (s.haltAll .stage3).holdPairs true else s
    let s := if old < 4 ∧ 4 ≤ new then s.enterS4 else s
    let s := if 4 ≤ old ∧ new < 4 then s.modHosts fun h => { h with ports := fmap h.ports fun _ p => { p with l1 := false } } else s
    let s := if 4 ≤ old ∧ new < 4 ∧ s.firm.mstate ≠ .shedding ∧ s.meshUp then s.modPower fun p => { p with tclkStopped := false } else s
    let s := if 3 ≤ old ∧ new < 3 then (s.unhaltAll .stage3).holdPairs false else s
    let s := if 3 ≤ old ∧ new < 3 ∧ ¬(4 ≤ old ∧ s.firm.mstate = .shedding) then s.pump else s
    match s.firm.mstate with
    | .ready => s.enterShedding cause
    | .degraded => s.enterShedding cause
    | .shedding =>
      if 4 ≤ old ∧ new < 4 then s.warmStart true
      else if new = 0 then
        let s := s.modFirm fun f => { f with mstate := f.shedFrom }
        (s.stateEvent .shedding cause).resumeMoves
      else s.stateEvent .shedding cause
    | _ => s.resumeStart

/-! ## Shedding stages (R547) -/

/-- Stages that a fall to stage k enters, each counted, and MAIN_48V below 45.0 V. -/
def Power.enter (p : Power) (k : Nat) : Power :=
  let new := ((List.range 4).map (· + 1)).filter fun j => decide (j ≤ k) && !p.stages.contains j
  { p with
    main := false, stages := p.stages ++ new, s1 := if new.contains 1 then satInc p.s1 else p.s1,
    s3 := if new.contains 3 then satInc p.s3 else p.s3, s4 := if new.contains 4 then satInc p.s4 else p.s4 }

/-- SHED_STAGE_ENTER: the filter of a stage has passed; at S5 main power is lost. In AUX_ONLY no stage is entered. -/
def State.shedEnter (s : State) (k : Nat) : State :=
  if k = 0 ∨ 5 < k ∨ s.firm.mstate = .auxOnly then s
  else
    let old := s.stage
    let s := s.modPower (·.enter k)
    if k = 5 then s.mainOff else s.stageChanged old 1

/-- SHED_STAGE_LEAVE: MAIN_48V has stood at a stage's leave threshold for its whole dwell. -/
def State.shedLeave (s : State) (k : Nat) : State :=
  if s.power.stages.contains k then
    let old := s.stage
    (s.modPower fun p => { p with stages := p.stages.filter (· != k), main := p.main || k == 1 }).stageChanged old 1
  else s

def execShedStageEnter (stage : Nat) (s : State) : Out := done (s.shedEnter stage)
def execShedStageLeave (stage : Nat) (s : State) : Out := done (s.shedLeave stage)

/-! ## Supplies (R540 to R543) -/

/-- MAIN_48V counts as newly risen above 45.0 V: a cold start begins in AUX_ONLY, if AUX_3V3 is applied (R47, R541). -/
def State.mainRises (s : State) : State :=
  let s := s.modPower fun p => { p with main := true }
  if s.firm.mstate = .auxOnly ∧ s.power.aux ∧ !s.power.overvolt then (s.modPower fun p => { p with lockS5 := false }).coldStart else s

def execMain48vRise (s : State) : Out := done (if s.firm.mstate = .auxOnly then s.mainRises else s)

/-- MAIN_OVERVOLTAGE: MAIN_48V stays above 62.0 V, and the S5 actions apply. -/
def execMainOvervoltage (s : State) : Out :=
  let s := s.modPower fun p => { p with overvolt := true }
  done (if s.firm.mstate = .auxOnly then s else s.mainOff)

/-- MAIN_RECOVER: MAIN_48V has stood within 45.0 V to 60.0 V for 100 ms after an overvoltage. -/
def execMainRecover (s : State) : Out :=
  done (if s.power.overvolt then (s.modPower fun p => { p with overvolt := false }).mainRises else s)

/-- AUX_LOSS: AUX_3V3 counts as absent. The main domains go off, and the always-on domain loses its state (R541, R564). -/
def execAuxLoss (s : State) : Out :=
  if s.power.aux then
    let s := s.mainOff
    let s := s.modFirm fun f => { f with aon := 0, measurement := [] }
    let s : State := { s with mesh := {}, cipher := {}, irq := {}, service := {} }
    done (s.modPower fun p =>
      { main := p.main, aux := false, high := p.high, rootLock := p.rootLock, refclk := p.refclk, tclkStopped := true })
  else done s

/-- AUX_APPLY: AUX_3V3 has stood in range for 10 ms. The retired-tile map is reloaded from the record area; a MAIN_48V that already stands above
45.0 V counts as risen now. -/
def execAuxApply (s : State) : Out :=
  if s.power.aux then done s
  else
    let r := s.newestRecord
    let s := ((s.modPower fun p => { p with aux := true }).modFirm fun f => { f with record := r }).modMesh fun m => { m with retired := r.retired }
    done (if s.power.main then s.mainRises else s)

/-- MAIN_HIGH_CHANGE: MAIN_48V crosses 60.0 V; POWER_STAT.HIGH follows (R543). -/
def execMainHighChange (high : Bool) (s : State) : Out := done (s.modPower fun p => { p with high })

/-! ## Heat (R554) -/

/-- THERMAL_THROTTLE and THERMAL_TRIP: a sensor reaches its threshold while the main domains are on. -/
def State.thermal (s : State) (trip : Bool) : State :=
  if s.firm.mstate = .auxOnly then s
  else
    let old := s.stage
    (s.modPower fun p =>
      { p with throttle := true, tripped := p.tripped || trip, trips := if trip && !p.tripped then satInc p.trips else p.trips }).stageChanged old 6

/-- THERMAL_CLEAR: the throttle clears, and the trip too where the sensors stand below its lower threshold. -/
def State.thermalClear (s : State) (trip : Bool) : State :=
  let old := s.stage
  (s.modPower fun p => { p with throttle := false, tripped := p.tripped && !trip }).stageChanged old 6

def execThermalThrottle (sensor : Nat) (s : State) : Out := done (if sensor < 184 then s.thermal false else s)
def execThermalTrip (sensor : Nat) (s : State) : Out := done (if sensor < 184 then s.thermal true else s)
def execThermalClear (trip : Bool) (s : State) : Out := done (s.thermalClear trip)

/-! ## The Hearth's loop (R545, R546) -/

/-- One step slower, and one step faster, in the sequence 4, 5, 6, 8, 16. -/
def slower (d : Nat) : Nat := if d = 4 then 5 else if d = 5 then 6 else if d = 6 then 8 else 16
def faster (d : Nat) : Nat := if d = 16 then 8 else if d = 8 then 6 else if d = 6 then 5 else 4

/-- One loop with an average input power: the selected profile's cap and base divisor apply, the loop divisor moves, and every change of it
restarts the count. -/
def Power.loop (p : Power) (watts : Nat) : Power :=
  let cap := inputCap p.selected
  let base := baseDivisor p.selected
  let under95 := decide (100 * watts < 95 * cap)
  let count := if under95 then p.below + 1 else 0
  let d :=
    if cap < watts then max base (slower p.loopDiv)
    else if under95 && decide (100 ≤ count) then max base (faster p.loopDiv)
    else max base p.loopDiv
  { p with profile := p.selected, loopDiv := d, below := if d = p.loopDiv then min count 100 else 0 }

/-- HEARTH_LOOP: the safe clamp releases with the first full loop after a restart of the Hearth, or once no stage stands (R83, R555). -/
def State.hearthLoop (s : State) (watts : Nat) : State :=
  if s.coreUp hearth ∧ s.firm.mstate ≠ .auxOnly then
    let s := s.modPower (·.loop watts)
    let s := if s.power.clamp = .safe ∧ (s.power.clampRelease ∨ s.stage = 0) then s.setClamp .off else s
    s.decideDivisor
  else s

def execHearthLoop (averageWatts : Nat) (s : State) : Out := done (s.hearthLoop averageWatts)

/-- DIVISOR_CHANGE: a decided change takes effect at an epoch edge (R557); it breaks every job's step (R280). -/
def execDivisorChange (s : State) : Out :=
  done (match s.power.decided with
    | some d => (s.modPower fun p => { p with divisor := d, decided := none }).breakAll
    | none => s)

/-! ## Clocks (R556 to R563) -/

/-- REFCLK_FAIL: the clock-glitch alarm acts and AON switches to the backup oscillator; a stopped REFCLK costs lock (R558). -/
def execRefclkFail (stopped : Bool) (s : State) : Out :=
  if s.power.aux then
    let s := s.modPower fun p =>
      { p with
        aonBackup := true, refclk := p.refclk && !stopped, rootLock := p.rootLock && !stopped,
        lockLosses := if stopped && p.rootLock then satInc p.lockLosses else p.lockLosses }
    done (s.alarm 1)
  else done s

/-- PLL_LOCK_TIMEOUT: the root PLL has stayed out of lock for 10 µs, and the S5 actions apply. -/
def execPllLockTimeout (s : State) : Out :=
  if s.power.rootLock ∨ s.firm.mstate = .auxOnly then done s
  else done ((s.modPower fun p => { p with lockS5 := true }).mainOff)

/-- PLL_LOCK_ACQUIRED: the root PLL gains lock on a valid REFCLK. -/
def execPllLockAcquired (s : State) : Out := done (s.modPower fun p => { p with rootLock := true, refclk := true })

/-- PLL_LOCK_HELD: the PLL has held lock for 100 ms after a loss that led to S5: MAIN_48V counts as newly risen. -/
def execPllLockHeld (s : State) : Out :=
  if s.power.lockS5 ∧ s.power.rootLock then
    let s := s.modPower fun p => { p with lockS5 := false }
    done (if s.power.main then s.mainRises else s)
  else done s

/-- AON_RETURN: REFCLK has run cleanly for 100 ms, and AON returns to it. -/
def execAonReturn (s : State) : Out := done (s.modPower fun p => { p with aonBackup := false, refclk := true })

/-- CROSSING_FALLBACK: a crossing enters its fall-back path, which is counted (R559). -/
def execCrossingFallback (crossing : Nat) (s : State) : Out :=
  if s.firm.mstate = .auxOnly ∨ s.power.onFallback.contains crossing then done s
  else done (s.modPower fun p => { p with onFallback := p.onFallback ++ [crossing], fallbacks := satInc p.fallbacks })

/-- CROSSING_RESYNC: the crossing is back on its main path (R563). -/
def execCrossingResync (crossing : Nat) (s : State) : Out :=
  done (s.modPower fun p => { p with onFallback := p.onFallback.filter (· != crossing) })

/-! ## POWER_PROFILE (R566) -/

def powerProfileBlock : ReqBlock :=
  { opcode := 0x0C01,
    bad := fun r _ => decide (5 < r.f 0 1) || r.resv 1 7,
    conflict := fun _ s => s.timedRuns,
    run := fun r s => { state := s.modPower fun p => { p with selected := r.f 0 1 } } }

def execPowerProfile (slot : Nat) (s : State) : Out := done (serve powerProfileBlock slot s)

end Sys2Proof.Machine
end

