-- ==== Sys2Proof/Machine/Firmware.lean ====
section
/-! DEFINITION. The session, module-state and firmware-update messages of chapter 02 (R49, R66 to R73). -/

namespace Sys2Proof.Machine

/-! ## Register copies that messages carry (R49) -/

/-- The MODULE_STATE register. -/
def State.stateWord (s : State) : Nat :=
  s.firm.mstate.code + 16 * s.stage + 128 * bit s.firm.lastWarm + 256 * s.firm.startStep.toNat + 65536 * bit s.emergency
    + 131072 * bit s.firm.activation.isSome

/-- The CORE_ALIVE register: the cores that run. -/
def State.aliveWord (s : State) : Nat := ((List.range 19).map fun c => if s.coreUp c && s.firm.mstate != .auxOnly then 2 ^ c else 0).sum

/-! ## HELLO and FEATURES (R66 to R68) -/

/-- The features that running work uses, as bits of the feature map (R66); which work uses a feature is notes/assumptions/68.md. -/
def State.usedFeatures (s : State) : Nat :=
  let live := (s.jobs.filter (·.2.live)).map (·.2)
  let uses : List (Nat × Bool) :=
    [(2, s.guests.any (fun e => e.2.open.length == 1024) || s.mesh.lentRows != 0), (3, live.any (·.timed)),
      (4, s.net.conns.any fun e => e.2.state != .closed && e.2.roce), (5, s.hosts.ports.any (·.2.cxl)),
      (6, s.guests.any fun e => !e.2.seals.isEmpty || e.2.digests.any fun d => d.2.filling || d.2.full),
      (7, s.guests.any (·.2.log.isSome)), (8, s.mem.cellars.any (·.2.releasing)),
      (9, s.traffic.any fun e => !e.2.gates.entries.isEmpty || e.2.gatesPending.isSome), (10, live.any (·.level == 2)),
      (11, live.any fun j => match j.save with | some v => v.kind == 1 | none => false)]
  ((uses.filter (·.2)).map fun u => 2 ^ u.1).sum

/-- The states that accept the range 0x00xx (R65). -/
def linkedStates : List MState := [.coldStart, .warmStart, .ready, .degraded, .shedding, .safeHold]

/-- "PLK-4352-H" in ASCII, padded with 0 to 16 bytes. -/
def partName : List Byte := [0x50, 0x4C, 0x4B, 0x2D, 0x34, 0x33, 0x35, 0x32, 0x2D, 0x48] ++ zeros 6

def helloBlock : ReqBlock :=
  { opcode := 0x0001, sender := .any, states := linkedStates,
    bad := fun r _ => r.resv 4 12,
    run := fun r s =>
      { state := s.modFirm fun f =>
          { f with session := some { minor := min r.minor 2, map := BitVec.ofNat 256 s.usedFeatures }, driverRelease := BitVec.ofNat 32 (r.f 0 4) },
        payload := leBytes 4 s.firm.running.release.toNat ++ partName ++ [0xB0, BitVec.ofNat 8 s.firm.mstate.code, 0, 0]
          ++ leBytes 8 Config.serial.toNat } }

def featuresBlock : ReqBlock :=
  { opcode := 0x0002, sender := .any, states := linkedStates,
    conflict := fun r s => (List.range 12).any fun b => bitOf s.usedFeatures b && !bitOf (r.f 0 32) b,
    run := fun r s =>
      let granted : BitVec 256 := BitVec.ofNat 256 (r.f 0 32) &&& 0xFFF
      { state := s.modFirm fun f => { f with session := f.session.map fun x => { x with map := granted } }, payload := leBytes 32 granted.toNat } }

/-! ## MODULE_STATUS and MODULE_RESTART -/

def moduleStatusBlock : ReqBlock :=
  { opcode := 0x0101, sender := .any, states := linkedStates,
    run := fun _ s =>
      { state := s,
        payload := leBytes 4 s.stateWord ++ leBytes 4 s.aliveWord ++ leBytes 4 s.firm.running.release.toNat
          ++ leBytes 4 (match s.firm.staged with | some i => i.release.toNat | none => 0) ++ leBytes 2 s.mesh.closed.length
          ++ leBytes 2 s.mesh.retired.length ++ zeros 4 ++ leBytes 8 s.firm.aon } }

def moduleRestartBlock : ReqBlock :=
  { opcode := 0x0102, states := [.ready, .degraded, .safeHold],
    bad := fun r _ => decide (1 < r.f 0 1) || r.resv 1 3,
    conflict := fun r s =>
      (r.f 0 1 == 1 && (s.firm.mstate == .safeHold || s.jobs.any (·.2.live))) || s.firm.activation.isSome || s.firm.staging.isSome,
    run := fun r s => { state := s.modFirm fun f => { f with restart := f.restart.or (some (r.f 0 1 == 1)) } } }

/-- RESTART_DELAY_EXPIRE: the accepted start begins, from the states that R47 gives for it. -/
def execRestartDelayExpire (s : State) : Out :=
  done (match s.firm.restart with
    | none => s
    | some warm =>
      let m := s.firm.mstate
      let s := s.modFirm fun f => { f with restart := none }
      if m = .ready ∨ m = .degraded then (if warm then s.warmStart false else s.coldStart)
      else if m = .safeHold ∧ !warm then s.coldStart
      else s)

/-! ## Staging (R70, R71) -/

/-- R70: a present device that is not in service takes no image, which is a STATE_CONFLICT (notes/assumptions/66.md). -/
def fwStageBlock : ReqBlock :=
  { opcode := 0x0E01, states := [.ready, .degraded, .safeHold],
    bad := fun r _ =>
      let a := r.f 0 8
      let n := r.f 8 4
      a % 4096 != 0 || decide (n < 4096) || decide (0x3000000 < n) || decide (stackTop < a + n) || r.resv 12 4,
    conflict := fun _ s =>
      s.firm.staging.isSome || s.firm.activation.isSome
        || [(2 : BitVec 3), 3, 4, 5].contains (s.flash s.otherDevice).state,
    short := fun _ s => (s.flash s.otherDevice).state == 0,
    run := fun r s =>
      deferred (s.modFirm fun f => { f with staging := some (r.f 0 8, r.f 8 4, r.seq, !f.runningB), staged := none }) }

/-- An image as its bytes give it (R38); whether its signature verifies and whether its body has its digest (R39). -/
def parseImage (b : List Byte) : Image :=
  let header := slice b 0 4096
  let len := field header 16 4
  let body := (b.drop 4096).take len
  { magic := BitVec.ofNat 32 (field header 0 4), hdrVersion := BitVec.ofNat 16 (field header 4 2), release := BitVec.ofNat 32 (field header 8 4),
    rollback := field header 12 4, header, body, signed := Config.signatureOk (slice header 0 112) (slice header 112 96),
    intact := body.length == len && sha384 body == slice header 32 48 }

/-- FW_STAGE_DONE: the copy is written to the device, and the Doorkeeper checks it. -/
def State.stageDone (s : State) : State :=
  match s.firm.staging with
  | none => s
  | some (src, len, seq, dev) =>
    if s.coreUp doorkeeper then
      let i := parseImage (s.memBytes src len)
      let s := (s.memRead src len).2.2
      if i.valid s.firm.rollbackFloor then
        let s := (s.modFlash dev fun d => { d with image := some i }).modFirm fun f => { f with staging := none, staged := some i }
        s.fwEvent 0 0xFF i.release seq
      else s.failStaging
    else s

def execFwStageDone (s : State) : Out := done s.stageDone

/-! ## Activation (R72, R73) -/

def fwActivateBlock : ReqBlock :=
  { opcode := 0x0E02,
    unsupported := fun _ s => !s.feature 1,
    bad := fun r _ => r.resv 0 4,
    conflict := fun _ s => s.firm.staged.isNone || s.firm.activation.isSome,
    run := fun r s =>
      let wait := s.emergency
      let s := s.modFirm fun f => { f with activation := some { seq := r.seq, started := !wait } }
      let release := match s.firm.staged with | some i => i.release | none => 0
      deferred (if wait then s else (s.fwEvent 2 0xFF release r.seq).beginSwap) [if wait then 1 else 0, 0, 0, 0] }

/-- ACTIVATION_START: EMERGENCY has read 0 for 1,000 ms, and a deferred activation starts. -/
def execActivationStart (s : State) : Out :=
  done (match s.firm.activation, s.firm.staged with
    | some a, some i =>
      if !a.started ∧ s.calm then
        ((s.modFirm fun f => { f with activation := some { a with started := true } }).fwEvent 2 0xFF i.release a.seq).beginSwap
      else s
    | _, _ => s)

def execHello (slot : Nat) (s : State) : Out := done (serve helloBlock slot s)
def execFeatures (slot : Nat) (s : State) : Out := done (serve featuresBlock slot s)
def execModuleStatus (slot : Nat) (s : State) : Out := done (serve moduleStatusBlock slot s)
def execModuleRestart (slot : Nat) (s : State) : Out := done (serve moduleRestartBlock slot s)
def execFwStage (slot : Nat) (s : State) : Out := done (serve fwStageBlock slot s)
def execFwActivate (slot : Nat) (s : State) : Out := done (serve fwActivateBlock slot s)

end Sys2Proof.Machine
end

