-- ==== Sys2Proof/Machine/CoreIssue.lean ====
section
/-! DEFINITION. A firmware core's program (R197, R198): its SRAM, its internal registers (R572), and the issue of a bundle of its one
context. `place` sends an instruction's command to the tile or the core that it names. -/

namespace Sys2Proof.Machine

/-! ## SRAM and internal registers -/

/-- A core's SRAM in bytes (R34). -/
def sramSize (c : Nat) : Nat := if c = hearth then 262144 else if c = steward then 4194304 else 1048576

/-- The first interrupt controller (R572). -/
def ficBase : Nat := 0x3F0000100000

/-- The core and the register offset of an interrupt controller's address. -/
def ficAt (a : Nat) : Option (Nat × Nat) :=
  if ficBase ≤ a ∧ a < ficBase + 19 * 4096 then some ((a - ficBase) / 4096, (a - ficBase) % 4096 / 8 * 8) else none

/-- A register of an interrupt controller as a read finds it (R572). -/
def Core.ficRead (c : Core) (off : Nat) : BitVec 64 :=
  match off with
  | 0x00 => c.pend
  | 0x08 => c.act
  | 0x10 => c.enable
  | 0x18 => BitVec.ofNat 64 c.claim.1
  | 0x28 => BitVec.ofNat 64 (bit c.mask)
  | 0x30 => c.epc.setWidth 64
  | _ => 0

/-- A write to a register of an interrupt controller at a time (R568, R571, R572). -/
def Core.ficWrite (c : Core) (off : Nat) (v : BitVec 64) (now : Nat) : Core :=
  match off with
  | 0x10 => ({ c with enable := v } : Core).wake
  | 0x20 => c.complete (v.toNat % 64) now
  | 0x28 => { c with mask := v.getLsbD 0 }
  | _ => c

/-- The word at an address of a core's program: SRAM, an interrupt controller, or an internal register that this manual does not
describe, which reads as a free value (notes/assumptions/2.md). -/
def State.coreWord (s : State) (c a : Nat) : TWord :=
  if a < internalBase then fgetD {} (s.core c).sram (a / 8)
  else match ficAt a with
    | some (k, off) => { tag := .int, data := (s.core k).ficRead off }
    | none => { tag := .int, data := Config.freeWord s.fresh }

/-- A word written to SRAM, or to an internal register; to one that this manual does not describe a write changes nothing (R198;
notes/assumptions/2.md). -/
def State.coreStore (s : State) (c a : Nat) (w : TWord) : State :=
  if a < internalBase then s.modCore c fun k => { k with sram := fset k.sram (a / 8) w }
  else match ficAt a with
    | some (k, off) => s.modCore k fun x => x.ficWrite off w.data s.firm.aon
    | none => s

/-- Half of a word replaced. -/
def putHalf (old : BitVec 64) (high : Bool) (v : BitVec 32) : BitVec 64 :=
  BitVec.ofNat 64 (if high then old.toNat % 2 ^ 32 + 2 ^ 32 * v.toNat else old.toNat / 2 ^ 32 * 2 ^ 32 + v.toNat)

/-- An effect of a core's program on its store: SST, SST4 and MARKP. A write of 4 bytes to an internal register leaves its other half alone, so
that half of FIC_COMPLETE without SOURCE completes nothing (R10); SST4 leaves its word tagged INT (notes/assumptions/12.md). -/
def State.coreEffect (s : State) (c : Nat) : Effect → State
  | .store ws => ws.foldl (fun s w => s.coreStore c w.addr { tag := w.tag, data := BitVec.ofNat 64 (leNat w.bytes) }) s
  | .store4 a v =>
    if a % 8 == 4 && (ficAt a).any (·.2 == 0x20) then s
    else s.coreStore c a { tag := .int, data := putHalf (s.coreWord c (a / 8 * 8)).data (a % 8 == 4) v }
  | .mark a => s.coreStore c a { (s.coreWord c a) with tag := .pending }
  | _ => s

/-! ## Issue -/

/-- A change of a core's context. -/
def State.modCoreCtx (s : State) (c : Nat) (f : Ctx → Ctx) : State := s.modCore c fun k => { k with ctx := f k.ctx }

/-- One effect of a core's program. -/
def State.coreApply (s : State) (c : Nat) (e : Effect) : State := (s.modCoreCtx c (·.apply e)).coreEffect c e

/-- Results that have fallen due are committed in order (R164, R165). -/
def State.coreCommit : Nat → State → Nat → State
  | 0, s, _ => s
  | f + 1, s, c =>
    let x := (s.core c).ctx
    match x.queue with
    | [] => s
    | q :: r => if q.due < x.pos then ((s.modCoreCtx c fun x => { x with queue := r }).coreApply c q.eff).coreCommit f c else s

/-- What a core's context sees; RTE stands inside a handler while MASK is 1 (R197). -/
def State.coreEnv (s : State) (c : Nat) : Env :=
  { core := true, limit := sramSize c, pc := (s.core c).ctx.pc, word := fun a => s.coreWord c a, bad := fun _ => false }

/-- The address of a bundle's scalar operation if it reads or writes a store word: 8 or 4 bytes times IMM (R170, R197). -/
def Ctx.scalarEa (x : Ctx) (o : SSlot) : Int := x.ea o (if o.op == .sld4 || o.op == .sst4 then 4 else 8)

/-- The traps of a core's program beyond those of a tile's: internal registers are reached only by SLD, SST, SLD4 and SST4 (R198),
and SLD4 reads a word, which traps if it is EMPTY or PENDING (R155). -/
def State.coreTraps (s : State) (c : Nat) (x : Ctx) (o : SSlot) : Bool :=
  ((o.op == .markp || o.op == .wait) && decide ((internalBase : Int) ≤ x.scalarEa o))
    || (o.op == .sld4 && (let w := s.coreWord c ((x.scalarEa o).toNat / 8 * 8); w.tag == .empty || w.tag == .pending))

/-- The core whose FIC_CLAIM a bundle reads, which claims (R568). -/
def Ctx.claims (x : Ctx) (b : Bundle) : Option Nat :=
  match b.s with
  | .op o =>
    if o.op == .sld || o.op == .sld4 then
      let a := (x.scalarEa o).toNat
      match ficAt a with
      | some (k, 0x18) => if a % 8 = 0 then some k else none
      | _ => none
    else none
  | _ => none

/-- A bundle of a core's context issues: its effects at issue, a sleep among them, then the commits that fall due, then a stop, or the clearing of
MASK by an RTE, which is the later-issued bundle (R165, R197). -/
def State.coreRun (s : State) (c : Nat) (b : Bundle) (outs : List SlotOut) : State :=
  let ctl := (outs.map (·.ctl)).headD .none
  let word := fun a => (s.coreWord c a).tag
  let claimed := (s.core c).ctx.claims b
  let s := { s with fresh := s.fresh + 1 }
  let s := match claimed with | some k => s.modCore k fun x => x.claim.2 | none => s
  let s := match ctl with
    | .rte => s.modCore c fun k => { k with ctx := { ((k.ctx.issued outs).next .none) with pc := k.epc.toNat } }
    | .wfi => s.modCore c fun k => { k with asleep := !k.due, ctx := (k.ctx.issued outs).next ctl }
    | _ => s.modCoreCtx c fun x => (x.issued outs).next ctl
  match ctl with
  | .finish =>
    let q := (s.core c).ctx.queue
    (q.foldl (fun s e => s.coreApply c e.eff) s).modCoreCtx c fun x => { x with queue := [], stopped := true }
  | _ =>
    let s := s.coreCommit ((s.core c).ctx.queue.length + 1) c
    match ctl with
    | .wait a => if word a = .pending then s.modCoreCtx c fun x => { x with waiting := some a } else s
    | .rte => s.modCore c fun k => { k with mask := false }
    | .brk => s.crash c
    | _ => s

/-- The next bundle of a core: a trap is a crash of the core (R197). -/
def State.coreNext (s : State) (c : Nat) : State :=
  let e := s.coreEnv c
  let k := s.core c
  match evalBundle e { k.ctx with inHandler := k.mask } with
  | .trap _ _ => s.crash c
  | .run b outs =>
    match b.s with
    | .op o => if s.coreTraps c k.ctx o then s.crash c else s.coreRun c b outs
    | _ => s.coreRun c b outs

/-- Whether a core issues a bundle now: it runs, its context is ready, and no interrupt comes first (R569, R570). -/
def State.coreReady (s : State) (c : Nat) : Bool :=
  let k := s.core c
  decide (c < 19) && (s.coreUp c || s.settling c) && k.ctx.assigned && k.ctx.ready && !k.ctx.stopped && k.ctx.waiting.isNone && !k.asleep && !k.takes

/-- An instruction's command at a firmware core. -/
def coreCommand (c : Nat) (cmd : SlotCmd) (s : State) : State :=
  if s.coreReady c then
    let e := s.coreEnv c
    if e.anyCommand || e.fetch.holds cmd then s.coreNext c else s
  else s

/-- An instruction's command: the place that it names issues its next bundle, if that is a bundle that holds it. -/
def issueAt (p : Place) (cmd : SlotCmd) (s : State) : State :=
  match p with
  | .tile x y n => tileCommand x y n cmd s
  | .core c => coreCommand c cmd s

end Sys2Proof.Machine
end

