-- ==== Sys2Proof/Machine/Matrix.lean ====
section
/-! DEFINITION. The commands of the matrix slot (R176); what each operation does is `evalMatrix`. -/

namespace Sys2Proof.Machine

/-- MMA (R119). MMA performs one matrix step into t0–t47 and advances both cursors. -/
def execMma (p : Place) (da db : BitVec 4) (s : State) : Out :=
  done (issueAt p (.m { op := .mma, da, db }) s)

/-- MMAC_I (R176). MMAC.I clears the tallies with an immediate anchor and performs a matrix step. -/
def execMmacI (p : Place) (da db : BitVec 4) (anchor : BitVec 11) (s : State) : Out :=
  done (issueAt p (.m { op := .mmacI, da, db, arg := anchor }) s)

/-- MMAC_R (R176). MMAC.R clears the tallies with a register anchor and performs a matrix step. -/
def execMmacR (p : Place) (da db : BitVec 4) (sr : BitVec 6) (s : State) : Out :=
  done (issueAt p (.m { op := .mmacR, da, db, arg := sr.setWidth 11 }) s)

/-- MMAC_A (R98). MMAC.A clears the tallies with the auto anchor from a pre-pass and performs a matrix step. -/
def execMmacA (p : Place) (da db : BitVec 4) (s : State) : Out :=
  done (issueAt p (.m { op := .mmacA, da, db }) s)

/-- TCLR (R176). TCLR clears t0–t47 with an immediate anchor. -/
def execTclr (p : Place) (anchor : BitVec 11) (s : State) : Out :=
  done (issueAt p (.m { op := .tclr, arg := anchor }) s)

/-- TGET (R114). TGET adds a stored tally wire form into a tally. -/
def execTget (p : Place) (da : BitVec 4) (t : BitVec 6) (s : State) : Out :=
  done (issueAt p (.m { op := .tget, da, arg := t.setWidth 11 }) s)

end Sys2Proof.Machine
end

