-- ==== Sys2Proof/Machine/Move.lean ====
section
/-! DEFINITION. The commands of the move slot (R177 to R184, R244); what each operation does is `evalMove`. -/

namespace Sys2Proof.Machine

/-- VLD (R177). VLD loads 256 bytes into a vector register and advances the cursor. -/
def execVld (p : Place) (vr : BitVec 5) (dk : BitVec 4) (s : State) : Out :=
  done (issueAt p (.x { op := .vld, vr, dk }) s)

/-- VST (R177). VST stores a vector register as PACK and advances the cursor. -/
def execVst (p : Place) (vr : BitVec 5) (dk : BitVec 4) (s : State) : Out :=
  done (issueAt p (.x { op := .vst, vr, dk }) s)

/-- VSTMX (R178). VSTMX converts each vector half into an MX block with its scale byte. -/
def execVstmx (p : Place) (vr : BitVec 5) (dk : BitVec 4) (n : BitVec 8) (s : State) : Out :=
  done (issueAt p (.x { op := .vstmx, vr, dk, n }) s)

/-- TRD (R105). TRD reads eight tallies out into vector lanes as FP32 or BF16. -/
def execTrd (p : Place) (g : BitVec 3) (bf16 : Bool) (vr : BitVec 5) (lb : BitVec 3) (s : State) : Out :=
  done (issueAt p (.x { op := .trd, dk := g.setWidth 4 + (if bf16 then 8 else 0), vr, n := lb.setWidth 8 }) s)

/-- TPUT (R111). TPUT stores a tally's wire form as seven TALLY words. -/
def execTput (p : Place) (t : BitVec 6) (dk : BitVec 4) (s : State) : Out :=
  done (issueAt p (.x { op := .tput, dk, n := t.setWidth 8 }) s)

/-- TXMX (R108). TXMX writes 32 tallies out as one MX block. -/
def execTxmx (p : Place) (dk : BitVec 4) (h : BitVec 1) (s : State) : Out :=
  done (issueAt p (.x { op := .txmx, dk, n := h.setWidth 8 }) s)

/-- PUT (R179). PUT sends units from the local tile store to a remote tile in mesh packets. -/
def execPut (p : Place) (dk : BitVec 4) (sr : BitVec 6) (n : BitVec 8) (s : State) : Out :=
  done (issueAt p (.x { op := .put, dk, sr, n }) s)

/-- GET (R179). GET marks local words PENDING and requests units from a remote tile. -/
def execGet (p : Place) (dk : BitVec 4) (sr : BitVec 6) (n : BitVec 8) (s : State) : Out :=
  done (issueAt p (.x { op := .get, dk, sr, n }) s)

/-- ASTREAM (R244). ASTREAM starts the attention-streaming engine to stream a ledger block or append a token. -/
def execAstream (p : Place) (dk : BitVec 4) (sr : BitVec 6) (s : State) : Out :=
  done (issueAt p (.x { op := .astream, dk, sr }) s)

end Sys2Proof.Machine
end

