-- ==== Sys2Proof/Machine/Service.lean ====
section
/-! DEFINITION. The module attention button, the locate indicator and the replacement of a flash device (R599 to R608). -/

namespace Sys2Proof.Machine

/-! ## Indicators (R599, R600): 0 off, 1 on, 2 blink 1 Hz, 3 blink 4 Hz -/

def State.powerInd (s : State) : Nat :=
  match s.firm.mstate with
  | .auxOnly => 0
  | .coldStart | .warmStart => 2
  | .ready | .degraded | .safeHold => 1
  | .shedding => 3

def State.faultInd (s : State) : Nat :=
  let at' : MState → Nat := fun m => if m = .degraded then 1 else if m = .safeHold then 3 else 0
  if s.firm.mstate = .shedding then at' s.firm.shedFrom else at' s.firm.mstate

def State.locateInd (s : State) : Nat :=
  if s.firm.flashA.state = 3 ∨ s.firm.flashB.state = 3 then 1 else if s.service.blink then 3 else s.service.locate.toNat

/-- The outputs FLASH_x_CS_L, FLASH_x_RESET_L and FLASH_x_PWR_EN, high or low (R593, R603, R605): power off while the main domains are off
or the device is absent or released. -/
def State.flashPins (s : State) (b : Bool) : Bool × Bool × Bool :=
  let off := s.firm.mstate == .auxOnly || (s.flash b).state == 0 || (s.flash b).state == 3
  (off && s.firm.mstate != .auxOnly, !off, !off)

/-- The SERVICE_STAT register (R608). -/
def State.serviceStat (s : State) (tamper : Bool) : Nat :=
  s.powerInd + 4 * s.faultInd + 16 * s.locateInd + 64 * s.firm.flashA.state.toNat + 512 * s.firm.flashB.state.toNat
    + 4096 * bit tamper + 65536 * s.service.presses.toNat

/-! ## Flash devices (R602 to R606) -/

/-- Writes to a device that are not to be made any more; what waited for them goes on. -/
def State.dropWrites (s : State) (b : Bool) (keepFirst : Bool) : State :=
  let keep : List (Bool × Record) → List (Bool × Record)
    | e :: r => if keepFirst then e :: r.filter (·.1 != b) else (e :: r).filter (·.1 != b)
    | [] => []
  (s.modFirm fun m => { m with recordQueue := keep m.recordQueue }).recordsMoved

/-- A device that no longer holds what was staged in it. -/
def State.unstage (s : State) (b : Bool) : State := if b = s.otherDevice then s.modFirm fun m => { m with staged := none } else s

/-- R603: a device is released: a record write in progress is finished first. -/
def State.releaseFlash (s : State) (b : Bool) (seq : Nat) : State :=
  let writing := match s.firm.recordQueue with | e :: _ => e.1 == b && (s.flash b).state == 1 | [] => false
  let s := s.unstage b
  if writing then (s.modFlash b fun d => { d with state := 2 }).modFirm (fun m => { m with releaseSeq := seq }) |>.dropWrites b true
  else ((s.modFlash b fun d => { d with state := 3 }).serviceEvent 1 (bit b) seq).dropWrites b false

/-- MODULE_BUTTON_PRESS (R600, R601): a failed device is released, or the press is reported; while a release or a fill runs it is
ignored. In AUX_ONLY a press is read and shown (R593), and no core is there to act on it. -/
def execModuleButtonPress (s : State) : Out :=
  let busy := fun (b : Bool) => (s.flash b).state == 2 || (s.flash b).state == 4
  done (if busy false ∨ busy true then s
    else
      let s := { s with service := { s.service with presses := satInc s.service.presses, blink := true } }
      if s.firm.mstate = .auxOnly then s
      else if (s.flash false).state = 5 then s.releaseFlash false 0
      else if (s.flash true).state = 5 then s.releaseFlash true 0
      else s.serviceEvent 0 0xFF)

/-- LOCATE_BLINK_EXPIRE. -/
def execLocateBlinkExpire (s : State) : Out := done { s with service := { s.service with blink := false } }

def flashReleaseBlock : ReqBlock :=
  { opcode := 0x0E03, states := [.ready, .degraded, .safeHold],
    bad := fun r _ => decide (1 < r.f 0 1) || r.resv 1 7,
    conflict := fun r s =>
      let b := r.f 0 1 == 1
      !([(1 : BitVec 3), 5].contains (s.flash b).state) || (s.flash !b).state != 1 || s.firm.staging.isSome || s.firm.activation.isSome,
    run := fun r s => deferred (s.releaseFlash (r.f 0 1 == 1) r.seq) }

def execFlashRelease (slot : Nat) (s : State) : Out := done (serve flashReleaseBlock slot s)

/-- FLASH_PRESENCE: a new device is present and its fill begins; it holds no valid image yet. -/
def execFlashPresence (device : Nat) (s : State) : Out :=
  let b := device == 1
  done (if device < 2 ∧ s.firm.mstate ≠ .auxOnly ∧ ((s.flash b).state = 0 ∨ (s.flash b).state = 3) then
      ((s.modFlash b fun _ => { state := 4, image := none }).modFirm fun m => { m with replaced := true }).degrade
    else s)

/-- FLASH_FILL_DONE: the running image, the newest record and the other device's overlay are on the new device, which enters service if
the image passes R39, else is failed. -/
def execFlashFillDone (device : Nat) (copied : Bool) (s : State) : Out :=
  let b := device == 1
  done (if device < 2 ∧ (s.flash b).state = 4 ∧ s.coreUp doorkeeper then
      if copied && s.firm.running.valid s.firm.rollbackFloor then
        ((s.modFlash b fun _ =>
          { state := 1, image := some s.firm.running, record := s.firm.record, overlay := (s.flash !b).overlay }).serviceEvent 2 (bit b)).settle
      else (s.modFlash b fun d => { d with state := 5 }).serviceEvent 2 (bit b) 0 false
    else s)

/-- FLASH_REMOVED: a device in service is taken away without a release (R606); one that is released, failed or being filled goes without a
report (notes/assumptions/57.md). -/
def execFlashRemoved (device : Nat) (s : State) : Out :=
  let b := device == 1
  let old := (s.flash b).state
  let gone : Flash := { state := 0, image := none }
  done (if device < 2 ∧ old ≠ 0 then
      let s := s.unstage b
      let s := (s.modFlash b fun _ => gone).degrade
      if old = 1 ∨ old = 2 then
        let s := match s.firm.staging with | some x => if x.2.2.2 = b then s.failStaging else s | none => s
        (s.serviceEvent 3 (bit b)).dropWrites b false
      else s
    else s)

def serviceLocateBlock : ReqBlock :=
  { opcode := 0x0605, states := [.ready, .degraded, .shedding, .safeHold],
    bad := fun r _ => decide (2 < r.f 0 1) || r.resv 1 7,
    run := fun r s => { state := { s with service := { s.service with locate := BitVec.ofNat 2 (r.f 0 1) } } } }

def execServiceLocate (slot : Nat) (s : State) : Out := done (serve serviceLocateBlock slot s)

end Sys2Proof.Machine
end

