-- ==== Sys2Proof/Machine/Regs.lean ====
section
/-! DEFINITION. BAR0 (R4 to R10, R345): what a read of each 4-byte register returns, and what a write does. A read changes nothing. -/

namespace Sys2Proof.Machine

/-! ## Reads, block by block: the word at an offset of the block, none at an offset that has no register -/

/-- The module state block (R49). -/
def State.moduleReg (s : State) (o : Nat) : Option Nat :=
  match o with
  | 0x0 => some s.stateWord
  | 0x4 => some (s.core steward).release.toNat
  | 0x8 => some s.aliveWord
  | 0xC => some 0
  | _ => none

/-- PH_CTL_n and PH_STAT_n (R50). -/
def State.holeReg (s : State) (o : Nat) : Option Nat :=
  let h := s.hole (o / 16)
  match o % 16 with
  | 0 => some (2 * bit h.irqEn)
  | 4 => some (bit h.busy + 2 * bit h.done + 4 * bit h.dropped + 256 * h.server.toNat)
  | _ => none

/-- The MSI-X table and pending bits of the function on a link (R342). -/
def Upstream.msixReg (l : Upstream) (o : Nat) : Option Nat :=
  let v := o / 16
  match o % 16 with
  | 0 => some ((fgetD 0 l.msixAddr v).toNat % 2 ^ 32)
  | 4 => some ((fgetD 0 l.msixAddr v).toNat / 2 ^ 32)
  | 8 => some (fgetD 0 l.msixData v).toNat
  | _ => some (bit (!l.msixUnmasked.contains v))
def Upstream.pbaReg (l : Upstream) (o : Nat) : Option Nat :=
  some ((List.range 32).map fun i => bit (l.msixPending.contains (8 * o + i)) * 2 ^ i).sum

/-- The physical tile of a local index of a cluster (R15, R150). -/
def tileOf (c i : Nat) : Nat := physIndex (16 * (c % 4) + i % 16) (18 * (c / 4) + i / 16)

/-- The tile block of a cluster (R150). -/
def State.tileReg (s : State) (c o : Nat) : Option Nat :=
  let k := s.cluster c
  if o < 36 then some ((List.range 32).map fun i => bit (s.mesh.isRetired (tileOf c (8 * o + i))) * 2 ^ i).sum
  else if 0x40 ≤ o ∧ o < 0x50 then
    some ((List.range 4).map fun j => s.mesh.skipRow (dieKeyOf (tileOf c (o - 0x40 + j))) * 256 ^ j).sum
  else if o = 0x80 then some (k.corrected.toNat + 65536 * k.poisoned.toNat)
  else if o = 0x84 then some (bit k.moving.isSome + 2 * bit (!k.queue.isEmpty) + 16 * k.lastTile.toNat + 65536 * k.lastAction.toNat)
  else none

/-- STANDIN_STAT (R151). -/
def State.reserveReg (s : State) (o : Nat) : Option Nat :=
  if o = 0 then
    let dead := (s.mesh.retired.filter fun p => match s.mesh.baseLogical p with | some c => decide (64 ≤ c.2) | none => false).length
    some (s.mesh.standIns.length + 512 * dead + 262144 * s.mesh.lentRows)
  else none

/-- The mesh block (R234). -/
def State.meshReg (s : State) (o : Nat) : Option Nat :=
  if o = 0 then some s.mesh.ageLimit.toNat
  else if 0x100 ≤ o ∧ o < 0x200 then
    let k := s.cluster ((o - 0x100) / 16)
    match o % 16 with
    | 0 => some (k.replays.toNat + 65536 * k.isolation.toNat + 16777216 * k.linkFaults.toNat)
    | 4 => some (k.maxAge.toNat + 65536 * k.ageWins.toNat)
    | _ => none
  else none

/-- The ledger block (R269). -/
def State.ledgerReg (s : State) (o : Nat) : Option Nat :=
  match o with
  | 0 => some s.ledgers.barrierDelay.toNat
  | 4 =>
    let demoted := s.ledgers.live.filter fun e => let n := s.runCounts e.2; n.1 == 0 && n.2 != 0
    some (s.ledgers.live.length % 65536 + 65536 * (demoted.length % 65536))
  | 8 => some (s.ledgers.faults.toNat + 65536 * s.ledgers.partials.toNat)
  | _ => none

/-- The passport hash engines that are hashing (R291): a flat digest, a seal's result, and the digest of a ledger's export or import form (R261) take
one each, and a Merkle root one for each leaf of 1 MiB, 64 at most. -/
def State.hashEngines (s : State) : Nat :=
  let slot := fun (d : DigestSlot) =>
    if !d.filling then 0 else if d.mode = 0 then 1 else ceilDiv (d.regions.map fun r => r.2.1).sum 1048576
  min 64 ((s.ledgers.live.filter (·.2.exportTo.isSome)).length + (s.guests.map fun e => (e.2.digests.map fun d => slot d.2).sum + e.2.seals.length + e.2.imports.length).sum)

/-- The determinism block (R297). -/
def State.detReg (s : State) (o : Nat) : Option Nat :=
  match o with
  | 0 => some (bit s.ledgers.rtm)
  | 4 => some (bit (s.jobs.any fun e => e.2.live && e.2.timed) + 65536 * s.ledgers.brokenSteps.toNat)
  | 8 => some (s.ledgers.downgrades.toNat + 65536 * s.ledgers.drawFaults.toNat)
  | 0xC => some s.hashEngines
  | _ => none

/-- CELLAR_STAT_n (R336). -/
def State.cellarStat (s : State) (n : Nat) : Nat :=
  let c := s.cellar n
  let mine := (s.mem.regions.filter fun e => e.2.device == some n).map (·.2)
  let st := if c.lost then 5 else if c.released then 4 else if c.releasing then 3 else if !c.present then 0
    else if mine.any (!·.filled) then 1 else 2
  st + 16 * c.capacity + 32768 * (mine.filter (·.filled)).length + 67108864 * c.errors.toNat

/-- The memory block (R336). -/
def State.memReg (s : State) (o : Nat) : Option Nat :=
  if o = 0 then
    let filling := (List.range 8).map fun n => bit (s.mem.regions.any fun e => e.2.device == some n && !e.2.filled) * 2 ^ (8 + n)
    some (s.mem.retirements.length + 32 * bit s.mem.fenced + filling.sum)
  else if o = 4 then some s.mem.period.toNat
  else if 0x100 ≤ o ∧ o < 0x200 then
    let k := (o - 0x100) / 16
    let c := s.stack k
    match o % 16 with
    | 0 => some (c.corrected.toNat + 65536 * c.uncorrectable.toNat + 16777216 * c.repairs.toNat)
    | 4 => some ((List.range 32).map fun i => bit (s.mem.retirements.any (·.pc == 64 * k + i)) * 2 ^ i).sum
    | 8 => some ((List.range 32).map fun i => bit (s.mem.retirements.any (·.pc == 64 * k + 32 + i)) * 2 ^ i).sum
    | _ => none
  else if 0x200 ≤ o ∧ o < 0x280 ∧ o % 16 = 0 then some (s.cellarStat ((o - 0x200) / 16))
  else none

/-- The indicators of a slot (R359, R364): 0 off, 1 on, 2 blink. -/
def Port.powerInd (p : Port) : Nat :=
  if p.contained then 0
  else match p.state with
    | .empty | .off | .fault | .frozen => 0
    | .on => 1
    | _ => 2
def Port.attnInd (p : Port) : Nat := if p.contained then 0 else bit (p.state == .fault || p.attnHold)

/-- A word of a peer window (R373). -/
def Window.word (w : Window) (k : Nat) : Nat :=
  match k with
  | 0 => w.devBase.toNat % 2 ^ 20 * 4096
  | 1 => w.devBase.toNat / 2 ^ 20
  | 2 => w.length.toNat % 2 ^ 20 * 4096
  | 3 => w.length.toNat / 2 ^ 20
  | 4 => w.target.toNat % 2 ^ 20 * 4096
  | 5 => w.target.toNat / 2 ^ 20
  | 6 => bit w.valid + 2 * bit w.read + 4 * bit w.write
  | _ => 0

/-- The port block (R373). -/
def State.portReg (s : State) (o : Nat) : Option Nat :=
  if o < 0x20 then
    let l := s.link (o / 16)
    match o % 16 with
    | 0 => some (bit l.up + 2 * l.speed.toNat + 16 * l.width.toNat + 512 * bit l.d3hot + 1024 * bit l.bme)
    | 4 => some (l.timeouts.toNat + 65536 * l.late.toNat + 16777216 * l.urSent.toNat)
    | 8 => some l.aperture.toNat
    | 12 => some (l.outstanding.length % 4096 + 65536 * (l.quarantine.length % 4096))
    | _ => none
  else if o = 0x20 then some s.hosts.mgrLink.toNat
  else if 0x100 ≤ o ∧ o < 0x200 then
    let p := s.port ((o - 0x100) / 32)
    match o % 32 with
    | 0 => some (bit p.contained + 2 * bit p.cxl + 4 * p.state.code + 64 * bit p.present + 128 * bit p.powerEn + 256 * p.powerInd
        + 1024 * p.attnInd + 4096 * p.speed.toNat + 32768 * p.width.toNat + 524288 * p.freezeCause.toNat)
    | 4 => some (p.corrected.toNat + 65536 * p.timeouts.toNat + 16777216 * p.recoveries.toNat)
    | 8 => some (bit p.commit + 2 * bit p.shadowLost + 4 * bit p.draining + 256 * (p.active.filter (·.2.valid)).length + 65536 * p.winMiss.toNat)
    | _ => none
  else if 0x1000 ≤ o ∧ o < 0x3000 ∧ o % 0x400 < 0x200 then
    some ((fgetD {} (s.port ((o - 0x1000) / 0x400)).shadow (o % 0x400 / 32)).word (o % 32 / 4))
  else if 0x3000 ≤ o ∧ o < 0x5000 ∧ o % 0x400 < 0x200 then
    some ((fgetD {} (s.port ((o - 0x3000) / 0x400)).active (o % 0x400 / 32)).word (o % 32 / 4))
  else none

/-- Rooms that no guest holds and that are not closed. -/
def State.freeRoomCount (s : State) : Nat :=
  ((List.range 1024).filter fun k => !s.mesh.closed.contains k && !s.guests.any fun e => e.2.rooms.contains k).length

/-- The guest block (R405). -/
def State.guestReg (s : State) (o : Nat) : Option Nat :=
  if o < 0x80 then some ((List.range 32).map fun i => bit (s.hosts.parlour.contains (8 * o + i)) * 2 ^ i).sum
  else if o = 0x80 then some 0
  else if o = 0x84 then
    some (s.guests.length + 2048 * s.freeRoomCount + 4194304 * bit (s.guests.any fun e => e.2.open.length == 1024)
      + 8388608 * (s.guests.filter (·.2.log.isSome)).length)
  else if 0x1000 ≤ o ∧ o < 0x2000 then
    let g := (o - 0x1000) / 4
    some ((fgetD 0 s.hosts.guestDropped g).toNat + 65536 * (fgetD 0 s.hosts.guestFaults g).toNat)
  else none

/-- The storage block (R424). -/
def State.storageReg (s : State) (o : Nat) : Option Nat :=
  if o = 0 then some (s.storage.namespaces.length + 8192 * (s.storage.pairs.filter (·.2.state != 0)).length)
  else if o = 4 then some (s.storage.badDoorbell.toNat + 65536 * s.storage.backingTimeouts.toNat)
  else if 0x1000 ≤ o ∧ o < 0x6000 then
    let p := s.pair ((o - 0x1000) / 4)
    some (p.state.toNat + 8 * (p.outstanding % 8192) + 65536 * p.cause.toNat)
  else none

/-- The network block (R460); a read of RULE_DATA_w gives the active word w of rule INDEX. -/
def State.netReg (s : State) (o : Nat) : Option Nat :=
  let n := s.net
  if o = 0 then some n.config
  else if 0x100 ≤ o ∧ o < 0x300 then
    let p := s.netPort ((o - 0x100) / 16)
    match o % 16 with
    | 0 => some (bit p.linkUp + 2 * bit p.enabled + 4 * bit p.courierEn + 8 * p.profile.toNat)
    | 4 => some (p.frameErrors.toNat + 65536 * p.drops.toNat)
    | _ => none
  else if o = 0x1000 then some (n.ruleIndex.toNat + 65536 * bit n.ruleBad)
  else if 0x1080 ≤ o ∧ o < 0x1100 then some ((fgetD [] n.rules n.ruleIndex.toNat).getD ((o - 0x1080) / 4) 0).toNat
  else if o = 0x2000 then some n.courierUdp.toNat
  else if o = 0x2004 then some n.time.toNat
  else if o = 0x2008 then some (n.stale.toNat + 256 * n.window.toNat + 65536 * n.key.toNat + 16777216 * n.noTracker.toNat)
  else if o = 0x200C then some ((n.conns.filter (·.2.state != .closed)).length + 131072 * s.trackersUsed)
  else if 0x3000 ≤ o ∧ o < 0x3800 then
    let k := (o - 0x3000) / 8
    some (if o % 8 = 0 then fgetD 0 n.rxTail k else fgetD 0 n.txTail k).toNat
  else none

/-- The traffic block (R484). -/
def State.trafficReg (s : State) (o : Nat) : Option Nat :=
  if o < 0x200 then
    let e := s.egress (o / 16)
    match o % 16 with
    | 0 => some (e.redDrops.toNat + 65536 * e.deDrops.toNat)
    | 4 => some (e.gateEntry % 512 + 512 * bit e.gatesPending.isSome + 1024 * bit e.ttPending.isSome + 2048 * (e.ttSlot % 1024))
    | _ => none
  else if 0x1000 ≤ o ∧ o < 0x1000 + 32 * 0x380 ∧ (o - 0x1000) % 0x380 < 104 * 8 then
    let x := fgetD (0, 0) (s.egress ((o - 0x1000) / 0x380)).sample ((o - 0x1000) % 0x380 / 8)
    some (min 0xFFFFFF (if o % 8 = 0 then x.1 else x.2))
  else if 0x8000 ≤ o ∧ o < 0x8000 + 32 * 0x380 ∧ (o - 0x8000) % 0x380 < 104 * 8 then
    let x := fgetD (0, 0) (s.egress ((o - 0x8000) / 0x380)).peak ((o - 0x8000) % 0x380 / 8)
    some (if o % 8 = 0 then x.1 else x.2).toNat
  else none

/-- The cipher block (R505). -/
def State.cipherReg (s : State) (o : Nat) : Option Nat :=
  let c := s.cipher
  match o with
  | 0 => some (c.slots.length + 16384 * (c.keks.map fun e => 2 ^ e.1).sum)
  | 4 => some (c.active.toNat + 256 * c.latched.toNat + 65536 * c.count.toNat)
  | 8 => some ((c.engines.filter (·.2.busy)).length + 64 * ((c.engines.filter (·.2.run.isSome)).length + c.waitRuns.length))
  | 0xC => some (c.authFails.toNat + 65536 * c.keyLost.toNat)
  | _ => none

/-- The Porter block (R539); with work of several kinds STATE gives the lowest value (notes/assumptions/58.md). -/
def State.porterReg (s : State) (o : Nat) : Option Nat :=
  let saves := s.jobs.filterMap fun e => if e.2.live then e.2.save else none
  match o with
  | 0 =>
    some (8 * s.porter.aheads.length + (if saves.any fun v => !v.quiet then 1 else if saves.any (·.capturing) then 2 else if saves != [] then 3
      else if s.guests.any (·.2.restore.isSome) then 4 else if s.guests.any (·.2.drain.isSome) then 5 else 0))
  | 4 => some (saves.map (·.marks.length)).sum
  | 8 => some (s.porter.savesEnded.toNat + 65536 * s.porter.setAside.toNat)
  | _ => none

/-- The power block (R565). -/
def State.powerReg (s : State) (o : Nat) : Option Nat :=
  let p := s.power
  match o with
  | 0 =>
    some (divCode p.divisor + 8 * p.profile + 64 * bit (decide (baseDivisor p.profile < p.loopDiv)) + 128 * bit p.throttle + 256 * bit p.tripped
      + 512 * (match p.clamp with | .off => 0 | .hold => 1 | .safe => 2) + 2048 * bit p.high)
  | 4 => some (p.s1.toNat + 256 * p.s3.toNat + 65536 * p.s4.toNat + 16777216 * p.trips.toNat)
  | 8 => some (bit p.rootLock + 2 * bit p.aonBackup + 256 * p.lockLosses.toNat + 65536 * p.fallbacks.toNat)
  | _ => none

/-- The interrupt and telemetry block (R590). -/
def State.irqReg (s : State) (o : Nat) : Option Nat :=
  let i := s.irq
  match o with
  | 0 =>
    some ((i.vectors.filter (·.2.pending)).length % 16384 + 16384 * bit (s.link 0).pmeStatus + 32768 * bit (s.link 1).pmeStatus)
  | 8 => some (i.mainTenMv.toNat + 65536 * i.auxMv.toNat)
  | 0xC => some (i.inputW.toNat + 65536 * i.peakW.toNat)
  | 0x10 => some (bit i.teleRunning + 65536 * i.teleLost.toNat)
  | 0x14 => some i.teleHead.toNat
  | _ =>
    if 0x100 ≤ o ∧ o < 0x100 + 4 * 184 then
      let k := (o - 0x100) / 4
      some ((fgetD 0 i.temps k).toNat + 65536 * (fgetD 0 i.tempPeaks k).toNat)
    else if 0x1000 ≤ o ∧ o < 0x2000 then some (fgetD 0 i.holdoff ((o - 0x1000) / 4)).toNat
    else none

/-- An engine's register block by its number (R345). -/
def State.blockReg (s : State) (b o : Nat) : Option Nat :=
  match b with
  | 0x0 => s.tileReg (o / 4096) (o % 4096)
  | 0x1 => s.reserveReg o
  | 0x2 => s.meshReg o
  | 0x3 => s.ledgerReg o
  | 0x4 => s.detReg o
  | 0x5 => s.memReg o
  | 0x6 => s.portReg o
  | 0x7 => s.guestReg o
  | 0x8 => s.storageReg o
  | 0x9 => s.netReg o
  | 0xA => s.trafficReg o
  | 0xB => s.cipherReg o
  | 0xC => s.porterReg o
  | 0xD => s.powerReg o
  | 0xE => s.irqReg o
  | _ => if o = 0 then some (s.serviceStat (s.cipher.active.getLsbD 3)) else none

/-- R345, R484: whether BAR0 has a hole at the 4 bytes at an offset. -/
def State.hole0 (s : State) (o : Nat) : Bool :=
  !(decide (o < 0x10) || (decide (0x1000 ≤ o) && decide (o < 0x1200)) || (decide (0x20000 ≤ o) && decide (o < 0x20400))
    || (decide (0x21000 ≤ o) && decide (o < 0x21008)) || (decide (0x400000 ≤ o) && decide (o < 0x500000))
    || (decide (0x1000000 ≤ o) && decide (o < 0x1020000)) || (decide (0x2000000 ≤ o) && decide (o < 0x2020000)))
  || (decide (0x4A0000 ≤ o) && decide (o < 0x4B0000) && (s.trafficReg (o - 0x4A0000)).isNone)

/-- The 4 bytes that a read of BAR0 at an offset returns on a link; none at a hole. An offset inside a block that has no register reads as
a free value (notes/assumptions/2.md). -/
def State.regRead (s : State) (link o : Nat) : Option (BitVec 32) :=
  let word : Option Nat → BitVec 32 := fun x => match x with | some v => BitVec.ofNat 32 v | none => (Config.freeWord o).setWidth 32
  if s.hole0 o then none
  else if o < 0x10 then some (word (s.moduleReg o))
  else if o < 0x1200 then some (word (s.holeReg (o - 0x1000)))
  else if o < 0x20400 then some (word ((s.link link).msixReg (o - 0x20000)))
  else if o < 0x21008 then some (word ((s.link link).pbaReg ((o - 0x21000))))
  else if o < 0x500000 then some (word (s.blockReg ((o - 0x400000) / 0x10000) (o % 0x10000)))
  else if o < 0x1020000 then some (BitVec.ofNat 32 ((s.hole ((o - 0x1000000) / 4096)).num (o % 4096) 4))
  else some (BitVec.ofNat 32 (bitsOf (s.vector ((o - 0x2000000) / 16)).word (8 * (o % 16) + 31) (8 * (o % 16))))

/-! ## Writes -/

/-- A write to PH_CTL_n, PH_STAT_n or both in one cycle (R6, R10, R50, R52). -/
def State.holeWrite (s : State) (n : Nat) (ctl stat : Option (BitVec 32)) : State :=
  let old := s.hole n
  let go := n < 30 && (match ctl with | some v => v.getLsbD 0 | none => false)
  let lost := go && (old.busy || old.done)
  let s := match ctl with | some v => s.modHole n fun h => { h with irqEn := v.getLsbD 1 } | none => s
  let s := match stat with
    | some v => s.modHole n fun h => { h with done := h.done && !v.getLsbD 1, dropped := h.dropped && !v.getLsbD 2 }
    | none => s
  if lost then s.modHole n fun h => { h with dropped := true } else if go then s.go n else s

/-- A write to a word of an MSI-X table entry; a vector that is no longer masked sends what is pending (R574). -/
def Upstream.msixWrite (l : Upstream) (o : Nat) (v : BitVec 32) : Upstream :=
  let k := o / 16
  let a := (fgetD 0 l.msixAddr k).toNat
  match o % 16 with
  | 0 => { l with msixAddr := fset l.msixAddr k (BitVec.ofNat 64 (a / 2 ^ 32 * 2 ^ 32 + v.toNat)) }
  | 4 => { l with msixAddr := fset l.msixAddr k (BitVec.ofNat 64 (a % 2 ^ 32 + 2 ^ 32 * v.toNat)) }
  | 8 => { l with msixData := fset l.msixData k v }
  | _ =>
    ({ l with msixUnmasked := if v.getLsbD 0 then l.msixUnmasked.filter (· != k) else addTo l.msixUnmasked k } : Upstream).sendPending

/-- A window with one of its eight words written (R373). -/
def Window.put (w : Window) (k : Nat) (v : BitVec 32) : Window :=
  let lo : BitVec 20 := v.extractLsb' 12 20
  match k with
  | 0 => { w with devBase := w.devBase.extractLsb' 20 32 ++ lo }
  | 1 => { w with devBase := v ++ w.devBase.extractLsb' 0 20 }
  | 2 => { w with length := w.length.extractLsb' 20 32 ++ lo }
  | 3 => { w with length := v ++ w.length.extractLsb' 0 20 }
  | 4 => { w with target := w.target.extractLsb' 20 16 ++ lo }
  | 5 => { w with target := v.extractLsb' 0 16 ++ w.target.extractLsb' 0 20 }
  | 6 => { w with valid := v.getLsbD 0, read := v.getLsbD 1, write := v.getLsbD 2 }
  | _ => w

/-- The port block's writable fields; a write to a shadow window while COMMIT is 1 is ignored and noted (R372, R373). -/
def State.portWrite (s : State) (o : Nat) (v : BitVec 32) : State :=
  if o = 0x8 ∨ o = 0x18 then
    let b : BitVec 10 := v.setWidth 10
    if 704 < b.toNat then s else s.modLink (o / 16) fun l => { l with aperture := b }
  else if o = 0x20 then s.modHosts fun h => { h with mgrLink := v.setWidth 1 }
  else if 0x100 ≤ o ∧ o < 0x200 ∧ o % 32 = 8 then
    let n := (o - 0x100) / 32
    let s := if v.getLsbD 1 then s.modPort n fun p => { p with shadowLost := false } else s
    if v.getLsbD 0 then s.windowCommit n else s
  else if 0x1000 ≤ o ∧ o < 0x3000 ∧ o % 0x400 < 0x200 then
    s.modPort ((o - 0x1000) / 0x400) fun p =>
      if p.commit then { p with shadowLost := true } else { p with shadow := fupd {} p.shadow (o % 0x400 / 32) fun w => w.put (o % 32 / 4) v }
  else s

/-- The network block's writable fields (R433, R437, R460). -/
def State.netWrite (s : State) (o : Nat) (v : BitVec 32) : State :=
  if o = 0x1000 then
    s.modNet fun n => { n with ruleIndex := v.setWidth 16, ruleBad := n.ruleBad && !v.getLsbD 16 }
  else if 0x1080 ≤ o ∧ o < 0x10FC then s.modNet fun n => { n with staging := fset n.staging ((o - 0x1080) / 4) v }
  else if o = 0x10FC then s.ruleCommit v
  else if o = 0x2000 then
    let p : BitVec 16 := v.setWidth 16
    if p = 0 ∨ p = 4791 then s else s.modNet fun n => { n with courierUdp := p }
  else if 0x3000 ≤ o ∧ o < 0x3800 then if o % 8 = 0 then s.rxTail ((o - 0x3000) / 8) v else s.txTail ((o - 0x3000) / 8) v
  else s

/-- QPEAK_p_q, which a write sets (R484). -/
def State.trafficWrite (s : State) (o : Nat) (v : BitVec 32) : State :=
  if 0x8000 ≤ o ∧ o < 0x8000 + 32 * 0x380 ∧ (o - 0x8000) % 0x380 < 104 * 8 then
    s.modEgress ((o - 0x8000) / 0x380) fun e =>
      { e with peak := fupd (0, 0) e.peak ((o - 0x8000) % 0x380 / 8) fun x =>
          if o % 8 = 0 then (v.setWidth 24, x.2) else (x.1, v.setWidth 24) }
  else s

/-- The interrupt and telemetry block's writable fields (R577, R587, R590). -/
def State.irqWrite (s : State) (o : Nat) (v : BitVec 32) : State :=
  if o = 0xC then s.modIrq fun i => { i with peakW := v.extractLsb' 16 16 }
  else if o = 0x14 then s.teleHeadWrite (v.toNat % 32768)
  else if 0x100 ≤ o ∧ o < 0x100 + 4 * 184 then
    s.modIrq fun i => { i with tempPeaks := fset i.tempPeaks ((o - 0x100) / 4) (v.extractLsb' 16 16) }
  else if 0x1000 ≤ o ∧ o < 0x2000 then s.modIrq fun i => { i with holdoff := fset i.holdoff ((o - 0x1000) / 4) (v.setWidth 10) }
  else s

/-- A write to an engine's register block. -/
def State.blockWrite (s : State) (b o : Nat) (v : BitVec 32) : State :=
  match b with
  | 0x2 =>
    if o = 0 then
      let a : BitVec 10 := v.setWidth 10
      if a = 0 then s else s.modMesh fun m => { m with ageLimit := a }
    else if 0x100 ≤ o ∧ o < 0x200 ∧ o % 16 = 4 then s.modCluster ((o - 0x100) / 16) fun c => { c with maxAge := v.setWidth 10 }
    else s
  | 0x3 =>
    if o = 0 then s.modLedgers fun l => { l with barrierDelay := BitVec.ofNat 16 (max 4096 (v.toNat % 65536)) } else s
  | 0x4 => if o = 0 then s.modLedgers fun l => { l with rtm := v.getLsbD 0 } else s
  | 0x5 =>
    if o = 4 then
      let p : BitVec 8 := v.setWidth 8
      if p = 0 ∨ 168 < p.toNat then s else s.modMem fun m => { m with period := p }
    else s
  | 0x6 => s.portWrite o v
  | 0x7 =>
    if o < 0x80 then s.modHosts fun h => { h with parlour := h.parlour.filter fun g => !(g / 32 == o / 4 && v.getLsbD (g % 32)) }
    else if o = 0x80 then
      let g := v.toNat % 1024
      let s := s.modHosts fun h => { h with guestRing := BitVec.ofNat 10 g }
      if (s.guest? g).isSome then s.parlourVector g else s
    else s
  | 0x9 => s.netWrite o v
  | 0xA => s.trafficWrite o v
  | 0xB => if o = 4 then s.modCipher fun c => { c with latched := c.latched &&& ~~~(v.extractLsb' 8 5) } else s
  | 0xE => s.irqWrite o v
  | _ => s

/-- MODULE_CTL (R49): COLD_RESTART acts if the same write carries CONFIRM. -/
def State.moduleWrite (s : State) (v : BitVec 32) : State :=
  if v.getLsbD 0 ∧ v.extractLsb' 16 16 = 0xC01D ∧ (s.firm.mstate = .ready ∨ s.firm.mstate = .degraded ∨ s.firm.mstate = .safeHold) then s.coldStart
  else s

/-- A write to the 4 KiB of a pigeonhole, which is ignored while BUSY is 1 (R52). -/
def State.slotWrite (s : State) (o size val : Nat) : State :=
  s.modHole ((o - 0x1000000) / 4096) fun h => if h.busy then { h with dropped := true } else h.put (o % 4096) (leBytes size val)

/-- The 4 bytes of a register written. -/
def State.regWrite (s : State) (link o : Nat) (v : BitVec 32) : State :=
  if o < 0x10 then if o = 0xC then s.moduleWrite v else s
  else if 0x1000 ≤ o ∧ o < 0x1200 then
    if o % 16 = 0 then s.holeWrite ((o - 0x1000) / 16) (some v) none
    else if o % 16 = 4 then s.holeWrite ((o - 0x1000) / 16) none (some v) else s
  else if 0x20000 ≤ o ∧ o < 0x20400 then s.modLink link fun l => l.msixWrite (o - 0x20000) v
  else if 0x400000 ≤ o ∧ o < 0x500000 then s.blockWrite ((o - 0x400000) / 0x10000) (o % 0x10000) v
  else s

/-- REGISTER_WRITE: a write of 4 or 8 aligned bytes to BAR0 on a link; any other, and one in a hole, is answered as an unsupported
request (R9, R10, R348). -/
def State.bar0Write (s : State) (link o size : Nat) (v : BitVec 64) : State :=
  if link < 2 ∧ (s.link link).up then
    if !(s.link link).memory ∨ !(size = 4 ∨ size = 8) ∨ o % size ≠ 0 ∨ s.hole0 o ∨ s.hole0 (o + size - 4) then s.unsupported link false
    else if 0x2000000 ≤ o then s.imsWrite ((o - 0x2000000) / 16) (o % 16) size v.toNat
    else if 0x1000000 ≤ o then s.slotWrite o size v.toNat
    else if size = 8 ∧ 0x1000 ≤ o ∧ o < 0x1200 then
      if o % 16 = 0 then s.holeWrite ((o - 0x1000) / 16) (some (v.extractLsb' 0 32)) (some (v.extractLsb' 32 32)) else s
    else
      let s := s.regWrite link o (v.extractLsb' 0 32)
      if size = 8 then s.regWrite link (o + 4) (v.extractLsb' 32 32) else s
  else s

def execRegisterWrite (link offset size : Nat) (value : BitVec 64) (s : State) : Out := done (s.bar0Write link offset size value)

end Sys2Proof.Machine
end

