-- ==== Sys2Proof/Machine/Roce.lean ====
section
/-! DEFINITION. RoCE v2 on the receive side (R454): the reliable-connected service of InfiniBand within the limits that rule
states (its packets are PRESUMED from InfiniBand Volume 1, notes/assumptions/23.md), and the arrival of frames (R430). -/

namespace Sys2Proof.Machine

/-- A packet's base transport header and what follows it, without padding and ICRC. -/
structure RoceHead where
  op : Nat
  qp : Nat
  psn : Nat
  body : List Byte

def parseRoce (p : List Byte) : RoceHead :=
  let pad := beField p 1 1 / 16 % 4
  { op := beField p 0 1, qp := beField p 5 3, psn := beField p 9 3, body := (p.drop 12).take (p.length - 16 - pad) }

/-- The signed distance of a PSN from another, modulo 2^24. -/
def psnDiff (a b : Nat) : Int := signed 24 (a + 2 ^ 24 - b % 2 ^ 24)

/-- The last PSN of a request in flight. -/
def Conn.lastPsn (c : Conn) (f : InFlight) : Nat := (f.msn + psnCount c.pkt f.wr.length - 1) % 2 ^ 24

/-- What is in flight is sent again from a PSN on (R454). -/
def State.goBack (s : State) (cn psn : Nat) : State :=
  let s := s.modConn cn fun c =>
    { c with flights := c.flights.map fun f =>
        let d := (psn + 2 ^ 24 - f.msn) % 2 ^ 24
        { f with skip := if f.wr.op ≠ 3 ∧ d < psnCount c.pkt f.wr.length then d else 0 } }
  (s.conn cn).flights.foldl (fun s f => s.transmit cn f) s

/-- An acknowledgement completes every SEND and WRITE up to its PSN; a NAK goes back to its PSN, or ends the connection. -/
def State.roceAcked (s : State) (cn psn syndrome : Nat) : State :=
  let c := s.conn cn
  let code := syndrome % 32
  let upTo := if syndrome / 32 = 0 then psn else (psn + 2 ^ 24 - 1) % 2 ^ 24
  let done := c.flights.takeWhile fun f => f.wr.op != 3 && decide (psnDiff (c.lastPsn f) upTo ≤ 0)
  let s := s.stopResend cn fun p => decide (psnDiff p upTo ≤ 0)
  let s := done.foldl (fun s f => (s.modConn cn (·.adjust false)).endFlight cn f 0 f.wr.length) s
  if syndrome / 32 = 3 then
    if code = 0 then s.goBack cn psn
    else
      match (s.conn cn).flights with
      | f :: _ => (s.endFlight cn f (if code = 2 then 1 else 6) 0).connError cn (if code = 2 then 1 else 6)
      | [] => s.connError cn 6
  else s

/-- A response of a READ, in order (go-back-N). -/
def State.roceReadData (s : State) (cn : Nat) (h : RoceHead) : State :=
  let c := s.conn cn
  match c.flights.find? (·.wr.op = 3) with
  | none => s
  | some f =>
    let b := if h.op = 14 then h.body else h.body.drop 4
    if h.psn ≠ (f.msn + f.got / c.pkt) % 2 ^ 24 ∨ f.wr.length < f.got + b.length then s
    else
      match s.localKind c.guest f.wr true with
      | none => s.endFlight cn f 6 f.got
      | some k =>
        let s := s.keyWrite c.guest k (f.wr.localAddr + f.got) b
        let f := { f with got := f.got + b.length }
        let s := s.modConn cn fun c => { c with flights := c.flights.map fun x => if x.msn = f.msn then f else x }
        if f.got = f.wr.length then s.endFlight cn f 0 f.got else s

/-- A refused request: NAK, and the connection fails. -/
def State.roceRefuse (s : State) (cn psn code cause : Nat) : State := (s.roceAck cn psn (0x60 + code)).connError cn cause

/-- The expected PSN moves on by n. -/
def State.psnOn (s : State) (cn n : Nat) : State := s.modConn cn fun c => { c with base := (c.base + n) % 2 ^ 24 }

/-- R232: a packet of a tally block, whose last flag word is written last. -/
def State.roceTally (s : State) (head : CHead) (b : List Byte) (last : Bool) : State :=
  let s := s.placeTally head b
  match (if last then tileRange head.addr 3072 else none) with
  | some (x, y, off) => s.arrive (s.phys x y) (off + 3064) [{ tag := .int, data := BitVec.ofNat 64 (leNat (b.drop (b.length - 8))) }]
  | none => s

/-- The tracker of the message in progress, its address and key in `chunks`; a first packet opens it. -/
def Conn.roceTracker (c : Conn) (h : RoceHead) (op : Nat) (first : Bool) : Tracker :=
  if first then { msn := 2 ^ 32, op, length := if op = 2 then beField h.body 12 4 else 0, ssn := c.nextSsn % 2 ^ 32,
                  chunks := [beField h.body 0 8, beField h.body 8 4] }
  else (c.trackers.find? (·.msn == 2 ^ 32)).getD { msn := 2 ^ 32, op := 0, length := 0 }

/-- A packet has been taken: its bytes count, and the last one is acknowledged. -/
def State.roceTaken (s : State) (cn psn : Nat) (t : Tracker) (n : Nat) (last : Bool) : State :=
  let t := { t with count := t.count + n }
  let s := (s.modConn cn fun c =>
    { c with trackers := c.trackers.filter (·.msn != 2 ^ 32) ++ (if last then [] else [t]) }).psnOn cn 1
  if last then s.roceAck cn psn 0x1F else s

/-- A packet of a WRITE: an anchor of another module, a part of a tally block, or bytes that its key covers. -/
def State.roceWrite (s : State) (cn psn : Nat) (t : Tracker) (b : List Byte) (first last : Bool) : State :=
  let g := (s.conn cn).guest
  let addr := t.chunks.getD 0 0
  let key := t.chunks.getD 1 0
  let head : CHead := { op := 2, conn := cn, gen := 0, msn := 0, offset := t.count, length := t.length, addr }
  match (if first && last then s.anchorOf g 2 t.length addr else none) with
  | some root => (s.roceTaken cn psn t b.length last).moduleAnchor root.1 root.2 (leNat b)
  | none =>
    if (s.keyAllows g key true (addr + t.count) b.length).isNone ∨ t.length < t.count + b.length then
      (s.modNet fun n => { n with key := satInc n.key }).roceRefuse cn psn 2 1
    else
      match fget s.net.keys (key % 4096) with
      | some k => (if s.tallyBlock g head then s.roceTally head b last else s.keyWrite g k.kind (addr + t.count) b).roceTaken cn psn t b.length last
      | none => s

/-- A packet of a SEND: its bytes go to the oldest receive, which its last packet completes. -/
def State.roceSend (s : State) (cn psn : Nat) (t : Tracker) (b : List Byte) (last : Bool) : State :=
  let c := s.conn cn
  match c.recvs.head? with
  | none => s.roceAck cn psn 0x20
  | some (n, w) =>
    let free := fun (s : State) => s.modConn cn fun c => { c with recvs := fdel c.recvs n }
    if w.length < t.count + b.length then (free (s.courierEntry cn w.cookie.toNat psn t.count 3 8)).roceRefuse cn psn 1 3
    else
      match s.localKind c.guest w true with
      | none => s.roceRefuse cn psn 3 6
      | some k =>
        let s := s.keyWrite c.guest k (w.localAddr + t.count) b
        (if last then free (s.courierEntry cn w.cookie.toNat psn (t.count + b.length) 0 8) else s).roceTaken cn psn t b.length last

/-- A SEND or WRITE packet in order: `first` opens a message and `last` completes it and is acknowledged. -/
def State.roceData (s : State) (cn : Nat) (h : RoceHead) (op : Nat) (first last : Bool) : State :=
  let t := (s.conn cn).roceTracker h op first
  let b := h.body.drop (if op = 2 ∧ first then 16 else 0)
  if t.op ≠ op ∨ (!last && b.length != (s.conn cn).pkt) then s.roceRefuse cn h.psn 1 6
  else if first ∧ !(s.conn cn).trackers.any (·.msn == 2 ^ 32) ∧ 16384 ≤ s.trackersUsed then s.modNet fun n => { n with noTracker := satInc n.noTracker }
  else if op = 2 then s.roceWrite cn h.psn t b first last
  else s.roceSend cn h.psn t b last

/-- A READ request: its responses follow, and the expected PSN moves past them; a seventeenth READ outstanding is refused (R454). -/
def State.roceRead (s : State) (cn : Nat) (h : RoceHead) (again : Bool) : State :=
  let c := s.conn cn
  let addr := beField h.body 0 8
  let key := beField h.body 8 4
  let len := beField h.body 12 4
  if !c.trackers.any (·.msn == h.psn) ∧ 16384 ≤ s.trackersUsed then s.modNet fun n => { n with noTracker := satInc n.noTracker }
  else
  match s.keyAllows c.guest key false addr len with
  | none => (s.modNet fun n => { n with key := satInc n.key }).roceRefuse cn h.psn 2 1
  | some k =>
    if 16 ≤ (c.trackers.filter fun t => t.op == 3 && t.msn != h.psn).length then s.roceRefuse cn h.psn 1 6
    else
    let s := if again then s else s.psnOn cn (max 1 (psnCount c.pkt len))
    if k.kind = 0 then
      let s := s.modConn cn fun c => { c with trackers := c.trackers.filter (·.msn != h.psn) ++ [{ msn := h.psn, op := 3, length := len }] }
      let r := s.guestRead c.guest addr len (.courierData (cn + 65536) h.psn)
      if r.2 then r.1 else (r.1.roceAck cn h.psn 0x63).connError cn 1
    else
      match s.keyRead addr len with
      | (some b, s) => s.roceResponses cn h.psn b
      | (none, s) => s.roceRefuse cn h.psn 3 6

/-- R454: at most one CNP per connection per 50 µs, which is 1,250 AON cycles. -/
def State.sendCnp (s : State) (cn : Nat) : State :=
  let now := s.firm.aon
  match (s.conn cn).lastCnp with
  | some t => if now < t + 1250 then s else (s.modConn cn fun c => { c with lastCnp := some now }).sendRoce cn 0x81 0 false [] (zeros 16)
  | none => (s.modConn cn fun c => { c with lastCnp := some now }).sendRoce cn 0x81 0 false [] (zeros 16)

/-- A RoCE v2 packet for a connection. -/
def State.roceArrives (s : State) (sumOk ce : Bool) (p : List Byte) : State :=
  let h := parseRoce p
  let cn := h.qp
  let c := s.conn cn
  if !sumOk || decide (p.length < 16) || c.state != .opened || !c.roce then s.modNet fun n => { n with stale := satInc n.stale }
  else
    let s := if ce then s.sendCnp cn else s
    if h.op = 0x81 then s.modConn cn (·.adjust true)
    else if h.op = 17 then s.roceAcked cn h.psn (beField h.body 0 1)
    else if 13 ≤ h.op ∧ h.op ≤ 16 then s.roceReadData cn h
    else
      let d := psnDiff h.psn c.base
      if 0 < d then s.roceAck cn c.base 0x60
      else if d < 0 then (if h.op = 12 then s.roceRead cn h true else s.roceAck cn ((c.base + 2 ^ 24 - 1) % 2 ^ 24) 0x1F)
      else if 3 ≤ s.stage ∧ ([0, 4, 6, 10, 12].contains h.op) then s
      else
        match h.op with
        | 0 => s.roceData cn h 1 true false
        | 1 => s.roceData cn h 1 false false
        | 2 => s.roceData cn h 1 false true
        | 4 => s.roceData cn h 1 true true
        | 6 => s.roceData cn h 2 true false
        | 7 => s.roceData cn h 2 false false
        | 8 => s.roceData cn h 2 false true
        | 10 => s.roceData cn h 2 true true
        | 12 => s.roceRead cn h false
        | _ => s.roceRefuse cn h.psn 1 6

/-- Whether the ICRC of a RoCE v2 frame verifies, padding beyond the UDP datagram set aside. -/
def icrcOk (frame : List Byte) : Bool :=
  let n := 54 + beNat (slice frame 58 2)
  decide (12 + 62 + 4 ≤ n) && icrc (frame.take (n - 4)) == slice frame (n - 4) 4

/-- FRAME_RECEIVE: a frame arrives on a port whose link is up; it is refused, goes to the courier, or is classified. -/
def execFrameReceive (port : Nat) (fcsOk : Bool) (frame : List Byte) (s : State) : Out :=
  let p := s.netPort port
  if !p.linkUp then done s
  else if p.refuses fcsOk frame then done (s.modNetPort port fun p => { p with frameErrors := satInc p.frameErrors })
  else
    match s.courierPort port frame with
    | none => done (s.classify port frame)
    | some udp =>
      if udp = 4791 then done (s.roceArrives (icrcOk frame) (ecnCe frame) (udpPayload frame))
      else done (s.nativeArrives (udpSumOk frame) (ecnCe frame) (udpPayload frame))

end Sys2Proof.Machine
end

