-- ==== Sys2Proof/Machine/Scalar.lean ====
section
/-! DEFINITION. The commands of the scalar slot (R170, R171, R197): each has the named place issue the bundle that holds the operation with these
fields, and what the operation does is `evalScalar`. -/

namespace Sys2Proof.Machine

/-- ADD (R170). ADD writes ra + rb as INT or ADDR. -/
def execAdd (p : Place) (rd ra rb : BitVec 6) (s : State) : Out :=
  done (issueAt p (.s { op := .add, rd, ra, rb }) s)

/-- ADDI (R170). ADDI writes ra plus the immediate. -/
def execAddi (p : Place) (rd ra : BitVec 6) (imm : BitVec 14) (s : State) : Out :=
  done (issueAt p (.s { op := .addi, rd, ra, imm }) s)

/-- SUB (R170). SUB writes ra − rb. -/
def execSub (p : Place) (rd ra rb : BitVec 6) (s : State) : Out :=
  done (issueAt p (.s { op := .sub, rd, ra, rb }) s)

/-- AND (R170). AND writes the bitwise AND of two INT words. -/
def execAndOp (p : Place) (rd ra rb : BitVec 6) (s : State) : Out :=
  done (issueAt p (.s { op := .andOp, rd, ra, rb }) s)

/-- OR (R170). OR writes the bitwise OR of two INT words. -/
def execOrOp (p : Place) (rd ra rb : BitVec 6) (s : State) : Out :=
  done (issueAt p (.s { op := .orOp, rd, ra, rb }) s)

/-- XOR (R170). XOR writes the bitwise XOR of two INT words. -/
def execXor (p : Place) (rd ra rb : BitVec 6) (s : State) : Out :=
  done (issueAt p (.s { op := .xor, rd, ra, rb }) s)

/-- SHL (R170). SHL shifts an INT left by the immediate. -/
def execShl (p : Place) (rd ra : BitVec 6) (imm : BitVec 14) (s : State) : Out :=
  done (issueAt p (.s { op := .shl, rd, ra, imm }) s)

/-- SHR (R170). SHR shifts an INT right logically by the immediate. -/
def execShr (p : Place) (rd ra : BitVec 6) (imm : BitVec 14) (s : State) : Out :=
  done (issueAt p (.s { op := .shr, rd, ra, imm }) s)

/-- SAR (R170). SAR shifts an INT right arithmetically by the immediate. -/
def execSar (p : Place) (rd ra : BitVec 6) (imm : BitVec 14) (s : State) : Out :=
  done (issueAt p (.s { op := .sar, rd, ra, imm }) s)

/-- CMPLT (R170). CMPLT writes 1 if ra is below rb, else 0. -/
def execCmplt (p : Place) (rd ra rb : BitVec 6) (s : State) : Out :=
  done (issueAt p (.s { op := .cmplt, rd, ra, rb }) s)

/-- CMPEQ (R170). CMPEQ writes 1 if ra equals rb, else 0. -/
def execCmpeq (p : Place) (rd ra rb : BitVec 6) (s : State) : Out :=
  done (issueAt p (.s { op := .cmpeq, rd, ra, rb }) s)

/-- MIN (R170). MIN writes the signed minimum of two INT words. -/
def execMin (p : Place) (rd ra rb : BitVec 6) (s : State) : Out :=
  done (issueAt p (.s { op := .min, rd, ra, rb }) s)

/-- MAX (R170). MAX writes the signed maximum of two INT words. -/
def execMax (p : Place) (rd ra rb : BitVec 6) (s : State) : Out :=
  done (issueAt p (.s { op := .max, rd, ra, rb }) s)

/-- MUL (R170). MUL writes the low 64 bits of the product at distance 2. -/
def execMul (p : Place) (rd ra rb : BitVec 6) (s : State) : Out :=
  done (issueAt p (.s { op := .mul, rd, ra, rb }) s)

/-- DIV (R171). DIV writes the quotient toward zero, trapping DIVIDE on a zero divisor. -/
def execDiv (p : Place) (rd ra rb : BitVec 6) (s : State) : Out :=
  done (issueAt p (.s { op := .div, rd, ra, rb }) s)

/-- REM (R171). REM writes the remainder, trapping DIVIDE on a zero divisor. -/
def execRem (p : Place) (rd ra rb : BitVec 6) (s : State) : Out :=
  done (issueAt p (.s { op := .rem, rd, ra, rb }) s)

/-- FADD (R90). FADD writes the FP32 sum. -/
def execFadd (p : Place) (rd ra rb : BitVec 6) (s : State) : Out :=
  done (issueAt p (.s { op := .fadd, rd, ra, rb }) s)

/-- FSUB (R90). FSUB writes the FP32 difference. -/
def execFsub (p : Place) (rd ra rb : BitVec 6) (s : State) : Out :=
  done (issueAt p (.s { op := .fsub, rd, ra, rb }) s)

/-- FMUL (R90). FMUL writes the FP32 product. -/
def execFmul (p : Place) (rd ra rb : BitVec 6) (s : State) : Out :=
  done (issueAt p (.s { op := .fmul, rd, ra, rb }) s)

/-- FFMA (R170). FFMA writes ra × rb + rd with one rounding. -/
def execFfma (p : Place) (rd ra rb : BitVec 6) (s : State) : Out :=
  done (issueAt p (.s { op := .ffma, rd, ra, rb }) s)

/-- FMAX (R170). FMAX writes the larger FP32 value, NaN if either is NaN. -/
def execFmax (p : Place) (rd ra rb : BitVec 6) (s : State) : Out :=
  done (issueAt p (.s { op := .fmax, rd, ra, rb }) s)

/-- FMIN (R170). FMIN writes the smaller FP32 value, NaN if either is NaN. -/
def execFmin (p : Place) (rd ra rb : BitVec 6) (s : State) : Out :=
  done (issueAt p (.s { op := .fmin, rd, ra, rb }) s)

/-- ITOF (R170). ITOF converts an INT to FP32 with round to nearest even. -/
def execItof (p : Place) (rd ra : BitVec 6) (s : State) : Out :=
  done (issueAt p (.s { op := .itof, rd, ra }) s)

/-- FTOI (R170). FTOI converts FP32 to INT toward zero, saturating. -/
def execFtoi (p : Place) (rd ra : BitVec 6) (s : State) : Out :=
  done (issueAt p (.s { op := .ftoi, rd, ra }) s)

/-- MOV (R170). MOV copies a word with its tag. -/
def execMov (p : Place) (rd ra : BitVec 6) (s : State) : Out :=
  done (issueAt p (.s { op := .mov, rd, ra }) s)

/-- TAGOF (R170). TAGOF writes the tag number of ra without a tag check. -/
def execTagof (p : Place) (rd ra : BitVec 6) (s : State) : Out :=
  done (issueAt p (.s { op := .tagof, rd, ra }) s)

/-- RETAG (R158). RETAG keeps the data bits and gives a permitted new tag. -/
def execRetag (p : Place) (rd ra : BitVec 6) (imm : BitVec 14) (s : State) : Out :=
  done (issueAt p (.s { op := .retag, rd, ra, imm }) s)

/-- SLD (R170). SLD loads a tagged word from the tile store. -/
def execSld (p : Place) (rd ra : BitVec 6) (imm : BitVec 14) (s : State) : Out :=
  done (issueAt p (.s { op := .sld, rd, ra, imm }) s)

/-- SST (R170). SST stores a word with its tag into the tile store. -/
def execSst (p : Place) (ra rb : BitVec 6) (imm : BitVec 14) (s : State) : Out :=
  done (issueAt p (.s { op := .sst, ra, rb, imm }) s)

/-- MARKP (R170). MARKP sets the tag of a tile-store word to PENDING. -/
def execMarkp (p : Place) (ra : BitVec 6) (imm : BitVec 14) (s : State) : Out :=
  done (issueAt p (.s { op := .markp, ra, imm }) s)

/-- WAIT (R185). WAIT puts the context in WAIT if the named word reads PENDING. -/
def execWait (p : Place) (ra : BitVec 6) (imm : BitVec 14) (s : State) : Out :=
  done (issueAt p (.s { op := .wait, ra, imm }) s)

/-- BR (R169). BR branches relative after one shadow bundle. -/
def execBr (p : Place) (imm : BitVec 14) (s : State) : Out :=
  done (issueAt p (.s { op := .br, imm }) s)

/-- BZ (R169). BZ branches if ra is 0, after one shadow bundle. -/
def execBz (p : Place) (ra : BitVec 6) (imm : BitVec 14) (s : State) : Out :=
  done (issueAt p (.s { op := .bz, ra, imm }) s)

/-- BNZ (R169). BNZ branches if ra is not 0, after one shadow bundle. -/
def execBnz (p : Place) (ra : BitVec 6) (imm : BitVec 14) (s : State) : Out :=
  done (issueAt p (.s { op := .bnz, ra, imm }) s)

/-- CALL (R169). CALL writes the return address and branches after one shadow bundle. -/
def execCall (p : Place) (rd : BitVec 6) (imm : BitVec 14) (s : State) : Out :=
  done (issueAt p (.s { op := .call, rd, imm }) s)

/-- JMP (R169). JMP branches to the ADDR in ra after one shadow bundle. -/
def execJmp (p : Place) (ra : BitVec 6) (s : State) : Out :=
  done (issueAt p (.s { op := .jmp, ra }) s)

/-- REPI (R189). REPI makes the next bundle issue a register-given number of times, interruptibly. -/
def execRepi (p : Place) (ra : BitVec 6) (s : State) : Out :=
  done (issueAt p (.s { op := .repi, ra }) s)

/-- REPX (R190). REPX makes the next bundle issue 1 to 4,096 times without stopping for a halt. -/
def execRepx (p : Place) (imm : BitVec 14) (s : State) : Out :=
  done (issueAt p (.s { op := .repx, imm }) s)

/-- STEP (R253). STEP holds the context at the guest's step barrier. -/
def execStep (p : Place) (s : State) : Out :=
  done (issueAt p (.s { op := .step }) s)

/-- END (R170). END stops issue, commits due results and returns the context to the Steward. -/
def execEndOp (p : Place) (s : State) : Out :=
  done (issueAt p (.s { op := .endOp }) s)

/-- SETH (R170). SETH sets or clears the context's trap handler. -/
def execSeth (p : Place) (ra : BitVec 6) (s : State) : Out :=
  done (issueAt p (.s { op := .seth, ra }) s)

/-- RTE (R195). RTE returns from a trap handler to TRAP_PC with the saved repeat state, or on a firmware core from an interrupt. -/
def execRte (p : Place) (s : State) : Out :=
  done (issueAt p (.s { op := .rte }) s)

/-- BRK (R192). BRK takes full effect and then takes the BREAK trap. -/
def execBrk (p : Place) (imm : BitVec 14) (s : State) : Out :=
  done (issueAt p (.s { op := .brk, imm }) s)

/-- RDT (R194). RDT reads a trap state word. -/
def execRdt (p : Place) (rd : BitVec 6) (imm : BitVec 14) (s : State) : Out :=
  done (issueAt p (.s { op := .rdt, rd, imm }) s)

/-- LDI (R160). LDI writes the 64-bit tagged immediate of an FMT 1 bundle. -/
def execLdi (p : Place) (rd : BitVec 6) (tag : BitVec 4) (value : BitVec 64) (s : State) : Out :=
  done (issueAt p (.ldi rd tag value) s)

/-- DGET (R170). DGET reads one word of a descriptor tagged DESC. -/
def execDget (p : Place) (rd : BitVec 6) (dk : BitVec 4) (w : BitVec 2) (s : State) : Out :=
  done (issueAt p (.s { op := .dget, rd, ra := dk.setWidth 6, imm := w.setWidth 14 }) s)

/-- DPUT (R170). DPUT writes one word of a descriptor. -/
def execDput (p : Place) (dk : BitVec 4) (w : BitVec 2) (rb : BitVec 6) (s : State) : Out :=
  done (issueAt p (.s { op := .dput, rd := dk.setWidth 6, imm := w.setWidth 14, rb }) s)

/-- DLD (R170). DLD loads a descriptor from 32 bytes of the tile store. -/
def execDld (p : Place) (dk : BitVec 4) (ra : BitVec 6) (imm : BitVec 14) (s : State) : Out :=
  done (issueAt p (.s { op := .dld, rd := dk.setWidth 6, ra, imm }) s)

/-- DST (R170). DST stores a descriptor as four DESC words. -/
def execDst (p : Place) (dk : BitVec 4) (ra : BitVec 6) (imm : BitVec 14) (s : State) : Out :=
  done (issueAt p (.s { op := .dst, rd := dk.setWidth 6, ra, imm }) s)

/-- PGET (R170). PGET reads a predicate register into a PRED word. -/
def execPget (p : Place) (rd : BitVec 6) (pk : BitVec 3) (s : State) : Out :=
  done (issueAt p (.s { op := .pget, rd, ra := pk.setWidth 6 }) s)

/-- PPUT (R170). PPUT writes a predicate register from a word. -/
def execPput (p : Place) (pk : BitVec 3) (ra : BitVec 6) (s : State) : Out :=
  done (issueAt p (.s { op := .pput, rd := pk.setWidth 6, ra }) s)

/-- SLD4 (R197). SLD4 on a firmware core reads 4 bytes tagged INT. -/
def execSld4 (p : Place) (rd ra : BitVec 6) (imm : BitVec 14) (s : State) : Out :=
  done (issueAt p (.s { op := .sld4, rd, ra, imm }) s)

/-- SST4 (R197). SST4 on a firmware core writes the low 4 bytes of a word. -/
def execSst4 (p : Place) (ra rb : BitVec 6) (imm : BitVec 14) (s : State) : Out :=
  done (issueAt p (.s { op := .sst4, ra, rb, imm }) s)

/-- WFI (R570). WFI stops a firmware core's issue until an enabled interrupt source is pending. -/
def execWfi (p : Place) (s : State) : Out :=
  done (issueAt p (.s { op := .wfi }) s)

end Sys2Proof.Machine
end

