-- ==== Sys2Proof/Machine/Vector.lean ====
section
/-! DEFINITION. The commands of the vector slot (R172 to R175); what each operation does is `evalVector`. -/

namespace Sys2Proof.Machine

/-- VADD (R173). VADD adds two vectors lane by lane under the predicate. -/
def execVadd (p : Place) (vd va vb : BitVec 5) (pr : BitVec 3) (pz : Bool) (s : State) : Out :=
  done (issueAt p (.v { op := .vadd, vd, va, b := vb.setWidth 6, pr, pz }) s)

/-- VSUB (R173). VSUB subtracts two vectors lane by lane. -/
def execVsub (p : Place) (vd va vb : BitVec 5) (pr : BitVec 3) (pz : Bool) (s : State) : Out :=
  done (issueAt p (.v { op := .vsub, vd, va, b := vb.setWidth 6, pr, pz }) s)

/-- VMUL (R173). VMUL multiplies two vectors lane by lane. -/
def execVmul (p : Place) (vd va vb : BitVec 5) (pr : BitVec 3) (pz : Bool) (s : State) : Out :=
  done (issueAt p (.v { op := .vmul, vd, va, b := vb.setWidth 6, pr, pz }) s)

/-- VFMA (R173). VFMA computes va × vb + vc per lane with one rounding. -/
def execVfma (p : Place) (vd va vb vc : BitVec 5) (pr : BitVec 3) (pz : Bool) (s : State) : Out :=
  done (issueAt p (.v { op := .vfma, vd, va, b := vb.setWidth 6, vc, pr, pz }) s)

/-- VMAX (R172). VMAX writes the lane-wise maximum. -/
def execVmax (p : Place) (vd va vb : BitVec 5) (pr : BitVec 3) (pz : Bool) (s : State) : Out :=
  done (issueAt p (.v { op := .vmax, vd, va, b := vb.setWidth 6, pr, pz }) s)

/-- VMIN (R172). VMIN writes the lane-wise minimum. -/
def execVmin (p : Place) (vd va vb : BitVec 5) (pr : BitVec 3) (pz : Bool) (s : State) : Out :=
  done (issueAt p (.v { op := .vmin, vd, va, b := vb.setWidth 6, pr, pz }) s)

/-- VSEL (R173). VSEL writes va or vb in every lane as the predicate selects. -/
def execVsel (p : Place) (vd va vb : BitVec 5) (pr : BitVec 3) (s : State) : Out :=
  done (issueAt p (.v { op := .vsel, vd, va, b := vb.setWidth 6, pr }) s)

/-- VADDS (R172). VADDS adds a scalar FLOAT to every lane. -/
def execVadds (p : Place) (vd va : BitVec 5) (sb : BitVec 6) (pr : BitVec 3) (pz : Bool) (s : State) : Out :=
  done (issueAt p (.v { op := .vadds, vd, va, b := sb, pr, pz }) s)

/-- VMULS (R172). VMULS multiplies every lane by a scalar FLOAT. -/
def execVmuls (p : Place) (vd va : BitVec 5) (sb : BitVec 6) (pr : BitVec 3) (pz : Bool) (s : State) : Out :=
  done (issueAt p (.v { op := .vmuls, vd, va, b := sb, pr, pz }) s)

/-- VBCAST (R172). VBCAST broadcasts a scalar's low 32 bits to every lane. -/
def execVbcast (p : Place) (vd : BitVec 5) (sb : BitVec 6) (pr : BitVec 3) (pz : Bool) (s : State) : Out :=
  done (issueAt p (.v { op := .vbcast, vd, b := sb, pr, pz }) s)

/-- VCMPLT (R172). VCMPLT writes a predicate of lane-wise less-than results. -/
def execVcmplt (p : Place) (pd : BitVec 3) (va vb : BitVec 5) (pr : BitVec 3) (s : State) : Out :=
  done (issueAt p (.v { op := .vcmplt, vd := pd.setWidth 5, va, b := vb.setWidth 6, pr }) s)

/-- VCMPEQ (R172). VCMPEQ writes a predicate of lane-wise equality results. -/
def execVcmpeq (p : Place) (pd : BitVec 3) (va vb : BitVec 5) (pr : BitVec 3) (s : State) : Out :=
  done (issueAt p (.v { op := .vcmpeq, vd := pd.setWidth 5, va, b := vb.setWidth 6, pr }) s)

/-- VRMAX32 (R173). VRMAX32 writes the maximum of each 32-lane half. -/
def execVrmax32 (p : Place) (vd va : BitVec 5) (pr : BitVec 3) (pz : Bool) (s : State) : Out :=
  done (issueAt p (.v { op := .vrmax32, vd, va, pr, pz }) s)

/-- VRSUM32 (R174). VRSUM32 writes the pairwise-tree sum of each 32-lane half. -/
def execVrsum32 (p : Place) (vd va : BitVec 5) (pr : BitVec 3) (pz : Bool) (s : State) : Out :=
  done (issueAt p (.v { op := .vrsum32, vd, va, pr, pz }) s)

/-- VFN (R175). VFN queues a function-unit operation whose result follows by the reference algorithms. -/
def execVfn (p : Place) (vd va fn : BitVec 5) (pr : BitVec 3) (pz : Bool) (s : State) : Out :=
  done (issueAt p (.v { op := .vfn, vd, va, vc := fn, pr, pz }) s)

end Sys2Proof.Machine
end

