-- ==== Sys2Proof/Machine/Dispatch.lean ====
section
/-! DEFINITION. What each command does to everything but the queue of waiting commands: one call for each command. -/

namespace Sys2Proof.Machine

def exec (i : Instr) (s : State) : Host.Outcome State Fault Refusal :=
  match i with
  | .registerWrite link offset size value => Sys2Proof.Machine.execRegisterWrite link offset size value s
  | .main48vRise => Sys2Proof.Machine.execMain48vRise s
  | .startStepDone failing => Sys2Proof.Machine.execStartStepDone failing s
  | .warmStartHoldEnd => Sys2Proof.Machine.execWarmStartHoldEnd s
  | .phGo slot => Sys2Proof.Machine.execPhGo slot s
  | .requestBegin core => Sys2Proof.Machine.execRequestBegin core s
  | .phDoneClear slot => Sys2Proof.Machine.execPhDoneClear slot s
  | .eventPost slot => Sys2Proof.Machine.execEventPost slot s
  | .hello slot => Sys2Proof.Machine.execHello slot s
  | .features slot => Sys2Proof.Machine.execFeatures slot s
  | .moduleStatus slot => Sys2Proof.Machine.execModuleStatus slot s
  | .moduleRestart slot => Sys2Proof.Machine.execModuleRestart slot s
  | .restartDelayExpire => Sys2Proof.Machine.execRestartDelayExpire s
  | .coldRestart value => Sys2Proof.Machine.execColdRestart value s
  | .fwStage slot => Sys2Proof.Machine.execFwStage slot s
  | .fwStageDone => Sys2Proof.Machine.execFwStageDone s
  | .fwActivate slot => Sys2Proof.Machine.execFwActivate slot s
  | .activationStart => Sys2Proof.Machine.execActivationStart s
  | .coreSwapDone core => Sys2Proof.Machine.execCoreSwapDone core s
  | .hearthSwapStart => Sys2Proof.Machine.execHearthSwapStart s
  | .swapTimeout core => Sys2Proof.Machine.execSwapTimeout core s
  | .watchdogExpire core => Sys2Proof.Machine.execWatchdogExpire core s
  | .coreRestartDone core => Sys2Proof.Machine.execCoreRestartDone core s
  | .coreRestartTimeout core => Sys2Proof.Machine.execCoreRestartTimeout core s
  | .recordWriteDone => Sys2Proof.Machine.execRecordWriteDone s
  | .resultProduced tile => Sys2Proof.Machine.execResultProduced tile s
  | .restPointReached tile => Sys2Proof.Machine.execRestPointReached tile s
  | .retirementBegin cluster => Sys2Proof.Machine.execRetirementBegin cluster s
  | .imageMoveDone cluster => Sys2Proof.Machine.execImageMoveDone cluster s
  | .tileRetire slot => Sys2Proof.Machine.execTileRetire slot s
  | .jobLaunch slot => Sys2Proof.Machine.execJobLaunch slot s
  | .epochJobStart => Sys2Proof.Machine.execEpochJobStart s
  | .jobEnd slot => Sys2Proof.Machine.execJobEnd slot s
  | .add p rd ra rb => Sys2Proof.Machine.execAdd p rd ra rb s
  | .addi p rd ra imm => Sys2Proof.Machine.execAddi p rd ra imm s
  | .sub p rd ra rb => Sys2Proof.Machine.execSub p rd ra rb s
  | .andOp p rd ra rb => Sys2Proof.Machine.execAndOp p rd ra rb s
  | .orOp p rd ra rb => Sys2Proof.Machine.execOrOp p rd ra rb s
  | .xor p rd ra rb => Sys2Proof.Machine.execXor p rd ra rb s
  | .shl p rd ra imm => Sys2Proof.Machine.execShl p rd ra imm s
  | .shr p rd ra imm => Sys2Proof.Machine.execShr p rd ra imm s
  | .sar p rd ra imm => Sys2Proof.Machine.execSar p rd ra imm s
  | .cmplt p rd ra rb => Sys2Proof.Machine.execCmplt p rd ra rb s
  | .cmpeq p rd ra rb => Sys2Proof.Machine.execCmpeq p rd ra rb s
  | .min p rd ra rb => Sys2Proof.Machine.execMin p rd ra rb s
  | .max p rd ra rb => Sys2Proof.Machine.execMax p rd ra rb s
  | .mul p rd ra rb => Sys2Proof.Machine.execMul p rd ra rb s
  | .div p rd ra rb => Sys2Proof.Machine.execDiv p rd ra rb s
  | .rem p rd ra rb => Sys2Proof.Machine.execRem p rd ra rb s
  | .fadd p rd ra rb => Sys2Proof.Machine.execFadd p rd ra rb s
  | .fsub p rd ra rb => Sys2Proof.Machine.execFsub p rd ra rb s
  | .fmul p rd ra rb => Sys2Proof.Machine.execFmul p rd ra rb s
  | .ffma p rd ra rb => Sys2Proof.Machine.execFfma p rd ra rb s
  | .fmax p rd ra rb => Sys2Proof.Machine.execFmax p rd ra rb s
  | .fmin p rd ra rb => Sys2Proof.Machine.execFmin p rd ra rb s
  | .itof p rd ra => Sys2Proof.Machine.execItof p rd ra s
  | .ftoi p rd ra => Sys2Proof.Machine.execFtoi p rd ra s
  | .mov p rd ra => Sys2Proof.Machine.execMov p rd ra s
  | .tagof p rd ra => Sys2Proof.Machine.execTagof p rd ra s
  | .retag p rd ra imm => Sys2Proof.Machine.execRetag p rd ra imm s
  | .sld p rd ra imm => Sys2Proof.Machine.execSld p rd ra imm s
  | .sst p ra rb imm => Sys2Proof.Machine.execSst p ra rb imm s
  | .markp p ra imm => Sys2Proof.Machine.execMarkp p ra imm s
  | .wait p ra imm => Sys2Proof.Machine.execWait p ra imm s
  | .br p imm => Sys2Proof.Machine.execBr p imm s
  | .bz p ra imm => Sys2Proof.Machine.execBz p ra imm s
  | .bnz p ra imm => Sys2Proof.Machine.execBnz p ra imm s
  | .call p rd imm => Sys2Proof.Machine.execCall p rd imm s
  | .jmp p ra => Sys2Proof.Machine.execJmp p ra s
  | .repi p ra => Sys2Proof.Machine.execRepi p ra s
  | .repx p imm => Sys2Proof.Machine.execRepx p imm s
  | .step p => Sys2Proof.Machine.execStep p s
  | .endOp p => Sys2Proof.Machine.execEndOp p s
  | .seth p ra => Sys2Proof.Machine.execSeth p ra s
  | .rte p => Sys2Proof.Machine.execRte p s
  | .brk p imm => Sys2Proof.Machine.execBrk p imm s
  | .rdt p rd imm => Sys2Proof.Machine.execRdt p rd imm s
  | .ldi p rd tag value => Sys2Proof.Machine.execLdi p rd tag value s
  | .dget p rd dk w => Sys2Proof.Machine.execDget p rd dk w s
  | .dput p dk w rb => Sys2Proof.Machine.execDput p dk w rb s
  | .dld p dk ra imm => Sys2Proof.Machine.execDld p dk ra imm s
  | .dst p dk ra imm => Sys2Proof.Machine.execDst p dk ra imm s
  | .pget p rd pk => Sys2Proof.Machine.execPget p rd pk s
  | .pput p pk ra => Sys2Proof.Machine.execPput p pk ra s
  | .sld4 p rd ra imm => Sys2Proof.Machine.execSld4 p rd ra imm s
  | .sst4 p ra rb imm => Sys2Proof.Machine.execSst4 p ra rb imm s
  | .wfi p => Sys2Proof.Machine.execWfi p s
  | .vadd p vd va vb pr pz => Sys2Proof.Machine.execVadd p vd va vb pr pz s
  | .vsub p vd va vb pr pz => Sys2Proof.Machine.execVsub p vd va vb pr pz s
  | .vmul p vd va vb pr pz => Sys2Proof.Machine.execVmul p vd va vb pr pz s
  | .vfma p vd va vb vc pr pz => Sys2Proof.Machine.execVfma p vd va vb vc pr pz s
  | .vmax p vd va vb pr pz => Sys2Proof.Machine.execVmax p vd va vb pr pz s
  | .vmin p vd va vb pr pz => Sys2Proof.Machine.execVmin p vd va vb pr pz s
  | .vsel p vd va vb pr => Sys2Proof.Machine.execVsel p vd va vb pr s
  | .vadds p vd va sb pr pz => Sys2Proof.Machine.execVadds p vd va sb pr pz s
  | .vmuls p vd va sb pr pz => Sys2Proof.Machine.execVmuls p vd va sb pr pz s
  | .vbcast p vd sb pr pz => Sys2Proof.Machine.execVbcast p vd sb pr pz s
  | .vcmplt p pd va vb pr => Sys2Proof.Machine.execVcmplt p pd va vb pr s
  | .vcmpeq p pd va vb pr => Sys2Proof.Machine.execVcmpeq p pd va vb pr s
  | .vrmax32 p vd va pr pz => Sys2Proof.Machine.execVrmax32 p vd va pr pz s
  | .vrsum32 p vd va pr pz => Sys2Proof.Machine.execVrsum32 p vd va pr pz s
  | .vfn p vd va fn pr pz => Sys2Proof.Machine.execVfn p vd va fn pr pz s
  | .mma p da db => Sys2Proof.Machine.execMma p da db s
  | .mmacI p da db anchor => Sys2Proof.Machine.execMmacI p da db anchor s
  | .mmacR p da db sr => Sys2Proof.Machine.execMmacR p da db sr s
  | .mmacA p da db => Sys2Proof.Machine.execMmacA p da db s
  | .tclr p anchor => Sys2Proof.Machine.execTclr p anchor s
  | .tget p da t => Sys2Proof.Machine.execTget p da t s
  | .vld p vr dk => Sys2Proof.Machine.execVld p vr dk s
  | .vst p vr dk => Sys2Proof.Machine.execVst p vr dk s
  | .vstmx p vr dk n => Sys2Proof.Machine.execVstmx p vr dk n s
  | .trd p g bf16 vr lb => Sys2Proof.Machine.execTrd p g bf16 vr lb s
  | .tput p t dk => Sys2Proof.Machine.execTput p t dk s
  | .txmx p dk h => Sys2Proof.Machine.execTxmx p dk h s
  | .put p dk sr n => Sys2Proof.Machine.execPut p dk sr n s
  | .get p dk sr n => Sys2Proof.Machine.execGet p dk sr n s
  | .astream p dk sr => Sys2Proof.Machine.execAstream p dk sr s
  | .packetHop tile port => Sys2Proof.Machine.execPacketHop tile port s
  | .putArrive tile => Sys2Proof.Machine.execPutArrive tile s
  | .getReqArrive tile => Sys2Proof.Machine.execGetReqArrive tile s
  | .getReplyArrive tile => Sys2Proof.Machine.execGetReplyArrive tile s
  | .ackArrive tile => Sys2Proof.Machine.execAckArrive tile s
  | .ackTimerExpire tile source => Sys2Proof.Machine.execAckTimerExpire tile source s
  | .tmaxUpArrive tile => Sys2Proof.Machine.execTmaxUpArrive tile s
  | .tmaxDownArrive tile => Sys2Proof.Machine.execTmaxDownArrive tile s
  | .fndRdArrive pkt => Sys2Proof.Machine.execFndRdArrive pkt s
  | .fndWrArrive pkt => Sys2Proof.Machine.execFndWrArrive pkt s
  | .fndReplyArrive tile => Sys2Proof.Machine.execFndReplyArrive tile s
  | .imageArrive tile => Sys2Proof.Machine.execImageArrive tile s
  | .ctrlArrive tile => Sys2Proof.Machine.execCtrlArrive tile s
  | .flitCrcFail tile side flit => Sys2Proof.Machine.execFlitCrcFail tile side flit s
  | .ageTick => Sys2Proof.Machine.execAgeTick s
  | .astreamStreamDone tile => Sys2Proof.Machine.execAstreamStreamDone tile s
  | .astreamAppendDone tile => Sys2Proof.Machine.execAstreamAppendDone tile s
  | .stepBarrierComplete guest => Sys2Proof.Machine.execStepBarrierComplete guest s
  | .barrierRelease guest => Sys2Proof.Machine.execBarrierRelease guest s
  | .runMoveDone ledger span => Sys2Proof.Machine.execRunMoveDone ledger span s
  | .ledgerPool slot => Sys2Proof.Machine.execLedgerPool slot s
  | .ledgerCreate slot => Sys2Proof.Machine.execLedgerCreate slot s
  | .ledgerDelete slot => Sys2Proof.Machine.execLedgerDelete slot s
  | .ledgerMove slot => Sys2Proof.Machine.execLedgerMove slot s
  | .ledgerQuery slot => Sys2Proof.Machine.execLedgerQuery slot s
  | .ledgerIdle slot => Sys2Proof.Machine.execLedgerIdle slot s
  | .ledgerExport slot => Sys2Proof.Machine.execLedgerExport slot s
  | .ledgerExportDone ledger => Sys2Proof.Machine.execLedgerExportDone ledger s
  | .ledgerImport slot => Sys2Proof.Machine.execLedgerImport slot s
  | .ledgerImportDone guest => Sys2Proof.Machine.execLedgerImportDone guest s
  | .drawDone tile => Sys2Proof.Machine.execDrawDone tile s
  | .passportDigest slot => Sys2Proof.Machine.execPassportDigest slot s
  | .digestDone guest digestSlot => Sys2Proof.Machine.execDigestDone guest digestSlot s
  | .passportSeal slot => Sys2Proof.Machine.execPassportSeal slot s
  | .sealDone guest => Sys2Proof.Machine.execSealDone guest s
  | .rtmLimitExpire job => Sys2Proof.Machine.execRtmLimitExpire job s
  | .refresh stack pc => Sys2Proof.Machine.execRefresh stack pc s
  | .scrubLine stack => Sys2Proof.Machine.execScrubLine stack s
  | .mergeTimeout stack line => Sys2Proof.Machine.execMergeTimeout stack line s
  | .memRetirePc slot => Sys2Proof.Machine.execMemRetirePc slot s
  | .pcRetireDone => Sys2Proof.Machine.execPcRetireDone s
  | .cellarFillDone port region => Sys2Proof.Machine.execCellarFillDone port region s
  | .cellarRelease slot => Sys2Proof.Machine.execCellarRelease slot s
  | .evacuationDone port => Sys2Proof.Machine.execEvacuationDone port s
  | .cellarMediaEvent port address => Sys2Proof.Machine.execCellarMediaEvent port address s
  | .configAccess link write offset size value => Sys2Proof.Machine.execConfigAccess link write offset size value s
  | .bar4Access link write offset length bytes => Sys2Proof.Machine.execBar4Access link write offset length bytes s
  | .completionArrive link tag status bytes => Sys2Proof.Machine.execCompletionArrive link tag status bytes s
  | .completionTimeout link tag => Sys2Proof.Machine.execCompletionTimeout link tag s
  | .quarantineExpire link tag => Sys2Proof.Machine.execQuarantineExpire link tag s
  | .linkReset link down => Sys2Proof.Machine.execLinkReset link down s
  | .slotPresenceChange port present => Sys2Proof.Machine.execSlotPresenceChange port present s
  | .slotButtonPress port => Sys2Proof.Machine.execSlotButtonPress port s
  | .slotButtonTimeout port => Sys2Proof.Machine.execSlotButtonTimeout port s
  | .slotPowerGood port => Sys2Proof.Machine.execSlotPowerGood port s
  | .slotPerstRelease port => Sys2Proof.Machine.execSlotPerstRelease port s
  | .slotLinkUp port speed width => Sys2Proof.Machine.execSlotLinkUp port speed width s
  | .slotEnumerated port capacity => Sys2Proof.Machine.execSlotEnumerated port capacity s
  | .slotPowerTimeout port => Sys2Proof.Machine.execSlotPowerTimeout port s
  | .slotPowerFault port => Sys2Proof.Machine.execSlotPowerFault port s
  | .freezeTrigger port cause => Sys2Proof.Machine.execFreezeTrigger port cause s
  | .peerRequest port write address length bytes => Sys2Proof.Machine.execPeerRequest port write address length bytes s
  | .windowCommit port => Sys2Proof.Machine.execWindowCommit port s
  | .windowSwap port => Sys2Proof.Machine.execWindowSwap port s
  | .portConfig slot => Sys2Proof.Machine.execPortConfig slot s
  | .slotControl slot => Sys2Proof.Machine.execSlotControl slot s
  | .portRelease slot => Sys2Proof.Machine.execPortRelease slot s
  | .overlaySet slot => Sys2Proof.Machine.execOverlaySet slot s
  | .overlayWriteDone => Sys2Proof.Machine.execOverlayWriteDone s
  | .guestCreate slot => Sys2Proof.Machine.execGuestCreate slot s
  | .guestDestroy slot => Sys2Proof.Machine.execGuestDestroy slot s
  | .guestDestroyDone guest => Sys2Proof.Machine.execGuestDestroyDone guest s
  | .guestGrant slot => Sys2Proof.Machine.execGuestGrant slot s
  | .guestRevoke slot => Sys2Proof.Machine.execGuestRevoke slot s
  | .guestRevokeDone guest => Sys2Proof.Machine.execGuestRevokeDone guest s
  | .sqTail page queue value => Sys2Proof.Machine.execSqTail page queue value s
  | .cqHead page queue value => Sys2Proof.Machine.execCqHead page queue value s
  | .courierDb page value => Sys2Proof.Machine.execCourierDb page value s
  | .parlourRing page => Sys2Proof.Machine.execParlourRing page s
  | .parlourWindowAccess page write offset length bytes => Sys2Proof.Machine.execParlourWindowAccess page write offset length bytes s
  | .guestRing guest => Sys2Proof.Machine.execGuestRing guest s
  | .logStart slot => Sys2Proof.Machine.execLogStart slot s
  | .logFence slot => Sys2Proof.Machine.execLogFence slot s
  | .logStop slot => Sys2Proof.Machine.execLogStop slot s
  | .logFenceDone guest => Sys2Proof.Machine.execLogFenceDone guest s
  | .sqFetch => Sys2Proof.Machine.execSqFetch s
  | .cqPost pair => Sys2Proof.Machine.execCqPost pair s
  | .getLogPage pair cid => Sys2Proof.Machine.execGetLogPage pair cid s
  | .identify pair cid => Sys2Proof.Machine.execIdentify pair cid s
  | .abort pair cid => Sys2Proof.Machine.execAbort pair cid s
  | .setFeatures pair cid => Sys2Proof.Machine.execSetFeatures pair cid s
  | .getFeatures pair cid => Sys2Proof.Machine.execGetFeatures pair cid s
  | .asynchronousEventRequest pair cid => Sys2Proof.Machine.execAsynchronousEventRequest pair cid s
  | .flush pair cid => Sys2Proof.Machine.execFlush pair cid s
  | .write pair cid => Sys2Proof.Machine.execWrite pair cid s
  | .read pair cid => Sys2Proof.Machine.execRead pair cid s
  | .writeZeroes pair cid => Sys2Proof.Machine.execWriteZeroes pair cid s
  | .datasetManagement pair cid => Sys2Proof.Machine.execDatasetManagement pair cid s
  | .backingComplete pair cid part sct sc dnr bytes => Sys2Proof.Machine.execBackingComplete pair cid part sct sc dnr bytes s
  | .backingTimeout pair cid part => Sys2Proof.Machine.execBackingTimeout pair cid part s
  | .storageNsCreate slot => Sys2Proof.Machine.execStorageNsCreate slot s
  | .storageNsDelete slot => Sys2Proof.Machine.execStorageNsDelete slot s
  | .nsDeleteDone guest nsid => Sys2Proof.Machine.execNsDeleteDone guest nsid s
  | .storageQueueCreate slot => Sys2Proof.Machine.execStorageQueueCreate slot s
  | .storageQueueDelete slot => Sys2Proof.Machine.execStorageQueueDelete slot s
  | .queueDeleteDone pair => Sys2Proof.Machine.execQueueDeleteDone pair s
  | .frameReceive port fcsOk frame => Sys2Proof.Machine.execFrameReceive port fcsOk frame s
  | .courierPacketReceive port sumOk ce packet => Sys2Proof.Machine.execCourierPacketReceive port sumOk ce packet s
  | .courierAckReceive port sumOk ce packet => Sys2Proof.Machine.execCourierAckReceive port sumOk ce packet s
  | .courierNackReceive port sumOk ce packet => Sys2Proof.Machine.execCourierNackReceive port sumOk ce packet s
  | .courierRtoExpire conn msn => Sys2Proof.Machine.execCourierRtoExpire conn msn s
  | .wrFetch conn recv => Sys2Proof.Machine.execWrFetch conn recv s
  | .courierRequestStart conn => Sys2Proof.Machine.execCourierRequestStart conn s
  | .frameRxTail ring value => Sys2Proof.Machine.execFrameRxTail ring value s
  | .frameTxTail ring value => Sys2Proof.Machine.execFrameTxTail ring value s
  | .ruleCommit value => Sys2Proof.Machine.execRuleCommit value s
  | .netConfig slot => Sys2Proof.Machine.execNetConfig slot s
  | .netPortSet slot => Sys2Proof.Machine.execNetPortSet slot s
  | .netProfile slot => Sys2Proof.Machine.execNetProfile slot s
  | .netRing slot => Sys2Proof.Machine.execNetRing slot s
  | .netTime slot => Sys2Proof.Machine.execNetTime slot s
  | .netLinkChange port up => Sys2Proof.Machine.execNetLinkChange port up s
  | .courierKey slot => Sys2Proof.Machine.execCourierKey slot s
  | .courierOpen slot => Sys2Proof.Machine.execCourierOpen slot s
  | .courierClose slot => Sys2Proof.Machine.execCourierClose slot s
  | .egressEnqueue port index => Sys2Proof.Machine.execEgressEnqueue port index s
  | .schedulerDecide port => Sys2Proof.Machine.execSchedulerDecide port s
  | .tokenUpdate => Sys2Proof.Machine.execTokenUpdate s
  | .gateEntryAdvance port => Sys2Proof.Machine.execGateEntryAdvance port s
  | .timetableSlotStart port => Sys2Proof.Machine.execTimetableSlotStart port s
  | .scheduleSwitch port gates => Sys2Proof.Machine.execScheduleSwitch port gates s
  | .queueSample => Sys2Proof.Machine.execQueueSample s
  | .trafficQueue slot => Sys2Proof.Machine.execTrafficQueue slot s
  | .trafficPort slot => Sys2Proof.Machine.execTrafficPort slot s
  | .trafficTimetable slot => Sys2Proof.Machine.execTrafficTimetable slot s
  | .trafficGates slot => Sys2Proof.Machine.execTrafficGates slot s
  | .keyIdentity slot => Sys2Proof.Machine.execKeyIdentity slot s
  | .kekInstall slot => Sys2Proof.Machine.execKekInstall slot s
  | .keyLoad slot => Sys2Proof.Machine.execKeyLoad slot s
  | .keyClear slot => Sys2Proof.Machine.execKeyClear slot s
  | .keyClearDone slot => Sys2Proof.Machine.execKeyClearDone slot s
  | .keyFetchDone engine => Sys2Proof.Machine.execKeyFetchDone engine s
  | .cipherRun slot => Sys2Proof.Machine.execCipherRun slot s
  | .cipherRunDone engine => Sys2Proof.Machine.execCipherRunDone engine s
  | .cipherBlockDone engine => Sys2Proof.Machine.execCipherBlockDone engine s
  | .alarm cause => Sys2Proof.Machine.execAlarm cause s
  | .alarmRezeroise cause => Sys2Proof.Machine.execAlarmRezeroise cause s
  | .ckptConfig slot => Sys2Proof.Machine.execCkptConfig slot s
  | .ckptStart slot => Sys2Proof.Machine.execCkptStart slot s
  | .ckptQuiet job => Sys2Proof.Machine.execCkptQuiet job s
  | .ckptQuietTimeout job => Sys2Proof.Machine.execCkptQuietTimeout job s
  | .ckptCapture slot => Sys2Proof.Machine.execCkptCapture slot s
  | .ckptCaptured job => Sys2Proof.Machine.execCkptCaptured job s
  | .ckptPageCopy job => Sys2Proof.Machine.execCkptPageCopy job s
  | .copyAhead job page => Sys2Proof.Machine.execCopyAhead job page s
  | .ckptSaveComplete job => Sys2Proof.Machine.execCkptSaveComplete job s
  | .ckptRestore slot => Sys2Proof.Machine.execCkptRestore slot s
  | .ckptRestoreDone guest => Sys2Proof.Machine.execCkptRestoreDone guest s
  | .ckptDrain slot => Sys2Proof.Machine.execCkptDrain slot s
  | .ckptDrainDone guest => Sys2Proof.Machine.execCkptDrainDone guest s
  | .shedStageEnter stage => Sys2Proof.Machine.execShedStageEnter stage s
  | .shedStageLeave stage => Sys2Proof.Machine.execShedStageLeave stage s
  | .mainOvervoltage => Sys2Proof.Machine.execMainOvervoltage s
  | .mainRecover => Sys2Proof.Machine.execMainRecover s
  | .auxLoss => Sys2Proof.Machine.execAuxLoss s
  | .auxApply => Sys2Proof.Machine.execAuxApply s
  | .hearthLoop averageWatts => Sys2Proof.Machine.execHearthLoop averageWatts s
  | .thermalThrottle sensor => Sys2Proof.Machine.execThermalThrottle sensor s
  | .thermalTrip sensor => Sys2Proof.Machine.execThermalTrip sensor s
  | .thermalClear trip => Sys2Proof.Machine.execThermalClear trip s
  | .divisorChange => Sys2Proof.Machine.execDivisorChange s
  | .refclkFail stopped => Sys2Proof.Machine.execRefclkFail stopped s
  | .pllLockTimeout => Sys2Proof.Machine.execPllLockTimeout s
  | .pllLockHeld => Sys2Proof.Machine.execPllLockHeld s
  | .aonReturn => Sys2Proof.Machine.execAonReturn s
  | .crossingFallback crossing => Sys2Proof.Machine.execCrossingFallback crossing s
  | .crossingResync crossing => Sys2Proof.Machine.execCrossingResync crossing s
  | .powerProfile slot => Sys2Proof.Machine.execPowerProfile slot s
  | .ficSourceFire core source => Sys2Proof.Machine.execFicSourceFire core source s
  | .ficTick => Sys2Proof.Machine.execFicTick s
  | .ficClaim core => Sys2Proof.Machine.execFicClaim core s
  | .ficComplete core source => Sys2Proof.Machine.execFicComplete core source s
  | .ficInterruptTake core => Sys2Proof.Machine.execFicInterruptTake core s
  | .imsWrite vector offset size value => Sys2Proof.Machine.execImsWrite vector offset size value s
  | .holdoffExpire group => Sys2Proof.Machine.execHoldoffExpire group s
  | .l1ExitDone link => Sys2Proof.Machine.execL1ExitDone link s
  | .pmeRepeat link => Sys2Proof.Machine.execPmeRepeat link s
  | .sensorSample mainTenMv auxMv watts temps => Sys2Proof.Machine.execSensorSample mainTenMv auxMv watts temps s
  | .teleQueueBatch => Sys2Proof.Machine.execTeleQueueBatch s
  | .teleSensorBatch => Sys2Proof.Machine.execTeleSensorBatch s
  | .teleRing slot => Sys2Proof.Machine.execTeleRing slot s
  | .moduleButtonPress => Sys2Proof.Machine.execModuleButtonPress s
  | .locateBlinkExpire => Sys2Proof.Machine.execLocateBlinkExpire s
  | .flashRelease slot => Sys2Proof.Machine.execFlashRelease slot s
  | .flashPresence device => Sys2Proof.Machine.execFlashPresence device s
  | .flashFillDone device copied => Sys2Proof.Machine.execFlashFillDone device copied s
  | .flashRemoved device => Sys2Proof.Machine.execFlashRemoved device s
  | .serviceLocate slot => Sys2Proof.Machine.execServiceLocate slot s
  | .unsupportedHostRequest link request => Sys2Proof.Machine.execUnsupportedHostRequest link request s
  | .upstreamLinkUp link speed width => Sys2Proof.Machine.execUpstreamLinkUp link speed width s
  | .aspmL1Entry link => Sys2Proof.Machine.execAspmL1Entry link s
  | .alarmCauseClear cause => Sys2Proof.Machine.execAlarmCauseClear cause s
  | .mainHighChange high => Sys2Proof.Machine.execMainHighChange high s
  | .pllLockAcquired => Sys2Proof.Machine.execPllLockAcquired s

end Sys2Proof.Machine
end

