-- ==== Sys2Proof/Machine/Idle.lean ====
section
/-! DEFINITION. The module with no command waiting: one AON cycle passes, in which an error may arise in its memories, registers and routers
(notes/assumptions/3.md, 83.md). -/

namespace Sys2Proof.Machine

/-- A free tag. -/
def freeTagOf (x : BitVec 64) : Tag :=
  [Tag.empty, .int, .float, .pack, .addr, .desc, .tally, .seq, .pred, .pending].getD (x.toNat % 10) .empty

/-- What a register holds once an error has hit it: free words in the place of its bits. -/
def Ctx.upset (c : Ctx) (r : RegName) (w : Nat → BitVec 64) : Ctx :=
  match r with
  | .s n => { c with s := fset c.s n { tag := freeTagOf (w 0), data := w 1 } }
  | .v n => { c with v := fset c.v n ((List.range 64).map fun i => (w i).setWidth 32) }
  | .p n => { c with p := fset c.p n (w 0) }
  | .d n => { c with d := fset c.d n { w0 := w 0, w1 := w 1, w2 := w 2, w3 := w 3 } }
  | .t n =>
    let k := w 6
    { c with t := fset c.t n {
        t := w 0 ++ w 1 ++ w 2 ++ w 3 ++ w 4 ++ w 5, anchor := k.setWidth 11, ovf := k.getLsbD 11, low := k.getLsbD 12, nan := k.getLsbD 13,
        pinf := k.getLsbD 14, ninf := k.getLsbD 15, mixed := k.getLsbD 16 } }

/-- The registers of a context: s0 to s63, v0 to v31, p1 to p7, d0 to d15 and t0 to t47 (R123); p0 is hard-wired. -/
def regInFile : RegName → Bool
  | .s n => decide (n < 64)
  | .v n => decide (n < 32)
  | .p n => decide (0 < n) && decide (n < 8)
  | .d n => decide (n < 16)
  | .t n => decide (n < 48)

/-- An error in a word of a tile store: single, or double, which a second one makes of a single one (R129). -/
def Tile.upset (t : Tile) (w : Nat) (double : Bool) : Tile :=
  if t.latent.contains w then t
  else if double || t.soft.contains w then { t with latent := addTo t.latent w, soft := t.soft.filter (· != w) }
  else { t with soft := addTo t.soft w }

/-- The errors that an endpoint logs in AER (R342): correctable and not, as the Base Specification numbers them (PRESUMED,
notes/assumptions/18.md). Those that a command brings are logged there. -/
def endpointErrors (correctable : Bool) : List Nat := if correctable then [0, 6, 7, 8, 12, 14] else [4, 13, 17, 18, 22]

/-- An error of a link: an upstream function logs it, and a downstream port counts a correctable one (R342, R365). -/
def State.linkUpset (s : State) (n bit : Nat) (correctable : Bool) : State :=
  let b := (1 : BitVec 32) <<< bit
  if n < 2 then
    if !(s.link n).up ∨ !(endpointErrors correctable).contains bit then s
    else s.modLink n fun l => if correctable then { l with aerCor := l.aerCor ||| b } else { l with aer := l.aer ||| b }
  else if n < 10 ∧ correctable ∧ (s.port (n - 2)).linkUp then s.modPort (n - 2) fun p => { p with corrected := satInc p.corrected }
  else s

/-- An error arises. A router's fault raises its tile's retirement at once (R142); every other stays until a read finds it. -/
def State.upset (s : State) : Upset → State
  | .store p w double => if p < 4608 ∧ w < 0x30000 then s.modTile p (·.upset w double) else s
  | .register p n r =>
    if p < 4608 ∧ n < 8 ∧ regInFile r then
      { (s.modTile p fun t =>
          { t.setCtx n ((t.ctx n).upset r fun i => Config.freeWord (s.fresh + i)) with regErrs := if t.regErrs.contains (n, r) then t.regErrs else t.regErrs ++ [(n, r)] }) with
        fresh := s.fresh + 64 }
    else s
  | .router p => if p < 4608 then s.queueRetirement { tile := p, cause := 3 } else s
  | .symbol l i flip => if 64 * l < stackTop ∧ i < 36 then s.modMem (·.upset l i flip) else s
  | .sram w =>
    match mapAddr (8 * w) with
    | .burst _ => s.modMem fun m => { m with sramBad := addTo m.sramBad w }
    | _ => s
  | .cellar l failed =>
    match mapAddr (64 * l) with
    | .cellar _ _ =>
      s.modMem fun m => if failed then { m with cellarBad := addTo m.cellarBad l } else { m with poison := addTo m.poison l }
    | _ => s
  | .link n bit correctable => s.linkUpset n bit correctable

/-- An AON cycle. Where the 32 bits of courier time begin again at 0, gates and timetables go on at the position that this gives, as after NET_TIME
(R479; DESIGN CHOICE, notes/assumptions/102.md). -/
def State.clockTick (s : State) : State :=
  let t := s.aonCycle
  if t.net.time.toNat < s.net.time.toNat then t.reposition else t

/-- One step with no command waiting; the evacuation of a cellar device goes on by one piece of its work (R329, notes/assumptions/100.md). -/
def State.idle (s : State) : State :=
  let s := (List.range 8).foldl State.evacTick s.clockTick
  match Config.upset s.firm.aon with
  | some u => s.upset u
  | none => s

end Sys2Proof.Machine
end

