-- ==== Sys2Proof/Safety.lean ====
section
/-! DEFINITION. What stays true of every state of a run: the memory is in its one canonical form. -/

namespace Sys2Proof.Machine

/-- The memory's canonical form: addresses rise strictly, and no entry equals what an unlisted address reads as. -/
def Memory.wf (m : Mem) : Bool := cellsWf m.cells

/-- A state whose memory is in its canonical form. -/
def State.Sound (s : State) : Prop := Memory.wf s.mem = true

end Sys2Proof.Machine
end

