-- ==== Sys2Proof/Certificates/Slice0/Obligations.lean ====
section
/-! DEFINITION. The statements for the provers: what the spec's rules say the module does, over every state and every operand that
a rule covers. -/

open Sys2Proof Sys2Proof.Machine

namespace Sys2Proof.Claims

/-- The command completes, and the predicate holds of the state it leaves. -/
def Gives (c : Instr) (s : State) (P : State → Prop) : Prop := ∃ t, exec c s = .next t ∧ P t

/-- The message rows of the opcode table: the slot that a command names, and the request block of its message (chapter 02's opcode
table and the blocks of the later chapters). -/
def messageOf : Instr → Option (Nat × ReqBlock)
  | .hello slot => some (slot, helloBlock)
  | .features slot => some (slot, featuresBlock)
  | .moduleStatus slot => some (slot, moduleStatusBlock)
  | .moduleRestart slot => some (slot, moduleRestartBlock)
  | .fwStage slot => some (slot, fwStageBlock)
  | .fwActivate slot => some (slot, fwActivateBlock)
  | .tileRetire slot => some (slot, tileRetireBlock)
  | .jobLaunch slot => some (slot, jobLaunchBlock)
  | .jobEnd slot => some (slot, jobEndBlock)
  | .ledgerPool slot => some (slot, ledgerPoolBlock)
  | .ledgerCreate slot => some (slot, ledgerCreateBlock)
  | .ledgerDelete slot => some (slot, ledgerDeleteBlock)
  | .ledgerMove slot => some (slot, ledgerMoveBlock)
  | .ledgerQuery slot => some (slot, ledgerQueryBlock)
  | .ledgerIdle slot => some (slot, ledgerIdleBlock)
  | .ledgerExport slot => some (slot, ledgerExportBlock)
  | .ledgerImport slot => some (slot, ledgerImportBlock)
  | .passportDigest slot => some (slot, passportDigestBlock)
  | .passportSeal slot => some (slot, passportSealBlock)
  | .memRetirePc slot => some (slot, memRetirePcBlock)
  | .cellarRelease slot => some (slot, cellarReleaseBlock)
  | .portConfig slot => some (slot, portConfigBlock)
  | .slotControl slot => some (slot, slotControlBlock)
  | .portRelease slot => some (slot, portReleaseBlock)
  | .overlaySet slot => some (slot, overlaySetBlock)
  | .guestCreate slot => some (slot, guestCreateBlock)
  | .guestDestroy slot => some (slot, guestDestroyBlock)
  | .guestGrant slot => some (slot, guestGrantBlock)
  | .guestRevoke slot => some (slot, guestRevokeBlock)
  | .logStart slot => some (slot, logStartBlock)
  | .logFence slot => some (slot, fenceBlock 0x0211 false)
  | .logStop slot => some (slot, fenceBlock 0x0212 true)
  | .storageNsCreate slot => some (slot, nsCreateBlock)
  | .storageNsDelete slot => some (slot, nsDeleteBlock)
  | .storageQueueCreate slot => some (slot, queueCreateBlock)
  | .storageQueueDelete slot => some (slot, queueDeleteBlock)
  | .netConfig slot => some (slot, netConfigBlock)
  | .netPortSet slot => some (slot, netPortSetBlock)
  | .netProfile slot => some (slot, netProfileBlock)
  | .netRing slot => some (slot, netRingBlock)
  | .netTime slot => some (slot, netTimeBlock)
  | .courierKey slot => some (slot, courierKeyBlock)
  | .courierOpen slot => some (slot, courierOpenBlock)
  | .courierClose slot => some (slot, courierCloseBlock)
  | .trafficQueue slot => some (slot, trafficQueueBlock)
  | .trafficPort slot => some (slot, trafficPortBlock)
  | .trafficTimetable slot => some (slot, trafficTimetableBlock)
  | .trafficGates slot => some (slot, trafficGatesBlock)
  | .keyIdentity slot => some (slot, keyIdentityBlock)
  | .kekInstall slot => some (slot, kekInstallBlock)
  | .keyLoad slot => some (slot, keyLoadBlock)
  | .keyClear slot => some (slot, keyClearBlock)
  | .cipherRun slot => some (slot, cipherRunBlock)
  | .ckptConfig slot => some (slot, ckptConfigBlock)
  | .ckptStart slot => some (slot, ckptStartBlock)
  | .ckptCapture slot => some (slot, ckptCaptureBlock)
  | .ckptRestore slot => some (slot, ckptRestoreBlock)
  | .ckptDrain slot => some (slot, ckptDrainBlock)
  | .powerProfile slot => some (slot, powerProfileBlock)
  | .teleRing slot => some (slot, teleRingBlock)
  | .flashRelease slot => some (slot, flashReleaseBlock)
  | .serviceLocate slot => some (slot, serviceLocateBlock)
  | _ => none

/-- A core has taken the request in a slot, a message of the block, and serves it (R63), and the checks 6 to 10 (R59) answer `st`. -/
def Begun (s : State) (slot core : Nat) (b : ReqBlock) (st : Option Status) : Prop :=
  s.beganBy slot = some core ∧ (s.hole slot).busy = true ∧ (s.hole slot).num 2 2 = b.opcode ∧ s.coreUp core = true
    ∧ b.check ((s.hole slot).req slot) s = st

/-- The slot holds a response with the status (R53). -/
def Answered (t : State) (slot : Nat) (st : Status) : Prop :=
  (t.hole slot).busy = false ∧ (t.hole slot).done = true ∧ (t.hole slot).num 12 2 = st.code ∧ (t.hole slot).num 6 2 % 2 = 1

/-- A context of a tile issues its next bundle, which holds the command's operation: the issue stage of the tile that serves (x, y) has
chosen the context (R124), the bundle does not trap (R192), it waits for no anchor exchange (R226), and nothing freezes the tile (R175,
R180, R214, R246). `b` is the bundle and `outs` what its four slots do. -/
def Issues (s : State) (x y n : Nat) (cmd : SlotCmd) (b : Bundle) (outs : List SlotOut) : Prop :=
  s.chosen (s.phys x y) = some n ∧ s.mesh.serves (s.phys x y) = some (x, y)
    ∧ evalBundle (s.env (s.phys x y) n) (s.ctx (s.phys x y) n) = .run b outs ∧ b.holds cmd = true
    ∧ s.needsExchange (s.phys x y) n b = none ∧ (s.tile (s.phys x y)).freezes n b outs = false

/-- An INT word, a FLOAT word and an ADDR word. -/
def int (v : BitVec 64) : TWord := { tag := .int, data := v }
def float (v : BitVec 32) : TWord := { tag := .float, data := v.setWidth 64 }
def address (v : BitVec 64) : TWord := { tag := .addr, data := v }
def truth (b : Bool) : TWord := int (if b then 1 else 0)

/-- R194: the trap state words that RDT reads. -/
def trapWord (t : TrapState) : Nat → TWord
  | 0 => int (BitVec.ofNat 64 (t.number + 256 * t.slot + 1024 * (t.index % 64)))
  | 1 => address (BitVec.ofNat 64 t.pc)
  | 2 => int (BitVec.ofNat 64 (t.count + if t.isX then 2 ^ 63 else 0))
  | 3 => int t.value
  | _ => match t.target with | some a => address (BitVec.ofNat 64 a) | none => int 0

/-- R170's table, the operations with a result in a scalar register: the slot, the distance d, rd, and the word that the operation gives
from a context's registers, the store's words and the program counter. -/
def scalarResult (c : Ctx) (store : Nat → TWord) : Instr → Option (Place × SlotCmd × Nat × BitVec 6 × TWord)
  | .add p rd ra rb => some (p, .s { op := .add, rd, ra, rb }, 0, rd, { tag := (c.sr ra.toNat).tag, data := (c.sr ra.toNat).data + (c.sr rb.toNat).data })
  | .addi p rd ra imm => some (p, .s { op := .addi, rd, ra, imm }, 0, rd, { tag := (c.sr ra.toNat).tag, data := (c.sr ra.toNat).data + imm.signExtend 64 })
  | .sub p rd ra rb => some (p, .s { op := .sub, rd, ra, rb }, 0, rd,
      { tag := if (c.sr ra.toNat).tag = .addr ∧ (c.sr rb.toNat).tag = .int then .addr else .int, data := (c.sr ra.toNat).data - (c.sr rb.toNat).data })
  | .andOp p rd ra rb => some (p, .s { op := .andOp, rd, ra, rb }, 0, rd, int ((c.sr ra.toNat).data &&& (c.sr rb.toNat).data))
  | .orOp p rd ra rb => some (p, .s { op := .orOp, rd, ra, rb }, 0, rd, int ((c.sr ra.toNat).data ||| (c.sr rb.toNat).data))
  | .xor p rd ra rb => some (p, .s { op := .xor, rd, ra, rb }, 0, rd, int ((c.sr ra.toNat).data ^^^ (c.sr rb.toNat).data))
  | .shl p rd ra imm => some (p, .s { op := .shl, rd, ra, imm }, 0, rd, int ((c.sr ra.toNat).data <<< (imm.toNat % 64)))
  | .shr p rd ra imm => some (p, .s { op := .shr, rd, ra, imm }, 0, rd, int ((c.sr ra.toNat).data >>> (imm.toNat % 64)))
  | .sar p rd ra imm => some (p, .s { op := .sar, rd, ra, imm }, 0, rd, int ((c.sr ra.toNat).data.sshiftRight (imm.toNat % 64)))
  | .cmplt p rd ra rb => some (p, .s { op := .cmplt, rd, ra, rb }, 0, rd,
      truth (if (c.sr ra.toNat).tag = .float then fpLt (c.f ra.toNat) (c.f rb.toNat) else decide ((c.sr ra.toNat).data.toInt < (c.sr rb.toNat).data.toInt)))
  | .cmpeq p rd ra rb => some (p, .s { op := .cmpeq, rd, ra, rb }, 0, rd,
      truth (if (c.sr ra.toNat).tag = .float then fpEq (c.f ra.toNat) (c.f rb.toNat) else decide ((c.sr ra.toNat).data = (c.sr rb.toNat).data)))
  | .min p rd ra rb => some (p, .s { op := .min, rd, ra, rb }, 0, rd,
      int (if (c.sr rb.toNat).data.toInt < (c.sr ra.toNat).data.toInt then (c.sr rb.toNat).data else (c.sr ra.toNat).data))
  | .max p rd ra rb => some (p, .s { op := .max, rd, ra, rb }, 0, rd,
      int (if (c.sr ra.toNat).data.toInt < (c.sr rb.toNat).data.toInt then (c.sr rb.toNat).data else (c.sr ra.toNat).data))
  | .mul p rd ra rb => some (p, .s { op := .mul, rd, ra, rb }, 2, rd, int ((c.sr ra.toNat).data * (c.sr rb.toNat).data))
  | .div p rd ra rb => some (p, .s { op := .div, rd, ra, rb }, 16, rd, int (BitVec.ofInt 64 (Int.tdiv (c.sr ra.toNat).data.toInt (c.sr rb.toNat).data.toInt)))
  | .rem p rd ra rb => some (p, .s { op := .rem, rd, ra, rb }, 16, rd, int (BitVec.ofInt 64 (Int.tmod (c.sr ra.toNat).data.toInt (c.sr rb.toNat).data.toInt)))
  | .fadd p rd ra rb => some (p, .s { op := .fadd, rd, ra, rb }, 3, rd, float (fpAdd (c.f ra.toNat) (c.f rb.toNat)))
  | .fsub p rd ra rb => some (p, .s { op := .fsub, rd, ra, rb }, 3, rd, float (fpSub (c.f ra.toNat) (c.f rb.toNat)))
  | .fmul p rd ra rb => some (p, .s { op := .fmul, rd, ra, rb }, 3, rd, float (fpMul (c.f ra.toNat) (c.f rb.toNat)))
  | .ffma p rd ra rb => some (p, .s { op := .ffma, rd, ra, rb }, 3, rd, float (fpFma (c.f ra.toNat) (c.f rb.toNat) (c.f rd.toNat)))
  | .fmax p rd ra rb => some (p, .s { op := .fmax, rd, ra, rb }, 3, rd, float (fpMax (c.f ra.toNat) (c.f rb.toNat)))
  | .fmin p rd ra rb => some (p, .s { op := .fmin, rd, ra, rb }, 3, rd, float (fpMin (c.f ra.toNat) (c.f rb.toNat)))
  | .itof p rd ra => some (p, .s { op := .itof, rd, ra }, 3, rd, float (fpOfInt (c.sr ra.toNat).data.toInt))
  | .ftoi p rd ra => some (p, .s { op := .ftoi, rd, ra }, 3, rd, int (BitVec.ofInt 64 (fpToInt (c.f ra.toNat))))
  | .mov p rd ra => some (p, .s { op := .mov, rd, ra }, 0, rd, c.sr ra.toNat)
  | .tagof p rd ra => some (p, .s { op := .tagof, rd, ra }, 0, rd, int (BitVec.ofNat 64 (tagNumber (c.sr ra.toNat).tag)))
  | .retag p rd ra imm => some (p, .s { op := .retag, rd, ra, imm }, 0, rd, { (c.sr ra.toNat) with tag := (tagOf (imm.toNat % 16)).getD .empty })
  | .sld p rd ra imm => some (p, .s { op := .sld, rd, ra, imm }, 3, rd, store ((c.u ra.toNat : Int) + 8 * imm.toInt).toNat)
  | .call p rd imm => some (p, .s { op := .call, rd, imm }, 0, rd, address (BitVec.ofNat 64 (c.pc + 32)))
  | .rdt p rd imm => some (p, .s { op := .rdt, rd, imm }, 0, rd, trapWord c.trap imm.toNat)
  | .ldi p rd tag value => some (p, .ldi rd tag value, 0, rd, { tag := (tagOf tag.toNat).getD .empty, data := value })
  | .dget p rd dk w => some (p, .s { op := .dget, rd, ra := dk.setWidth 6, imm := w.setWidth 14 }, 0, rd,
      { tag := .desc, data := (c.desc dk.toNat).word w.toNat })
  | .pget p rd pk => some (p, .s { op := .pget, rd, ra := pk.setWidth 6 }, 0, rd, { tag := .pred, data := c.pr pk.toNat })
  | _ => none

/-- The instruction rows of the opcode table: the place that issues, and the operation of its bundle's slot with its fields (R170, R172,
R176, R177, R197). -/
def slotOf : Instr → Option (Place × SlotCmd)
  | .add p rd ra rb => some (p, .s { op := .add, rd, ra, rb })
  | .addi p rd ra imm => some (p, .s { op := .addi, rd, ra, imm })
  | .sub p rd ra rb => some (p, .s { op := .sub, rd, ra, rb })
  | .andOp p rd ra rb => some (p, .s { op := .andOp, rd, ra, rb })
  | .orOp p rd ra rb => some (p, .s { op := .orOp, rd, ra, rb })
  | .xor p rd ra rb => some (p, .s { op := .xor, rd, ra, rb })
  | .shl p rd ra imm => some (p, .s { op := .shl, rd, ra, imm })
  | .shr p rd ra imm => some (p, .s { op := .shr, rd, ra, imm })
  | .sar p rd ra imm => some (p, .s { op := .sar, rd, ra, imm })
  | .cmplt p rd ra rb => some (p, .s { op := .cmplt, rd, ra, rb })
  | .cmpeq p rd ra rb => some (p, .s { op := .cmpeq, rd, ra, rb })
  | .min p rd ra rb => some (p, .s { op := .min, rd, ra, rb })
  | .max p rd ra rb => some (p, .s { op := .max, rd, ra, rb })
  | .mul p rd ra rb => some (p, .s { op := .mul, rd, ra, rb })
  | .div p rd ra rb => some (p, .s { op := .div, rd, ra, rb })
  | .rem p rd ra rb => some (p, .s { op := .rem, rd, ra, rb })
  | .fadd p rd ra rb => some (p, .s { op := .fadd, rd, ra, rb })
  | .fsub p rd ra rb => some (p, .s { op := .fsub, rd, ra, rb })
  | .fmul p rd ra rb => some (p, .s { op := .fmul, rd, ra, rb })
  | .ffma p rd ra rb => some (p, .s { op := .ffma, rd, ra, rb })
  | .fmax p rd ra rb => some (p, .s { op := .fmax, rd, ra, rb })
  | .fmin p rd ra rb => some (p, .s { op := .fmin, rd, ra, rb })
  | .itof p rd ra => some (p, .s { op := .itof, rd, ra })
  | .ftoi p rd ra => some (p, .s { op := .ftoi, rd, ra })
  | .mov p rd ra => some (p, .s { op := .mov, rd, ra })
  | .tagof p rd ra => some (p, .s { op := .tagof, rd, ra })
  | .retag p rd ra imm => some (p, .s { op := .retag, rd, ra, imm })
  | .sld p rd ra imm => some (p, .s { op := .sld, rd, ra, imm })
  | .sst p ra rb imm => some (p, .s { op := .sst, ra, rb, imm })
  | .markp p ra imm => some (p, .s { op := .markp, ra, imm })
  | .wait p ra imm => some (p, .s { op := .wait, ra, imm })
  | .br p imm => some (p, .s { op := .br, imm })
  | .bz p ra imm => some (p, .s { op := .bz, ra, imm })
  | .bnz p ra imm => some (p, .s { op := .bnz, ra, imm })
  | .call p rd imm => some (p, .s { op := .call, rd, imm })
  | .jmp p ra => some (p, .s { op := .jmp, ra })
  | .repi p ra => some (p, .s { op := .repi, ra })
  | .repx p imm => some (p, .s { op := .repx, imm })
  | .step p => some (p, .s { op := .step })
  | .endOp p => some (p, .s { op := .endOp })
  | .seth p ra => some (p, .s { op := .seth, ra })
  | .rte p => some (p, .s { op := .rte })
  | .brk p imm => some (p, .s { op := .brk, imm })
  | .rdt p rd imm => some (p, .s { op := .rdt, rd, imm })
  | .ldi p rd tag value => some (p, .ldi rd tag value)
  | .dget p rd dk w => some (p, .s { op := .dget, rd, ra := dk.setWidth 6, imm := w.setWidth 14 })
  | .dput p dk w rb => some (p, .s { op := .dput, rd := dk.setWidth 6, imm := w.setWidth 14, rb })
  | .dld p dk ra imm => some (p, .s { op := .dld, rd := dk.setWidth 6, ra, imm })
  | .dst p dk ra imm => some (p, .s { op := .dst, rd := dk.setWidth 6, ra, imm })
  | .pget p rd pk => some (p, .s { op := .pget, rd, ra := pk.setWidth 6 })
  | .pput p pk ra => some (p, .s { op := .pput, rd := pk.setWidth 6, ra })
  | .sld4 p rd ra imm => some (p, .s { op := .sld4, rd, ra, imm })
  | .sst4 p ra rb imm => some (p, .s { op := .sst4, ra, rb, imm })
  | .wfi p => some (p, .s { op := .wfi })
  | .vadd p vd va vb pr pz => some (p, .v { op := .vadd, vd, va, b := vb.setWidth 6, pr, pz })
  | .vsub p vd va vb pr pz => some (p, .v { op := .vsub, vd, va, b := vb.setWidth 6, pr, pz })
  | .vmul p vd va vb pr pz => some (p, .v { op := .vmul, vd, va, b := vb.setWidth 6, pr, pz })
  | .vfma p vd va vb vc pr pz => some (p, .v { op := .vfma, vd, va, b := vb.setWidth 6, vc, pr, pz })
  | .vmax p vd va vb pr pz => some (p, .v { op := .vmax, vd, va, b := vb.setWidth 6, pr, pz })
  | .vmin p vd va vb pr pz => some (p, .v { op := .vmin, vd, va, b := vb.setWidth 6, pr, pz })
  | .vsel p vd va vb pr => some (p, .v { op := .vsel, vd, va, b := vb.setWidth 6, pr })
  | .vadds p vd va sb pr pz => some (p, .v { op := .vadds, vd, va, b := sb, pr, pz })
  | .vmuls p vd va sb pr pz => some (p, .v { op := .vmuls, vd, va, b := sb, pr, pz })
  | .vbcast p vd sb pr pz => some (p, .v { op := .vbcast, vd, b := sb, pr, pz })
  | .vcmplt p pd va vb pr => some (p, .v { op := .vcmplt, vd := pd.setWidth 5, va, b := vb.setWidth 6, pr })
  | .vcmpeq p pd va vb pr => some (p, .v { op := .vcmpeq, vd := pd.setWidth 5, va, b := vb.setWidth 6, pr })
  | .vrmax32 p vd va pr pz => some (p, .v { op := .vrmax32, vd, va, pr, pz })
  | .vrsum32 p vd va pr pz => some (p, .v { op := .vrsum32, vd, va, pr, pz })
  | .vfn p vd va fn pr pz => some (p, .v { op := .vfn, vd, va, vc := fn, pr, pz })
  | .mma p da db => some (p, .m { op := .mma, da, db })
  | .mmacI p da db anchor => some (p, .m { op := .mmacI, da, db, arg := anchor })
  | .mmacR p da db sr => some (p, .m { op := .mmacR, da, db, arg := sr.setWidth 11 })
  | .mmacA p da db => some (p, .m { op := .mmacA, da, db })
  | .tclr p anchor => some (p, .m { op := .tclr, arg := anchor })
  | .tget p da t => some (p, .m { op := .tget, da, arg := t.setWidth 11 })
  | .vld p vr dk => some (p, .x { op := .vld, vr, dk })
  | .vst p vr dk => some (p, .x { op := .vst, vr, dk })
  | .vstmx p vr dk n => some (p, .x { op := .vstmx, vr, dk, n })
  | .trd p g bf16 vr lb => some (p, .x { op := .trd, dk := g.setWidth 4 + (if bf16 then 8 else 0), vr, n := lb.setWidth 8 })
  | .tput p t dk => some (p, .x { op := .tput, dk, n := t.setWidth 8 })
  | .txmx p dk h => some (p, .x { op := .txmx, dk, n := h.setWidth 8 })
  | .put p dk sr n => some (p, .x { op := .put, dk, sr, n })
  | .get p dk sr n => some (p, .x { op := .get, dk, sr, n })
  | .astream p dk sr => some (p, .x { op := .astream, dk, sr })
  | _ => none

/-- The results of a context that commit as its bundle issues (R165, R127): the queue with the bundle's own results, from its front up to
the first that is not yet due or not yet produced. -/
def commitsNow (c : Ctx) (outs : List SlotOut) : List Commit :=
  (c.issued outs).queue.takeWhile fun q => decide (q.due ≤ c.pos) && q.produced

/-- A register, a vector register, a predicate register, a descriptor and a handler after results in order (R164, R165, R168). -/
def regAfter (r : Nat) (l : List Commit) (w : TWord) : TWord :=
  l.foldl (fun w q => match q.eff with | .sreg k v => if k = r then v else w | _ => w) w
def vregAfter (r : Nat) (l : List Commit) (w : List (BitVec 32)) : List (BitVec 32) :=
  l.foldl (fun w q => match q.eff with | .lanes k v => if k = r then putLanes w v else w | _ => w) w
def predAfter (r : Nat) (l : List Commit) (w : BitVec 64) : BitVec 64 :=
  l.foldl (fun w q => match q.eff with | .pred k v => if k = r ∧ k ≠ 0 then v else w | _ => w) w
def putWord (d : Desc) (w : Nat) (v : BitVec 64) : Desc :=
  if w = 0 then { d with w0 := v } else if w = 1 then { d with w1 := v } else if w = 2 then { d with w2 := v } else { d with w3 := v }
def descAfter (r : Nat) (l : List Commit) (d : Desc) : Desc :=
  l.foldl (fun d q => match q.eff with
    | .desc k v => if k = r then v else d
    | .descWord k w v => if k = r then putWord d w v else d
    | .cursor k v => if k = r then d.withCursor v else d
    | _ => d) d
def handlerAfter (l : List Commit) (h : Option Nat) : Option Nat :=
  l.foldl (fun h q => match q.eff with | .handler x => x | _ => h) h

/-- A word of the tile store after a program-side store: the bytes that it covers are replaced and the touched word takes its tag (R178). -/
def storeOn (a : Nat) (old : TWord) (w : StoreWrite) : TWord :=
  if w.bytes ≠ [] ∧ w.addr < 8 * (a / 8) + 8 ∧ 8 * (a / 8) < w.addr + w.bytes.length then
    { tag := w.tag,
      data := BitVec.ofNat 64 (leNat ((List.range 8).map fun i =>
        if w.addr ≤ 8 * (a / 8) + i ∧ 8 * (a / 8) + i < w.addr + w.bytes.length then w.bytes.getD (8 * (a / 8) + i - w.addr) 0
        else BitVec.ofNat 8 (old.data.toNat / 256 ^ i))) }
  else old
/-- The word at an offset after results in order: stores and marks. -/
def wordAfter (a : Nat) (l : List Commit) (w : TWord) : TWord :=
  l.foldl (fun w q => match q.eff with
    | .store ws => ws.foldl (storeOn a) w
    | .mark m => if m / 8 = a / 8 then { w with tag := .pending } else w
    | .pend m => if m / 8 = a / 8 then { w with tag := .pending } else w
    | _ => w) w
/-- Everything that a bundle of a tile leaves as it is: the mapping, the routers, the links and the units outside the tiles; a directory
write that meets a marked page waits with the Porter (R513). -/
def SameOutside (s t : State) : Prop :=
  t.mesh = s.mesh ∧ t.routers = s.routers ∧ t.linkErrs = s.linkErrs ∧ t.hosts = s.hosts ∧ t.storage = s.storage ∧ t.traffic = s.traffic
    ∧ t.cipher = s.cipher ∧ { t.porter with aheads := s.porter.aheads, waits := s.porter.waits } = s.porter ∧ t.power = s.power ∧ t.irq = s.irq ∧ t.service = s.service ∧ t.pending = s.pending

/-- R172's table, the operations with a result in a vector register: the slot, the distance, whether the result stands at issue (VFN's
comes from the function unit), vd, the predicate and PZ, and the value of each lane. VSEL writes every lane: p0 masks nothing. -/
def vectorResult (c : Ctx) : Instr → Option (Place × SlotCmd × Nat × Bool × BitVec 5 × BitVec 3 × Bool × (Nat → BitVec 32))
  | .vadd p vd va vb pr pz => some (p, .v { op := .vadd, vd, va, b := vb.setWidth 6, pr, pz }, 3, true, vd, pr, pz,
      fun l => fpAdd (c.lane va.toNat l) (c.lane vb.toNat l))
  | .vsub p vd va vb pr pz => some (p, .v { op := .vsub, vd, va, b := vb.setWidth 6, pr, pz }, 3, true, vd, pr, pz,
      fun l => fpSub (c.lane va.toNat l) (c.lane vb.toNat l))
  | .vmul p vd va vb pr pz => some (p, .v { op := .vmul, vd, va, b := vb.setWidth 6, pr, pz }, 3, true, vd, pr, pz,
      fun l => fpMul (c.lane va.toNat l) (c.lane vb.toNat l))
  | .vfma p vd va vb vc pr pz => some (p, .v { op := .vfma, vd, va, b := vb.setWidth 6, vc, pr, pz }, 3, true, vd, pr, pz,
      fun l => fpFma (c.lane va.toNat l) (c.lane vb.toNat l) (c.lane vc.toNat l))
  | .vmax p vd va vb pr pz => some (p, .v { op := .vmax, vd, va, b := vb.setWidth 6, pr, pz }, 3, true, vd, pr, pz,
      fun l => fpMax (c.lane va.toNat l) (c.lane vb.toNat l))
  | .vmin p vd va vb pr pz => some (p, .v { op := .vmin, vd, va, b := vb.setWidth 6, pr, pz }, 3, true, vd, pr, pz,
      fun l => fpMin (c.lane va.toNat l) (c.lane vb.toNat l))
  | .vsel p vd va vb pr => some (p, .v { op := .vsel, vd, va, b := vb.setWidth 6, pr }, 3, true, vd, 0, false,
      fun l => if c.prBit pr.toNat l then c.lane va.toNat l else c.lane vb.toNat l)
  | .vadds p vd va sb pr pz => some (p, .v { op := .vadds, vd, va, b := sb, pr, pz }, 3, true, vd, pr, pz,
      fun l => fpAdd (c.lane va.toNat l) (c.f sb.toNat))
  | .vmuls p vd va sb pr pz => some (p, .v { op := .vmuls, vd, va, b := sb, pr, pz }, 3, true, vd, pr, pz,
      fun l => fpMul (c.lane va.toNat l) (c.f sb.toNat))
  | .vbcast p vd sb pr pz => some (p, .v { op := .vbcast, vd, b := sb, pr, pz }, 3, true, vd, pr, pz, fun _ => c.f sb.toNat)
  | .vrmax32 p vd va pr pz => some (p, .v { op := .vrmax32, vd, va, pr, pz }, 6, true, vd, pr, pz,
      fun l => maxOf (if l < 32 then (c.vreg va.toNat).take 32 else (c.vreg va.toNat).drop 32))
  | .vrsum32 p vd va pr pz => some (p, .v { op := .vrsum32, vd, va, pr, pz }, 6, true, vd, pr, pz,
      fun l => treeSum (if l < 32 then (c.vreg va.toNat).take 32 else (c.vreg va.toNat).drop 32))
  | .vfn p vd va fn pr pz => some (p, .v { op := .vfn, vd, va, vc := fn, pr, pz }, if fn.toNat ≤ 3 then 10 else 22, false, vd, pr, pz,
      fun l => fnEval (fnOf fn.toNat) (c.lane va.toNat l))
  | _ => none

/-- The two compares (R172): the slot, pd, the predicate and each lane's result. -/
def vectorCompare (c : Ctx) : Instr → Option (Place × SlotCmd × BitVec 3 × BitVec 3 × (Nat → Bool))
  | .vcmplt p pd va vb pr => some (p, .v { op := .vcmplt, vd := pd.setWidth 5, va, b := vb.setWidth 6, pr }, pd, pr,
      fun l => fpLt (c.lane va.toNat l) (c.lane vb.toNat l))
  | .vcmpeq p pd va vb pr => some (p, .v { op := .vcmpeq, vd := pd.setWidth 5, va, b := vb.setWidth 6, pr }, pd, pr,
      fun l => fpEq (c.lane va.toNat l) (c.lane vb.toNat l))
  | _ => none

/-- The lanes' tallies after one matrix step at the cursors (R119, R182): lane 8i + j gets every block pair of stream i of da and stream j
of db, in block order, from its tally, or from the cleared one. -/
def stepLane (e : Env) (c : Ctx) (da db : Desc) (fa fb : ElemFmt) (blocks len i j : Nat) (clear : Option Int) : Tally :=
  (List.range blocks).foldl (fun t k => blockPair t (e.block da fa len i da.cursor k) (e.block db fb len j db.cursor k))
    (match clear with | some a => Tally.clear a | none => c.tl (8 * i + j))

/-- The matrix steps of R176: the slot, the descriptors and the anchor that clears the tallies first. `anchor` is the auto anchor of R98. -/
def matrixStep (c : Ctx) (anchor : Int) : Instr → Option (Place × SlotCmd × BitVec 4 × BitVec 4 × Option Int)
  | .mma p da db => some (p, .m { op := .mma, da, db }, da, db, none)
  | .mmacI p da db a => some (p, .m { op := .mmacI, da, db, arg := a }, da, db, some a.toInt)
  | .mmacR p da db sr => some (p, .m { op := .mmacR, da, db, arg := sr.setWidth 11 }, da, db, some (c.sr sr.toNat).data.toInt)
  | .mmacA p da db => some (p, .m { op := .mmacA, da, db }, da, db, some anchor)
  | _ => none

/-- Everything due of a context has been produced, and none of it writes the descriptor or its cursor. -/
def descFree (c : Ctx) (d : Nat) : Prop := ∀ q ∈ c.queue, q.due ≤ c.pos →
  q.produced = true ∧ (∀ v, q.eff ≠ .desc d v) ∧ (∀ w v, q.eff ≠ .descWord d w v) ∧ ∀ k, q.eff ≠ .cursor d k

/-- The other operations with a result (R170, R177): the slot, the distance, the effect on the context or the store, and the descriptor
whose cursor advances. `e` is what the context sees of its store. -/
def queuedEffect (c : Ctx) (e : Env) : Instr → Option (Place × SlotCmd × Nat × Effect × Option (BitVec 4))
  | .sst p ra rb imm => some (p, .s { op := .sst, ra, rb, imm }, 1,
      .store [⟨((c.u ra.toNat : Int) + 8 * imm.toInt).toNat, leBytes 8 (c.sr rb.toNat).data.toNat, (c.sr rb.toNat).tag⟩], none)
  | .markp p ra imm => some (p, .s { op := .markp, ra, imm }, 1, .mark ((c.u ra.toNat : Int) + 8 * imm.toInt).toNat, none)
  | .dst p dk ra imm => some (p, .s { op := .dst, rd := dk.setWidth 6, ra, imm }, 1,
      .store [⟨((c.u ra.toNat : Int) + 32 * imm.toInt).toNat,
        leBytes 8 (c.desc dk.toNat).w0.toNat ++ leBytes 8 (c.desc dk.toNat).w1.toNat ++ leBytes 8 (c.desc dk.toNat).w2.toNat
          ++ leBytes 8 (c.desc dk.toNat).w3.toNat, .desc⟩], none)
  | .dput p dk w rb => some (p, .s { op := .dput, rd := dk.setWidth 6, imm := w.setWidth 14, rb }, 2, .descWord dk.toNat w.toNat (c.sr rb.toNat).data, none)
  | .dld p dk ra imm =>
    let a := ((c.u ra.toNat : Int) + 32 * imm.toInt).toNat
    some (p, .s { op := .dld, rd := dk.setWidth 6, ra, imm }, 4,
      .desc dk.toNat ⟨(e.word a).data, (e.word (a + 8)).data, (e.word (a + 16)).data, (e.word (a + 24)).data⟩, none)
  | .pput p pk ra => some (p, .s { op := .pput, rd := pk.setWidth 6, ra }, 0, .pred pk.toNat (c.sr ra.toNat).data, none)
  | .seth p ra => some (p, .s { op := .seth, ra }, 0,
      .handler (if (c.sr ra.toNat).tag = .addr then some (c.sr ra.toNat).data.toNat else none), none)
  | .vld p vr dk => some (p, .x { op := .vld, vr, dk }, 4,
      .lanes vr.toNat ((List.range 64).map fun l => (l, BitVec.ofNat 32 (e.bytesNat ((c.desc dk.toNat).next + 4 * l) 4))), some dk)
  | .vst p vr dk => some (p, .x { op := .vst, vr, dk }, 1,
      .store [⟨(c.desc dk.toNat).next, (c.vreg vr.toNat).flatMap (fun w => leBytes 4 w.toNat), .pack⟩], some dk)
  | .trd p g bf16 vr lb => some (p, .x { op := .trd, dk := g.setWidth 4 + (if bf16 then 8 else 0), vr, n := lb.setWidth 8 }, 5,
      .lanes vr.toNat ((List.range 8).map fun k =>
        (8 * lb.toNat + k, if bf16 then (c.tl (8 * g.toNat + k)).toBf16.setWidth 32 else (c.tl (8 * g.toNat + k)).toFp32)), none)
  | .tput p t dk => some (p, .x { op := .tput, dk, n := t.setWidth 8 }, 3,
      .store [⟨(c.desc dk.toNat).next, (c.tl t.toNat).wire ++ zeros (56 - (c.tl t.toNat).wire.length), .tally⟩], some dk)
  | _ => none

/-- The operations that write MX blocks (R178): their slot, the tallies or lanes of each block with its addresses, and the format. -/
def blockEffect (c : Ctx) (f : ElemFmt) : Instr → Option (Place × SlotCmd × BitVec 4 × List StoreWrite × Bool)
  | .vstmx p vr dk n =>
    let d := c.desc dk.toNat
    let half := fun h => mxItems f ((if h = 0 then (c.vreg vr.toNat).take 32 else (c.vreg vr.toNat).drop 32).map itemOf)
    let row := fun h => 2 * n.toNat + h
    let at' := fun h => d.base + row h * d.stride + d.cursor * d.step
    let scale := fun h => d.scaleBase + row h * d.scaleStride + d.cursor * d.scaleStep
    some (p, .x { op := .vstmx, vr, dk, n }, dk,
      [⟨at' 0, (half 0).2, .pack⟩, ⟨scale 0, [(half 0).1], .pack⟩, ⟨at' 1, (half 1).2, .pack⟩, ⟨scale 1, [(half 1).1], .pack⟩], false)
  | .txmx p dk h =>
    let d := c.desc dk.toNat
    let x := mxExit f ((List.range 32).map fun k => c.tl (16 * h.toNat + k))
    some (p, .x { op := .txmx, dk, n := h.setWidth 8 }, dk, [⟨d.next, x.2, .pack⟩, ⟨d.scaleBase + d.cursor * d.scaleStep, [x.1], .pack⟩], true)
  | _ => none

/-- Where an operation directs its context (R169, R170, R188 to R190): the slot and the control. Branch targets are PC + 16·IMM. -/
def controlOf (c : Ctx) : Instr → Option (Place × SlotCmd × Ctl)
  | .br p imm => some (p, .s { op := .br, imm }, .branch (some (((c.pc : Int) + 16 * imm.toInt) % 2 ^ 64).toNat))
  | .bz p ra imm => some (p, .s { op := .bz, ra, imm },
      .branch (if (c.sr ra.toNat).data = 0 then some (((c.pc : Int) + 16 * imm.toInt) % 2 ^ 64).toNat else none))
  | .bnz p ra imm => some (p, .s { op := .bnz, ra, imm },
      .branch (if (c.sr ra.toNat).data = 0 then none else some (((c.pc : Int) + 16 * imm.toInt) % 2 ^ 64).toNat))
  | .call p rd imm => some (p, .s { op := .call, rd, imm }, .branch (some (((c.pc : Int) + 16 * imm.toInt) % 2 ^ 64).toNat))
  | .jmp p ra => some (p, .s { op := .jmp, ra }, .branch (some (c.sr ra.toNat).data.toNat))
  | .repi p ra => some (p, .s { op := .repi, ra }, .rep (c.sr ra.toNat).data.toNat false)
  | .repx p imm => some (p, .s { op := .repx, imm }, .rep (imm.toNat % 4096 + 1) true)
  | .step p => some (p, .s { op := .step }, .step)
  | .wait p ra imm => some (p, .s { op := .wait, ra, imm }, .wait ((c.sr ra.toNat).data.toNat + 8 * imm.toInt).toNat)
  | .rte p => some (p, .s { op := .rte }, .rte)
  | _ => none

/-- Where a context stands after a bundle at `c.pc` whose scalar slot directs nothing: a repeated bundle issues again until its count is
used up, a shadow goes on at its branch's target, and any other at the next bundle. -/
def standsAfter (c t : Ctx) : Prop :=
  match c.rep, c.shadow with
  | some r, sh => if 1 < r.left then t.pc = c.pc ∧ t.rep = some { r with left := r.left - 1 } ∧ t.shadow = sh
      else t.pc = c.pc + 16 ∧ t.rep = none ∧ t.shadow = sh
  | none, some tgt => t.pc = tgt.getD (c.pc + 16) ∧ t.rep = none ∧ t.shadow = none
  | none, none => t.pc = c.pc + 16 ∧ t.rep = none ∧ t.shadow = none

/-- The trap state that a trap saves (R192 to R195). -/
def savedTrap (c : Ctx) (slot : Nat) (t : TrapCond) (pc : Nat) : TrapState :=
  { number := t.num, slot, index := t.index, pc,
    count := (match c.rep with | some r => r.left | none => 0), isX := (match c.rep with | some r => r.isX | none => false),
    value := BitVec.ofNat 64 t.value, target := (match c.shadow with | some (some a) => some a | _ => none) }

/-- Some other context still runs a job: with this one's entry cleared, some context holds a program of the job and has not stopped. -/
def othersRun (s : State) (p n job : Nat) : Prop :=
  (s.modCtx p n fun _ => {}).tiles.any (fun e => e.2.ctxs.any fun c => c.2.assigned && c.2.job == job && !c.2.stopped) = true

/-- A firmware core issues its next bundle, which holds the command's operation and does not trap (R155, R197, R198). -/
def CoreIssues (s : State) (k : Nat) (cmd : SlotCmd) (b : Bundle) (outs : List SlotOut) : Prop :=
  s.coreReady k = true ∧ evalBundle (s.coreEnv k) { (s.core k).ctx with inHandler := (s.core k).mask } = .run b outs ∧ b.holds cmd = true
    ∧ ∀ o, b.s = .op o → s.coreTraps k (s.core k).ctx o = false

/-- The order of R222's round robin from a pointer on: a smaller number is served sooner. -/
def turn (ptr i : Nat) : Nat := if ptr ≤ i then i else i + 10

/-- R219: the class that an output port of a router serves, of the classes with a contender. -/
def Serves (s : State) (p x y : Nat) (port : Dir) (cls : Nat) : Prop :=
  let within := fun c => fgetD 0 (s.router p).used (dirIndex port * 4 + c) < guarantee c
  cls < 4 ∧ s.contenders p x y port cls ≠ []
  ∧ (within cls → ∀ c, c < cls → s.contenders p x y port c ≠ [] → ¬ within c)
  ∧ (¬ within cls → ∀ c, c < 4 → s.contenders p x y port c ≠ [] → ¬ within c ∧ cls ≤ c)

/-- R222: the contender that a port sends, and whether the age rule chose it. -/
def Sends (limit ptr : Nat) (cs : List Contender) (c : Contender) (aged : Bool) : Prop :=
  c ∈ cs
  ∧ (aged = true → limit ≤ c.pkt.age ∧ ∀ d ∈ cs, d.pkt.age < c.pkt.age ∨ (d.pkt.age = c.pkt.age ∧ turn ptr c.index ≤ turn ptr d.index))
  ∧ (aged = false → ∀ d ∈ cs, d.pkt.age < limit ∧ turn ptr c.index ≤ turn ptr d.index)

/-- A router once an output port of it has sent a contender of a class: the packet is gone, its flits count, and the pointer stands past it. -/
def served (s : State) (p : Nat) (port : Dir) (cls : Nat) (c : Contender) : Router :=
  let slot := dirIndex port * 4 + cls
  { (s.router p).pop c.key with
    used := fset (s.router p).used slot (fgetD 0 (s.router p).used slot + pktFlits c.pkt), rr := fset (s.router p).rr slot ((c.index + 1) % 10) }

/-- The tile and the packet kind of an arrival command (R205). -/
def arrivalOf : Instr → Option (Nat × Nat)
  | .putArrive p => some (p, 0)
  | .getReqArrive p => some (p, 1)
  | .getReplyArrive p => some (p, 2)
  | .ackArrive p => some (p, 3)
  | .tmaxUpArrive p => some (p, 4)
  | .tmaxDownArrive p => some (p, 5)
  | .fndReplyArrive p => some (p, 8)
  | .imageArrive p => some (p, 9)
  | .ctrlArrive p => some (p, 10)
  | _ => none

/-- The local output port of tile p's router serves a packet of a kind next (R219, R222): it is at its destination. -/
def Arrives (s : State) (p kind cls : Nat) (c : Contender) (aged : Bool) : Prop :=
  s.power.tclkStopped = false ∧ c.pkt.kind = kind ∧ ∃ x y, s.mesh.baseLogical p = some (x, y) ∧ Serves s p x y .loc cls
    ∧ Sends s.mesh.ageLimit.toNat (fgetD 0 (s.router p).rr (dirIndex .loc * 4 + cls)) (s.contenders p x y .loc cls) c aged

/-- R217: a packet as it enters the local port of the tile at (x, y): with the tile's owner, and FW 0. -/
def stamped (s : State) (x y : Nat) (k : Packet) : Packet := { k with guest := (s.owner x y).getD 0, fw := false }

/-- R215: a delivered packet is counted; with the eighth that its source has not had acknowledged an ACK leaves, after `sent`. -/
def Counted (s t : State) (p x y : Nat) (k : Packet) (sent : List Packet) : Prop :=
  let src := logicalIndex k.srcX k.srcY
  let ns := (fgetD [0, 0, 0] (s.tile p).toAck src).zipIdx.map fun (n, i) => if i + 1 = k.cls then n + 1 else n
  (t.cluster (clusterOf p)).maxAge = (if (s.cluster (clusterOf p)).maxAge.toNat < k.age then BitVec.ofNat 10 k.age else (s.cluster (clusterOf p)).maxAge)
  ∧ (if pktAcked k = true ∧ 1 ≤ k.cls then
      if ns.sum < 8 then (t.tile p).outq = (s.tile p).outq ++ sent.map (stamped s x y) ∧ fget (t.tile p).toAck src = some ns
      else (t.tile p).outq = (s.tile p).outq ++ sent.map (stamped s x y) ++ [stamped s x y
          { dstX := src % 64, dstY := src / 64, srcX := x, srcY := y, kind := 3, cls := 0, operand := BitVec.ofNat 32 (ns.getD 0 0 + 256 * ns.getD 1 0 + 65536 * ns.getD 2 0) }]
        ∧ fget (t.tile p).toAck src = none
    else (t.tile p).outq = (s.tile p).outq ++ sent.map (stamped s x y) ∧ (t.tile p).toAck = (s.tile p).toAck)
  ∧ ∀ o, o ≠ src → fget (t.tile p).toAck o = fget (s.tile p).toAck o

/-- What a delivered packet of a kind does at its tile, and the packets it sends from there (R179, R205, R215, R226). -/
def Delivered (s t : State) (p x y : Nat) (k : Packet) : List Packet → Prop :=
  let c := s.ctx p k.ctx
  fun sent => match k.kind with
  | 0 | 2 | 8 => sent = [] ∧ (∀ a, (t.tile p).word a =
        if k.addr / 8 ≤ a / 8 ∧ a / 8 < k.addr / 8 + k.payload.length then k.payload.getD (a / 8 - k.addr / 8) {} else (s.tile p).word a)
      ∧ ∀ n, t.ctx p n = { s.ctx p n with waiting :=
          if ∃ i, i < k.payload.length ∧ (s.ctx p n).waiting = some (k.addr + 8 * i) then none else (s.ctx p n).waiting }
  | 1 =>
    let key := 8 * logicalIndex k.srcX k.srcY + k.ctx
    (∀ i, i < 4 * k.units → (s.tile p).bad (k.addr + 8 * i) = false ∧ (k.addr + 8 * i) / 8 ∉ (s.tile p).soft) →
      t.ctx p = s.ctx p ∧ (t.tile p).words = (s.tile p).words
      ∧ ∃ r, sent = [r] ∧ r.kind = 2 ∧ (r.dstX, r.dstY) = (k.srcX, k.srcY) ∧ (r.srcX, r.srcY) = (k.dstX, k.dstY) ∧ r.addr = k.retAddr
        ∧ r.units = k.units ∧ r.age = 0 ∧ (r.payload.length = 4 * k.units)
        ∧ (∀ i, i < 4 * k.units → r.payload.getD i {} =
            if ((s.tile p).word (k.addr + 8 * i)).tag = .pending then {} else (s.tile p).word (k.addr + 8 * i))
        ∧ r.cls = (fget (s.tile p).gets key).getD (if 1 ≤ k.units ∧ ((s.tile p).word k.addr).tag = .tally then 1 else 2)
        ∧ fget (t.tile p).gets key = if k.more then some r.cls else none
  | 3 => sent = [] ∧ t.ctx p = s.ctx p ∧ (t.tile p).words = (s.tile p).words ∧ ∀ cls, 1 ≤ cls → cls ≤ 3 →
      fgetD 0 (t.tile p).unacked cls = fgetD 0 (s.tile p).unacked cls - k.operand.toNat / 256 ^ (cls - 1) % 256
  | 4 =>
    let up := c.exch.up ++ [(tmaxNumber k, logicalIndex k.srcX k.srcY, tmaxAnchor k)]
    (s.groupOf x y k.ctx c.job = none → sent = [] ∧ t.ctx p k.ctx = { c with exch := { c.exch with up := up } } ∧ t.net = s.net) ∧
    ∀ g, s.groupOf x y k.ctx c.job = some g →
      let got := (g.children x y).map (fun d => up.find? fun u => u.1 = c.exch.number ∧ u.2.1 = logicalIndex d.1 d.2)
        ++ if g.parent x y = none then (childRanks g.rank g.modules).map (fun d => c.exch.mods.find? fun u => u.1 = c.exch.number ∧ u.2.1 = d.2) else []
      (c.exch.started = false ∨ c.exch.combined.isSome ∨ none ∈ got →
        sent = [] ∧ t.ctx p k.ctx = { c with exch := { c.exch with up := up } } ∧ t.net = s.net)
      ∧ (c.exch.started = true → c.exch.combined = none → none ∉ got →
        let v := maxExp (c.exch.own :: got.map fun u => match u with | some u => u.2.2 | none => none)
        let down := (g.childLinks x y).map fun d => tmaxPacket 5 x y d.1.1 d.1.2 k.ctx c.exch.number d.2 (some (v.getD 0))
        match g.parent x y, (if 1 < g.modules then sendLevel g.rank else none) with
        | some (px, py, lvl), _ => sent = [tmaxPacket 4 x y px py k.ctx c.exch.number lvl v] ∧ (t.ctx p k.ctx).exch.combined = none ∧ t.net = s.net
        | none, some rank => sent = [] ∧ (t.ctx p k.ctx).exch.combined = none ∧ t.net = (s.sendAnchor c.job g false c.exch.number v rank).net
        | none, none => sent = down ∧ (t.ctx p k.ctx).exch.combined = some (v.getD 0)
            ∧ t.net = ((childRanks g.rank g.modules).foldl (fun s d => s.sendAnchor c.job g true c.exch.number (some (v.getD 0)) d) s).net)
  | 5 => ∀ g a, s.groupOf x y k.ctx c.job = some g → tmaxAnchor k = some a → c.exch.started = true → c.exch.combined = none →
      c.exch.number = tmaxNumber k → (s.modCtx p k.ctx fun c => { c with exch := { c.exch with combined := some a } }).chosen p ≠ some k.ctx →
      t.ctx p k.ctx = { c with exch := { c.exch with combined := some a } }
      ∧ sent = (g.childLinks x y).map (fun d => tmaxPacket 5 x y d.1.1 d.1.2 k.ctx c.exch.number d.2 (some a))
      ∧ (g.parent x y ≠ none → t.net = s.net)
  | 9 => sent = [] ∧ t.ctx p = s.ctx p ∧ (t.tile p).words = (s.tile p).words
      ∧ (t.tile p).imageIn = (s.tile p).imageIn ++ k.payload.zipIdx.map fun (w, i) => (k.operand.toNat + 8 * i, w)
  | _ => sent = [] ∧ t.ctx p = s.ctx p ∧ (t.tile p).words = (s.tile p).words

/-- A field of n bytes at an offset of the payload of the request in a slot, and the guest that sent it. -/
def asked (s : State) (slot off n : Nat) : Nat := ((s.hole slot).req slot).f off n
def sentBy (s : State) (slot : Nat) : Nat := ((s.hole slot).req slot).guest

/-- The slot holds a response with the status and the payload. -/
def Answers (t : State) (slot : Nat) (st : Status) (payload : List Byte) : Prop :=
  Answered t slot st ∧ (t.hole slot).get 32 payload.length = payload

/-- The tile's engine can end the operation o, first of its list: it has ended none since the tile was halted, if it is, and TCLK runs
(R138, R251, R548). -/
def EngineEnds (s : State) (p : Nat) (o : StreamOp) (rest : List StreamOp) : Prop :=
  (s.tile p).streams = o :: rest ∧ (s.halted p = true → (s.tile p).streamed = false) ∧ s.power.tclkStopped = false
    ∧ ∀ l, s.ledger? o.ledger = some l → l.deleting = none

/-- R249: the flag word arrives below the staging area, and the context's operation is over. -/
def Flagged (s t : State) (p : Nat) (o : StreamOp) (rest : List StreamOp) (first n cause : Nat) : Prop :=
  (t.tile p).streams = rest ∧ (t.ctx p o.ctx).streaming = false
  ∧ (t.tile p).word ((o.base + 0x1FFFF8) % 0x200000) = ⟨.pack, BitVec.ofNat 64
      (first % 2 ^ 32 + n * 2 ^ 32 + (if cause = 0 then 0 else 2 ^ 40) + (if o.append then 2 ^ 41 else 0) + cause * 2 ^ 44)⟩
  ∧ t.ledgers.faults = (if cause = 0 then s.ledgers.faults else satInc s.ledgers.faults) ∧ (∀ q, q ≠ p → t.tile q = s.tile q)
  ∧ (∀ c, c ≠ o.ctx → (t.ctx p c).streaming = (s.ctx p c).streaming) ∧ (∀ c, (t.ctx p c).s = (s.ctx p c).s ∧ (t.ctx p c).pc = (s.ctx p c).pc)
/-- Nothing that breaks the steps of a job goes on (R280): no stage, throttle or clamp, no core down or being swapped, no halt of its tiles, no
retirement, and no Porter save. -/
def Undisturbed (s : State) (j : Nat) : Prop :=
  s.stage = 0 ∧ s.power.clamp = .off ∧ s.mesh.halts = [] ∧ (∀ e ∈ s.clusters, e.2.moving = none) ∧ (∀ e ∈ s.firm.cores, e.2.run = .running)
    ∧ (∀ e ∈ s.jobs, e.2.save = none) ∧ ∀ x, fget s.jobs j = some x → ∀ p ∈ s.jobTiles x, (s.tile p).halts = []

/-- What a read of the byte at an address returns: the byte, or none where the read fails (R302). -/
def reads (s : State) (a : Nat) : Option Byte := if s.wordStatus a = .ok then some (s.memByte a) else none

/-- The merge buffers as the controllers fill them (R306): each entry in the stack that serves its line, one entry a line, each byte offset once. -/
def MergesOk (s : State) : Prop :=
  ∀ k, k < 16 → ((s.stack k).merge.map (·.line)).Nodup ∧ ∀ e ∈ (s.stack k).merge, s.mem.stackAt e.line = k
    ∧ (e.bytes.map (·.1)).Nodup ∧ ∀ b ∈ e.bytes, b.1 < 64

/-- The redirection tables as retirements leave them (R317, R318): each pseudo-channel once, its granules alone and in order. -/
def TablesOk (m : Mem) : Prop :=
  (m.retirements.map (·.pc)).Nodup ∧ ∀ r ∈ m.retirements, r.done = true ∧ (r.slots.map (·.1)).Pairwise (· < ·) ∧ ∀ e ∈ r.slots, pcIndex (4096 * e.1) = r.pc

/-- Nothing of the requester waits for a page of the range (R512, R513). -/
def WritesNow (s : State) (who : Writer) (a n : Nat) : Prop :=
  (∀ w ∈ s.porter.waits, w.who ≠ who) ∧ ∀ p ∈ pagesOf a n, s.marked p = false

/-- The stack ranges that back regions of cellar memory are holes to every other address, whole lines of them (R328). -/
def BackingsHoled (m : Mem) : Prop := ∀ e ∈ m.regions, ∀ b, e.2.stackBase = some b → b % 64 = 0 ∧ ∀ i, i < 2 ^ 30 → m.reach (b + i) = .hole

/-- The packet no longer waits at the router, if it did (R202, R212). -/
def Crossed (r : Router) (k : Packet) : Router :=
  match r.bufs.find? fun e => e.2.head? == some k with
  | some e => r.pop e.1
  | none => r

/-- What is left of the module when a cold start begins, beside the always-on domain, the flash devices and what the ports remember (R4,
R44, R564). -/
def ColdBegun (s t : State) : Prop :=
  t.firm.mstate = .coldStart ∧ t.firm.startStep = 1 ∧ t.firm.aon = 0 ∧ t.firm.session = none ∧ t.firm.restart = none ∧ t.jobs = [] ∧ t.guests = []
  ∧ t.ledgers = {} ∧ t.storage = {} ∧ (∀ a, cellGet t.mem.cells a = 0) ∧ (∀ p a, (t.tile p).word a = {}) ∧ (∀ p n, (t.ctx p n).assigned = false)
  ∧ (∀ k, t.hole k = {}) ∧ t.cipher.slots = [] ∧ t.cipher.keks = []
  ∧ (t.core doorkeeper).run = .running ∧ (∀ c, 1 ≤ c → c < 19 → (t.core c).run = .off)
  ∧ t.firm.flashA.record = s.firm.flashA.record ∧ t.firm.flashB.record = s.firm.flashB.record ∧ t.mesh.retired = s.retiredMap
  ∧ t.power.divisor = baseDivisor s.power.selected ∧ t.power.tclkStopped = true
/-- A core's swap has begun (R75): its shadow bank holds its section of the image. -/
def SwapBegun (s t : State) (c : Nat) (i : Image) : Prop :=
  (t.core c).run = .swapping ∧ (t.core c).shadow = sramOf (i.section c) ∧ (t.core c).sram = (s.core c).sram
    ∧ (c = hearth → s.power.clamp = .off → t.power.clamp = .hold)

/-- R74: a core has gone over to code at a quiescent point: it runs it from SRAM offset 0, and its registers, its results in flight and its SRAM
beyond the code stay; its interrupt controller is as after a cold start, but that what was pending or active is pending (R572). -/
def WentOver (k k' : Core) (code : FMap TWord) (release : BitVec 32) : Prop :=
  k' = { k with
    pend := k.pend ||| k.act, act := 0, enable := 0, mask := true, epc := 0,
    run := .running, ctx := { k.ctx with assigned := true, ready := true, stopped := false, pc := 0, shadow := none, rep := none, waiting := none },
    asleep := false, sram := code ++ k.sram.filter (code.length ≤ ·.1), shadow := [], release, watchdog := k'.watchdog }

/-- R78: the activation is complete. -/
def Activated (s t : State) (i : Image) : Prop :=
  t.firm.running = i ∧ t.firm.runningB = !s.firm.runningB ∧ t.firm.staged = none ∧ t.firm.activation = none
    ∧ t.firm.measurement = i.measure ∧ t.firm.rollbackFloor = max s.firm.rollbackFloor i.rollback

/-- Nothing stands in the way of a swap of core c (R74, R77). -/
def MaySwap (s : State) (c : Nat) : Prop :=
  (s.core c).run = .running ∧ (∀ e ∈ s.firm.cores, e.2.run ≠ .swapping ∧ e.2.run ≠ .restarting) ∧ (c = hearth → s.calm = true)
/-- A link on which a write of 4 bytes reaches BAR0: up, in D0 with memory space enabled (R9, R348). -/
def Bar0Open (s : State) (link : Nat) : Prop := link < 2 ∧ (s.link link).up = true ∧ (s.link link).memory = true

/-- A 4-byte register write of v at an offset of BAR0 changes s to t and to nothing else. -/
def Writes (s : State) (link o : Nat) (v : BitVec 32) (t : State) : Prop := exec (.registerWrite link o 4 (v.setWidth 64)) s = .next t
/-- The main domains are off (R47, R548, R564): the module is in AUX_ONLY, and what they held is gone; the flash devices keep their records. -/
def MainOff (s t : State) : Prop :=
  t.firm.mstate = .auxOnly ∧ t.firm.startStep = 0 ∧ t.firm.session = none ∧ t.firm.events = [] ∧ t.jobs = [] ∧ t.guests = [] ∧ t.ledgers = {} ∧ t.storage = {}
  ∧ (∀ a, cellGet t.mem.cells a = 0) ∧ (∀ p a, (t.tile p).word a = {}) ∧ (∀ k, t.hole k = {}) ∧ (∀ c, c < 19 → (t.core c).run = .off)
  ∧ t.power.stages = [] ∧ t.power.tclkStopped = true
  ∧ t.firm.flashA.record = s.firm.flashA.record ∧ t.firm.flashB.record = s.firm.flashB.record
/-- The messages of group k, held by guest g, have left on the guest's link in ascending vector order, and their vectors are no longer pending
(R576, R578). -/
def GroupSent (s t : State) (k g : Nat) : Prop :=
  let n := (s.guest g).link
  (t.link n).sent = (s.link n).sent ++ (s.dueVectors k).map (fun v =>
      .interrupt (some (s.guest g).pasid) (4 * (s.vector v).addr.toNat) (s.vector v).data)
  ∧ (∀ v, t.vector v = if v ∈ s.dueVectors k then { s.vector v with pending := false } else s.vector v)
  ∧ (∀ m, m ≠ n → t.link m = s.link m) ∧ (t.link n).held = []
/-- The ring takes n more records: it runs, has n free slots, the module writes records, and the manager's link is open and holds nothing back
(R585 to R588). -/
def RingTakes (s : State) (n : Nat) : Prop :=
  s.irq.teleRunning = true ∧ s.irq.teleTail < s.irq.teleEntries ∧ s.irq.teleUsed + n ≤ s.irq.teleEntries ∧ s.stage < 4 ∧ s.firm.mstate ≠ .warmStart
    ∧ (s.link s.mgr).open = true ∧ (s.link s.mgr).held = []

/-- n records have left for the next slots of the ring in order, each with its phase, its time, LOST in the first if records were dropped before it,
and the type, source and data that P gives; then the ring's vector was raised (R585, R586). -/
def RecordsSent (s t : State) (n : Nat) (P : Nat → List Byte → Prop) : Prop :=
  (∃ (recs : List (List Byte)) (ms : List HostTx), recs.length = n ∧ (t.link s.mgr).sent = (s.link s.mgr).sent ++ (recs.zipIdx.map fun x =>
        .write none (s.irq.teleBase + 64 * ((s.irq.teleTail + x.2) % s.irq.teleEntries)) x.1) ++ ms
      ∧ (ms = [] ∨ ∃ a d, ms = [.interrupt none a d])
      ∧ ∀ k rec, recs[k]? = some rec → rec.length = 64 ∧ field rec 4 4 = s.net.time.toNat
        ∧ field rec 1 1 = bit (s.irq.telePhase ^^ decide (s.irq.teleEntries ≤ s.irq.teleTail + k)) + 2 * bit (s.irq.teleMark && k == 0) ∧ P k rec)
  ∧ t.irq = { s.irq with
      teleTail := (s.irq.teleTail + n) % s.irq.teleEntries, teleUsed := s.irq.teleUsed + n, teleMark := s.irq.teleMark && n == 0,
      telePhase := s.irq.telePhase ^^ decide (s.irq.teleEntries ≤ s.irq.teleTail + n) }
  ∧ (∀ m, m ≠ s.mgr → t.link m = s.link m) ∧ t = { s with irq := t.irq, hosts := { s.hosts with links := t.hosts.links } }
/-- Only link n of the hosts differs from s, and it reads l. -/
def LinkBecomes (s t : State) (n : Nat) (l : Upstream) : Prop :=
  t.link n = l ∧ (∀ m, m ≠ n → t.link m = s.link m) ∧ t = { s with hosts := { s.hosts with links := t.hosts.links } }
/-- Events join the backlog in order, each a kind, the slot's state, a cause, the sequence number of the request it ends (or 0) and a status
(PORT_EVENT). -/
def PortEvents (s t : State) (n : Nat) (es : List (Nat × Nat × Nat × Nat × Nat)) : Prop :=
  t.firm.events = s.firm.events ++ es.map fun (kind, code, cause, seq, st) =>
    { opcode := 0x0680, guest := 0xFFFF, seq, status := st, time := s.firm.aon, payload := [kind, n, code, cause, 0, 0, 0, 0].map (BitVec.ofNat 8) }

/-- Port n alone changes, to p, and the events arise. -/
def PortBecomes (s t : State) (n : Nat) (p : Port) (es : List (Nat × Nat × Nat × Nat × Nat) := []) : Prop :=
  t.port n = p ∧ (∀ m, m ≠ n → t.port m = s.port m) ∧ PortEvents s t n es
    ∧ t = { s with firm := { s.firm with events := t.firm.events }, hosts := { s.hosts with ports := t.hosts.ports } }

/-- Port n alone changes, to p, and its events arise; it is among the ports that are down, or no longer, and the module is DEGRADED, or READY
again with the last such condition (R47). -/
def PortMoves (s t : State) (n : Nat) (p : Port) (down : Prop) (es : List (Nat × Nat × Nat × Nat × Nat)) : Prop :=
  let ofPorts := fun (l : List Event) => l.filter (·.opcode == 0x0680)
  t.port n = p ∧ (∀ m, m ≠ n → t.port m = s.port m)
    ∧ ofPorts t.firm.events = ofPorts s.firm.events ++ es.map (fun (kind, code, cause, seq, st) =>
      { opcode := 0x0680, guest := 0xFFFF, seq, status := st, time := s.firm.aon, payload := [kind, n, code, cause, 0, 0, 0, 0].map (BitVec.ofNat 8) })
    ∧ (n ∈ t.firm.portsDown ↔ down) ∧ (∀ m, m ≠ n → (m ∈ t.firm.portsDown ↔ m ∈ s.firm.portsDown))
    ∧ (down → s.firm.mstate = .ready → t.firm.mstate = .degraded)
    ∧ (¬ down → n ∈ s.firm.portsDown → s.firm.mstate = .degraded → t.conditions = false → t.firm.mstate = .ready)
    ∧ t = { s with
        firm := { s.firm with events := t.firm.events, mstate := t.firm.mstate, shedFrom := t.firm.shedFrom, portsDown := t.firm.portsDown },
        hosts := { s.hosts with ports := t.hosts.ports } }

/-- A port whose device has lost its link: its requests have failed (R361, R362, R366). -/
def Cut (p : Port) : Port := { p with linkUp := false, probing := false, speed := 0, width := 0, outstanding := [], held := [], onSeq := none }

/-- A slot without power (R361, R597). -/
def Unpowered (p : Port) : Port := { p with powerEn := false, refclk := false, powerGood := false, perstHigh := false }

/-- A slot that powers on (R363, R597). -/
def Powering (p : Port) (seq : Option Nat) : Port :=
  { p with state := .powering, powerEn := true, refclk := true, powerGood := false, perstHigh := false, linkUp := false, onSeq := seq }

/-- A port that is on no namespace, on no command's way and has no cellar device; the backlog has room. -/
def PlainPort (s : State) (n : Nat) : Prop :=
  n < 8 ∧ s.storage.namespaces = [] ∧ s.storage.pairs = [] ∧ (s.cellar n).present = false ∧ s.firm.events.length + 3 ≤ 256
/-- Requests that arrive on the link reach the pages of BAR2 (R340, R348, R393). -/
def TakesBar2 (s : State) (n : Nat) : Prop := n < 2 ∧ (s.link n).up = true ∧ (s.link n).memory = true

/-- A range of whole lines is served, line for line, and no region of it is being evacuated there. -/
def ServedRange (s : State) (a n : Nat) : Prop :=
  a % 64 = 0 ∧ n % 64 = 0 ∧ (∀ i, i < n → ∃ x, s.mem.writeReach (a + i) = .served x ∧ x % 64 = i % 64) ∧ ∀ i, i < n → s.mem.mirror (a + i) = none

/-- GUEST_EVENT joins the backlog: its kind, map, room and flags, the pages or base it reports, the guest, and the request it ends. -/
def GuestEvents (s t : State) (kind map room flags n g seq st : Nat) : Prop :=
  t.firm.events = s.firm.events ++ [{
    opcode := 0x0280, guest := g, seq, status := st, time := s.firm.aon,
    payload := [BitVec.ofNat 8 kind, BitVec.ofNat 8 map] ++ leBytes 2 room ++ [BitVec.ofNat 8 flags, 0, 0, 0] ++ leBytes 8 n }]
/-- STORAGE_EVENT joins the backlog: kind, cause, local number, namespace, commands ended and completions discarded; the guest and the request. -/
def StorageEvents (s t : State) (kind cause loc nsid aborted discarded g seq : Nat) : Prop :=
  t.firm.events = s.firm.events ++ [{
    opcode := 0x0780, guest := g, seq, status := 0, time := s.firm.aon,
    payload := leBytes 1 kind ++ leBytes 1 cause ++ leBytes 2 loc ++ leBytes 4 nsid ++ leBytes 4 aborted ++ leBytes 4 discarded }]

/-- The guest's link takes requests at once, and nothing is logged. -/
def HostTakes (s : State) (x : Guest) : Prop :=
  x.log = none ∧ (s.link x.link).open = true ∧ (s.link x.link).held = [] ∧ freeTag 2048 (s.link x.link).outstanding (s.link x.link).quarantine ≠ none

/-- The command of the pair ends: it leaves the list, and its completion waits behind the others (R415, R417). -/
def CmdEnds (s t : State) (m cid sct sc : Nat) (dnr : Bool) (dw0 : BitVec 32 := 0) : Prop :=
  (t.pair m).toPost = (s.pair m).toPost ++ [({ cid := cid, sct := sct, sc := sc, dnr := dnr, dw0 := dw0 } : Cqe)] ∧ (t.pair m).cmds = (s.pair m).cmds.eraseP (·.cid == cid)
    ∧ ∀ k, k ≠ m → (t.pair k).toPost = (s.pair k).toPost ∧ (t.pair k).cmds = (s.pair k).cmds

/-- The guest with one more failed command in its Error Information log (R407; that the log is kept so is notes/assumptions/101.md). -/
def withError (x : Guest) (m cid : Nat) (c : Cmd) (sct sc : Nat) (dnr : Bool) : Guest :=
  { x with
    errorCount := x.errorCount + 1,
    log01 := ({ count := x.errorCount + 1, sqid := x.localPair m, cid, status := statusField sct sc dnr, lba := c.slba, nsid := c.nsid } :: x.log01).take 64 }
/-- The fetched command of a pair with an identifier, not yet started, with flags that are allowed (R417). -/
def Starts (s : State) (m cid op : Nat) (x : Guest) (c : Cmd) : Prop :=
  (s.pair m).cmd? cid = some c ∧ c.opcode = op ∧ c.started = false ∧ (s.pair m).state ≠ 0 ∧ (s.pair m).cause = 0
    ∧ c.f 1 1 % 4 = 0 ∧ c.f 1 1 < 64 ∧ s.guest? (s.pair m).guest = some x

/-- Its namespace is there, with its blocks and its backing in reach, and names no key. -/
def Reaches (s : State) (m : Nat) (c : Cmd) (n : Namespace) : Prop :=
  s.ns? (s.pair m).guest c.nsid = some n ∧ c.nsGone = false ∧ n.lost = false ∧ n.keySlot = none ∧ n.extents ≠ []
    ∧ ∀ e ∈ n.extents, if e.remote then (s.conn e.conn).state = .opened else (s.port e.port).serves = true
/-- NET_EVENT joins those of the backlog: kind, port, local number, cause, the guest and the request it ends. -/
def NetEvents (s t : State) (kind port loc cause g seq : Nat) : Prop :=
  t.firm.events.filter (·.opcode == 0x0880) = s.firm.events.filter (·.opcode == 0x0880) ++ [{
    opcode := 0x0880, guest := g, seq, status := 0, time := s.firm.aon,
    payload := [BitVec.ofNat 8 kind, BitVec.ofNat 8 port] ++ leBytes 2 loc ++ [BitVec.ofNat 8 cause, 0, 0, 0] }]

/-- R47: port n (16 on for the Ethernet ports) is among the ports that are down, or no longer; every other port is as before; READY becomes
DEGRADED, or DEGRADED READY with the last such condition. -/
def DownIs (s t : State) (n : Nat) (down : Prop) : Prop :=
  (n ∈ t.firm.portsDown ↔ down) ∧ (∀ m, m ≠ n → (m ∈ t.firm.portsDown ↔ m ∈ s.firm.portsDown))
    ∧ (down → s.firm.mstate = .ready → t.firm.mstate = .degraded)
    ∧ (¬ down → n ∈ s.firm.portsDown → s.firm.mstate = .degraded → t.conditions = false → t.firm.mstate = .ready)

/-- R432: an enabled rule for the port and its profile whose key agrees with the frame's wherever its mask has a 1. -/
def RuleHits (r : List (BitVec 32)) (port profile : Nat) (key : List Byte) : Prop :=
  (r.getD 31 0).getLsbD 0 = true ∧ (r.getD 17 0).toNat % 8 = profile ∧ (r.getD 16 0).getLsbD port = true
    ∧ ∀ i, i < 32 → key.getD i 0 &&& (r.getD (8 + i / 4) 0).extractLsb' (8 * (i % 4)) 8
        = (r.getD (i / 4) 0).extractLsb' (8 * (i % 4)) 8 &&& (r.getD (8 + i / 4) 0).extractLsb' (8 * (i % 4)) 8

/-- The frame went to ring n (R435, R437): to the next posted buffer, with its descriptor, and the ring's vector was raised; while posted descriptors
are still to be fetched it waits for one, in the order of arrival; with no such ring, or every posted descriptor used, it was dropped and counted. -/
def ToRing (s t : State) (port n rule : Nat) (frame : List Byte) : Prop :=
  match fget s.net.rings n with
  | none => t = s.countDrops port 1
  | some r =>
    match r.rxPosted, r.rxWait with
    | [], w =>
      if ((fgetD 0 s.net.rxTail n).toNat % r.rxEntries + r.rxEntries - r.rxHead) % r.rxEntries ≤ w.length then t = s.countDrops port 1
      else fget t.net.rings n = some { r with rxWait := w ++ [(port, rule, frame)] } ∧ (t.netPort port).drops = (s.netPort port).drops
        ∧ (t.link s.mgr).sent = (s.link s.mgr).sent ++
            if s.awaits (.frameRxDesc n) = true ∨ r.rxFetched = (fgetD 0 s.net.rxTail n).toNat % r.rxEntries then []
            else [.read none (r.rxBase + 16 * r.rxFetched) 16 (.frameRxDesc n)]
    | (a, len) :: rest, [] => ∃ d ms, d.length = 16 ∧ field d 0 8 = a % 2 ^ 64 ∧ field d 8 2 = frame.length % 65536 ∧ field d 10 1 = port % 256
        ∧ field d 12 1 = (if len < frame.length then 3 else 1) ∧ field d 14 2 = rule % 65536 ∧ (ms = [] ∨ ∃ x y, ms = [HostTx.interrupt none x y])
        ∧ (t.link s.mgr).sent = (s.link s.mgr).sent ++ [.write none a (frame.take len), .write none (r.rxBase + 16 * r.rxHead) d] ++ ms
        ∧ fget t.net.rings n = some { r with rxPosted := rest, rxHead := (r.rxHead + 1) % r.rxEntries } ∧ (t.netPort port).drops = (s.netPort port).drops
    | _ :: rest, _ :: w => (t.netPort port).drops = (s.netPort port).drops
        ∧ fget t.net.rings n = some { r with rxPosted := rest, rxWait := w ++ [(port, rule, frame)], rxHead := (r.rxHead + 1) % r.rxEntries }
/-- A frame starts on the line of a port: it leaves its queue, and its bytes go out (R469, R470). -/
def FrameStarts (s t : State) (p : Nat) (f : EgressFrame) : Prop :=
  (t.egress p).line = some f ∧ (t.egress p).frames = (s.egress p).frames.erase f ∧ t.net = { s.net with sentFrames := s.net.sentFrames ++ [(p, f.bytes)] }
/-- One native packet of the connection waits at its port's egress, in the FIFO of its room and the queue of its DSCP, a request's marked with its
message: its OP, the peer's numbers and its MSN; P holds of its bytes from the courier header on (R438, R440, R463). -/
def PacketWaits (s t : State) (cn op msn : Nat) (P : List Byte → Prop) : Prop :=
  let c := s.conn cn
  ∃ fr : List Byte, (t.egress c.port).waiting = (s.egress c.port).waiting ++ [{
        queue := fgetD (8 + c.dscp) (s.egress c.port).dscp c.dscp, room := some (cn / 64), conn := some cn,
        msg := if op ≤ 3 then some msn else none, bytes := fr }]
    ∧ beField fr 62 1 = 16 + op ∧ beField fr 64 2 = c.peerConn % 65536 ∧ beField fr 66 2 = c.peerGen % 65536 ∧ beField fr 70 4 = msn % 2 ^ 32 ∧ P (fr.drop 62)

/-- A completion entry went to the connection's completion ring (R452). -/
def EntryWritten (s t : State) (cn cookie msn bytes status op : Nat) : Prop :=
  let c := s.conn cn
  ∃ e : List Byte, e.length = 16 ∧ field e 0 4 = cookie % 2 ^ 32 ∧ field e 4 4 = msn % 2 ^ 32 ∧ field e 8 4 = bytes % 2 ^ 32 ∧ field e 12 1 = status % 256
    ∧ field e 13 1 = op % 256 ∧ field e 14 1 = bit c.cqPhase
    ∧ HostTx.write (some (s.guest c.guest).pasid) (c.cqRing + 16 * c.cqTail) e ∈ (t.link (s.guest c.guest).link).sent
    ∧ (t.conn cn).cqTail = (if c.cqTail + 1 = c.cqEntries then 0 else c.cqTail + 1)
    ∧ (t.conn cn).cqPhase = (if c.cqTail + 1 = c.cqEntries then !c.cqPhase else c.cqPhase)

/-- A packet that the connection of its header takes (R439), inside its window, of a message not yet refused (R444). -/
def Takes (s : State) (ok : Bool) (p : List Byte) : Prop :=
  let h := parseHead p
  let c := s.conn h.conn
  s.discards ok p = false ∧ c.base < 2 ^ 32 ∧ (h.msn + 2 ^ 32 - c.base) % 2 ^ 32 < 4096 ∧ fget c.refusedMsns h.msn = none
/-- CIPHER_EVENT joins the backlog (R500, R503). -/
def CipherEvents (s t : State) (kind result loc causes bytes g seq : Nat) : Prop :=
  t.firm.events = s.firm.events ++ [{
    opcode := 0x0A80, guest := g, seq, status := if result = 0 then 0 else Status.faulted.code, time := s.firm.aon,
    payload := leBytes 1 kind ++ leBytes 1 result ++ leBytes 2 loc ++ leBytes 1 causes ++ zeros 3 ++ leBytes 8 bytes }]

/-- A range of the guest's memory reads well up to n bytes, and the read leaves nothing to count (R302). -/
def ReadsTo (s : State) (g a len n : Nat) : Prop := s.goodBytes g a len = n ∧ (s.memRead a len).2.2 = s

/-- No storage block and no run waits for an engine. -/
def NoneWait (s : State) : Prop := s.cipher.waiting = [] ∧ s.cipher.waitRuns = []

/-- Every slot is EMPTY, and no KEK and no cached key is left (R498). -/
def Zeroised (t : State) : Prop := t.cipher.slots = [] ∧ t.cipher.keks = [] ∧ ∀ e, (t.engine e).cache = []

/-- An engine that takes an operation: the key of the slot is its cache's, or it is being fetched (R490, R492). -/
def TakesOn (x : Engine) (slot : Nat) (run : Option CipherRun) (block : Option CipherBlock) (y : Engine) : Prop :=
  match x.cache.find? (·.1 == slot) with
  | some (_, k) => y.run = run.map (fun r => { r with key := some k }) ∧ y.block = block.map (fun b => { b with key := some k }) ∧ y.fetching = false
      ∧ y.cache.head? = some (slot, k)
  | none => y.run = run ∧ y.block = block ∧ y.fetching = true ∧ y.cache = x.cache
/-- A job with a save in progress and its layout. -/
def Saving (s : State) (j : Nat) (x : Job) (v : Save) (l : Layout) : Prop := fget s.jobs j = some x ∧ x.save = some v ∧ x.config = some l

def saveOf (t : State) (j : Nat) : Option Save := (fget t.jobs j).bind (·.save)

/-- CKPT_EVENT is in the backlog, unless the backlog is full. -/
def CkptReports (s t : State) (kind cause job step units aside g seq : Nat) (ok : Bool) : Prop :=
  t.firm.events.length < 256 → ({
    opcode := 0x0B80, guest := g, seq, status := if ok then 0 else Status.faulted.code, time := s.firm.aon,
    payload := leBytes 1 kind ++ leBytes 1 cause ++ [0, 0] ++ leBytes 4 job ++ leBytes 4 step ++ leBytes 4 units ++ leBytes 4 aside ++ zeros 4 } : Event) ∈ t.firm.events

/-- A save ends with kind 5, and the writes that waited for its pages proceed (R509, R522, R535). -/
def SaveEnds (s t : State) (j : Nat) (x : Job) (v : Save) (cause : Nat) : Prop :=
  saveOf t j = none ∧ (fget t.jobs j).isSome ∧ CkptReports s t 5 cause j v.step v.units 0 x.guest v.seq false ∧ t.porter.savesEnded = satInc s.porter.savesEnded
    ∧ t.mem = ((s.modJob j fun x => { x with save := none }).settleWaits).mem

/-- The halts that an image save put on tiles are withdrawn (R508, R509). -/
def HaltsWithdrawn (s t : State) (j : Nat) (x : Job) : Prop :=
  ∀ p ∈ s.saveTiles x, ∀ h, h ∈ (t.tile p).halts ↔ h ∈ (s.tile p).halts ∧ h ≠ .porter j

/-- The save once its capture is to begin: unless a retirement halts one of its tiles (R149) every page of every saved region is marked, with the bytes
it holds (R508, R514). -/
def Captured (s : State) (x : Job) (v : Save) (l : Layout) : Save :=
  if v.capturing = true ∨ s.retires x = true then { v with wanted := true } else { v with
    wanted := true, capturing := true, step := x.steps, marks := regionPages (s.regionRanges l), data := (s.regionRanges l).map fun r => s.memBytes r.1 r.2 }
/-- SERVICE_EVENT is in the backlog, unless the backlog is full. -/
def ServiceReports (s t : State) (kind device seq : Nat) (ok : Bool) : Prop :=
  t.firm.events.length < 256 → ({
    opcode := 0x0681, guest := 0xFFFF, seq, status := if ok then 0 else Status.faulted.code, time := s.firm.aon,
    payload := leBytes 1 kind ++ leBytes 1 device ++ zeros 6 } : Event) ∈ t.firm.events

/-- The device takes a state, keeping what it holds, and the other device stays as it is. -/
def FlashEnters (s t : State) (b : Bool) (st : BitVec 3) : Prop := t.flash b = { s.flash b with state := st } ∧ t.flash (!b) = s.flash (!b)

/-- No retirement, built mesh, activation or start waits for a record (R18, R78, R145). -/
def NoneMoves (s : State) : Prop :=
  (∀ c, (s.cluster c).moving = none) ∧ s.firm.meshNext = none ∧ (∀ a, s.firm.activation = some a → a.marking = none) ∧ s.firm.stepDone = false
    ∧ (s.firm.mstate = .warmStart → s.firm.startStep = 4 → ∀ c, (s.cluster c).queue = [])

end Sys2Proof.Claims

open Sys2Proof.Claims

/-- A step takes the command at the front of the queue and runs it on the rest. -/
def Obligations.StepRunsFrontCommand : Prop :=
  ∀ (c : Instr) (rest : List Instr) (s : State),
    step { s with pending := c :: rest } = exec c { s with pending := rest }

/-- Design choice (notes/assumptions/3.md): with nothing waiting one cycle of the AON clock passes; nothing but the two times changes, but for an
error that may arise (notes/assumptions/83.md) and for a device that is being released (notes/assumptions/100.md). -/
def Obligations.IdleStepIsOneAonCycle : Prop :=
  (∀ s : State, s.pending = [] → (∀ d, d < 8 → (s.cellar d).releasing = false) →
    let t : State := { s with
      firm := { s.firm with aon := s.firm.aon + 1 },
      net := { s.net with
        time := if s.net.timeFrac + 1 < 25 then s.net.time else s.net.time + 1,
        timeFrac := if s.net.timeFrac + 1 < 25 then s.net.timeFrac + 1 else 0, timeNs := 0 } }
    let u : State := if s.net.timeFrac + 1 < 25 ∨ s.net.time.toNat + 1 < 2 ^ 32 then t else t.reposition
    (step s = .next (match Config.upset (s.firm.aon + 1) with | some e => u.upset e | none => u))
    ∧ ∀ e, (u.upset e).firm.aon = s.firm.aon + 1 ∧ (u.upset e).net = t.net ∧ (u.upset e).guests = s.guests ∧ (u.upset e).pending = []
      ∧ ∀ l, ((u.upset e).link l).up = (s.link l).up)
  ∧ ∀ s : State, s.pending = [] → s.Sound → ∃ t, step s = .next t ∧ t.pending = []

/-- The module right after it reports READY for the first time (notes/assumptions/1.md). -/
def Obligations.ResetStateHoldsColdStartValues : Prop :=
  State.reset.firm.mstate = .ready ∧ State.reset.firm.session = none ∧ State.reset.pending = []
  ∧ (∀ p a, (State.reset.tile p).word a = { tag := .empty, data := 0 })
  ∧ (∀ p n, (State.reset.ctx p n).assigned = false)
  ∧ (∀ k, (State.reset.hole k).busy = false ∧ (State.reset.hole k).done = false)
  ∧ (∀ c, (State.reset.core c).pend = 0 ∧ (State.reset.core c).act = 0)
  ∧ (∀ g, State.reset.guest? g = none) ∧ State.reset.jobs = [] ∧ State.reset.ledgers.live = []
  ∧ (∀ m, (State.reset.pair m).state = 0) ∧ (∀ c, (State.reset.conn c).state = .closed)
  ∧ (∀ a, cellGet State.reset.mem.cells a = 0)
  ∧ State.reset.power.stages = [] ∧ State.reset.power.divisor = 4

/-- The starting state meets the invariant of the next statement. -/
def Obligations.ResetMemoryIsCanonical : Prop := State.reset.Sound

/-- Whatever the step runs, the memory stays in its canonical form. -/
def Obligations.EveryStepKeepsMemoryCanonical : Prop :=
  ∀ s t : State, s.Sound → step s = .next t → t.Sound

/-- No command stops the machine, and none touches the queue. -/
def Obligations.EveryCommandCompletesAndKeepsTheQueue : Prop :=
  ∀ (c : Instr) (s : State), s.Sound → Gives c s fun t => t.pending = s.pending ∧ t.Sound

/-- R53, R59: a message is carried out and answered. For each of the 62 commands of messageOf this concludes that exec answers a next state. -/
def Obligations.MessageIsCarriedOutAndAnswered : Prop :=
  ∀ (i : Instr) (slot core : Nat) (b : ReqBlock) (s : State), messageOf i = some (slot, b) → Begun s slot core b none →
    let a := b.run ((s.hole slot).req slot) s
    Gives i s fun t =>
      if a.later then t = a.state
      else Answered t slot a.status ∧ (t.core core).begun = none
        ∧ (a.payload.length < 4064 → (t.hole slot).num 4 2 = a.payload.length ∧ (t.hole slot).get 32 a.payload.length = a.payload)
        ∧ t = { a.state with firm := { a.state.firm with holes := t.firm.holes, cores := t.firm.cores }, hosts := t.hosts }
        ∧ (∀ k, k ≠ slot → t.hole k = a.state.hole k) ∧ (∀ k, k ≠ core → t.core k = a.state.core k)

/-- R60: no side effects of a request that fails a check. -/
def Obligations.FailedCheckHasNoSideEffects : Prop :=
  (∀ (i : Instr) (slot core : Nat) (b : ReqBlock) (st : Status) (s : State), messageOf i = some (slot, b) → Begun s slot core b (some st) →
    Gives i s fun t => Answered t slot st
      ∧ t = { s with firm := { s.firm with holes := t.firm.holes, cores := t.firm.cores }, hosts := t.hosts }
      ∧ (∀ k, k ≠ slot → t.hole k = s.hole k) ∧ (∀ k, k ≠ core → t.core k = s.core k)
      ∧ t.core core = { s.core core with begun := none } ∧ t.hosts = { s.hosts with links := t.hosts.links }
      ∧ ((s.hole slot).irqEn = false → t.hosts = s.hosts))
  ∧ (∀ (slot : Nat) (st : Status) (s : State), slot < 30 → (s.hole slot).busy = false → (s.hole slot).done = false →
      s.dispatchCheck (s.hole slot) = some st →
    Gives (.phGo slot) s fun t => Answered t slot st
      ∧ t = { s with firm := { s.firm with holes := t.firm.holes }, hosts := t.hosts }
      ∧ (∀ k, k ≠ slot → t.hole k = s.hole k) ∧ t.hosts = { s.hosts with links := t.hosts.links }
      ∧ ((s.hole slot).irqEn = false → t.hosts = s.hosts))

/-- R50 to R57: what the commands on pigeonholes do. -/
def Obligations.PigeonholeCommandsFollowTheirRules : Prop :=
  (∀ (slot : Nat) (s : State), slot < 30 → ((s.hole slot).busy = true ∨ (s.hole slot).done = true) →
    Gives (.phGo slot) s fun t => t = s.modHole slot fun h => { h with dropped := true })
  ∧ (∀ (slot core : Nat) (s : State), slot < 30 → (s.hole slot).busy = false → (s.hole slot).done = false →
      s.dispatchCheck (s.hole slot) = none → s.serverOf ((s.hole slot).num 2 2) = some core →
    Gives (.phGo slot) s fun t => (t.hole slot).busy = true ∧ (t.hole slot).server = BitVec.ofNat 8 core
      ∧ (t.core core).queue = (s.core core).queue ++ [slot] ∧ (t.core core).pend.getLsbD 0 = true
      ∧ t = { s with firm := { s.firm with holes := t.firm.holes, cores := t.firm.cores } }
      ∧ (∀ k, k ≠ slot → t.hole k = s.hole k) ∧ (∀ k, k ≠ core → t.core k = s.core k))
  ∧ (∀ (core slot : Nat) (r : List Nat) (s : State), (s.core core).queue = slot :: r → s.coreUp core = true → (s.core core).begun = none →
    Gives (.requestBegin core) s fun t => t.core core = { s.core core with queue := r, begun := some slot }
      ∧ t = { s with firm := { s.firm with cores := t.firm.cores } } ∧ (∀ k, k ≠ core → t.core k = s.core k))
  ∧ (∀ (slot : Nat) (s : State), slot < 32 →
    Gives (.phDoneClear slot) s fun t => t = s.modHole slot fun h => { h with done := false })
  ∧ (∀ (slot : Nat) (e : Event) (r : List Event) (s : State), (slot = 30 ∨ slot = 31) → s.firm.events = e :: r →
    Gives (.eventPost slot) s fun t =>
      if (s.hole slot).done then t = s
      else t.firm.events = r ∧ t.firm.lostEvents = false ∧ (t.hole slot).done = true
        ∧ (t.hole slot).get 2 2 = leBytes 2 e.opcode ∧ (t.hole slot).get 16 8 = leBytes 8 e.time
        ∧ (t.hole slot).get 6 2 = leBytes 2 (2 + if s.firm.lostEvents then 4 else 0)
        ∧ t = { s with firm := { s.firm with holes := t.firm.holes, events := r, lostEvents := false }, hosts := t.hosts }
        ∧ (∀ k, k ≠ slot → t.hole k = s.hole k))

/-- R170, R164: the result of each scalar operation. -/
def Obligations.ScalarOperationsGiveTheirResults : Prop :=
  ∀ (i : Instr) (s : State) (x y n d : Nat) (cmd : SlotCmd) (rd : BitVec 6) (v : TWord) (b : Bundle) (outs : List SlotOut),
    scalarResult (s.ctx (s.phys x y) n) (s.tile (s.phys x y)).word i = some (.tile x y n, cmd, d, rd, v) → Issues s x y n cmd b outs →
    Gives i s fun t =>
      let c := s.ctx (s.phys x y) n
      (t.ctx (s.phys x y) n).pos = c.pos + 1
        ∧ (d = 0 → (∀ q ∈ c.queue, q.due ≤ c.pos → q.produced = true) → (t.ctx (s.phys x y) n).sr rd.toNat = v)
        ∧ (1 ≤ d → { due := c.pos + d, issued := c.pos, produced := true, eff := .sreg rd.toNat v } ∈ (t.ctx (s.phys x y) n).queue)

/-- R164 to R168: the state after a bundle, and its frame. -/
def Obligations.BundleCommitsItsDueResults : Prop :=
  ∀ (i : Instr) (s : State) (x y n : Nat) (cmd : SlotCmd) (b : Bundle) (outs : List SlotOut),
    slotOf i = some (.tile x y n, cmd) → Issues s x y n cmd b outs → (outs.map (·.ctl)).head? ≠ some .finish → (outs.map (·.ctl)).head? ≠ some .brk →
    Gives i s fun t =>
      let p := s.phys x y
      let c := s.ctx p n
      let l := commitsNow c outs
      (t.ctx p n).pos = c.pos + 1
        ∧ (t.ctx p n).queue = (c.issued outs).queue.drop l.length ∧ (∀ q ∈ l, q.due ≤ c.pos ∧ q.produced = true)
        ∧ (∀ r, (t.ctx p n).sr r = regAfter r l (c.sr r)) ∧ (∀ r, (t.ctx p n).vreg r = vregAfter r l (c.vreg r))
        ∧ (∀ r, (t.ctx p n).pr r = if r = 0 then BitVec.allOnes 64 else predAfter r l (c.pr r))
        ∧ (∀ d, (t.ctx p n).desc d = descAfter d l (c.desc d))
        ∧ (t.ctx p n).handler = handlerAfter l c.handler ∧ (t.ctx p n).trap = c.trap
        ∧ (t.ctx p n).t = (outs.findSome? (·.tallies)).getD c.t
        ∧ (∀ a, (t.tile p).word a = wordAfter a l ((s.tile p).word a))
        ∧ (∀ o ∈ outs, (∀ a ∈ o.adv, ∃ q ∈ (c.issued outs).queue, q.due = c.pos ∧ q.produced = true ∧ q.eff = .cursor a.1 a.2)
            ∧ ∀ a ∈ o.marks, ∃ q ∈ (c.issued outs).queue, q.due = c.pos ∧ q.produced = true ∧ q.eff = .pend a)
        ∧ (∀ u a, u ≠ p → (t.tile u).word a = (s.tile u).word a) ∧ (∀ u v, u ≠ p ∨ v ≠ n → t.ctx u v = s.ctx u v)
        ∧ SameOutside s t

/-- R172 to R175: the result of each vector operation. -/
def Obligations.VectorOperationsGiveTheirResults : Prop :=
  (∀ (i : Instr) (s : State) (x y n d : Nat) (cmd : SlotCmd) (pd : Bool) (vd : BitVec 5) (pr : BitVec 3) (pz : Bool) (f : Nat → BitVec 32)
      (b : Bundle) (outs : List SlotOut),
    vectorResult (s.ctx (s.phys x y) n) i = some (.tile x y n, cmd, d, pd, vd, pr, pz, f) → Issues s x y n cmd b outs →
    (outs.map (·.ctl)).head? ≠ some .finish → (outs.map (·.ctl)).head? ≠ some .brk →
    Gives i s fun t =>
      let c := s.ctx (s.phys x y) n
      (∃ ls, { due := c.pos + d, issued := c.pos, produced := pd, eff := .lanes vd.toNat ls } ∈ (t.ctx (s.phys x y) n).queue
          ∧ ∀ (old : List (BitVec 32)) (l : Nat), old.length = 64 → l < 64 →
            (putLanes old ls).getD l 0 = if c.prBit pr.toNat l then f l else if pz then 0 else old.getD l 0)
        ∧ (pd = false → (s.tile (s.phys x y)).fnQueue ++ [(n, c.pos)] = (t.tile (s.phys x y)).fnQueue))
  ∧ (∀ (i : Instr) (s : State) (x y n : Nat) (cmd : SlotCmd) (pd pr : BitVec 3) (f : Nat → Bool) (b : Bundle) (outs : List SlotOut),
    vectorCompare (s.ctx (s.phys x y) n) i = some (.tile x y n, cmd, pd, pr, f) → Issues s x y n cmd b outs →
    (outs.map (·.ctl)).head? ≠ some .finish → (outs.map (·.ctl)).head? ≠ some .brk →
    Gives i s fun t =>
      let c := s.ctx (s.phys x y) n
      ∃ v : BitVec 64, { due := c.pos + 1, issued := c.pos, produced := true, eff := .pred pd.toNat v } ∈ (t.ctx (s.phys x y) n).queue
        ∧ ∀ l, l < 64 → v.getLsbD l = (c.prBit pr.toNat l && f l))

/-- R176: what each matrix operation leaves in the tallies. -/
def Obligations.MatrixOperationsChangeTheTallies : Prop :=
  ∀ (i : Instr) (s : State) (x y n : Nat) (cmd : SlotCmd) (b : Bundle) (outs : List SlotOut), Issues s x y n cmd b outs →
    (outs.map (·.ctl)).head? ≠ some .finish → (outs.map (·.ctl)).head? ≠ some .brk →
    let p := s.phys x y
    let c := s.ctx p n
    let e := s.env p n
    (∀ (da db : BitVec 4) (clear : Option Int) (fa fb : ElemFmt) (blocks len : Nat),
      elemOf (c.desc da.toNat).fmt = some fa → elemOf (c.desc db.toNat).fmt = some fb → pairShape fa fb = some (blocks, len) →
      matrixStep c ((match c.exch.combined with | some a => some a | none => e.prepass (c.desc da.toNat) (c.desc db.toNat) fa fb len blocks).getD 0) i
          = some (.tile x y n, cmd, da, db, clear) →
      Gives i s fun t =>
        (∀ u v, u < 6 → v < 8 →
          (t.ctx p n).tl (8 * u + v) = stepLane e c (c.desc da.toNat) (c.desc db.toNat) fa fb blocks len u v clear)
        ∧ (∀ d, d = da.toNat ∨ d = db.toNat → descFree c d → (t.ctx p n).desc d = (c.desc d).withCursor ((c.desc d).cursor + 1)))
    ∧ (∀ a : BitVec 11, i = .tclr (.tile x y n) a → cmd = .m { op := .tclr, arg := a } →
      Gives i s fun t => ∀ k, (t.ctx p n).tl k = if k < 48 then Tally.clear a.toInt else c.tl k)
    ∧ (∀ (da : BitVec 4) (k : BitVec 6), i = .tget (.tile x y n) da k → cmd = .m { op := .tget, da, arg := k.setWidth 11 } →
      Gives i s fun t =>
        (∀ u, (t.ctx p n).tl u = if u = k.toNat then
            (c.tl u).add (tallyOfWire ((List.range (wireLength (e.bytesNat (c.desc da.toNat).next 4))).map fun j => e.byte ((c.desc da.toNat).next + j)))
          else c.tl u)
        ∧ (descFree c da.toNat → (t.ctx p n).desc da.toNat = (c.desc da.toNat).withCursor ((c.desc da.toNat).cursor + 1)))

/-- R170 and R177: the effects that go through the commit queue. -/
def Obligations.StoresAndMovesQueueTheirEffects : Prop :=
  ∀ (i : Instr) (s : State) (x y n : Nat) (cmd : SlotCmd) (b : Bundle) (outs : List SlotOut), Issues s x y n cmd b outs →
    (outs.map (·.ctl)).head? ≠ some .finish → (outs.map (·.ctl)).head? ≠ some .brk →
    let p := s.phys x y
    let c := s.ctx p n
    (∀ (d : Nat) (eff : Effect) (dk : Option (BitVec 4)), queuedEffect c (s.env p n) i = some (.tile x y n, cmd, d, eff, dk) →
      Gives i s fun t =>
        (1 ≤ d → { due := c.pos + d, issued := c.pos, produced := true, eff } ∈ (t.ctx p n).queue)
        ∧ (d = 0 → (∀ q ∈ c.queue, q.due ≤ c.pos → q.produced = true) →
            (∀ k v, eff = .pred k v → k ≠ 0 → (t.ctx p n).pr k = v) ∧ (∀ h, eff = .handler h → (t.ctx p n).handler = h))
        ∧ ∀ k, dk = some k → descFree c k.toNat → (t.ctx p n).desc k.toNat = (c.desc k.toNat).withCursor ((c.desc k.toNat).cursor + 1))
    ∧ (∀ (f : ElemFmt) (dk : BitVec 4) (ws : List StoreWrite) (adv : Bool), blockEffect c f i = some (.tile x y n, cmd, dk, ws, adv) →
        elemOf (c.desc dk.toNat).fmt = some f →
      Gives i s fun t =>
        { due := c.pos + 3, issued := c.pos, produced := true, eff := .store ws } ∈ (t.ctx p n).queue
        ∧ (descFree c dk.toNat → (∀ a ∈ outs.flatMap (·.adv), a.1 ≠ dk.toNat ∨ adv = true) →
            (t.ctx p n).desc dk.toNat = if adv then (c.desc dk.toNat).withCursor ((c.desc dk.toNat).cursor + 1) else c.desc dk.toNat))

/-- R169, R185, R188 to R190, R195: where a context goes on. -/
def Obligations.ControlGoesWhereTheOperationSays : Prop :=
  ∀ (i : Instr) (s : State) (x y n : Nat) (cmd : SlotCmd) (b : Bundle) (outs : List SlotOut),
    slotOf i = some (.tile x y n, cmd) → Issues s x y n cmd b outs → (outs.map (·.ctl)).head? ≠ some .finish → (outs.map (·.ctl)).head? ≠ some .brk →
    Gives i s fun t =>
      let c := s.ctx (s.phys x y) n
      let c' := t.ctx (s.phys x y) n
      (∀ tgt, controlOf c i = some (.tile x y n, cmd, .branch tgt) → c.rep = none → c'.pc = c.pc + 16 ∧ c'.shadow = some tgt ∧ c'.rep = none)
        ∧ (∀ k isX, controlOf c i = some (.tile x y n, cmd, .rep k isX) → c.rep = none → c.shadow = none →
            c'.pc = (if k = 0 then c.pc + 32 else c.pc + 16) ∧ c'.rep = (if k = 0 then none else some { left := k, isX }))
        ∧ (∀ a, controlOf c i = some (.tile x y n, cmd, .wait a) →
            standsAfter c c' ∧ c'.waiting = if ((s.tile (s.phys x y)).word a).tag = .pending then some a else none)
        ∧ (controlOf c i = some (.tile x y n, cmd, .step) → standsAfter c c' ∧ c'.atStep = true)
        ∧ (controlOf c i = some (.tile x y n, cmd, .rte) →
            c.inHandler = true ∧ c'.pc = c.trap.pc ∧ c'.inHandler = false ∧ c'.shadow = c.trap.target.map some
              ∧ c'.rep = if c.trap.count = 0 then none else some { left := c.trap.count, isX := c.trap.isX })
        ∧ ((outs.map (·.ctl)).head? = some .none → standsAfter c c' ∧ c'.waiting = none ∧ c'.atStep = false)

/-- R192, R193: a trap. -/
def Obligations.TrapHasNoOtherEffect : Prop :=
  ∀ (i : Instr) (s : State) (x y n k : Nat) (cmd : SlotCmd) (tc : TrapCond),
    let p := s.phys x y
    let c := s.ctx p n
    slotOf i = some (.tile x y n, cmd) → s.chosen p = some n → s.mesh.serves p = some (x, y) → evalBundle (s.env p n) c = .trap k tc →
    ((s.env p n).anyCommand = true ∨ (s.env p n).fetch.holds cmd = true) →
    (∀ h, c.handler = some h → c.inHandler = false →
      Gives i s fun t =>
        t.ctx p n = { c with trap := savedTrap c k tc c.pc, rep := none, shadow := none, inHandler := true, pc := h }
          ∧ (∀ u v, u ≠ p ∨ v ≠ n → t.ctx u v = s.ctx u v) ∧ (∀ u a, (t.tile u).word a = (s.tile u).word a) ∧ SameOutside s t)
    ∧ ((c.handler = none ∨ c.inHandler = true) → othersRun s p n c.job →
      Gives i s fun t =>
        t.ctx p n = { c with trap := savedTrap c k tc c.pc, rep := none, shadow := none, stopped := true }
          ∧ (∀ u v, u ≠ p ∨ v ≠ n → t.ctx u v = s.ctx u v) ∧ (∀ u a, (t.tile u).word a = (s.tile u).word a) ∧ SameOutside s t
          ∧ (s.firm.events.length < 256 → ∃ e, t.firm.events = s.firm.events ++ [e] ∧ e.opcode = 0x0381 ∧ e.payload.take 1 = [0]))

/-- R170, R192: END and BRK. -/
def Obligations.EndAndBreakEndTheirContext : Prop :=
  (∀ (s : State) (x y n : Nat) (b : Bundle) (outs : List SlotOut), Issues s x y n (.s { op := .endOp }) b outs → b.isVfn = true →
    Gives (.endOp (.tile x y n)) s fun t =>
      let p := s.phys x y
      (t.ctx p n).ending = true ∧ (t.ctx p n).assigned = (s.ctx p n).assigned ∧ (t.ctx p n).queue = ((s.ctx p n).issued outs).queue
        ∧ (t.ctx p n).canIssue = false ∧ ∀ u a, (t.tile u).word a = (s.tile u).word a)
  ∧ (∀ (s : State) (x y n : Nat) (b : Bundle) (outs : List SlotOut), Issues s x y n (.s { op := .endOp }) b outs → b.isVfn = false →
    Gives (.endOp (.tile x y n)) s fun t =>
      let p := s.phys x y
      let c := s.ctx p n
      let l := (c.issued outs).queue
      (t.ctx p n).assigned = false ∧ (t.ctx p n).queue = [] ∧ (∀ e ∈ (t.tile p).fnQueue, e.1 ≠ n)
        ∧ (∀ r, (t.ctx p n).sr r = regAfter r l (c.sr r)) ∧ (∀ r, (t.ctx p n).vreg r = vregAfter r l (c.vreg r))
        ∧ (∀ a, (t.tile p).word a = wordAfter a l ((s.tile p).word a))
        ∧ (∀ u a, u ≠ p → (t.tile u).word a = (s.tile u).word a)
        ∧ (¬ othersRun s p n c.job → ∀ j, fget t.jobs c.job = some j → j.live = false)
        ∧ (othersRun s p n c.job → (fget t.jobs c.job).map (·.live) = (fget s.jobs c.job).map (·.live)))
  ∧ (∀ (s : State) (x y n : Nat) (imm : BitVec 14) (b : Bundle) (outs : List SlotOut), Issues s x y n (.s { op := .brk, imm }) b outs →
    Gives (.brk (.tile x y n) imm) s fun t =>
      let p := s.phys x y
      let c := s.ctx p n
      let l := commitsNow c outs
      let h := handlerAfter l c.handler
      let next := match c.shadow with | some tgt => tgt.getD (c.pc + 16) | none => c.pc + 16
      (∀ a, (t.tile p).word a = wordAfter a l ((s.tile p).word a))
        ∧ (∀ r, (t.ctx p n).sr r = regAfter r l (c.sr r))
        ∧ (c.rep = none → ∀ a, h = some a → c.inHandler = false →
            (t.ctx p n).pc = a ∧ (t.ctx p n).inHandler = true ∧ (t.ctx p n).stopped = false
              ∧ (t.ctx p n).trap = { number := 12, slot := 0, index := 0, pc := next, count := 0, isX := false, value := BitVec.ofNat 64 imm.toNat, target := none })
        ∧ (c.rep = none → (h = none ∨ c.inHandler = true) → othersRun s p n c.job →
            (t.ctx p n).stopped = true ∧ (t.ctx p n).trap.number = 12 ∧ (t.ctx p n).trap.pc = next))

/-- R179, R208, R244: what PUT, GET and ASTREAM start. -/
def Obligations.RemoteOperationsStartTheirTraffic : Prop :=
  (∀ (s : State) (x y n : Nat) (dk : BitVec 4) (sr : BitVec 6) (k : BitVec 8) (b : Bundle) (outs : List SlotOut),
    Issues s x y n (.x { op := .put, dk, sr, n := k }) b outs → (outs.map (·.ctl)).head? ≠ some .finish → (outs.map (·.ctl)).head? ≠ some .brk →
    Gives (.put (.tile x y n) dk sr k) s fun t =>
      let p := s.phys x y
      let c := s.ctx p n
      let d := c.desc dk.toNat
      let ws := (List.range (4 * (k.toNat + 1))).map fun i => (s.tile p).word ((c.sr sr.toNat).data.toNat + 8 * i)
      ∃ ps, (t.tile p).outq = (s.tile p).outq ++ ps
        ∧ ps.flatMap (·.payload) = ws.map (fun w => if w.tag = .pending then { tag := .empty, data := 0 } else w)
        ∧ ∀ i q, ps[i]? = some q → q.kind = 0 ∧ q.dstX = d.dstX ∧ q.dstY = d.dstY ∧ q.srcX = x ∧ q.srcY = y
            ∧ q.addr = d.next + 2016 * i ∧ q.units ≤ 63 ∧ q.payload.length = 4 * q.units ∧ q.fw = false ∧ q.guest = (s.owner x y).getD 0
            ∧ q.cls = if (ws.map (·.tag)).head? = some .tally then 1 else 2)
  ∧ (∀ (s : State) (x y n : Nat) (dk : BitVec 4) (sr : BitVec 6) (k : BitVec 8) (b : Bundle) (outs : List SlotOut),
    Issues s x y n (.x { op := .get, dk, sr, n := k }) b outs → (outs.map (·.ctl)).head? ≠ some .finish → (outs.map (·.ctl)).head? ≠ some .brk →
    Gives (.get (.tile x y n) dk sr k) s fun t =>
      let p := s.phys x y
      let c := s.ctx p n
      let d := c.desc dk.toNat
      (∃ ps, (t.tile p).outq = (s.tile p).outq ++ ps ∧ (ps.map (·.units)).sum = k.toNat + 1
        ∧ ∀ i q, ps[i]? = some q → q.kind = 1 ∧ q.dstX = d.dstX ∧ q.dstY = d.dstY ∧ q.addr = d.next + 2016 * i
            ∧ q.retAddr = (c.sr sr.toNat).data.toNat + 2016 * i ∧ q.units ≤ 63 ∧ q.payload = [])
        ∧ ∀ i, i < 4 * (k.toNat + 1) →
            let a := (c.sr sr.toNat).data.toNat + 8 * i
            (t.tile p).word a
              = { wordAfter a (c.queue.takeWhile fun q => decide (q.due < c.pos) || (decide (q.due = c.pos) && q.produced)) ((s.tile p).word a) with
                  tag := .pending })
  ∧ (∀ (s : State) (x y n : Nat) (dk : BitVec 4) (sr : BitVec 6) (b : Bundle) (outs : List SlotOut),
    Issues s x y n (.x { op := .astream, dk, sr }) b outs → (outs.map (·.ctl)).head? ≠ some .finish → (outs.map (·.ctl)).head? ≠ some .brk →
    Gives (.astream (.tile x y n) dk sr) s fun t =>
      let p := s.phys x y
      let c := s.ctx p n
      let d := c.desc dk.toNat
      ∃ ledger gen width, s.handleCheck (s.owner x y) (c.sr sr.toNat).data = some (ledger, gen, width)
        ∧ (t.tile p).streams = (s.tile p).streams ++
            [{ ctx := n, ledger, generation := gen, append := d.scaleStep == 1, block := d.cursor, pair := d.step, fmt := d.fmt, width,
               base := d.base, scaleBase := d.scaleBase, stride := d.stride, scaleStride := d.scaleStride }]
        ∧ (t.ctx p n).streaming = true)

/-- R197, R198: a firmware core's bundle. -/
def Obligations.CoreInstructionsHaveTheirEffect : Prop :=
  (∀ (i : Instr) (s : State) (k d : Nat) (cmd : SlotCmd) (rd : BitVec 6) (v : TWord) (b : Bundle) (outs : List SlotOut),
    scalarResult (s.core k).ctx (fun a => s.coreWord k a) i = some (.core k, cmd, d, rd, v) → CoreIssues s k cmd b outs →
    Gives i s fun t =>
      let c := (s.core k).ctx
      (d = 0 → (t.core k).ctx.sr rd.toNat = v)
        ∧ (1 ≤ d → { due := c.pos + d, issued := c.pos, produced := true, eff := .sreg rd.toNat v } ∈ (t.core k).ctx.queue))
  ∧ (∀ (s : State) (k : Nat) (rd ra rb : BitVec 6) (imm : BitVec 14) (b : Bundle) (outs : List SlotOut),
      let c := (s.core k).ctx
      let a := ((c.sr ra.toNat).data.toNat + 4 * imm.toInt).toNat
      (CoreIssues s k (.s { op := .sld4, rd, ra, imm }) b outs → Gives (.sld4 (.core k) rd ra imm) s fun t =>
        { due := c.pos + 3, issued := c.pos, produced := true,
          eff := .sreg rd.toNat (int (BitVec.ofNat 64 (if a % 8 = 4 then (s.coreWord k (a / 8 * 8)).data.toNat / 2 ^ 32
            else (s.coreWord k (a / 8 * 8)).data.toNat % 2 ^ 32))) } ∈ (t.core k).ctx.queue)
      ∧ (CoreIssues s k (.s { op := .sst4, ra, rb, imm }) b outs → Gives (.sst4 (.core k) ra rb imm) s fun t =>
        { due := c.pos + 1, issued := c.pos, produced := true, eff := .store4 a ((c.sr rb.toNat).data.setWidth 32) } ∈ (t.core k).ctx.queue)
      ∧ (CoreIssues s k (.s { op := .sst, ra, rb, imm }) b outs → Gives (.sst (.core k) ra rb imm) s fun t =>
        { due := c.pos + 1, issued := c.pos, produced := true,
          eff := .store [⟨((c.sr ra.toNat).data.toNat + 8 * imm.toInt).toNat, leBytes 8 (c.sr rb.toNat).data.toNat, (c.sr rb.toNat).tag⟩] }
            ∈ (t.core k).ctx.queue))
  ∧ (∀ (s : State) (k : Nat) (b : Bundle) (outs : List SlotOut),
      (CoreIssues s k (.s { op := .wfi }) b outs → Gives (.wfi (.core k)) s fun t =>
        (s.core k).ctx.queue = [] → ((t.core k).asleep = true ↔ (t.core k).pend &&& ~~~(t.core k).act &&& (t.core k).enable = 0))
      ∧ (CoreIssues s k (.s { op := .rte }) b outs → Gives (.rte (.core k)) s fun t =>
        (s.core k).mask = true ∧ (t.core k).ctx.pc = (s.core k).epc.toNat ∧ (t.core k).mask = false)
      ∧ (CoreIssues s k (.s { op := .endOp }) b outs → Gives (.endOp (.core k)) s fun t =>
        (t.core k).ctx.stopped = true ∧ (t.core k).ctx.queue = []))
  ∧ (∀ (i : Instr) (s : State) (k j : Nat) (cmd : SlotCmd) (tc : TrapCond), slotOf i = some (.core k, cmd) → s.coreReady k = true → (s.core k).run = .running →
      evalBundle (s.coreEnv k) { (s.core k).ctx with inHandler := (s.core k).mask } = .trap j tc →
      ((s.coreEnv k).anyCommand = true ∨ (s.coreEnv k).fetch.holds cmd = true) → s.firm.mstate ≠ .auxOnly →
      Gives i s fun t => (t.core k).run = .restarting ∧ (t.core k).ctx = {} ∧ (t.core k).queue = [] ∧ (t.core k).begun = none
        ∧ (s.firm.events.length < 256 → t.firm.events.map (·.opcode) = s.firm.events.map (·.opcode) ++ [0x0180]))

/-- R214, R219, R222: the next packet of a port moves on. -/
def Obligations.PacketHopMovesTheChosenPacket : Prop :=
  (∀ (p : Nat) (pre post : List Packet) (k : Packet) (s : State), s.power.tclkStopped = false → (s.tile p).outq = pre ++ k :: post →
    let held := fun j : Packet => (pktAcked j = true ∧ 32 ≤ fgetD 0 (s.tile p).unacked j.cls)
      ∨ (s.router p).hasRoom (bufKey .loc j.cls (pktReply j)) j = false
    let dst := fun j : Packet => logicalIndex j.dstX j.dstY
    (∀ j ∈ pre, held j ∧ j.cls ≠ k.cls) → ¬ held k →
    (k.kind = 0 → (∀ j ∈ pre, j.kind = 0 → j.ctx = k.ctx → dst j ≠ dst k) ∧ ∀ f ∈ (s.tile p).flying, f.1 = dst k → f.2.2 = some k.ctx → f.2.1 = k.cls) →
    Gives (.packetHop p .loc) s fun t =>
      t = { s with tiles := t.tiles, routers := t.routers }
      ∧ t.tile p = { s.tile p with
          outq := pre ++ post,
          unacked := if pktAcked k then fset (s.tile p).unacked k.cls (fgetD 0 (s.tile p).unacked k.cls + 1) else (s.tile p).unacked,
          flying := if pktAcked k then (s.tile p).flying ++ [(dst k, k.cls, if k.kind = 0 then some k.ctx else none)] else (s.tile p).flying }
      ∧ (∀ q, q ≠ p → t.tile q = s.tile q ∧ t.router q = s.router q)
      ∧ t.router p = (s.router p).push (bufKey .loc k.cls (pktReply k)) k)
  ∧ (∀ (p x y cls : Nat) (port : Dir) (c : Contender) (aged : Bool) (s : State), s.power.tclkStopped = false → port ≠ .loc →
      s.mesh.baseLogical p = some (x, y) → Serves s p x y port cls →
      Sends s.mesh.ageLimit.toNat (fgetD 0 (s.router p).rr (dirIndex port * 4 + cls)) (s.contenders p x y port cls) c aged →
    let left := served s p port cls c
    (11 ≤ c.pkt.kind → ∀ nx ny, neighbour x y port = some (nx, ny) → Gives (.packetHop p port) s fun t =>
      let hi := clusterOf (max p (s.mesh.basePhys nx ny))
      t.routers = s.routers ∧ (t.cluster hi).replays = satInc (s.cluster hi).replays)
    ∧ (c.pkt.kind ≤ 10 → Gives (.packetHop p port) s fun t =>
      t = { s with routers := t.routers, clusters := t.clusters }
      ∧ (∀ k, (t.cluster k).ageWins = if aged ∧ k = clusterOf p then satInc (s.cluster k).ageWins else (s.cluster k).ageWins)
      ∧ match (if c.pkt.kind = 6 ∨ c.pkt.kind = 7 then none else s.movingCluster c.pkt.dstX c.pkt.dstY) with
        | some m => (t.cluster m).parked = (s.cluster m).parked ++ [c.pkt] ∧ t.router p = left ∧ ∀ q, q ≠ p → t.router q = s.router q
        | none => ∀ nx ny, neighbour x y port = some (nx, ny) → s.mesh.basePhys nx ny ≠ p →
            t.router p = left
            ∧ t.router (s.mesh.basePhys nx ny) = (s.router (s.mesh.basePhys nx ny)).push (bufKey (opposite port) cls (pktReply c.pkt)) c.pkt
            ∧ ∀ q, q ≠ p → q ≠ s.mesh.basePhys nx ny → t.router q = s.router q))

/-- R205, R215, R218: what the arrival of a packet does. -/
def Obligations.ArrivingPacketsActByKind : Prop :=
  ∀ (i : Instr) (p kind cls : Nat) (c : Contender) (aged : Bool) (s : State), arrivalOf i = some (p, kind) → Arrives s p kind cls c aged →
    let k := c.pkt
    let routed := fun t : State => t.router p = served s p .loc cls c ∧ (∀ q, q ≠ p → t.router q = s.router q)
      ∧ ∀ q, (t.cluster q).ageWins = if aged ∧ q = clusterOf p then satInc (s.cluster q).ageWins else (s.cluster q).ageWins
    (∀ x y, s.mesh.serves p = some (x, y) → s.movingCluster k.dstX k.dstY = none → s.isolated p k = false →
      Gives i s fun t => ∃ sent, Delivered s t p x y k sent
        ∧ ((kind = 1 → ∀ j, j < 4 * k.units → (s.tile p).bad (k.addr + 8 * j) = false ∧ (k.addr + 8 * j) / 8 ∉ (s.tile p).soft) →
           (kind = 5 → (s.modCtx p k.ctx fun c => { c with exch := { c.exch with combined := some ((tmaxAnchor k).getD 0) } }).chosen p ≠ some k.ctx) →
            Counted s t p x y k sent ∧ routed t ∧ (∀ q, q ≠ p → t.tile q = s.tile q)
            ∧ t = { s with tiles := t.tiles, routers := t.routers, clusters := t.clusters, net := t.net } ∧ (kind ≠ 4 → kind ≠ 5 → t.net = s.net)))
    ∧ (∀ x y, s.mesh.serves p = some (x, y) → s.movingCluster k.dstX k.dstY = none → s.isolated p k = true →
      Gives i s fun t => Counted s t p x y k (if kind = 1 then [getReply k 2 (List.replicate (4 * k.units) {})] else [])
        ∧ (t.cluster (clusterOf p)).isolation = satInc (s.cluster (clusterOf p)).isolation ∧ routed t
        ∧ t.ctx p = s.ctx p ∧ (t.tile p).words = (s.tile p).words ∧ (∀ q, q ≠ p → t.tile q = s.tile q)
        ∧ t = { s with tiles := t.tiles, routers := t.routers, clusters := t.clusters })
    ∧ (∀ m, s.movingCluster k.dstX k.dstY = some m →
      Gives i s fun t => routed t
        ∧ (∀ q, t.cluster q = { s.cluster q with ageWins := (t.cluster q).ageWins, parked := if q = m then (s.cluster q).parked ++ [k] else (s.cluster q).parked })
        ∧ t = { s with routers := t.routers, clusters := t.clusters })

/-- R201, R215, R221. -/
def Obligations.MeshTimersAndReplays : Prop :=
  (∀ (p src x y : Nat) (ns : List Nat) (s : State), s.power.tclkStopped = false → s.mesh.serves p = some (x, y) →
      fget (s.tile p).toAck src = some ns → ns.sum ≠ 0 →
    Gives (.ackTimerExpire p src) s fun t => fget (t.tile p).toAck src = none
      ∧ (∀ o, o ≠ src → fget (t.tile p).toAck o = fget (s.tile p).toAck o)
      ∧ t.tile p = { s.tile p with toAck := (t.tile p).toAck, outq := (s.tile p).outq ++ [stamped s x y
          { dstX := src % 64, dstY := src / 64, srcX := x, srcY := y, kind := 3, cls := 0, operand := BitVec.ofNat 32 (ns.getD 0 0 + 256 * ns.getD 1 0 + 65536 * ns.getD 2 0) }] }
      ∧ (∀ q, q ≠ p → t.tile q = s.tile q) ∧ t = { s with tiles := t.tiles })
  ∧ (∀ s : State, s.power.tclkStopped = false →
    Gives .ageTick s fun t => t.mesh = { s.mesh with ticks := s.mesh.ticks + 1 }
      ∧ (∀ p key, (t.router p).buf key = ((s.router p).buf key).map fun k => { k with age := min 1023 (k.age + 1) })
      ∧ (∀ p slot, fgetD 0 (t.router p).used slot = if (s.mesh.ticks + 1) % 4 = 0 then 0 else fgetD 0 (s.router p).used slot)
      ∧ (∀ p, (t.router p).rr = (s.router p).rr) ∧ t = { s with mesh := t.mesh, routers := t.routers })
  ∧ (∀ (p x y nx ny flit : Nat) (side : Dir) (s : State), s.power.tclkStopped = false → s.mesh.baseLogical p = some (x, y) →
      neighbour x y side = some (nx, ny) →
    let q := s.mesh.basePhys nx ny
    let hi := max p q
    let key := linkKey p q
    let dir := bit (decide (q < p))
    let l := fgetD {} s.linkErrs key
    let times := l.times.filter (fun t => s.firm.aon < t + 25000) ++ [s.firm.aon]
    let fails := match fget l.fails dir with | some (f, n) => if f = flit then n + 1 else 1 | none => 1
    Gives (.flitCrcFail p side flit) s fun t =>
      fget t.linkErrs key = some { fails := fset l.fails dir (flit, fails), times, faulted := l.faulted || decide (64 ≤ times.length) || decide (5 ≤ fails) }
      ∧ (t.cluster (clusterOf hi)).replays = satInc (s.cluster (clusterOf hi)).replays
      ∧ (∀ q a, (t.tile q).word a = (s.tile q).word a)
      ∧ (∀ j x, fget s.jobs j = some x → x.live = true → x.timed = true → ∃ y, fget t.jobs j = some y ∧ y.broken = true)
      ∧ (if (64 ≤ times.length ∨ 5 ≤ fails) ∧ l.faulted = false then
          (t.cluster (clusterOf hi)).linkFaults = satInc (s.cluster (clusterOf hi)).linkFaults
          ∧ (t.cluster (clusterOf hi)).queue =
              if s.mesh.isRetired hi = true ∨ (∃ m, (s.cluster (clusterOf hi)).moving = some m ∧ m.what.tile = hi)
                ∨ (∃ r ∈ (s.cluster (clusterOf hi)).queue, r.tile = hi)
              then (s.cluster (clusterOf hi)).queue else (s.cluster (clusterOf hi)).queue ++ [{ tile := hi, cause := 3 }]
        else (t.cluster (clusterOf hi)).linkFaults = (s.cluster (clusterOf hi)).linkFaults
          ∧ (t.cluster (clusterOf hi)).queue = (s.cluster (clusterOf hi)).queue ∧ t.tiles = s.tiles)
      ∧ t = { s with linkErrs := t.linkErrs, clusters := t.clusters, jobs := t.jobs, ledgers := t.ledgers, tiles := t.tiles })

/-- R127, R135 and step 2 of R145. -/
def Obligations.ResultsAndRestPoints : Prop :=
  (∀ (p n pos : Nat) (rest : List (Nat × Nat)) (s : State), s.power.tclkStopped = false → (s.tile p).fnQueue = (n, pos) :: rest →
    let q := (s.ctx p n).queue.map fun q => if q.issued = pos then { q with produced := true } else q
    let due := fun q : Commit => decide (q.due < (s.ctx p n).pos) && q.produced
    ((s.ctx p n).ending = false ∨ (∃ e ∈ q, e.produced = false) → Gives (.resultProduced p) s fun t => (t.tile p).fnQueue = rest
      ∧ t.ctx p n = { (q.takeWhile due).foldl (fun c e => c.apply e.eff) (s.ctx p n) with queue := q.dropWhile due }
      ∧ (∀ m, m ≠ n → t.ctx p m = s.ctx p m) ∧ (∀ m, m ≠ p → t.ctx m = s.ctx m))
    ∧ ((s.ctx p n).ending = true → (∀ e ∈ q, e.produced = true) → Gives (.resultProduced p) s fun t =>
      (t.ctx p n).assigned = false ∧ (t.ctx p n).queue = [] ∧ (t.tile p).fnQueue = rest.filter (·.1 ≠ n)
        ∧ (∀ r, (t.ctx p n).sr r = (q.foldl (fun c e => c.apply e.eff) (s.ctx p n)).sr r)
        ∧ ∀ v, (t.ctx p n).vreg v = (q.foldl (fun c e => c.apply e.eff) (s.ctx p n)).vreg v))
  ∧ (∀ (p : Nat) (s : State), p < 4608 → s.halted p = true → (s.tile p).atRest = false → s.power.tclkStopped = false → (s.tile p).fnQueue = [] →
      (∀ e ∈ (s.tile p).ctxs, e.2.assigned = true → e.2.inRepx = false) → (∀ j x, fget s.jobs j = some x → x.ending = none) → s.mesh.closing = [] →
    ((∀ c, c < 16 → ∀ m, (s.cluster c).moving = some m → m.record ≠ none ∨ ∃ h ∈ m.halted, h ≠ p ∧ (s.tile h).atRest = false) →
      Gives (.restPointReached p) s fun t => t.tile p = { s.tile p with atRest := true } ∧ (∀ q, q ≠ p → t.tile q = s.tile q)
        ∧ t = { s with tiles := t.tiles })
    ∧ (∀ (c : Nat) (m : Moving), c < 16 → (s.cluster c).moving = some m → m.record = none → m.moves ≠ [] → s.coreUp (innkeeper c) = true →
        (∀ h ∈ m.halted, h = p ∨ (s.tile h).atRest = true) → (∀ k, k ≠ c → (s.cluster k).moving = none) → (s.clusters.map (·.1)).Nodup →
      ((∃ h ∈ s.lacking m, h ≠ p ∧ (s.tile h).atRest = false) → Gives (.restPointReached p) s fun t =>
        (t.cluster c).moving = some { m with halted := m.halted ++ s.lacking m } ∧ t.firm = s.firm ∧ t.mesh = s.mesh
        ∧ (∀ h ∈ s.lacking m, Halter.retirement c ∈ (t.tile h).halts) ∧ ∀ q a, (t.tile q).word a = (s.tile q).word a)
      ∧ (s.lacking m = [] → Gives (.restPointReached p) s fun t =>
        let after := m.after (s.busyReserve m.what.tile) s.mesh
        let r := { s.firm.record with
          seq := s.firm.record.seq + 1, retired := after.retired, skip := after.skip, standIns := after.standIns }
        t.firm.record = r
        ∧ t.firm.recordQueue = s.firm.recordQueue ++ (if s.firm.flashA.state = 1 then [(false, r)] else []) ++ (if s.firm.flashB.state = 1 then [(true, r)] else [])
        ∧ (t.cluster c).moving = some { m with record := some r.seq } ∧ t.mesh = s.mesh
        ∧ t.tile p = { s.tile p with atRest := true } ∧ (∀ q, q ≠ p → t.tile q = s.tile q)
        ∧ t = { s with firm := { s.firm with record := t.firm.record, recordQueue := t.firm.recordQueue }, clusters := t.clusters, tiles := t.tiles })))

/-- R142 to R147: what the commands of a retirement do. -/
def Obligations.RetirementFollowsItsSteps : Prop :=
  (∀ (c : Nat) (r : Retirement) (rest : List Retirement) (s : State), c < 16 → (s.cluster c).queue = r :: rest → (s.cluster c).moving = none →
      s.inService = true → s.coreUp (innkeeper c) = true →
    (s.mesh.isRetired r.tile = true → Gives (.retirementBegin c) s fun t =>
      t.cluster c = { s.cluster c with queue := rest } ∧ (∀ k, k ≠ c → t.cluster k = s.cluster k)
        ∧ (r.cause ≠ 0 → t.firm = s.firm)
        ∧ (r.cause = 0 → s.firm.events.length < 256 → ∃ e, t.firm = { s.firm with events := s.firm.events ++ [e] } ∧ e.opcode = 0x0F80
            ∧ e.seq = r.seq ∧ e.payload.take 4 = leBytes 2 r.tile ++ [0, 4])
        ∧ t = { s with clusters := t.clusters, firm := t.firm })
    ∧ (s.mesh.isRetired r.tile = false → (s.tile r.tile).atRest = false → Gives (.retirementBegin c) s fun t => ∃ m, m.what = r
      ∧ t.cluster c = { s.cluster c with queue := rest, moving := some m } ∧ (∀ k, k ≠ c → t.cluster k = s.cluster k)
      ∧ r.tile ∈ m.halted ∧ (∀ e ∈ m.moves, e.1 ∈ m.halted) ∧ (∀ h ∈ m.halted, Halter.retirement c ∈ (t.tile h).halts)
      ∧ (∀ h, h ∉ m.halted → t.tile h = s.tile h) ∧ (∀ p a, (t.tile p).word a = (s.tile p).word a) ∧ (∀ p n, t.ctx p n = s.ctx p n)
      ∧ t.mesh = s.mesh ∧ t = { s with clusters := t.clusters, tiles := t.tiles, jobs := t.jobs, ledgers := t.ledgers }
      ∧ (s.mesh.retired = [] → s.mesh.skip = [] → s.mesh.standIns = [] → s.mesh.lentRows = 0 → r.tile < 54 * 64 → r.tile / 64 % 18 ≤ 16 →
          let spare := 64 * (18 * (r.tile / 64 / 18) + 17) + r.tile % 64
          m.action = 1 ∧ m.closes = [] ∧ m.moves = (List.range (17 - r.tile / 64 % 18)).map fun k => (spare - 64 * (k + 1), spare - 64 * k))))
  ∧ (∀ (c src dst : Nat) (more : Nat × Nat) (rest : List (Nat × Nat)) (m : Moving) (s : State), c < 16 → s.coreUp (innkeeper c) = true →
      s.power.tclkStopped = false → (s.cluster c).moving = some m → m.record.isSome = true → m.moves = (src, dst) :: more :: rest →
    Gives (.imageMoveDone c) s fun t => (t.cluster c).moving = some { m with
        moves := more :: rest, unreadable := m.unreadable || (src == m.what.tile && (Config.freeWord s.fresh).getLsbD 0) }
      ∧ t.mesh = s.mesh ∧ ∀ p a, (t.tile p).word a = (s.tile p).word a)
  ∧ (∀ (b : Bool) (r : Record) (rest : List (Bool × Record)) (s : State), s.coreUp doorkeeper = true → s.firm.recordQueue = (b, r) :: rest →
      (s.flash b).state = 1 → s.inService = true → s.firm.stepDone = false → s.firm.activation = none → s.firm.meshNext = none →
    ((∀ c, c < 16 → (s.cluster c).moving = none) → Gives .recordWriteDone s fun t =>
      t.flash b = { s.flash b with record := r, torn := none } ∧ t.flash (!b) = s.flash (!b) ∧ t.firm.recordQueue = rest
      ∧ t = { s with firm := { s.firm with flashA := t.firm.flashA, flashB := t.firm.flashB, recordQueue := t.firm.recordQueue } })
    ∧ (∀ (c : Nat) (q : BitVec 32) (m : Moving), c < 16 → (s.cluster c).moving = some m → (∀ k, k ≠ c → (s.cluster k).moving = none) →
        (s.clusters.map (·.1)).Nodup → s.coreUp (innkeeper c) = true → m.record = some q → m.moves = [] → (∀ e ∈ rest, e.2.seq ≠ q) →
        m.unreadable = false → m.allCloses (s.busyReserve m.what.tile) s.mesh = [] → s.recorded m = true → (s.cluster c).parked = [] →
      let after := m.after (s.busyReserve m.what.tile) s.mesh
      let old := fun x : Nat × Nat => s.mesh.physicalOf x.1 x.2
      let new := fun x : Nat × Nat => after.physicalOf x.1 x.2
      let coords := m.allCoords s.mesh
      after.lentRows = s.mesh.lentRows →
      (∀ x ∈ coords, old x ≠ new x ∧ new x ≠ m.what.tile ∧ after.isRetired (new x) = false ∧ ∀ y ∈ coords, new x = new y → x = y) →
      Gives .recordWriteDone s fun t => t.mesh = after
        ∧ (∀ x ∈ coords, ∀ a, (t.tile (new x)).word a = (s.tile (old x)).word a)
        ∧ (∀ x ∈ coords, ∀ n, t.ctx (new x) n = s.ctx (old x) n)
        ∧ (∀ p, p ≠ m.what.tile → (∀ x ∈ coords, new x ≠ p) → ∀ a, (t.tile p).word a = (s.tile p).word a)
        ∧ (t.cluster c).moving = none ∧ (t.cluster c).lastTile.toNat = localIndex m.what.tile % 512 ∧ (t.cluster c).lastAction.toNat = m.action % 16
        ∧ (∀ h ∈ m.halted, Halter.retirement c ∉ (t.tile h).halts)
        ∧ t.flash b = { s.flash b with record := r, torn := none } ∧ t.firm.recordQueue = rest))

/-- R247 to R250: how the operations of the attention-streaming engine end. -/
def Obligations.StreamsAndAppendsEnd : Prop :=
  (∀ (p : Nat) (o : StreamOp) (rest : List StreamOp) (s : State), EngineEnds s p o rest →
      (s.ledger? o.ledger = none ∨ (s.generation o.ledger).toNat ≠ o.generation) →
    Gives (if o.append then .astreamAppendDone p else .astreamStreamDone p) s fun t =>
      t.mem = s.mem ∧ (o.append = false → Flagged s t p o rest (32 * o.block) 0 1)
      ∧ (o.append = true → Flagged s t p o rest (match s.ledger? o.ledger with | some l => l.tokens | none => 0) 1 1))
  ∧ (∀ (p n v : Nat) (o : StreamOp) (rest : List StreamOp) (l : Ledger) (r : Run) (s : State), EngineEnds s p o rest → o.append = false →
      s.ledger? o.ledger = some l → (s.generation o.ledger).toNat = o.generation → l.fmt = o.fmt → o.pair < l.pairs → l.width = o.width →
      o.base % 32 = 0 → 32 ≤ o.base → 32 * o.width ≤ o.stride → o.base + o.stride + 32 * o.width ≤ o.scaleBase → o.width ≤ o.scaleStride →
      o.scaleBase + o.scaleStride + o.width ≤ 0x180000 → v = l.tokens + (if l.marks.contains o.pair then 1 else 0) → n = min 32 (v - 32 * o.block) →
    let key := fun t => keyAddr r.addr l.width o.pair t
    let scale := fun t => scaleAddr r.addr l.pairs l.width o.pair t
    let toks := (List.range n).map fun t => (s.memBytes (key t) (2 * l.width), s.memBytes (scale t) (l.width / 16))
    (n ≠ 0 → fget l.runs o.block = some r) →
      (∀ t, t < n → s.rangeStatus (key t) (2 * l.width) = .ok ∧ s.rangeStatus (scale t) (l.width / 16) = .ok
        ∧ s.guestMem l.guest (key t) (2 * l.width) = true ∧ s.guestMem l.guest (scale t) (l.width / 16) = true) →
    Gives (.astreamStreamDone p) s fun t => Flagged s t p o rest (32 * o.block) n 0
      ∧ (∀ w ∈ stagingWrites o toks, (t.tile p).bytes w.1 w.2.length = w.2)
      ∧ (∀ k, k < n → (t.tile p).bytes (o.base + k * o.width) o.width = s.memBytes (key k) o.width)
      ∧ (∀ m, t.ledger? m = s.ledger? m) ∧ t.mem.cells = s.mem.cells)
  ∧ (∀ (p : Nat) (o : StreamOp) (rest : List StreamOp) (l : Ledger) (r : Run) (s : State), EngineEnds s p o rest → o.append = true →
      s.ledger? o.ledger = some l → (s.generation o.ledger).toNat = o.generation → l.fmt = o.fmt → o.pair < l.pairs → l.width = o.width →
      l.exportTo = none → fget l.runs (l.tokens / 32) = some r → r.moving = false →
    let src := [(o.base, o.width), (o.scaleBase, o.width / 32), (o.base + o.stride, o.width), (o.scaleBase + o.scaleStride, o.width / 32)]
    let a := keyAddr r.addr l.width o.pair (l.tokens % 32)
    let sa := scaleAddr r.addr l.pairs l.width o.pair (l.tokens % 32);
      (∀ x ∈ src, ∀ w ∈ wordsIn x.1 x.2, ((s.tile p).word w).tag = .pack ∧ (s.tile p).bad w = false ∧ w / 8 ∉ (s.tile p).soft) →
      s.guestMem l.guest a (2 * l.width) = true → s.guestMem l.guest sa (l.width / 16) = true →
    Gives (.astreamAppendDone p) s fun t => Flagged s t p o rest l.tokens 1 0
      ∧ t.ledger? o.ledger = some { l with marks := addTo l.marks o.pair } ∧ (∀ m, m ≠ o.ledger → t.ledger? m = s.ledger? m)
      ∧ t.mem = (((s.noteCellar p o.ctx l.guest r).memWrite a
            ((s.tile p).bytes o.base l.width ++ (s.tile p).bytes (o.base + o.stride) l.width) (.stream p)).memWrite sa
            ((s.tile p).bytes o.scaleBase (l.width / 32) ++ (s.tile p).bytes (o.scaleBase + o.scaleStride) (l.width / 32)) (.stream p)).mem)

/-- R252 to R254: the two halves of a step barrier. -/
def Obligations.StepBarrierAdvancesAndReleases : Prop :=
  (∀ (g : Nat) (x : Guest) (s : State), s.guest? g = some x → x.barrier = false → s.coreUp steward = true → s.barrierGroup g ≠ [] →
      (∀ e ∈ s.barrierGroup g, (s.ctx e.1 e.2).atStep = true ∧ (s.ctx e.1 e.2).streaming = false) → (s.ledgers.live.map (·.1)).Nodup →
    Gives (.stepBarrierComplete g) s fun t => (t.guest g).barrier = true ∧ t.tiles = s.tiles
      ∧ (∀ n l, s.ledger? n = some l → l.guest = g → ∃ k, t.ledger? n = some k
          ∧ (if l.marks.length = l.pairs ∧ l.pairs ≠ 0 then k.tokens = l.tokens + 1 ∧ k.marks = [] else k.tokens = l.tokens ∧ k.marks = l.marks)
          ∧ k.idle = (if l.named then l.idle else l.idle + 1) ∧ k.named = false)
      ∧ (∀ n l, s.ledger? n = some l → l.guest ≠ g → t.ledger? n = some l)
      ∧ (∀ j y, fget s.jobs j = some y → y.save = none →
          fget t.jobs j = some (if ∃ e ∈ s.barrierGroup g, (s.ctx e.1 e.2).job = j then { y with steps := y.steps + 1 } else y)))
  ∧ (∀ (g : Nat) (x : Guest) (s : State), s.guest? g = some x → x.barrier = true → (x.barrierWait = false ∨ s.connsQuiet g = true) → s.coreUp steward = true →
    Gives (.barrierRelease g) s fun t => (t.guest g).barrier = false ∧ (t.guest g).barrierWait = false
      ∧ (∀ p n, t.ctx p n = if (p, n) ∈ s.barrierGroup g then { s.ctx p n with atStep := false } else s.ctx p n)
      ∧ (∀ p a, (t.tile p).word a = (s.tile p).word a)
      ∧ (∀ j y, fget s.jobs j = some y → y.limitPassed = false → Undisturbed s j →
          fget t.jobs j = some (if ∃ e ∈ s.barrierGroup g, (s.ctx e.1 e.2).job = j then { y with broken := false } else y))
      ∧ t = { s with tiles := t.tiles, jobs := t.jobs, ledgers := t.ledgers, guests := t.guests })

/-- R258, R267, R268. -/
def Obligations.LedgerTransfersComplete : Prop :=
  (∀ (n span pool addr : Nat) (toCellar : Bool) (l : Ledger) (r : Run) (q : Pool) (s : State), s.ledger? n = some l → fget l.runs span = some r → r.moving = true →
      r.fresh = some (pool, addr) → l.moveTo = some toCellar → fget (s.guest l.guest).pools pool = some q → q.cellar = toCellar →
      (∀ e ∈ s.ledgers.live, e.2.guest = l.guest → e.2.full = false) →
      s.timedGuest l.guest = false → s.rangeReady addr l.runBytes = true → s.unfilledIn r.addr l.runBytes = false → s.pendingIn r.addr l.runBytes = false →
    Gives (.runMoveDone n span) s fun t => ∃ k, t.ledger? n = some k ∧ fget k.runs span = some { addr, pool }
      ∧ k.tokens = l.tokens ∧ k.marks = l.marks ∧ (∀ m, m ≠ n → t.ledger? m = s.ledger? m) ∧ t.tiles = s.tiles
      ∧ (s.movesHeld l.guest = true → s.Sound → (∀ i, i < 16 → (s.stack i).merge = []) → l.dir + 8 * span + 8 ≤ stackTop → l.dir % 64 = 0 →
          ∀ x y, (∀ i, i < l.runBytes → s.mem.reach (r.addr + i) = .served (x + i) ∧ s.mem.writeReach (addr + i) = .served (y + i)
              ∧ s.mem.mirror (addr + i) = none ∧ (y + i) / 64 ≠ (l.dir + 8 * span) / 64) → (x + l.runBytes ≤ y ∨ y + l.runBytes ≤ x) →
          ∀ i, i < l.runBytes → t.memByte (addr + i) = s.memByte (r.addr + i)))
  ∧ (∀ (n a : Nat) (l : Ledger) (s : State), s.ledger? n = some l → l.exportTo = some a → l.tokens ≤ 262144 →
      (∀ i, i < (l.tokens + 31) / 32 → ∃ r, fget l.runs i = some r) →
    Gives (.ledgerExportDone n) s fun t => ∃ form,
      form.length = 4096 + (l.tokens + 31) / 32 * l.runBytes
      ∧ form.take 4 = [0x55, 0x4C, 0x4C, 0x47] ∧ field form 4 2 = 1 ∧ field form 6 1 = l.fmt % 256 ∧ field form 7 1 = l.width / 128 % 256
      ∧ field form 8 2 = l.layers % 65536 ∧ field form 10 2 = l.heads % 65536 ∧ field form 12 4 = l.tokens ∧ field form 16 4 = (l.tokens + 31) / 32
      ∧ slice form 32 32 = sha256 (form.drop 4096)
      ∧ (∀ i r, i < (l.tokens + 31) / 32 → fget l.runs i = some r → ∀ k, k < l.runBytes → form.getD (4096 + i * l.runBytes + k) 0 = s.memByte (r.addr + k))
      ∧ t.mem = (((List.range ((l.tokens + 31) / 32)).foldl (fun s i => match fget l.runs i with
            | some r => (s.memRead r.addr l.runBytes).2.2 | none => s) s).memWrite a form .firmware).mem
      ∧ t.ledger? n = some { l with exportTo := none } ∧ (∀ m, m ≠ n → t.ledger? m = s.ledger? m) ∧ t.tiles = s.tiles)
  ∧ (∀ (g : Nat) (i : Import) (rest : List Import) (x : Guest) (p : Pool) (s : State), s.guest? g = some x → x.imports = i :: rest →
      s.stackPool g i.pool = some p →
    let h := parseForm (s.memBytes i.source 64)
    let head := ((s.modGuest g fun x => { x with imports := rest }).memRead i.source 64).2.2
    let form := head.rawBytes (i.source + 4096) (h.spans * p.runBytes)
    let read := (head.memRead (i.source + 4096) (h.spans * p.runBytes)).2.2
    (h.good = false ∨ form.2 = false ∨ sha256 form.1 ≠ h.digest ∨ h.spans ≠ (h.tokens + 31) / 32 ∨ 262144 < h.tokens → read.firm.events.length < 256 →
      Gives (.ledgerImportDone g) s fun t => (∀ m, t.ledger? m = s.ledger? m) ∧ (t.guest g).imports = rest ∧ t.mem.cells = s.mem.cells ∧ t.tiles = s.tiles
        ∧ ∃ e, t.firm.events = read.firm.events ++ [e] ∧ e.opcode = 0x0480 ∧ e.payload.head? = some 5 ∧ e.status = 10 ∧ e.guest = g ∧ e.seq = i.seq)
    ∧ (∀ n dir dirs, h.good = true → form.2 = true → sha256 form.1 = h.digest → h.spans = (h.tokens + 31) / 32 → h.tokens ≤ 262144 →
        s.ledgerRoom g = true → s.freeLedgerNo = some n → p.freeDirs = dir :: dirs → h.spans ≤ p.freeRuns.length → i.addr % 8 = 0 →
      Gives (.ledgerImportDone g) s fun t => ∃ l, t.ledger? n = some l ∧ l.guest = g ∧ l.tokens = h.tokens ∧ l.marks = [] ∧ l.pool = i.pool ∧ l.dir = dir
        ∧ l.layers = p.layers ∧ l.heads = p.heads ∧ l.width = p.width ∧ l.fmt = p.fmt
        ∧ (∀ m, m ≠ n → t.ledger? m = s.ledger? m) ∧ (t.guest g).imports = rest
        ∧ (t.tile (s.phys i.x i.y)).word i.addr = { tag := .seq, data := BitVec.ofNat 64 (n + (s.generation n).toNat * 2 ^ 16 + g * 2 ^ 32) }))

/-- R263 to R268: what each message of chapter 07 leaves. -/
def Obligations.LedgerMessagesTakeEffect : Prop :=
  ∀ (slot core : Nat) (s : State),
    let g := sentBy s slot
    let f := asked s slot
    let seq := ((s.hole slot).req slot).seq
    (∀ x, s.guest? g = some x → Begun s slot core ledgerPoolBlock none → ∀ n, n < 16 → fget x.pools n = none → (∀ m, m < n → fget x.pools m ≠ none) →
      Gives (.ledgerPool slot) s fun t =>
        let run := runSize (f 16 2) (f 18 2) (64 * 2 ^ f 20 1)
        let runs := (f 8 8 - 65536 * f 22 2) / run
        fget (t.guest g).pools n = some {
          base := f 0 8, length := f 8 8, cellar := !inStack (f 0 8) (f 8 8), layers := f 16 2, heads := f 18 2,
          width := 64 * 2 ^ f 20 1, fmt := f 21 1, freeDirs := (List.range (f 22 2)).map fun i => f 0 8 + 65536 * i,
          freeRuns := (List.range runs).map fun i => f 0 8 + 65536 * f 22 2 + run * i }
        ∧ (∀ m, m ≠ n → fget (t.guest g).pools m = fget x.pools m) ∧ Answers t slot .ok (leBytes 2 n ++ [0, 0] ++ leBytes 4 runs))
    ∧ (∀ n p, Begun s slot core ledgerCreateBlock none → s.freeLedgerNo = some n → s.stackPool g (f 0 2) = some p →
      Gives (.ledgerCreate slot) s fun t =>
        let h := n + (s.generation n).toNat * 2 ^ 16 + g * 2 ^ 32
        (∃ l, t.ledger? n = some l ∧ l.guest = g ∧ l.tokens = 0 ∧ l.marks = [] ∧ l.pool = f 0 2 ∧ l.layers = p.layers ∧ l.heads = p.heads
          ∧ l.width = p.width ∧ l.fmt = p.fmt ∧ l.runs.map (·.1) = [0])
        ∧ (∀ m, m ≠ n → t.ledger? m = s.ledger? m) ∧ Answers t slot .ok (leBytes 8 h)
        ∧ (t.tile (s.phys (f 2 1) (f 3 1))).word (f 4 4) = { tag := .seq, data := BitVec.ofNat 64 h })
    ∧ (∀ n, Begun s slot core ledgerDeleteBlock none → s.ledgerOf (f 0 8) g = some n →
      Gives (.ledgerDelete slot) s fun t =>
        if s.ledgerStreams n = 0 then
          t.ledger? n = none ∧ t.generation n = s.generation n + 1 ∧ Answers t slot .ok []
          ∧ ∀ p, (t.tile p).handles = (s.tile p).handles.filter (· != BitVec.ofNat 64 (s.handle n))
        else (∃ l, s.ledger? n = some l ∧ t = s.modLedger n fun l => { l with deleting := some slot }) ∧ (t.hole slot) = s.hole slot)
    ∧ (∀ n l, Begun s slot core ledgerMoveBlock none → s.ledgerOf (f 0 8) g = some n → s.ledger? n = some l →
      Gives (.ledgerMove slot) s fun t => Answers t slot .deferred []
        ∧ (∃ k, t.ledger? n = some k ∧ k.tokens = l.tokens ∧ k.marks = l.marks
          ∧ (s.movesHeld g = true → k.moveTo = some (f 8 1 == 1) ∧ k.moveSeq = some seq))
        ∧ (∀ m, m ≠ n → t.ledger? m = s.ledger? m) ∧ t.tiles = s.tiles)
    ∧ (∀ n l, Begun s slot core ledgerQueryBlock none → s.ledgerOf (f 0 8) g = some n → s.ledger? n = some l →
      Gives (.ledgerQuery slot) s fun t => Answers t slot .ok (leBytes 4 l.tokens ++ leBytes 2 l.marks.length
          ++ [if l.moveTo.isSome then 2 else if l.full then 4 else if (s.runCounts l).1 = 0 ∧ l.runs ≠ [] then 3 else 1, 0]
          ++ leBytes 2 (s.runCounts l).1 ++ leBytes 2 (s.runCounts l).2 ++ leBytes 4 l.idle)
        ∧ t.ledgers = s.ledgers ∧ t.guests = s.guests ∧ t.mem = s.mem ∧ t.tiles = s.tiles)
    ∧ (∀ x, s.guest? g = some x → Begun s slot core ledgerIdleBlock none →
      Gives (.ledgerIdle slot) s fun t => t.guest? g = some { x with idleSteps := f 0 4 } ∧ Answers t slot .ok [] ∧ t.ledgers = s.ledgers)
    ∧ (∀ n l, Begun s slot core ledgerExportBlock none → s.ledgerOf (f 0 8) g = some n → s.ledger? n = some l →
      Gives (.ledgerExport slot) s fun t => t.ledger? n = some { l with exportTo := some (f 8 8), exportSeq := seq } ∧ Answers t slot .deferred []
        ∧ (∀ m, m ≠ n → t.ledger? m = s.ledger? m) ∧ t.mem = s.mem)
    ∧ (∀ x, s.guest? g = some x → Begun s slot core ledgerImportBlock none →
      Gives (.ledgerImport slot) s fun t => t.guest? g = some { x with imports := x.imports ++
          [{ source := f 0 8, pool := f 8 2, x := f 10 1, y := f 11 1, addr := f 12 4, seq }] } ∧ Answers t slot .deferred [] ∧ t.ledgers = s.ledgers)

/-- R277 to R286 and R609 to R612. -/
def Obligations.JobsFollowTheirRules : Prop :=
  (∀ (slot core : Nat) (s : State), Begun s slot core jobLaunchBlock none →
    let f := asked s slot
    let inside := fun x y : Nat => f 20 1 ≤ x ∧ x ≤ f 22 1 ∧ f 21 1 ≤ y ∧ y ≤ f 23 1
    let timed := f 27 1 = 1 ∧ s.ledgers.rtm = true ∧ s.feature 3 = true
    let job := s.firm.nextJob
    let word := fun a => leNat (s.memBytes (f 0 8 + (a - f 12 4)) 8)
    f 25 1 = 0 → f 48 1 = 0 → s.jobs.length < 4096 → (∀ x y z w, inside x y → inside z w → s.phys x y = s.phys z w → x = z ∧ y = w) →
    Gives (.jobLaunch slot) s fun t =>
      (∃ j, fget t.jobs job = some j ∧ j.guest = sentBy s slot ∧ j.live = true ∧ (j.x0, j.y0, j.x1, j.y1) = (f 20 1, f 21 1, f 22 1, f 23 1)
        ∧ j.level = f 26 1 ∧ (j.timed = true ↔ timed) ∧ (j.started = true ↔ ¬ timed) ∧ j.drawOffset = f 28 4 ∧ j.genKey = BitVec.ofNat 128 (f 32 16)
        ∧ j.lentRows = 0 ∧ j.groups = [] ∧ j.steps = ((s.guest (sentBy s slot)).restored).getD 0
        ∧ (¬ timed → j.divisor = s.power.divisor ∧ j.profile = s.power.profile ∧ j.release = s.firm.running.release) ∧ (timed → j.answer = some slot))
      ∧ (∀ m, m ≠ job → fget t.jobs m = fget s.jobs m) ∧ t.firm.nextJob = job + 1
      ∧ (¬ timed → Answers t slot .ok (leBytes 4 job ++ zeros 4)) ∧ (timed → t.hole slot = s.hole slot ∧ t.beganBy slot = some core)
      ∧ (∀ x y, inside x y →
          (∀ a, a % 8 = 0 → (t.tile (s.phys x y)).word a =
            if f 12 4 ≤ a ∧ a < f 12 4 + f 8 4 then { tag := .pack, data := BitVec.ofNat 64 (word a) } else (s.tile (s.phys x y)).word a)
          ∧ (∀ n, n < 8 → (f 24 1).testBit n = true → let c := t.ctx (s.phys x y) n
              c.assigned = true ∧ c.job = job ∧ c.pc = f 16 4 ∧ (c.ready = true ↔ ¬ timed) ∧ c.queue = [] ∧ c.stopped = false
              ∧ c.sr 0 = { tag := .int, data := BitVec.ofNat 64 (x + 256 * y) } ∧ c.sr 1 = { tag := .int, data := BitVec.ofNat 64 n }
              ∧ ∀ a, a < 14 → c.sr (2 + a) = ((s.hole slot).req slot).arg a)
          ∧ (∀ n, (n < 8 → (f 24 1).testBit n = false) → (t.ctx (s.phys x y) n).assigned = (s.ctx (s.phys x y) n).assigned))
      ∧ (∀ p, (∀ x y, inside x y → s.phys x y ≠ p) → t.tile p = s.tile p))
  ∧ (∀ s : State, (s.jobs.map (·.1)).Nodup → Gives .epochJobStart s fun t =>
      let waits := fun c : Ctx => c.assigned = true ∧ ∃ j, fget s.jobs c.job = some j ∧ j.started = false
      (∀ p n, (waits (s.ctx p n) → t.ctx p n = { s.ctx p n with ready := true }) ∧ (¬ waits (s.ctx p n) → t.ctx p n = s.ctx p n))
      ∧ (∀ k j, fget s.jobs k = some j → j.started = true → fget t.jobs k = some j)
      ∧ (∀ k j, fget s.jobs k = some j → j.started = false → ∃ y, fget t.jobs k = some y ∧ y.answer = none
          ∧ { y with broken := j.broken, everBroken := j.everBroken, answer := j.answer } = { j with
              started := true, divisor := s.power.divisor, profile := s.power.profile, release := s.firm.running.release })
      ∧ (∀ k j slot c, fget s.jobs k = some j → j.started = false → j.answer = some slot → s.beganBy slot = some c → (s.hole slot).num 2 2 = 0x0301 →
          (∀ m y, m ≠ k → fget s.jobs m = some y → y.answer ≠ some slot) → Answers t slot .ok (leBytes 4 k ++ zeros 4) ∧ (t.core c).begun = none)
      ∧ (∀ p a, (t.tile p).word a = (s.tile p).word a)
      ∧ t = { s with mesh := { s.mesh with epoch := s.mesh.epoch + 1 }, jobs := t.jobs, tiles := t.tiles, ledgers := t.ledgers, firm := t.firm })
  ∧ (∀ (k : Nat) (j : Job) (s : State), fget s.jobs k = some j → j.live = true → j.timed = true →
    Gives (.rtmLimitExpire k) s fun t => fget t.jobs k = some { j with limitPassed := true } ∧ (∀ m, m ≠ k → fget t.jobs m = fget s.jobs m)
      ∧ t = { s with jobs := t.jobs })
  ∧ (∀ (p : Nat) (d : DrawRequest) (rest : List DrawRequest) (j : Job) (s : State), (s.tile p).draws = d :: rest →
      (s.halted p = true → (s.tile p).drawn = false) → s.power.tclkStopped = false → fget s.jobs d.job = some j → j.drawOffset % 1024 = 0 →
    let area := j.drawOffset + 1024 * d.ctx
    let n := d.w0.data.toNat / 2 ^ 32 % 64
    let typed := d.w0.tag = .int ∧ d.w1.tag = .int ∧ d.w2.tag = .int
    Gives (.drawDone p) s fun t => (t.tile p).draws = rest ∧ (∀ q, q ≠ p → t.tile q = s.tile q)
      ∧ (typed → 1 ≤ n → n ≤ 60 → d.w0.data.toNat / 2 ^ 38 = 0 → d.w2.data.toNat / 2 ^ 32 = 0 →
          (∀ k, k < n → (t.tile p).bytes (area + 64 + 16 * k) 16 = aesEnc (leBytes 16 j.genKey.toNat)
            (leBytes 4 (d.w0.data.toNat % 2 ^ 32) ++ leBytes 8 (d.w1.data.toNat + k) ++ leBytes 4 d.w2.data.toNat))
          ∧ (t.tile p).word (area + 56) = { tag := .pack, data := BitVec.ofNat 64 n } ∧ t.ledgers = s.ledgers
          ∧ ∀ a, a < area + 56 ∨ area + 64 + 16 * n ≤ a → (t.tile p).word (a / 8 * 8) = (s.tile p).word (a / 8 * 8))
      ∧ (¬ typed → (t.tile p).word (area + 56) = { tag := .pack, data := BitVec.ofNat 64 (256 + 4096) })
      ∧ (typed → n = 0 ∨ 60 < n → (t.tile p).word (area + 56) = { tag := .pack, data := BitVec.ofNat 64 (256 + 2 * 4096) })
      ∧ (¬ typed ∨ n = 0 ∨ 60 < n → t.ledgers = { s.ledgers with drawFaults := satInc s.ledgers.drawFaults }
          ∧ ∀ a, a < area + 56 ∨ area + 64 ≤ a → (t.tile p).word (a / 8 * 8) = (s.tile p).word (a / 8 * 8)))
  ∧ (∀ (slot core : Nat) (j : Job) (s : State), Begun s slot core jobEndBlock none → fget s.jobs (asked s slot 0 4) = some j →
    ((∀ p ∈ s.jobTiles j, (s.tile p).atRest = true) → Gives (.jobEnd slot) s fun t => Answers t slot .deferred []
      ∧ ∃ k, fget t.jobs (asked s slot 0 4) = some k ∧ k.live = false)
    ∧ ((∃ p ∈ s.jobTiles j, (s.tile p).atRest = false) → Gives (.jobEnd slot) s fun t => Answers t slot .deferred []
      ∧ (∃ k, fget t.jobs (asked s slot 0 4) = some k ∧ k.live = true ∧ k.ending = some ((s.hole slot).req slot).seq ∧ k.endCause = 1)
      ∧ (∀ x y, j.has x y = true → Halter.jobEnd (asked s slot 0 4) ∈ (t.tile (s.phys x y)).halts)
      ∧ (∀ p a, (t.tile p).word a = (s.tile p).word a) ∧ ∀ p n, t.ctx p n = s.ctx p n))

/-- R288 to R296. -/
def Obligations.PassportsFollowTheirRules : Prop :=
  (∀ (slot core : Nat) (x : Guest) (s : State), Begun s slot core passportDigestBlock none → s.guest? (sentBy s slot) = some x →
    let f := asked s slot
    Gives (.passportDigest slot) s fun t => Answers t slot .deferred [] ∧ t.mem = s.mem
      ∧ t.digestSlot (sentBy s slot) (f 1 1) = {
          mode := f 0 1, filling := true, seq := ((s.hole slot).req slot).seq,
          regions := (List.range (f 2 1)).map fun i => (f (8 + 24 * i) 8, f (16 + 24 * i) 8, f (24 + 24 * i) 8) }
      ∧ ∀ n, n ≠ f 1 1 → t.digestSlot (sentBy s slot) n = s.digestSlot (sentBy s slot) n)
  ∧ (∀ (slot core : Nat) (x : Guest) (j : Job) (s : State), Begun s slot core passportSealBlock none → s.guest? (sentBy s slot) = some x →
      fget s.jobs (asked s slot 0 4) = some j →
    let f := asked s slot
    Gives (.passportSeal slot) s fun t => Answers t slot .deferred [] ∧ t.mem = s.mem
      ∧ t.guest? (sentBy s slot) = some { x with seals := x.seals ++ [{
          job := f 0 4, program := f 4 1, weights := f 5 1, inputs := f 6 1, result := f 8 8, resultLen := f 16 8, record := f 24 8,
          level := if j.downgraded then 1 else j.level,
          flags := (if j.timed ∧ j.everBroken = false then 1 else 0) + (if j.downgraded then 2 else 0) + (if j.activated then 4 else 0),
          profile := divisorCode j.divisor + 256 * j.profile, seq := ((s.hole slot).req slot).seq }] })
  ∧ (∀ (g n : Nat) (x : Guest) (s : State), s.guest? g = some x → (s.digestSlot g n).filling = true → s.firm.events.length < 256 →
      s.mem.oneSymbol = [] → s.mem.twoSymbol = [] →
    let d := s.digestSlot g n
    let bytes := d.regions.flatMap fun r => (s.rawBytes r.1 r.2.1).1
    let ok := ∀ r ∈ d.regions, s.rangeStatus r.1 r.2.1 = .ok ∧ s.guestMem g r.1 r.2.1 = true
    ((∀ r ∈ d.regions, r.2.2 = 0) →
      Gives (.digestDone g n) s fun t => t.mem.cells = s.mem.cells
        ∧ (ok → t.digestSlot g n = { mode := d.mode, full := true, digest := if d.mode = 0 then sha256 bytes else merkleRoot bytes }
          ∧ t.firm.events = s.firm.events ++ [{ opcode := 0x0380, guest := g, seq := d.seq, time := s.firm.aon, payload :=
              [0, BitVec.ofNat 8 n, 0, 0] ++ zeros 4 ++ if d.mode = 0 then sha256 bytes else merkleRoot bytes }])
        ∧ (¬ ok → t.digestSlot g n = {} ∧ ∃ e, t.firm.events = s.firm.events ++ [e] ∧ e.opcode = 0x0380 ∧ e.status = 10 ∧ e.seq = d.seq))
    ∧ (∀ src len dst, d.regions = [(src, len, dst)] → dst ≠ 0 → s.rangeStatus src len = .ok → s.guestMem g src len = true →
      (s.guestMem g dst len = true →
        Gives (.digestDone g n) s fun t => t.mem = ((s.memRead src len).2.2.memWrite dst (s.rawBytes src len).1 .firmware).mem)
      ∧ (s.guestMem g dst len = false →
        Gives (.digestDone g n) s fun t => t.mem = (s.memRead src len).2.2.mem ∧ fgetD 0 t.hosts.guestFaults g = satInc (fgetD 0 s.hosts.guestFaults g))))
  ∧ (∀ (g : Nat) (x : Guest) (v : Sealing) (rest : List Sealing) (j : Job) (s : State), s.guest? g = some x → x.seals = v :: rest →
      fget s.jobs v.job = some j → s.firm.events.length < 200 → s.mem.oneSymbol = [] → s.mem.twoSymbol = [] →
    let result := sha256 (s.rawBytes v.result v.resultLen).1
    let head := (s.digestSlot g v.program).digest.take 16 ++ (s.digestSlot g v.weights).digest.take 16
      ++ (sha256 (leBytes 16 j.genKey.toNat ++ (s.digestSlot g v.inputs).digest)).take 16
      ++ [BitVec.ofNat 8 v.level, BitVec.ofNat 8 v.flags] ++ leBytes 2 v.profile ++ leBytes 4 j.release.toNat
    let record := head ++ (sha256 (head ++ result)).take 8
    let reads := s.rangeStatus v.result v.resultLen = .ok ∧ s.guestMem g v.result v.resultLen = true
    (¬ reads → Gives (.sealDone g) s fun t => (t.guest g).seals = rest ∧ t.mem.cells = s.mem.cells
      ∧ ∃ e, e ∈ t.firm.events ∧ e.opcode = 0x0380 ∧ e.guest = g ∧ e.seq = v.seq ∧ e.status = 10 ∧ e.payload = [1, 0xFF, 0, 0] ++ leBytes 4 v.job ++ zeros 32)
    ∧ (reads → s.guestMem g v.record record.length = true → Gives (.sealDone g) s fun t => (t.guest g).seals = rest
      ∧ t.mem = ((s.memRead v.result v.resultLen).2.2.memWrite v.record record .firmware).mem
      ∧ ∃ e, e ∈ t.firm.events ∧ e.opcode = 0x0380 ∧ e.guest = g ∧ e.seq = v.seq ∧ e.status = 0
        ∧ e.payload = [1, 0xFF, 0, 0] ++ leBytes 4 v.job ++ result))

/-- R302 to R308 and R386: packets to and from the foundation. -/
def Obligations.FoundationPacketsReadAndWrite : Prop :=
  ∀ (k : Packet) (s : State), s.power.tclkStopped = false →
    let K : Packet := if k.fw then { k with cls := if k.cls = 3 ∨ k.cls = 2 then k.cls else 0 }
      else { k with cls := 2, guest := (s.owner k.srcX k.srcY).getD 0 }
    let dest := s.mesh.routeTo { dstX := k.srcX, dstY := k.srcY, kind := 8 }
    let entry := s.mesh.basePhys dest.1 (dest.2 / 17 * 17)
    let allowed := fun n => k.fw = true ∨ (s.owner k.srcX k.srcY = some K.guest ∧ s.guestMem K.guest k.paddr n = true)
    let bytes := k.payload.flatMap fun w => leBytes 8 w.data.toNat
    let n := 8 * k.payload.length
    let who := if k.fw then Writer.firmware else .tile (s.phys k.srcX k.srcY)
    let leaves := fun t : State => t.router entry = Crossed (s.router entry) k ∧ ∀ p, p ≠ entry → t.router p = s.router p
    let reads' := fun (words : Nat → TWord) (P : State → Prop) =>
      let reply : Packet := { dstX := k.srcX, dstY := k.srcY, srcX := k.dstX, srcY := k.dstY, kind := 8, cls := K.cls, guest := K.guest, fw := k.fw,
                              units := k.units, ctx := k.ctx, addr := k.addr, payload := (List.range (4 * k.units)).map words }
      (s.router entry).hasRoom (bufKey .north K.cls true) reply = true →
      Gives (.fndRdArrive k) s fun t => t.router entry = (Crossed (s.router entry) k).push (bufKey .north K.cls true) reply
        ∧ (∀ p, p ≠ entry → t.router p = s.router p) ∧ (∀ a, reads t a = reads s a) ∧ P t
    (k.kind = 6 →
      (allowed (32 * k.units) → s.fndSlot K (32 * k.units) = none → pktFixed K (32 * k.units) = false →
        reads' (fun i => if s.wordStatus (k.paddr + 8 * i) = .ok then ⟨.pack, BitVec.ofNat 64 (leNat (s.memBytes (k.paddr + 8 * i) 8))⟩ else {})
          fun t => t.tiles = s.tiles)
      ∧ (¬ allowed (32 * k.units) → reads' (fun _ => {}) fun t =>
          t = { s with routers := t.routers, hosts := { s.hosts with guestFaults := fupd 0 s.hosts.guestFaults K.guest satInc } })
      ∧ (∀ p off, s.fndSlot K (32 * k.units) = some (p, off) →
          reads' (fun i => if (s.tile p).bad (off + 8 * i) then {} else ⟨.pack, ((s.tile p).word (off + 8 * i)).data⟩) fun t => t.mem = s.mem)
      ∧ (pktFixed K (32 * k.units) = true → s.fndSlot K (32 * k.units) = none → reads' (fun i => s.fixedWord (k.paddr + 8 * i)) fun t => t.mem = s.mem ∧ t.tiles = s.tiles))
    ∧ (k.kind = 7 →
      (s.Sound → MergesOk s → BackingsHoled s.mem → k.paddr % 32 = 0 → allowed n → k.paddr + n ≤ stackTop → pktFixed K n = false →
          (∀ i, i < n → s.wordStatus (k.paddr + i) = .ok ∨ s.wordStatus (k.paddr + i) = .unwritten) → WritesNow s who k.paddr n →
        Gives (.fndWrArrive k) s fun t => (∀ i, i < n → reads t (k.paddr + i) = some (bytes.getD i 0))
          ∧ (∀ a, a < k.paddr ∨ k.paddr + n ≤ a → reads t a = reads s a) ∧ MergesOk t ∧ t.tiles = s.tiles ∧ leaves t)
      ∧ (∀ p, allowed n → k.paddr + n ≤ stackTop → pktFixed K n = false → (∀ w ∈ s.porter.waits, w.who ≠ who) → p ∈ pagesOf k.paddr n → s.marked p = true →
        Gives (.fndWrArrive k) s fun t => t.mem = s.mem ∧ t.tiles = s.tiles
          ∧ t.porter.waits = s.porter.waits ++ [{ who, addr := k.paddr, data := .bytes bytes }]
          ∧ (pagesOf k.paddr n = [p] → s.porter.aheads.length < 8192 → p ∈ t.porter.aheads) ∧ leaves t)
      ∧ (∀ p off, s.fndSlot K n = some (p, off) → off % 32 = 0 →
        Gives (.fndWrArrive k) s fun t => (t.tile p).bytes off n = bytes ∧ (∀ q, q ≠ p → t.tile q = s.tile q) ∧ t.mem = s.mem ∧ leaves t)
      ∧ (pktFixed K n = true → s.fndSlot K n = none →
        Gives (.fndWrArrive k) s fun t => leaves t ∧ t.tiles = s.tiles ∧ t.mem.cells = s.mem.cells
          ∧ ∀ i, i < k.payload.length → s.mem.retirements.length ≤ (k.paddr + 8 * i - fixedArea) / 0xC0000 →
              t.fixedWord (k.paddr + 8 * i) = ⟨.pack, (k.payload.getD i {}).data⟩)
      ∧ (¬ allowed n → Gives (.fndWrArrive k) s fun t => leaves t
          ∧ t = { s with routers := t.routers, hosts := { s.hosts with guestFaults := fupd 0 s.hosts.guestFaults K.guest satInc } }))

/-- R303 to R320. -/
def Obligations.StackMaintenance : Prop :=
  (∀ (k pc : Nat) (s : State), k < 16 → pc < 64 → s.stacksOn = true →
    Gives (.refresh k pc) s fun t => fgetD 0 (t.stack k).refreshed pc = fgetD 0 (s.stack k).refreshed pc + 1
      ∧ t.stack k = { s.stack k with refreshed := (t.stack k).refreshed } ∧ (∀ j, j ≠ k → t.stack j = s.stack j)
      ∧ t = { s with mem := { s.mem with stackCtl := t.mem.stackCtl } })
  ∧ (∀ (k line : Nat) (s : State), k < 16 → s.stacksOn = true → s.Sound → MergesOk s → (∃ e ∈ (s.stack k).merge, e.line = line) →
    Gives (.mergeTimeout k line) s fun t => (∀ e ∈ (t.stack k).merge, e.line ≠ line) ∧ (∀ a, reads t a = reads s a) ∧ MergesOk t ∧ t.tiles = s.tiles)
  ∧ (∀ (k : Nat) (s : State), k < 16 → s.scrubs = true → (s.stack k).owed = [] → (s.stack k).repairQueue = [] → (s.stack k).scrubLine < stackLines →
    let served := s.mem.servedAt (lineOf k (s.stack k).scrubLine)
    let untouched := fun t : State => t.stack k = { s.stack k with scrubLine := (t.stack k).scrubLine, pass := (t.stack k).pass }
      ∧ (∀ j, j ≠ k → t.stack j = s.stack j) ∧ t = { s with mem := { s.mem with stackCtl := t.mem.stackCtl } }
    Gives (.scrubLine k) s fun t => (∀ a, reads t a = reads s a) ∧ t.tiles = s.tiles
      ∧ (if (s.stack k).scrubLine + 1 < stackLines then (t.stack k).scrubLine = (s.stack k).scrubLine + 1 ∧ (t.stack k).pass = (s.stack k).pass
         else (t.stack k).scrubLine = 0 ∧ (t.stack k).pass = (s.stack k).pass + 1)
      ∧ (served = none → untouched t)
      ∧ ∀ line, served = some line →
        let whole := fgetD 0 s.mem.written line = 0xFF
        (line ∉ s.mem.twoSymbol → (line ∉ s.mem.oneSymbol ∨ line ∈ s.mem.poison ∨ ¬ whole) → untouched t)
        ∧ (line ∉ s.mem.twoSymbol → line ∈ s.mem.oneSymbol → line ∉ s.mem.poison → whole →
            line ∉ t.mem.oneSymbol ∧ (t.stack (s.mem.stackAt line)).corrected = satInc (s.stack (s.mem.stackAt line)).corrected)
        ∧ (line ∈ s.mem.twoSymbol → line ∉ t.mem.twoSymbol ∧ line ∈ t.mem.poison ∧ (t.stack k).uncorrectable = satInc (s.stack k).uncorrectable))
  ∧ (∀ (slot core : Nat) (s : State), Begun s slot core memRetirePcBlock none →
    let pc := 64 * asked s slot 0 1 + asked s slot 1 1
    Gives (.memRetirePc slot) s fun t => Answers t slot .deferred [] ∧ (∃ r, t.mem.retiring = some r ∧ r.pc = pc ∧ r.seq = ((s.hole slot).req slot).seq)
      ∧ pc ∈ t.mem.failing ∧ (∀ a, reads t a = reads s a))
  ∧ (∀ (r : PcRetirement) (s : State), s.mem.retiring = some r → s.timedRuns = false → s.stacksOn = true → s.Sound → MergesOk s →
      TablesOk s.mem → (∀ e ∈ s.mem.regions, ∀ b, e.2.stackBase = some b → b + 2 ^ 30 ≤ giveUpBase (s.mem.retirements.length + 1)) → r.pc ∉ s.mem.retirements.map (·.pc) → s.mem.retirements.length < 16 →
    let k := s.mem.retirements.length + 1
    Gives .pcRetireDone s fun t => TablesOk t.mem ∧ t.mem.retiring = none ∧ r.pc ∉ t.mem.failing ∧ t.mem.retirements.map (·.pc) = s.mem.retirements.map (·.pc) ++ [r.pc]
      ∧ (∀ a, giveUpBase k ≤ a → a < giveUpBase k + 0x30000000 → t.wordStatus a = .hole)
      ∧ (∀ a, a < giveUpBase k ∨ giveUpBase k + 0x30000000 ≤ a → reads t a = reads s a)
      ∧ t.firm.record.pcs.map (·.pc) = s.firm.record.pcs.map (·.pc) ++ [r.pc] ∧ t.firm.mstate ≠ .ready ∧ t.tiles = s.tiles)

/-- R325 to R331. -/
def Obligations.CellarDevicesFollowTheirRules : Prop :=
  (∀ (n region key : Nat) (r : Region) (s : State), s.fills = true → s.Sound → (s.mem.regions.map (·.1)).Nodup → fget s.mem.regions key = some r →
      r.device = some n → n < 8 → r.stackBase = none → r.filled = false → r.lost = false → r.hole = false → r.devRegion = region → region < 1024 → key < 8192 →
      (∀ e ∈ s.mem.regions, e.1 ≠ key → e.2.place + 2 ^ 30 ≤ r.place ∨ r.place + 2 ^ 30 ≤ e.2.place) →
      (∀ e ∈ s.mem.regions, e.2.device = some n → e.2.filled = false → e.1 = key ∨ e.2.devRegion ≠ region) →
    let base := cellarBase + key / 1024 * 2 ^ 40 + key % 1024 * 2 ^ 30
    let others := fun t => ∀ a, a < base ∨ base + 2 ^ 30 ≤ a → reads t a = reads s a
    (r.held = [] → (∀ e ∈ s.mem.regions, e.2.device = some n → e.2.filled = false → e.2.held = [] ∧ (e.1 = key ∨ region < e.2.devRegion)) →
      Gives (.cellarFillDone n region) s fun t => fget t.mem.regions key = some { r with filled := true }
        ∧ (∀ i, i < 2 ^ 30 → reads t (base + i) = some 0) ∧ others t)
    ∧ (∀ a bytes, r.held = [(a, .bytes bytes)] → bytes ≠ [] → (s.cellar n).releasing = false → base ≤ a → a + bytes.length ≤ base + 2 ^ 30 →
        WritesNow s (.cellar n) a bytes.length →
      Gives (.cellarFillDone n region) s fun t => fget t.mem.regions key = some { r with filled := true, held := [], written := true }
          ∧ (∀ i, i < 2 ^ 30 → reads t (base + i) = some (if a ≤ base + i ∧ base + i < a + bytes.length then bytes.getD (base + i - a) 0 else 0))
          ∧ others t)
    ∧ (∀ a m, r.held = [(a, .zeros m)] → 0 < m → (s.cellar n).releasing = false → base ≤ a → a + m ≤ base + 2 ^ 30 → WritesNow s (.cellar n) a m →
      Gives (.cellarFillDone n region) s fun t => fget t.mem.regions key = some { r with filled := true, held := [], written := true }
          ∧ (∀ i, i < 2 ^ 30 → reads t (base + i) = some 0) ∧ others t))
  ∧ (∀ (slot core : Nat) (s : State), Begun s slot core cellarReleaseBlock none →
    let d := asked s slot 0 1
    Gives (.cellarRelease slot) s fun t => Answers t slot .deferred []
      ∧ t.cellar d = { s.cellar d with
          releasing := true, seq := ((s.hole slot).req slot).seq,
          targets := (s.mem.writtenRegions d).zip (s.evacTargets d (asked s slot 8 8) (asked s slot 16 8)), switched := 0, copied := 0 }
      ∧ (t.port d).state = .releasing ∧ t.mem.cells = s.mem.cells
      ∧ (asked s slot 16 8 ≠ 0 → ∀ a, asked s slot 8 8 ≤ a → a < asked s slot 8 8 + asked s slot 16 8 → a < stackTop → t.wordStatus a = .hole))
  ∧ (∀ (d : Nat) (s : State), (s.cellar d).releasing = true → s.stage = 0 → s.firm.mstate ≠ .auxOnly → s.evacRuns d = [] → (s.mem.regions.map (·.1)).Nodup →
    let c := s.cellar d
    c.switched = 0 → (c.targets.map (·.1)).Nodup → (c.targets.map (·.2)).Nodup →
    (∀ e ∈ c.targets, ∃ r, fget s.mem.regions e.1 = some r ∧ r.device = some d) →
    (∀ e ∈ c.targets, e.2 < stackTop ∨ ∃ k x, k < 8192 ∧ e.2 = regionAddr k ∧ fget s.mem.regions k = some x ∧ x.device ≠ some d) →
    Gives (.evacuationDone d) s fun t => (c.targets = [] → t.mem.cells = s.mem.cells) ∧ t.ledgers = s.ledgers ∧ t.tiles = s.tiles
      ∧ t.cellar d = { c with present := false, releasing := false, released := true, targets := [], switched := 0, copied := 0 }
      ∧ (∀ k r, fget s.mem.regions k = some r → r.device = some d → (∀ e ∈ c.targets, e.1 ≠ k) → fget t.mem.regions k = some { vacated := true })
      ∧ (∀ k a r, fget s.mem.regions k = some r → r.device = some d → (k, a) ∈ c.targets → a < stackTop →
          fget t.mem.regions k = some { r with device := none, stackBase := some a })
      ∧ (∀ k j r x, fget s.mem.regions k = some r → r.device = some d → j < 8192 → (k, regionAddr j) ∈ c.targets → fget s.mem.regions j = some x →
          fget t.mem.regions k = some { r with device := x.device, devRegion := x.devRegion, port := x.port })
      ∧ (∀ k r, fget s.mem.regions k = some r → r.device ≠ some d → fget t.mem.regions k =
          some (if ∃ e ∈ c.targets, e.2 = regionAddr k then { vacated := true } else r))
      ∧ (∀ k a r, c.targets = [(k, a)] → c.copied = 0 → k < 8192 → fget s.mem.regions k = some r → d < 8 → r.devRegion < 1024 → r.stackBase = none →
          r.filled = true → r.lost = false → r.hole = false → s.Sound → a % 2 ^ 30 = 0 →
          (a + 2 ^ 30 ≤ stackTop ∨ ∃ j x, a = regionAddr j ∧ fget s.mem.regions j = some x ∧ x.stackBase = none ∧ (∃ p, x.device = some p ∧ p < 8) ∧ x.devRegion < 1024) →
        (∀ i, i < 2 ^ 30 → reads t (regionAddr k + i) = reads s (regionAddr k + i))
        ∧ ∀ b, (∀ x, s.mem.reach b = .served x → x < s.mem.targetPlace a ∨ s.mem.targetPlace a + 2 ^ 30 ≤ x) → (b < a ∨ a + 2 ^ 30 ≤ b) →
            (∀ q, s.mem.regionOf b = some q → q.device ≠ some d) → reads t b = reads s b)
      ∧ (t.port d).state = .off ∧ (t.port d).powerEn = false ∧ (t.port d).refclk = false ∧ (t.port d).linkUp = false
      ∧ (s.firm.events.length < 256 → ∃ e ∈ t.firm.events, e.opcode = 0x0580 ∧ e.seq = c.seq ∧ e.payload.take 2 = [5, BitVec.ofNat 8 d]))
  ∧ (∀ (port a : Nat) (s : State), (s.cellar port).present = true → s.firm.events.length < 256 →
    Gives (.cellarMediaEvent port a) s fun t => t = { s with firm := { s.firm with events := s.firm.events ++
      [{ opcode := 0x0580, time := s.firm.aon, payload := [9, BitVec.ofNat 8 port, 0xFF, 0, 0, 0, 0, 0] ++ leBytes 8 a }] } })

/-- R44 to R49, R552, R614. -/
def Obligations.StartsFollowTheirSteps : Prop :=
  (∀ (v : BitVec 32) (s : State), (s.firm.mstate = .ready ∨ s.firm.mstate = .degraded ∨ s.firm.mstate = .safeHold) →
    (v.getLsbD 0 = true → v.toNat / 65536 = 0xC01D → Gives (.coldRestart v) s (ColdBegun s))
    ∧ (v.toNat / 65536 ≠ 0xC01D → Gives (.coldRestart v) s fun t => t = s))
  ∧ (∀ s : State, (s.firm.mstate = .ready ∨ s.firm.mstate = .degraded) →
    (s.firm.restart = some false → Gives .restartDelayExpire s fun t => ColdBegun s t)
    ∧ (s.firm.restart = some true → Gives .restartDelayExpire s fun t => t.firm.mstate = .warmStart ∧ t.firm.startStep = 1 ∧ t.firm.lastWarm = true
        ∧ t.firm.restart = none ∧ t.firm.session = s.firm.session ∧ t.power.tclkStopped = true
        ∧ ((s.link 0).outstanding = [] → (s.link 1).outstanding = [] → s.net.conns = [] → s.cipher.engines = [] →
            ∀ p a, (t.tile p).word a = (s.tile p).word a)
        ∧ Halter.start ∈ t.mesh.halts ∧ (∀ k, (t.hole k).busy = false)
        ∧ ((s.core doorkeeper).run ≠ .out → (t.core doorkeeper).run = .running) ∧ ∀ c, 1 ≤ c → c < 19 → (t.core c).run ≠ .running))
  ∧ (∀ (failing : List Nat) (s : State), s.firm.mstate = .coldStart → s.firm.stepDone = false → s.stage < 3 → s.firm.meshNext = none → s.firm.activation = none →
    (s.firm.startStep = 1 → s.selectImage = none → Gives (.startStepDone failing) s fun t => t.firm.mstate = .safeHold ∧ Halter.safeHold ∈ t.mesh.halts)
    ∧ (∀ b i, s.firm.startStep = 1 → s.selectImage = some (b, i) → Gives (.startStepDone failing) s fun t =>
        t.firm.mstate = .coldStart ∧ t.firm.startStep = 2 ∧ t.firm.running = i ∧ t.firm.runningB = b ∧ i.valid s.firm.rollbackFloor = true)
    ∧ (s.firm.startStep = 2 → failing ≠ [] → Gives (.startStepDone failing) s fun t => t.firm.mstate = .safeHold)
    ∧ (s.firm.startStep = 2 → failing = [] → Gives (.startStepDone failing) s fun t => t.firm.startStep = 3
        ∧ ∀ c, c < 19 → (s.core c).run ≠ .out → (s.core c).run ≠ .swapping → (t.core c).run = .running ∧ (t.core c).release = s.firm.running.release
          ∧ (t.core c).ctx.assigned = true ∧ (t.core c).ctx.pc = 0 ∧ (t.core c).sram = sramOf (s.firm.running.section c))
    ∧ (s.firm.startStep = 8 → failing = [] → s.stage = 0 → s.conditions = false → Gives (.startStepDone failing) s fun t =>
        t.firm.mstate = .ready ∧ t.firm.startStep = 9 ∧ t.firm.measurement = s.firm.running.measure ∧ t.firm.replaced = false))
  ∧ (∀ (failing : List Nat) (s : State), (s.firm.mstate = .coldStart ∨ s.firm.mstate = .warmStart) → s.firm.stepDone = false → 3 ≤ s.stage →
      s.firm.startStep = (if s.firm.mstate = .coldStart then 4 else 3) → failing = [] →
    Gives (.startStepDone failing) s fun t => t = { s with firm := { s.firm with stepDone := true } })
  ∧ (∀ (m : Mesh) (q : BitVec 32) (s : State), s.firm.mstate = .coldStart → s.firm.stepDone = false → s.firm.startStep = 4 → s.firm.meshNext = some (m, q) →
      Gives (.startStepDone []) s fun t => t = { s with firm := { s.firm with stepDone := true } })
  ∧ (∀ s : State, s.firm.mstate = .warmStart → s.firm.stepDone = false → s.stage = 0 → s.firm.startStep = 5 → s.firm.meshNext = none → s.firm.activation = none →
      s.mesh.closed ≠ [] → (∀ e ∈ s.ledgers.live, e.2.moveTo = none) →
    Gives (.startStepDone []) s fun t => t.firm.mstate = .degraded ∧ t.firm.startStep = 6 ∧ Halter.start ∉ t.mesh.halts ∧ t.mem = s.mem)
  ∧ (∀ s : State, s.firm.mstate = .warmStart → s.firm.startHeld = true →
    (s.firm.stepDone = false → Gives .warmStartHoldEnd s fun t => t = { s with firm := { s.firm with startHeld := false } })
    ∧ (s.firm.stepDone = true → s.firm.startStep = 1 → s.stage < 3 → s.firm.meshNext = none →
        Gives .warmStartHoldEnd s fun t => t = { s with firm := { s.firm with startHeld := false, stepDone := false, startStep := 2 } }))

/-- R36, R81 to R84. -/
def Obligations.CoresCrashAndRestart : Prop :=
  (∀ (c : Nat) (s : State), c < 19 → (s.core c).run = .running → s.corePowered c = true →
    (s.firm.aon < (s.core c).watchdog + (if c = hearth then 50000 else 100000) → Gives (.watchdogExpire c) s fun t => t = s)
    ∧ ((s.core c).watchdog + (if c = hearth then 50000 else 100000) ≤ s.firm.aon → Gives (.watchdogExpire c) s fun t =>
        (t.core c).run = .restarting ∧ (t.core c).queue = [] ∧ (t.core c).begun = none ∧ (t.core c).act = 0 ∧ (t.core c).enable = 0
        ∧ (t.core c).pend = (s.core c).pend ||| (s.core c).act ∧ (∀ p a, (t.tile p).word a = (s.tile p).word a)
        ∧ (3 ≤ c → ∀ p ∈ clusterTiles (c - 3), Halter.crash c ∈ (t.tile p).halts) ∧ (c < 3 → t.tiles = s.tiles)
        ∧ (c = hearth → t.power.clamp = .safe)
        ∧ (∀ k, (s.core c).begun = some k → k ∉ (s.core c).queue → Answered t k .faulted)))
  ∧ (∀ (c : Nat) (s : State), c < 19 → (s.core c).run = .restarting →
    (Gives (.coreRestartDone c) s fun t => (s.firm.activation = none → (t.core c).run = .running ∧ (t.core c).fails = 0 ∧ (t.core c).watchdog = s.firm.aon
        ∧ (t.core c).ctx.assigned = true ∧ (t.core c).ctx.pc = 0 ∧ (t.core c).sram = sramOf (s.firm.running.section c)
        ∧ (t.core c).pend = (s.core c).pend ||| (s.core c).act)
      ∧ (s.firm.activation = none → 3 ≤ c → ∀ p ∈ clusterTiles (c - 3), Halter.crash c ∉ (t.tile p).halts)
      ∧ (s.firm.activation = none → c = hearth → t.power.clampRelease = true))
    ∧ ((s.core c).fails < 2 → Gives (.coreRestartTimeout c) s fun t => t.core c = { s.core c with fails := (s.core c).fails + 1 }
        ∧ (∀ k, k ≠ c → t.core k = s.core k) ∧ t = { s with firm := { s.firm with cores := t.firm.cores, events := t.firm.events, lostEvents := t.firm.lostEvents } })
    ∧ (2 ≤ (s.core c).fails → Gives (.coreRestartTimeout c) s fun t => (s.firm.activation = none → (t.core c).run = .out)
        ∧ (c = doorkeeper ∨ c = steward → t.firm.mstate = .safeHold ∧ (Halter.safeHold ∈ t.mesh.halts))
        ∧ (c = hearth → t.firm.mstate ≠ .ready)))

/-- R71 to R79. -/
def Obligations.ActivationFollowsItsOrder : Prop :=
  (∀ (src len seq : Nat) (dev : Bool) (s : State), s.firm.staging = some (src, len, seq, dev) → s.coreUp doorkeeper = true →
    let i := parseImage (s.memBytes src len)
    (i.valid s.firm.rollbackFloor = true → Gives .fwStageDone s fun t =>
      t.firm.staging = none ∧ t.firm.staged = some i ∧ (t.flash dev).image = some i ∧ t.flash (!dev) = s.flash (!dev) ∧ t.firm.running = s.firm.running)
    ∧ (i.valid s.firm.rollbackFloor = false → Gives .fwStageDone s fun t =>
      t.firm.staging = none ∧ t.firm.staged = s.firm.staged ∧ (t.flash s.otherDevice).image = none ∧ (t.flash s.otherDevice).state ≠ 1
      ∧ t.flash s.firm.runningB = s.flash s.firm.runningB ∧ t.firm.running = s.firm.running ∧ t.firm.mstate ≠ .ready))
  ∧ (∀ (a : Activation) (i : Image) (s : State), s.firm.activation = some a → s.firm.staged = some i → s.calm = true → MaySwap s a.next → a.marking = none →
    (a.started = false → Gives .activationStart s fun t => t.firm.activation = some { a with started := true } ∧ t.firm.staged = some i ∧ SwapBegun s t a.next i)
    ∧ (a.started = true → a.waitHearth = true → Gives .hearthSwapStart s fun t => t.firm.activation = some a ∧ t.firm.staged = some i ∧ SwapBegun s t a.next i))
  ∧ (∀ (c : Nat) (a : Activation) (i : Image) (s : State), c < 19 → s.firm.activation = some a → s.firm.staged = some i → (s.core c).run = .swapping →
      s.settling c = false → a.started = true → a.marking = none → (3 ≤ c → (s.cluster (c - 3)).moving = none) →
    Gives (.coreSwapDone c) s fun t => WentOver (s.core c) (t.core c) (s.core c).shadow i.release
      ∧ (c ≠ hearth → MaySwap { s with firm := { s.firm with cores := s.firm.cores.filter (·.1 != c) } } (nextSwap c) →
          t.firm.activation = some { a with swapped := a.swapped ++ [c], next := nextSwap c } ∧ SwapBegun s t (nextSwap c) i)
      ∧ (c = hearth → (s.flash true).state = 1 →
          t.firm.activation = some { a with swapped := a.swapped ++ [c], next := nextSwap c, marking := some t.firm.record.seq }
          ∧ t.firm.record.preferred = some (if s.firm.runningB then 0 else 1) ∧ (true, t.firm.record) ∈ t.firm.recordQueue ∧ t.firm.running = s.firm.running
          ∧ (s.power.clamp = .hold → t.power.clamp = .off)))
  ∧ (∀ (b : Bool) (r : Record) (a : Activation) (i : Image) (s : State), s.firm.activation = some a → s.firm.staged = some i → a.marking = some r.seq →
      s.firm.recordQueue = [(b, r)] → s.coreUp doorkeeper = true → (∀ e ∈ s.firm.cores, e.2.run ≠ .swapping ∧ e.2.run ≠ .restarting) →
      s.firm.mstate ≠ .warmStart → s.firm.meshNext = none → s.firm.stepDone = false → (∀ c, c < 16 → (s.cluster c).moving = none) →
    Gives .recordWriteDone s fun t => Activated s t i
      ∧ (s.firm.events.length < 250 → ∃ e ∈ t.firm.events, e.opcode = 0x0E80 ∧ e.payload.take 1 = [4] ∧ e.seq = a.seq))
  ∧ (∀ (c : Nat) (a : Activation) (s : State), c < 19 → s.firm.activation = some a → (s.core c).run = .swapping → c ∉ a.swapped → (3 ≤ c → (s.cluster (c - 3)).moving = none) →
    Gives (.swapTimeout c) s fun t => t.firm.activation = none ∧ t.firm.staged = none ∧ t.firm.running = s.firm.running
      ∧ (t.core c).run = .running ∧ (t.core c).sram = sramOf (s.firm.running.section c) ∧ (t.core c).release = s.firm.running.release
      ∧ (∀ k ∈ a.swapped, (s.core k).run = .running → WentOver (s.core k) (t.core k) (sramOf (s.firm.running.section k)) s.firm.running.release)
      ∧ (∀ k, k ∉ a.swapped → k ≠ c → t.core k = s.core k)
      ∧ (t.flash s.otherDevice).image = none ∧ t.firm.mstate ≠ .ready
      ∧ (s.firm.events.length < 250 → ∃ e ∈ t.firm.events, e.opcode = 0x0E80 ∧ e.payload.take 2 = [5, BitVec.ofNat 8 c] ∧ e.status = 10 ∧ e.seq = a.seq))

/-- R66 to R73. -/
def Obligations.FirmwareMessagesTakeEffect : Prop :=
  ∀ (slot core : Nat) (s : State),
    let f := asked s slot
    let seq := ((s.hole slot).req slot).seq
    (Begun s slot core helloBlock none → Gives (.hello slot) s fun t =>
      t.firm.session = some { minor := min ((s.hole slot).req slot).minor 2, map := BitVec.ofNat 256 s.usedFeatures } ∧ t.firm.driverRelease = BitVec.ofNat 32 (f 0 4)
      ∧ Answers t slot .ok (leBytes 4 s.firm.running.release.toNat ++ partName ++ [0xB0, BitVec.ofNat 8 s.firm.mstate.code, 0, 0] ++ leBytes 8 Config.serial.toNat))
    ∧ (∀ x, s.firm.session = some x → Begun s slot core featuresBlock none → Gives (.features slot) s fun t =>
        t.firm.session = some { x with map := BitVec.ofNat 256 (f 0 32) &&& 0xFFF } ∧ Answers t slot .ok (leBytes 32 (f 0 32 % 4096)))
    ∧ (Begun s slot core moduleStatusBlock none → Gives (.moduleStatus slot) s fun t =>
        Answers t slot .ok (leBytes 4 s.stateWord ++ leBytes 4 s.aliveWord ++ leBytes 4 s.firm.running.release.toNat
          ++ leBytes 4 (match s.firm.staged with | some i => i.release.toNat | none => 0) ++ leBytes 2 s.mesh.closed.length ++ leBytes 2 s.mesh.retired.length
          ++ zeros 4 ++ leBytes 8 s.firm.aon)
        ∧ t = { s with firm := { s.firm with holes := t.firm.holes, cores := t.firm.cores }, hosts := t.hosts })
    ∧ (Begun s slot core moduleRestartBlock none → Gives (.moduleRestart slot) s fun t =>
        t.firm.restart = (match s.firm.restart with | some w => some w | none => some (f 0 1 == 1)) ∧ t.firm.mstate = s.firm.mstate ∧ Answers t slot .ok [])
    ∧ (Begun s slot core fwStageBlock none → Gives (.fwStage slot) s fun t =>
        t.firm.staging = some (f 0 8, f 8 4, seq, !s.firm.runningB) ∧ t.firm.staged = none ∧ t.firm.flashA = s.firm.flashA ∧ t.firm.flashB = s.firm.flashB
        ∧ Answers t slot .deferred [])
    ∧ (∀ i, s.firm.staged = some i → Begun s slot core fwActivateBlock none → Gives (.fwActivate slot) s fun t =>
        (s.emergency = true → t.firm.activation = some { seq, started := false } ∧ (∀ k, k ≠ core → t.core k = s.core k) ∧ Answers t slot .deferred [1, 0, 0, 0])
        ∧ (s.emergency = false → MaySwap s 3 → core ≠ 3 → t.firm.activation = some { seq, started := true } ∧ SwapBegun s t 3 i ∧ Answers t slot .deferred [0, 0, 0, 0]))

/-- R6, R9, R10 and the register tables of chapters 02 to 19. -/
def Obligations.RegisterWritesChangeTheirFields : Prop :=
  ∀ (link : Nat) (v : BitVec 32) (s : State), Bar0Open s link →
    Writes s link 0x420000 v (if v.toNat % 1024 = 0 then s else { s with mesh := { s.mesh with ageLimit := v.setWidth 10 } })
    ∧ (∀ c, c < 16 → Writes s link (0x420104 + 16 * c) v (s.modCluster c fun k => { k with maxAge := v.setWidth 10 }))
    ∧ Writes s link 0x430000 v { s with ledgers := { s.ledgers with barrierDelay := BitVec.ofNat 16 (max 4096 (v.toNat % 65536)) } }
    ∧ Writes s link 0x440000 v { s with ledgers := { s.ledgers with rtm := v.getLsbD 0 } }
    ∧ Writes s link 0x450004 v (if v.toNat % 256 = 0 ∨ 168 < v.toNat % 256 then s else { s with mem := { s.mem with period := v.setWidth 8 } })
    ∧ (∀ n, n < 2 → Writes s link (0x460008 + 16 * n) v (if 704 < v.toNat % 1024 then s else s.modLink n fun l => { l with aperture := v.setWidth 10 }))
    ∧ Writes s link 0x460020 v { s with hosts := { s.hosts with mgrLink := v.setWidth 1 } }
    ∧ (∀ n w k, n < 8 → w < 16 → k < 8 → Writes s link (0x461000 + 0x400 * n + 32 * w + 4 * k) v
        (s.modPort n fun p => if p.commit then { p with shadowLost := true } else { p with shadow := fupd {} p.shadow w fun x => x.put k v }))
    ∧ Writes s link 0x491000 v (s.modNet fun n => { n with ruleIndex := v.setWidth 16, ruleBad := n.ruleBad && !v.getLsbD 16 })
    ∧ (∀ k, k < 31 → Writes s link (0x491080 + 4 * k) v (s.modNet fun n => { n with staging := fset n.staging k v }))
    ∧ Writes s link 0x492000 v (if v.toNat % 65536 = 0 ∨ v.toNat % 65536 = 4791 then s else s.modNet fun n => { n with courierUdp := v.setWidth 16 })
    ∧ Writes s link 0x4B0004 v { s with cipher := { s.cipher with latched := s.cipher.latched &&& ~~~(v.extractLsb' 8 5) } }
    ∧ Writes s link 0x4E000C v (s.modIrq fun i => { i with peakW := v.extractLsb' 16 16 })
    ∧ (∀ k, k < 184 → Writes s link (0x4E0100 + 4 * k) v (s.modIrq fun i => { i with tempPeaks := fset i.tempPeaks k (v.extractLsb' 16 16) }))
    ∧ (∀ k, k < 1024 → Writes s link (0x4E1000 + 4 * k) v (s.modIrq fun i => { i with holdoff := fset i.holdoff k (v.setWidth 10) }))
    ∧ (∀ k, k < 64 → Writes s link (0x20008 + 16 * k) v (s.modLink link fun l => { l with msixData := fset l.msixData k v }))
    ∧ (∀ n, n < 32 → v.getLsbD 0 = false → Writes s link (0x1000 + 16 * n) v (s.modHole n fun h => { h with irqEn := v.getLsbD 1 }))
    ∧ (∀ n, n < 32 → Writes s link (0x1004 + 16 * n) v (s.modHole n fun h => { h with done := h.done && !v.getLsbD 1, dropped := h.dropped && !v.getLsbD 2 }))
    ∧ (∀ n o, n < 32 → o < 4096 → o % 4 = 0 → Gives (.registerWrite link (0x1000000 + 4096 * n + o) 4 (v.setWidth 64)) s fun t =>
        (∀ k, k ≠ n → t.hole k = s.hole k) ∧ t = { s with firm := { s.firm with holes := t.firm.holes } }
        ∧ if (s.hole n).busy then t.hole n = { s.hole n with dropped := true }
          else (t.hole n).get o 4 = leBytes 4 v.toNat ∧ t.hole n = { s.hole n with bytes := (t.hole n).bytes })
    ∧ (v.toNat / 65536 ≠ 0xC01D → Writes s link 0xC v s)
    ∧ (∀ o ∈ [0x0, 0x4, 0x8, 0x400000, 0x420010, 0x440004, 0x4D0000, 0x4F0000], Writes s link o v s)
    ∧ (∀ o size w, (size ≠ 4 ∧ size ≠ 8) ∨ o % size ≠ 0 ∨ o = 0x10 ∨ o = 0x300000 → Gives (.registerWrite link o size w) s fun t =>
        (t.link link).urSent = satInc (s.link link).urSent ∧ (∀ k, k ≠ link → t.link k = s.link k) ∧ t = { s with hosts := { s.hosts with links := t.hosts.links } })
    ∧ (∀ o size w n, (s.link n).up = false → Gives (.registerWrite n o size w) s fun t => t = s)

/-- R540 to R548 and R564. -/
def Obligations.SuppliesFollowTheirRules : Prop :=
  (∀ (k : Nat) (high : Bool) (s : State),
    (∃ t, exec (.shedStageEnter k) s = .next t) ∧ (∃ t, exec (.shedStageLeave k) s = .next t) ∧ (∃ t, exec .main48vRise s = .next t)
    ∧ (∃ t, exec .mainOvervoltage s = .next t) ∧ (∃ t, exec .mainRecover s = .next t) ∧ (∃ t, exec .auxLoss s = .next t)
    ∧ (∃ t, exec .auxApply s = .next t) ∧ (∃ t, exec (.mainHighChange high) s = .next t))
  ∧ (∀ (k : Nat) (s : State), 1 ≤ k → k ≤ 4 → s.firm.mstate = .ready → s.power.stages = [] → s.power.throttle = false → s.power.tripped = false →
      s.firm.activation = none →
    Gives (.shedStageEnter k) s fun t => t.power.stages = (List.range k).map (· + 1) ∧ t.power.main = false ∧ t.firm.mstate = .shedding ∧ t.firm.shedFrom = .ready
      ∧ t.power.s1 = satInc s.power.s1 ∧ t.power.s3 = (if 3 ≤ k then satInc s.power.s3 else s.power.s3)
      ∧ t.power.s4 = (if 4 ≤ k then satInc s.power.s4 else s.power.s4)
      ∧ (3 ≤ k → Halter.stage3 ∈ t.mesh.halts) ∧ (k < 3 → t.mesh = s.mesh) ∧ (4 ≤ k → t.power.tclkStopped = true)
      ∧ (∀ p a, k < 4 → (t.tile p).word a = (s.tile p).word a) ∧ t.guests.map (·.1) = s.guests.map (·.1))
  ∧ (∀ s : State, s.firm.mstate ≠ .auxOnly → Gives (.shedStageEnter 5) s fun t =>
      MainOff s t ∧ t.power.main = false ∧ t.cipher.slots = s.cipher.slots ∧ t.cipher.keks = s.cipher.keks)
  ∧ (∀ (k : Nat) (s : State), s.firm.mstate = .auxOnly → Gives (.shedStageEnter k) s fun t => t = s)
  ∧ (∀ (k : Nat) (s : State), k = 1 ∨ k = 2 → s.firm.mstate = .shedding → s.power.stages = [k] → s.power.throttle = false → s.power.tripped = false →
      s.firm.activation = none →
    Gives (.shedStageLeave k) s fun t => t.power.stages = [] ∧ t.firm.mstate = s.firm.shedFrom ∧ t.power.emergencyEnd = some s.firm.aon
      ∧ t.power.main = (s.power.main || k == 1) ∧ t.tiles = s.tiles)
  ∧ (∀ s : State, (s.firm.mstate ≠ .auxOnly → Gives .mainOvervoltage s fun t =>
        MainOff s t ∧ t.power.overvolt = true ∧ t.cipher.slots = s.cipher.slots ∧ t.cipher.keks = s.cipher.keks)
      ∧ (s.firm.mstate = .auxOnly → Gives .mainOvervoltage s fun t => t = { s with power := { s.power with overvolt := true } }))
  ∧ (∀ s : State, s.firm.mstate = .auxOnly → s.power.aux = true →
      (s.power.overvolt = true → Gives .mainRecover s fun t => ColdBegun s t ∧ t.power.overvolt = false ∧ t.power.main = true)
      ∧ (s.power.overvolt = false → Gives .main48vRise s fun t => ColdBegun s t ∧ t.power.main = true)
      ∧ (s.power.overvolt = true → Gives .main48vRise s fun t => t = { s with power := { s.power with main := true } }))
  ∧ (∀ s : State, s.power.aux = true → Gives .auxLoss s fun t => MainOff s t ∧ t.power.aux = false ∧ t.firm.aon = 0 ∧ t.firm.measurement = [] ∧ t.mesh.retired = []
      ∧ t.cipher = {} ∧ t.power.s1 = 0 ∧ t.power.trips = 0 ∧ t.service = {})
  ∧ (∀ s : State, (s.firm.mstate ≠ .auxOnly → Gives .main48vRise s fun t => t = s) ∧ (s.power.overvolt = false → Gives .mainRecover s fun t => t = s)
      ∧ (s.power.aux = false → Gives .auxLoss s fun t => t = s) ∧ (s.power.aux = true → Gives .auxApply s fun t => t = s))
  ∧ (∀ s : State, s.power.aux = false →
      (s.power.main = false → Gives .auxApply s fun t => t.power.aux = true ∧ t.mesh.retired = s.newestRecord.retired ∧ t.firm.record = s.newestRecord
        ∧ t.firm.mstate = s.firm.mstate)
      ∧ (s.power.main = true → s.firm.mstate = .auxOnly → s.power.overvolt = false → Gives .auxApply s fun t => t.power.aux = true ∧ t.firm.mstate = .coldStart))
  ∧ (∀ (h : Bool) (s : State), Gives (.mainHighChange h) s fun t => t = { s with power := { s.power with high := h } })

/-- R544 to R566. -/
def Obligations.HeatAndClocksFollowTheirRules : Prop :=
  (∀ (n : Nat) (b : Bool) (s : State),
    (∃ t, exec (.thermalThrottle n) s = .next t) ∧ (∃ t, exec (.thermalTrip n) s = .next t) ∧ (∃ t, exec (.thermalClear b) s = .next t)
    ∧ (∃ t, exec (.hearthLoop n) s = .next t) ∧ (∃ t, exec .divisorChange s = .next t) ∧ (∃ t, exec (.refclkFail b) s = .next t)
    ∧ (∃ t, exec .pllLockTimeout s = .next t) ∧ (∃ t, exec .pllLockAcquired s = .next t) ∧ (∃ t, exec .pllLockHeld s = .next t)
    ∧ (∃ t, exec .aonReturn s = .next t) ∧ (∃ t, exec (.crossingFallback n) s = .next t) ∧ (∃ t, exec (.crossingResync n) s = .next t))
  ∧ (∀ (n : Nat) (trip : Bool) (s : State), n < 184 → s.firm.mstate ≠ .auxOnly →
    ∀ c, (c = .thermalTrip n ∧ trip = true ∨ c = .thermalThrottle n ∧ trip = false) →
    Gives c s fun t => t.power.throttle = true ∧ t.power.tripped = (s.power.tripped || trip)
      ∧ t.power.trips = (if trip ∧ s.power.tripped = false then satInc s.power.trips else s.power.trips)
      ∧ (s.firm.mstate = .ready → s.stage = 0 → t.firm.mstate = .shedding ∧ t.firm.shedFrom = .ready))
  ∧ (∀ (trip : Bool) (s : State), s.firm.mstate = .shedding → s.power.stages = [] → s.power.tripped = false → s.power.throttle = true → s.firm.activation = none →
    Gives (.thermalClear trip) s fun t => t.power.throttle = false ∧ t.power.tripped = false ∧ t.firm.mstate = s.firm.shedFrom ∧ t.power.emergencyEnd = some s.firm.aon)
  ∧ (∀ (watts : Nat) (s : State), s.coreUp hearth = true → s.firm.mstate ≠ .auxOnly → s.power.clamp ≠ .safe →
    let cap := [5200, 4600, 4000, 3400, 2600, 1500].getD s.power.selected 1500
    let base := [4, 4, 5, 6, 8, 16].getD s.power.selected 16
    let order := [4, 5, 6, 8, 16]
    ∀ i, i < 5 → s.power.loopDiv = order.getD i 0 →
    Gives (.hearthLoop watts) s fun t => t.power.profile = s.power.selected
      ∧ t.power.loopDiv = (if cap < watts then max base (order.getD (min 4 (i + 1)) 0)
          else if 100 * watts < 95 * cap ∧ 99 ≤ s.power.below then max base (order.getD (i - 1) 0) else max base (order.getD i 0))
      ∧ (∀ d, d = max t.power.loopDiv (if s.stage = 0 then 4 else if s.stage = 1 then 5 else 8) →
          t.power.decided = if d = s.power.divisor then none else some d)
      ∧ t.power.divisor = s.power.divisor ∧ t = { s with power := t.power })
  ∧ (∀ (d : Nat) (s : State), s.power.decided = some d → Gives .divisorChange s fun t => t.power = { s.power with divisor := d, decided := none }
      ∧ (∀ j x, fget s.jobs j = some x → x.live = true → x.timed = true → ∃ y, fget t.jobs j = some y ∧ y.broken = true)
      ∧ t = { s with power := t.power, jobs := t.jobs, ledgers := t.ledgers })
  ∧ (∀ (stopped : Bool) (s : State), s.power.aux = true → Gives (.refclkFail stopped) s fun t =>
      t.power.aonBackup = true ∧ t.power.refclk = (s.power.refclk && !stopped) ∧ t.power.rootLock = (s.power.rootLock && !stopped)
      ∧ t.power.lockLosses = (if stopped ∧ s.power.rootLock then satInc s.power.lockLosses else s.power.lockLosses)
      ∧ t.cipher.active.getLsbD 1 = true)
  ∧ (∀ s : State, s.power.rootLock = false → s.firm.mstate ≠ .auxOnly → Gives .pllLockTimeout s fun t =>
      MainOff s t ∧ t.power.lockS5 = true ∧ t.cipher.slots = s.cipher.slots ∧ t.cipher.keks = s.cipher.keks)
  ∧ (∀ s : State, Gives .pllLockAcquired s fun t => t = { s with power := { s.power with rootLock := true, refclk := true } })
  ∧ (∀ s : State, s.power.lockS5 = true → s.power.rootLock = true →
      (s.power.main = false → Gives .pllLockHeld s fun t => t = { s with power := { s.power with lockS5 := false } })
      ∧ (s.power.main = true → s.firm.mstate = .auxOnly → s.power.aux = true → s.power.overvolt = false → Gives .pllLockHeld s fun t => ColdBegun s t))
  ∧ (∀ s : State, Gives .aonReturn s fun t => t = { s with power := { s.power with aonBackup := false, refclk := true } })
  ∧ (∀ (x : Nat) (s : State), s.firm.mstate ≠ .auxOnly → x ∉ s.power.onFallback → Gives (.crossingFallback x) s fun t =>
      t = { s with power := { s.power with onFallback := s.power.onFallback ++ [x], fallbacks := satInc s.power.fallbacks } })
  ∧ (∀ (x : Nat) (s : State), Gives (.crossingResync x) s fun t => t = { s with power := { s.power with onFallback := s.power.onFallback.filter (· != x) } })
  ∧ (∀ (slot core : Nat) (s : State), Begun s slot core powerProfileBlock none → Gives (.powerProfile slot) s fun t =>
      t.power = { s.power with selected := asked s slot 0 1 } ∧ Answers t slot .ok [])

/-- R571. -/
def Obligations.FicCompleteRestartsTheWatchdog : Prop :=
  ∀ (core source : Nat) (s : State), core < 19 → source < 64 → s.coreUp core = true →
    Gives (.ficComplete core source) s fun t => (t.core core).watchdog = s.firm.aon ∧ (∀ k, k ≠ core → (t.core k).watchdog = (s.core k).watchdog)
      ∧ ∀ u : State, (u.core core).watchdog = (t.core core).watchdog → u.firm.aon < s.firm.aon + watchdogPeriod core →
        exec (.watchdogExpire core) u = .next u

/-- R567 to R570. -/
def Obligations.InterruptControllersFollowTheirRules : Prop :=
  let only := fun (s t : State) (core : Nat) (c : Core) =>
    t.core core = c ∧ (∀ k, k ≠ core → t.core k = s.core k) ∧ t = { s with firm := { s.firm with cores := t.firm.cores } }
  let fires := fun (c : Core) (source : Nat) =>
    let p := c.pend ||| BitVec.ofNat 64 (2 ^ source)
    { c with pend := p, asleep := c.asleep && (p &&& ~~~c.act &&& c.enable == 0) }
  (∀ (core source : Nat) (s : State), core < 19 → source < 64 → s.corePowered core = true →
    Gives (.ficSourceFire core source) s fun t => only s t core (fires (s.core core) source))
  ∧ (∀ s : State, Gives .ficTick s fun t =>
      (∀ c, t.core c = if c < 19 ∧ s.corePowered c = true then fires (s.core c) 2 else s.core c)
        ∧ t = { s with firm := { s.firm with cores := t.firm.cores } })
  ∧ (∀ (core i : Nat) (s : State), core < 19 → s.coreUp core = true → i < 64 →
      let c := s.core core
      let due := c.pend &&& ~~~c.act &&& c.enable
      due.getLsbD i = true → (∀ j, j < i → due.getLsbD j = false) →
    Gives (.ficClaim core) s fun t => only s t core
      { c with pend := c.pend &&& ~~~BitVec.ofNat 64 (2 ^ i), act := c.act ||| BitVec.ofNat 64 (2 ^ i) })
  ∧ (∀ (core : Nat) (s : State), core < 19 → s.coreUp core = true → (s.core core).pend &&& ~~~(s.core core).act &&& (s.core core).enable = 0 →
    Gives (.ficClaim core) s fun t => only s t core (s.core core))
  ∧ (∀ (core source : Nat) (s : State), core < 19 → source < 64 → s.coreUp core = true →
      let c := s.core core
      let a := c.act &&& ~~~BitVec.ofNat 64 (2 ^ source)
    Gives (.ficComplete core source) s fun t => only s t core
      { c with act := a, watchdog := s.firm.aon, asleep := c.asleep && (c.pend &&& ~~~a &&& c.enable == 0) })
  ∧ (∀ (core : Nat) (s : State), core < 19 → s.coreUp core = true →
      let c := s.core core
      c.mask = false → c.pend &&& ~~~c.act &&& c.enable ≠ 0 → c.ctx.shadow = none → c.ctx.rep = none → c.ctx.stopped = false →
    Gives (.ficInterruptTake core) s fun t => only s t core
      { c with epc := BitVec.ofNat 48 c.ctx.pc, mask := true, asleep := false, ctx := { c.ctx with pc := 0x100, waiting := none } })

/-- R575 to R582. -/
def Obligations.GuestInterruptsFollowTheirRules : Prop :=
  (∀ (v : Nat) (val : BitVec 64) (s : State), v < 8192 → s.firm.mstate ≠ .auxOnly →
      let is := fun (t : State) (e : Vector) => t.vector v = e ∧ (∀ w, w ≠ v → t.vector w = s.vector w)
        ∧ t = { s with irq := { s.irq with vectors := t.irq.vectors } }
      Gives (.imsWrite v 0 8 val) s (fun t => is t { s.vector v with addr := val.extractLsb' 2 62 })
      ∧ Gives (.imsWrite v 8 4 val) s (fun t => is t { s.vector v with data := val.setWidth 32 })
      ∧ ((s.vector v).mask = false ∨ (s.vector v).pending = false ∨ val.getLsbD 0 = true →
          Gives (.imsWrite v 12 4 val) s fun t => is t { s.vector v with mask := val.getLsbD 0 })
      ∧ (∀ g, (s.vector v).mask = true → (s.vector v).pending = true → val.getLsbD 0 = false → fget s.irq.timers (v / 8) = none →
          s.holder (v / 8) = some g → (s.link (s.guest g).link).open = true → (s.link (s.guest g).link).l1 = false → (s.link (s.guest g).link).held = [] →
          Gives (.imsWrite v 12 4 val) s fun t => GroupSent (s.modVector v fun e => { e with mask := false }) t (v / 8) g
            ∧ t = { s with irq := { s.irq with vectors := t.irq.vectors }, hosts := { s.hosts with links := t.hosts.links } }))
  ∧ (∀ (k us g : Nat) (s : State), fget s.irq.timers k = some us → s.holder k = some g → s.dueVectors k ≠ [] →
      let n := (s.guest g).link
      let l := s.link n
      let held := fun (t : State) => t.irq = { s.irq with timers := fdel s.irq.timers k, expired := addTo s.irq.expired k } ∧ (∀ m, m ≠ n → t.link m = s.link m)
        ∧ t = { s with irq := t.irq, hosts := { s.hosts with links := t.hosts.links } }
      (l.open = true → l.l1 = false → l.held = [] → Gives (.holdoffExpire k) s fun t => GroupSent s t k g
        ∧ t = { s with irq := { s.irq with timers := fdel s.irq.timers k, vectors := t.irq.vectors }, hosts := { s.hosts with links := t.hosts.links } })
      ∧ (l.up = false → Gives (.holdoffExpire k) s fun t => held t ∧ t.link n = l)
      ∧ (l.up = true → l.d3hot = true → Gives (.holdoffExpire k) s fun t => held t
          ∧ t.link n = if l.pmeEn then { l with pmeStatus := true, sent := l.sent ++ [.pme] } else l)
      ∧ (l.up = true → l.d3hot = false → l.bme = false → Gives (.holdoffExpire k) s fun t => held t ∧ t.link n = l)
      ∧ (l.open = true → l.l1 = true → Gives (.holdoffExpire k) s fun t => held t ∧ t.link n = { l with exiting := true }))
  ∧ (∀ (k us : Nat) (s : State), fget s.irq.timers k = some us → s.holder k = none ∨ s.dueVectors k = [] →
    Gives (.holdoffExpire k) s fun t => t = { s with irq := { s.irq with timers := fdel s.irq.timers k } })
  ∧ (∀ (n k g : Nat) (s : State), n < 2 → (s.link n).exiting = true → (s.link n).open = true → (s.link n).held = [] → (s.link n).msixPending = [] →
      s.irq.expired = [k] → k < 1024 → s.holder k = some g → (s.guest g).link = n →
    Gives (.l1ExitDone n) s fun t => GroupSent s t k g ∧ (t.link n).l1 = false ∧ (t.link n).exiting = false ∧ t.irq.expired = []
      ∧ t = { s with irq := { s.irq with expired := [], vectors := t.irq.vectors }, hosts := { s.hosts with links := t.hosts.links } })
  ∧ (∀ (n : Nat) (s : State), n < 2 → (s.link n).up = true → (s.link n).d3hot = true → (s.link n).pmeEn = true → (s.link n).pmeStatus = true →
    Gives (.pmeRepeat n) s fun t => t.link n = { s.link n with sent := (s.link n).sent ++ [.pme] } ∧ (∀ m, m ≠ n → t.link m = s.link m)
      ∧ t = { s with hosts := { s.hosts with links := t.hosts.links } })

/-- R584 to R589. -/
def Obligations.SensorsAndTelemetryFollowTheirRules : Prop :=
  (∀ (main aux watts : BitVec 16) (temps : List (BitVec 16)) (s : State), s.power.aux = true →
    let hot := fun (s : State) => ∃ k, k < 16 ∧ (s.stack k).hot = true
    Gives (.sensorSample main aux watts temps) s fun t => t.irq.mainTenMv = main ∧ t.irq.auxMv = aux ∧ t.irq.inputW = watts
      ∧ t.irq.peakW.toNat = max s.irq.peakW.toNat watts.toNat ∧ t.power = { s.power with main := decide (4500 < main.toNat) }
      ∧ (∀ k, fget t.irq.temps k = if k < 184 ∧ k < temps.length then temps[k]? else fget s.irq.temps k)
      ∧ (∀ k x, k < 184 → temps[k]? = some x → fget t.irq.tempPeaks k = some (match fget s.irq.tempPeaks k with
          | some p => if p.toInt < x.toInt then x else p | none => x))
      ∧ (∀ k, k < 16 → t.stack k = match temps[168 + k]? with | some x => { s.stack k with hot := decide (85 * 16 < x.toInt) } | none => s.stack k)
      ∧ t = { s with irq := { s.irq with mainTenMv := main, auxMv := aux, inputW := watts, peakW := t.irq.peakW, temps := t.irq.temps, tempPeaks := t.irq.tempPeaks },
                     power := t.power, mem := { s.mem with stackCtl := t.mem.stackCtl }, jobs := t.jobs, ledgers := t.ledgers }
      ∧ ((hot t ↔ hot s) → t.jobs = s.jobs ∧ t.ledgers = s.ledgers)
      ∧ (¬ (hot t ↔ hot s) → ∀ j x, fget s.jobs j = some x → x.live = true → x.timed = true → ∃ y, fget t.jobs j = some y ∧ y.broken = true))
  ∧ (∀ s : State, RingTakes s 8 → s.irq.teleSensorMs ≠ 0 →
    Gives .teleSensorBatch s fun t => RecordsSent s t 8 fun k rec =>
      (k < 7 → field rec 0 1 = 1 ∧ field rec 2 2 = 28 * k
        ∧ ∀ j, j < 28 → field rec (8 + 2 * j) 2 = if 28 * k + j < 184 then (fgetD 0 s.irq.temps (28 * k + j)).toNat else 0)
      ∧ (k = 7 → field rec 0 1 = 3 ∧ field rec 2 2 = 0 ∧ field rec 8 2 = s.irq.mainTenMv.toNat ∧ field rec 10 2 = s.irq.auxMv.toNat
        ∧ field rec 12 2 = s.irq.inputW.toNat ∧ field rec 14 1 = s.stage ∧ field rec 15 1 = [4, 5, 6, 8].findIdx (· == s.power.divisor)))
  ∧ (∀ s : State,
      let ps := (List.range 32).filter (s.irq.telePorts.getLsbD ·)
      s.irq.teleQueueUs ≠ 0 → s.net.time.toNat % s.irq.teleQueueUs = 0 → RingTakes s (15 * ps.length) →
    Gives .teleQueueBatch s fun t => RecordsSent s t (15 * ps.length) fun r rec => ∃ p, ps[r / 15]? = some p ∧ field rec 0 1 = 2 ∧ field rec 2 2 = p
      ∧ ∀ j, j < 7 →
        let q := 7 * (r % 15) + j
        let x := fgetD (0, 0) (s.egress p).sample q
        field rec (8 + 8 * j) 3 = (if q < 104 then x.1 % 2 ^ 24 else 0) ∧ field rec (11 + 8 * j) 1 = (if q < 104 then q else 0)
          ∧ field rec (12 + 8 * j) 3 = (if q < 104 then x.2 % 2 ^ 24 else 0) ∧ field rec (15 + 8 * j) 1 = 0)
  ∧ (∀ s : State, s.irq.teleRunning = true → s.irq.teleSensorMs ≠ 0 → 4 ≤ s.stage ∨ s.firm.mstate = .warmStart ∨ s.irq.teleEntries ≤ s.irq.teleUsed →
    Gives .teleSensorBatch s fun t => t.irq = { s.irq with teleLost := satAdd s.irq.teleLost 8, teleMark := true }
      ∧ t = (s.modIrq fun _ => t.irq).msix s.irq.teleVector)
  ∧ (∀ (slot core : Nat) (s : State), Begun s slot core teleRingBlock none →
      let f := asked s slot
      (f 0 1 = 0 → Gives (.teleRing slot) s fun t => Answers t slot .ok [] ∧ t.irq = { s.irq with
          teleRunning := true, teleHead := 0, teleVector := f 1 1, teleEntries := f 2 2, telePorts := BitVec.ofNat 32 (f 4 4), teleBase := f 8 8,
          teleSensorMs := f 16 2, teleQueueUs := f 18 2, teleTail := 0, teleUsed := 0, telePhase := true })
      ∧ (f 0 1 = 1 → Gives (.teleRing slot) s fun t => Answers t slot .ok [] ∧ t.irq = { s.irq with teleRunning := false }))

/-- R339 to R354. -/
def Obligations.UpstreamLinksFollowTheirRules : Prop :=
  (∀ (n tag : Nat) (st : CplStatus) (b : List Byte) (s : State), n < 2 → (s.link n).up = true →
      let l := s.link n
      (fget l.outstanding tag = none → Gives (.completionArrive n tag st b) s fun t =>
        LinkBecomes s t n { l with late := satInc l.late, aer := l.aer ||| 0x10000, aerCor := l.aerCor ||| 0x2000 })
      ∧ (∀ pasid a len why o, fget l.outstanding tag = some o → o.tx = .read pasid a len why →
          let s1 := s.modLink n fun l => { l with outstanding := fdel l.outstanding tag }
          let s2 := (if st = .poisoned then s.modLink n fun l => { l with aer := l.aer ||| 0x1000 } else s).modLink n fun l => { l with
            outstanding := fdel l.outstanding tag }
          let gives := fun (u : State) => Gives (.completionArrive n tag st b) s fun t => t = u.modLink n (·.flush)
          let data := (o.got ++ b).take len
          (st = .success → o.got.length + b.length < len → Gives (.completionArrive n tag st b) s fun t =>
            LinkBecomes s t n { l with outstanding := fset l.outstanding tag { o with got := o.got ++ b } })
          ∧ ((∀ id i, why ≠ .piece id i) →
            (st = .success → len ≤ o.got.length + b.length → gives (s1.readDone why (some data))) ∧ (st ≠ .success → gives (s2.readDone why none)))
          ∧ ∀ id i x, why = .piece id i → fget l.splits id = some x →
            (st = .success → len ≤ o.got.length + b.length → 1 < x.left →
              gives (s1.modLink n fun l => { l with splits := fset l.splits id { x with left := x.left - 1, parts := fset x.parts i data } }))
            ∧ (st = .success → len ≤ o.got.length + b.length → x.left = 1 →
              gives ((s1.modLink n fun l => { l with splits := fdel l.splits id }).readDone x.why (some ((fset x.parts i data).flatMap (·.2)))))
            ∧ (st ≠ .success → gives ((s2.modLink n fun l => { l with
                splits := fdel l.splits id, held := l.held.filter fun t => !t.ofSplit id }).readDone x.why none))))
  ∧ (∀ (n tag : Nat) (s : State), n < 2 →
      let l := s.link n
      (∀ pasid a len why o, fget l.outstanding tag = some o → o.tx = .read pasid a len why → (∀ id i, why ≠ .piece id i) → Gives (.completionTimeout n tag) s fun t =>
        t = (s.modLink n fun l => { l with
          outstanding := fdel l.outstanding tag, quarantine := fset l.quarantine tag o.timeoutMs,
          timeouts := satInc l.timeouts, aer := l.aer ||| 0x4000, aerCor := l.aerCor ||| 0x2000 }).readDone why none)
      ∧ (l.held = [] → Gives (.quarantineExpire n tag) s fun t => LinkBecomes s t n { l with quarantine := fdel l.quarantine tag }))
  ∧ (∀ (n : Nat) (down : Bool) (s : State), n < 2 → (s.link n).up = true → (s.link n).outstanding = [] → (s.link n).held = [] →
      (∀ e ∈ s.guests, e.2.log = none) →
    Gives (.linkReset n down) s fun t => t.link n = { s.link n with
          up := !down, speed := if down then 0 else (s.link n).speed, width := if down then 0 else (s.link n).width, d3hot := false, bme := false,
          mse := false, l1 := false, aspm := false, exiting := false, pmeEn := false, pmeStatus := false, cto := 0, mrrs := 2, config := [], msixEnable := false,
          msixMaskAll := false, aer := 0, aerCor := 0, quarantine := [] }
      ∧ (∀ m, m ≠ n → t.link m = s.link m)
      ∧ t.irq = { s.irq with teleRunning := s.irq.teleRunning && decide (n ≠ s.mgr) }
      ∧ t = { s with irq := t.irq, hosts := { s.hosts with links := t.hosts.links } })
  ∧ (∀ (n sp w : Nat) (s : State), n < 2 → s.firm.mstate ≠ .auxOnly → (s.link n).up = false →
      let early := s.firm.mstate = .coldStart ∧ s.firm.startStep.toNat ≤ 1
      (¬ early → Gives (.upstreamLinkUp n sp w) s fun t =>
        LinkBecomes s t n { s.link n with up := true, speed := BitVec.ofNat 3 sp, width := BitVec.ofNat 5 w })
      ∧ (early → Gives (.upstreamLinkUp n sp w) s fun t => t = s))
  ∧ (∀ (n : Nat) (s : State), n < 2 → (s.link n).up = true → (s.link n).aspm = true → (s.link n).d3hot = false → (s.link n).outstanding = [] →
      (s.link n).held = [] → Gives (.aspmL1Entry n) s fun t => LinkBecomes s t n { s.link n with l1 := true })
  ∧ (∀ (n : Nat) (v : BitVec 32) (s : State), n < 2 → (s.link n).up = true →
      let l := s.link n
      let reads := fun (dw : Nat) (x : BitVec 32) => Gives (.configAccess n false (4 * dw) 4 v) s fun t =>
        LinkBecomes s t n { l with sent := l.sent ++ [.completion (leBytes 4 x.toNat) .success] }
      reads 0 0x43521F6E ∧ reads 2 0x120000B0 ∧ reads 11 (l.ssid ++ l.svid) ∧ reads 12 0
      ∧ (∀ dw ∈ [0, 2, 11, 12], Gives (.configAccess n true (4 * dw) 4 v) s fun t => LinkBecomes s t n { l with sent := l.sent ++ [.completion [] .success] })
      ∧ (l.held = [] → l.msixPending = [] → s.irq.expired = [] → Gives (.configAccess n true 4 4 v) s fun t =>
          LinkBecomes s t n { l with mse := v.getLsbD 1, bme := v.getLsbD 2, config := (t.link n).config, sent := l.sent ++ [.completion [] .success] })
      ∧ (l.held = [] → l.msixPending = [] → s.irq.expired = [] →
          ∀ e ∈ [(4, (0xFC000004 : BitVec 32)), (5, 0xFFFFFFFF), (6, 0xFC000004), (7, 0xFFFFFFFF), (8, 0xC), (9, 0xFFFFFFF0)],
            Gives (.configAccess n true (4 * e.1) 4 0xFFFFFFFF) s fun t => t.configRead n e.1 = e.2
              ∧ LinkBecomes s t n { l with config := (t.link n).config, sent := l.sent ++ [.completion [] .success] })
      ∧ (∀ w off size, size = 0 ∨ 4 < off % 4 + size ∨ 4096 ≤ off → Gives (.configAccess n w off size v) s fun t =>
          LinkBecomes s t n { l with urSent := satInc l.urSent, aer := l.aer ||| 0x100000, sent := l.sent ++ [.completion [] .ur] }))
  ∧ (∀ (n off len : Nat) (b : List Byte) (s : State), n < 2 → (s.link n).up = true → 0 < len → len ≤ 512 → off + len ≤ 2 ^ 36 →
      let l := s.link n
      let a := l.aperture.toNat * 2 ^ 30 + off
      let refused := fun (read : Bool) (t : State) => LinkBecomes s t n { l with
        urSent := satInc l.urSent, aer := l.aer ||| 0x100000, sent := if read then l.sent ++ [.completion [] .ur] else l.sent }
      (l.mse = true → l.d3hot = false →
        (s.rangeStatus a len = .ok → Gives (.bar4Access n false off len b) s fun t =>
          (t.link n).sent = l.sent ++ [.completion (s.memBytes a len) .success] ∧ t.mem.cells = s.mem.cells ∧ (∀ m, m ≠ n → t.link m = s.link m) ∧ t.tiles = s.tiles)
        ∧ (b.length = len → s.rangeStatus a len ≠ .hole → Gives (.bar4Access n true off len b) s fun t =>
            let u := s.memWrite a b (.upstream n)
            t = { u with jobs := t.jobs, ledgers := t.ledgers }
            ∧ (∀ j x, fget s.jobs j = some x → x.timed = false → fget t.jobs j = some x)
            ∧ (∀ j x, fget s.jobs j = some x → x.live = true → x.timed = true → (∃ e ∈ s.guests, e.1 = x.guest ∧ ∃ r ∈ e.2.ranges, overlaps a len r.1 r.2 = true) →
                ∃ y, fget t.jobs j = some y ∧ y.broken = true)
            ∧ (s.Sound → MergesOk s → a + len ≤ stackTop → (∀ i, i < len → s.wordStatus (a + i) = .ok) → WritesNow s (.upstream n) a len →
                ∀ i, i < len → reads t (a + i) = some (b.getD i 0)))
        ∧ (b.length = len → s.rangeStatus a len = .hole → Gives (.bar4Access n true off len b) s (refused false)))
      ∧ (l.mse = false ∨ l.d3hot = true → ∀ w, Gives (.bar4Access n w off len b) s (refused (!w))))
  ∧ (∀ (n : Nat) (r : BadRequest) (s : State), n < 2 → (s.link n).up = true →
      let l := s.link n
      let count := fun (answer : Bool) => Gives (.unsupportedHostRequest n r) s fun t => LinkBecomes s t n { l with
        urSent := satInc l.urSent, aer := l.aer ||| 0x100000, sent := if answer then l.sent ++ [.completion [] .ur] else l.sent }
      (r = .vendorType1 → Gives (.unsupportedHostRequest n r) s fun t => t = s) ∧ (r = .vendorType0 → count false)
      ∧ (r = .memOutside true ∨ r = .bar2 true → count false)
      ∧ (r ≠ .vendorType0 → r ≠ .vendorType1 → r ≠ .memOutside true → r ≠ .bar2 true → count true))

/-- R358 to R364. -/
def Obligations.SlotsFollowTheirRules : Prop :=
  ∀ (n : Nat) (s : State), PlainPort s n →
    let p := s.port n
    let off := fun (st : SlotState) => Cut (Unpowered { p with state := st })
    (∀ b, p.contained = true ∨ p.present = b → Gives (.slotPresenceChange n b) s fun t => PortBecomes s t n { p with present := b })
    ∧ (p.contained = false →
      (p.present = false → p.state = .empty → Gives (.slotPresenceChange n true) s fun t => PortBecomes s t n { p with present := true, state := .off })
      ∧ (p.present = true → p.powerEn = false → p.state = .off ∨ p.state = .fault → Gives (.slotPresenceChange n false) s fun t =>
          PortMoves s t n { p with present := false, state := .empty } False [])
      ∧ (p.present = true → p.powerEn = true → Gives (.slotPresenceChange n false) s fun t =>
          PortMoves s t n { off .empty with present := false } False [(4, 0, 0, 0, 0)])
      ∧ (p.state = .off ∨ p.state = .on → Gives (.slotButtonPress n) s fun t => PortBecomes s t n { p with before := p.state, state := .buttonWait })
      ∧ (p.state = .buttonWait → Gives (.slotButtonPress n) s fun t => PortBecomes s t n { p with state := p.before } [(1, p.before.code, 0, 0, 0)])
      ∧ (p.powerEn = true → Gives (.slotPowerFault n) s fun t => PortMoves s t n (off .fault) True [(5, 7, 0, p.onSeq.getD 0, 10)]))
    ∧ (p.state = .buttonWait →
      (p.before = .on → Gives (.slotButtonTimeout n) s fun t => PortBecomes s t n { p with state := .requested } [(0, 5, 0, 0, 0)])
      ∧ (p.before ≠ .on → Gives (.slotButtonTimeout n) s fun t => PortBecomes s t n (Powering p none)))
    ∧ (p.powerEn = true →
        p.probing = true ∨ p.state = .powering ∨ p.state = .resetting ∨ (p.contained = true ∧ p.state = .off) ∨ (p.state = .frozen ∧ p.releaseSeq ≠ none) →
      Gives (.slotPowerGood n) s (fun t => PortBecomes s t n { p with powerGood := true })
      ∧ (p.powerGood = true → Gives (.slotPerstRelease n) s fun t => PortBecomes s t n { p with perstHigh := true })
      ∧ (∀ sp w tag, p.perstHigh = true →
          let free := fun (tag : Nat) => tag < 1024 ∧ fget p.outstanding tag = none ∧ fget p.quarantine tag = none
          free tag → (∀ j, j < tag → ¬ free j) →
        Gives (.slotLinkUp n sp w) s fun t => PortBecomes s t n { p with
          linkUp := true, probing := true, speed := BitVec.ofNat 3 sp, width := BitVec.ofNat 4 w,
          state := if p.contained = true ∧ p.state = .off then .on else p.state,
          outstanding := fset p.outstanding tag { tx := .read none 0 4 .other, timeoutMs := 40 } })
      ∧ (∀ sp w, p.perstHigh = true → (∀ j, j < 1024 → fget p.outstanding j ≠ none ∨ fget p.quarantine j ≠ none) →
        Gives (.slotLinkUp n sp w) s fun t => PortBecomes s t n { p with
          linkUp := true, probing := true, speed := BitVec.ofNat 3 sp, width := BitVec.ofNat 4 w,
          state := if p.contained = true ∧ p.state = .off then .on else p.state, held := p.held ++ [.read none 0 4 .other] })
      ∧ (∀ cap, p.linkUp = true →
          let on := { p with state := .on, probing := false, outstanding := [], onSeq := none, releaseSeq := none }
          (p.cxl = false → Gives (.slotEnumerated n cap) s fun t => PortMoves s t n on False
            (if p.state = .frozen then [(7, 4, 0, p.releaseSeq.getD 0, 0)] else if p.contained = true then [] else [(2, 4, 0, p.onSeq.getD 0, 0)]))
          ∧ (p.cxl = true → s.firm.mstate = .ready → s.mem.regions = [] → Gives (.slotEnumerated n cap) s fun t => t.port n = on
            ∧ t.cellar n = { s.cellar n with present := true, capacity := min cap 1024, releasing := false, released := false, lost := false, targets := [], switched := 0, copied := 0 }
            ∧ ∀ i, fget t.mem.regions (1024 * n + i) = if i < min cap 1024 then some { device := some n, devRegion := i, port := n } else none))
      ∧ (p.linkUp = false →
          (p.state = .powering → Gives (.slotPowerTimeout n) s fun t => PortMoves s t n (off .fault) True [(5, 7, 0, p.onSeq.getD 0, 10)])
          ∧ (p.state = .resetting → Gives (.slotPowerTimeout n) s fun t => PortMoves s t n (off .fault) True [(9, 7, p.freezeCause.toNat, 0, 0)])
          ∧ (p.state = .frozen → Gives (.slotPowerTimeout n) s fun t =>
              PortBecomes s t n { p with releaseSeq := none, perstHigh := false } [(7, 8, 0, p.releaseSeq.getD 0, 10)])))

/-- R362 to R372. -/
def Obligations.PortsFollowTheirRules : Prop :=
  (∀ (n cause : Nat) (s : State), PlainPort s n → 1 ≤ cause → cause ≤ 8 →
    let p := s.port n
    let times := p.triggers.filter (fun t => s.firm.aon < t + 60 * 25000000) ++ [s.firm.aon]
    let noted := { p with freezeCause := BitVec.ofNat 4 cause, timeouts := if cause = 4 then satInc p.timeouts else p.timeouts }
    let counted := { noted with triggers := times, recoveries := satInc p.recoveries }
    let only := fun (q : Port) => Gives (.freezeTrigger n cause) s fun t => PortBecomes s t n q
    (p.contained = true →
      (p.state ≠ .frozen → Gives (.freezeTrigger n cause) s fun t =>
        PortMoves s t n (Cut { counted with state := .frozen, releaseSeq := none }) True [(6, 8, cause, 0, 0)])
      ∧ (p.state = .frozen → only p))
    ∧ (p.contained = false →
      let inUse := p.state = .on ∨ p.state = .requested ∨ (p.state = .buttonWait ∧ p.before = .on)
      (inUse →
        let r := Cut { counted with state := .resetting, perstHigh := false }
        (times.length < 3 → Gives (.freezeTrigger n cause) s fun t => PortBecomes s t n r [(8, 9, cause, 0, 0)])
        ∧ (3 ≤ times.length → Gives (.freezeTrigger n cause) s fun t =>
            PortMoves s t n (Unpowered { r with state := .fault }) True [(8, 9, cause, 0, 0), (9, 7, cause, 0, 0)]))
      ∧ (p.state = .resetting →
        (times.length < 3 → only { noted with triggers := times })
        ∧ (3 ≤ times.length → p.powerEn = true → Gives (.freezeTrigger n cause) s fun t =>
            PortMoves s t n (Cut (Unpowered { noted with triggers := times, state := .fault })) True [(9, 7, cause, 0, 0)]))
      ∧ (¬ inUse → p.state ≠ .resetting → only noted)))
  ∧ (∀ (n tag : Nat) (b : List Byte) (s : State), n < 8 →
    let p := s.port n
    let freezes := fun (c : Instr) (cause : Nat) (s1 : State) => Gives c s fun t => exec (.freezeTrigger n cause) s1 = .next t
    (p.linkUp = true →
      (∀ st, fget p.outstanding tag = none → freezes (.completionArrive (2 + n) tag st b) 5 s)
      ∧ (∀ o, fget p.outstanding tag = some o →
          let free := s.modPort n fun p => ({ p with outstanding := fdel p.outstanding tag } : Port).flush
          Gives (.completionArrive (2 + n) tag .success b) s (fun t => t =
            if o.tx.length ≤ o.got.length + b.length then free else s.modPort n fun p => { p with outstanding := fset p.outstanding tag { o with got := o.got ++ b } })
          ∧ freezes (.completionArrive (2 + n) tag .ca b) 8 free ∧ freezes (.completionArrive (2 + n) tag .poisoned b) 2 free))
    ∧ (∀ o, fget p.outstanding tag = some o → freezes (.completionTimeout (2 + n) tag) 4
        (s.modPort n fun p => { p with outstanding := fdel p.outstanding tag, quarantine := fset p.quarantine tag o.timeoutMs }))
    ∧ Gives (.quarantineExpire (2 + n) tag) s (fun t => PortBecomes s t n ({ p with quarantine := fdel p.quarantine tag } : Port).flush
        ∧ (p.held = [] → t.port n = { p with quarantine := fdel p.quarantine tag })
        ∧ ∀ tx r, p.held = tx :: r → tag < 1024 → fget p.outstanding tag = none → (∀ j, j < tag → fget p.outstanding j ≠ none ∨ fget p.quarantine j ≠ none) →
            (t.port n).held = r ∧ fget (t.port n).outstanding tag = some { tx, timeoutMs := 40 }))
  ∧ (∀ (n a len : Nat) (b : List Byte) (s : State), n < 8 → 2 ^ 63 ≤ a → 0 < len →
    let p := s.port n
    p.linkUp = true → p.draining = false → p.state ≠ .frozen →
    (b.length = len → Gives (.peerRequest n true a len b) s fun t => t = s)
    ∧ Gives (.peerRequest n false a len b) s fun t => (∃ x, x.length = len ∧ t.port n = { p with sent := p.sent ++ [.completion x .success] })
        ∧ (∀ j, j ≠ n → t.port j = s.port j) ∧ t = { s with fresh := t.fresh, hosts := { s.hosts with ports := t.hosts.ports } })
  ∧ (∀ (n a len : Nat) (b : List Byte) (s : State), n < 8 → a < 2 ^ 63 → 0 < len →
    let p := s.port n
    p.linkUp = true → p.draining = false → p.state ≠ .frozen →
    let holds := fun (k : Nat) =>
      let w := fgetD {} p.active k
      w.valid = true ∧ 4096 * w.devBase.toNat ≤ a ∧ a < 4096 * w.devBase.toNat + 4096 * w.length.toNat
    let answered := fun (p : Port) (t : State) (x : List Byte) (st : CplStatus) => t.port n = { p with sent := p.sent ++ [.completion x st] }
    (∀ k, k < 16 → holds k → (∀ j, j < k → ¬ holds j) →
      let w := fgetD {} p.active k
      let m := 4096 * w.target.toNat + (a - 4096 * w.devBase.toNat)
      a + len ≤ 4096 * w.devBase.toNat + 4096 * w.length.toNat →
      let memory := (∀ q o, mapAddr m ≠ .tile q o) ∧ ∀ o, mapAddr m ≠ .burst o
      (w.write = true → b.length = len → memory → Gives (.peerRequest n true a len b) s fun t =>
        t = { s.memWrite m b (.port n) with jobs := t.jobs, ledgers := t.ledgers }
        ∧ (s.Sound → MergesOk s → m + len ≤ stackTop → (∀ i, i < len → s.wordStatus (m + i) = .ok) → WritesNow s (.port n) m len →
            ∀ i, i < len → reads t (m + i) = some (b.getD i 0)))
      ∧ (∀ o, w.write = true → b.length = len → mapAddr m = .burst o → Gives (.peerRequest n true a len b) s fun t => t = s)
      ∧ (∀ o, w.read = true → mapAddr m = .burst o → Gives (.peerRequest n false a len b) s fun t => answered p t [] .ur ∧ t.mem = s.mem)
      ∧ (∀ q o, mapAddr m = .tile q o →
          (s.mesh.serves q ≠ none → o + len ≤ 0x180000 →
            (w.write = true → b.length = len → Gives (.peerRequest n true a len b) s fun t =>
              (t.tile q).bytes o len = b ∧ (∀ p, p ≠ q → t.tile p = s.tile p) ∧ t.mem = s.mem)
            ∧ (w.read = true → (∀ x ∈ wordsIn o len, (s.tile q).bad x = false) → Gives (.peerRequest n false a len b) s fun t =>
              answered p t ((s.tile q).bytes o len) .success ∧ t.mem = s.mem))
          ∧ (s.mesh.serves q = none →
            (w.write = true → b.length = len → Gives (.peerRequest n true a len b) s fun t => t = s)
            ∧ (w.read = true → Gives (.peerRequest n false a len b) s fun t => answered p t [] .ur ∧ t.mem = s.mem)))
      ∧ (w.read = true → memory → s.rangeStatus m len = .ok → Gives (.peerRequest n false a len b) s fun t =>
          answered p t (s.memBytes m len) .success ∧ t.mem.cells = s.mem.cells ∧ ∀ j, j ≠ n → t.port j = s.port j)
      ∧ (w.read = false → Gives (.peerRequest n false a len b) s fun t => answered { p with winMiss := satInc p.winMiss } t [] .ur ∧ t.mem = s.mem)
      ∧ (w.write = false → b.length = len → Gives (.peerRequest n true a len b) s fun t => PortBecomes s t n { p with winMiss := satInc p.winMiss }))
    ∧ ((∀ k, k < 16 → ¬ holds k) →
      Gives (.peerRequest n false a len b) s (fun t => answered { p with winMiss := satInc p.winMiss } t [] .ur ∧ t.mem = s.mem)
      ∧ (b.length = len → Gives (.peerRequest n true a len b) s fun t => PortBecomes s t n { p with winMiss := satInc p.winMiss })))
  ∧ (∀ (n : Nat) (s : State), n < 8 →
    let p := s.port n
    (p.commit = false → p.state = .on → Gives (.windowCommit n) s fun t => PortBecomes s t n { p with commit := true, draining := true })
    ∧ (p.commit = false → p.state ≠ .on → Gives (.windowCommit n) s fun t => PortBecomes s t n { p with active := p.shadow })
    ∧ (p.commit = true → (∀ e ∈ s.mem.regions, e.2.held = []) → (∀ w ∈ s.porter.waits, w.who ≠ .port n) → Gives (.windowSwap n) s fun t =>
        PortBecomes s t n { p with active := p.shadow, commit := false, draining := false }))

/-- R374 to R377. -/
def Obligations.PortMessagesTakeEffect : Prop :=
  (∀ (slot core : Nat) (s : State), Begun s slot core portConfigBlock none →
    let n := asked s slot 0 1
    let p := s.port n
    let c := asked s slot 1 1 == 1
    let x := asked s slot 2 1 == 1
    Gives (.portConfig slot) s fun t => Answers t slot .ok [] ∧ (∀ m, m ≠ n → t.port m = s.port m)
      ∧ t.firm.record = { s.firm.record with seq := s.firm.record.seq + 1, ports := fset s.firm.record.ports n (c, x) }
      ∧ t.port n = if c = p.contained then { p with cxl := x }
          else if c then { p with contained := true, cxl := x, state := .off, powerEn := true, refclk := true, powerGood := false, perstHigh := false, attnHold := false }
          else Unpowered { p with contained := false, cxl := x, state := if p.present then .off else .empty, releaseSeq := none })
  ∧ (∀ (slot core : Nat) (s : State), Begun s slot core slotControlBlock none → s.storage.pairs = [] → s.firm.events.length < 256 →
    let n := asked s slot 0 1
    let p := s.port n
    let seq := ((s.hole slot).req slot).seq
    let is := fun (st : Status) (q : Port) (es : List (Nat × Nat × Nat × Nat × Nat)) => Gives (.slotControl slot) s fun t =>
      Answers t slot st [] ∧ t.port n = q ∧ (∀ m, m ≠ n → t.port m = s.port m) ∧ PortEvents s t n es
    (asked s slot 1 1 = 0 → is .deferred (Powering p (some seq)) [])
    ∧ (asked s slot 1 1 = 1 → is .ok (Cut (Unpowered { p with state := .off })) [(3, 1, 0, seq, 0)])
    ∧ (asked s slot 1 1 = 2 → is .ok { p with state := .on } [(1, 4, 0, seq, 0)])
    ∧ (asked s slot 1 1 = 3 → is .ok { p with attnHold := true } [])
    ∧ (asked s slot 1 1 = 4 → is .ok { p with attnHold := false } []))
  ∧ (∀ (slot core : Nat) (s : State), Begun s slot core portReleaseBlock none →
    let n := asked s slot 0 1
    Gives (.portRelease slot) s fun t => Answers t slot .deferred []
      ∧ t.port n = { s.port n with releaseSeq := some ((s.hole slot).req slot).seq, perstHigh := false, linkUp := false, probing := false } ∧ ∀ m, m ≠ n → t.port m = s.port m)
  ∧ (∀ (slot core : Nat) (s : State), Begun s slot core overlaySetBlock none →
    let h := fun o => BitVec.ofNat 16 (asked s slot o 2)
    Gives (.overlaySet slot) s fun t => Answers t slot .deferred []
      ∧ t.firm.overlayWrites = s.firm.overlayWrites ++ [({ svid0 := h 0, ssid0 := h 2, svid1 := h 4, ssid1 := h 6 }, ((s.hole slot).req slot).seq)])
  ∧ (∀ (o : Overlay) (seq : Nat) (rest : List (Overlay × Nat)) (s : State), s.firm.overlayWrites = (o, seq) :: rest → s.coreUp doorkeeper = true → s.firm.events.length < 256 →
    let put := fun (f : Flash) => if f.powered = true then { f with overlay := some o } else f
    Gives .overlayWriteDone s fun t => t.firm = { s.firm with
          overlayWrites := rest, flashA := put s.firm.flashA, flashB := put s.firm.flashB,
          events := s.firm.events ++ [{ opcode := 0x0680, guest := 0xFFFF, seq, status := 0, time := s.firm.aon, payload := [10, 0xFF, 0, 0, 0, 0, 0, 0] }] }
      ∧ t = { s with firm := t.firm })

/-- R378 to R389. -/
def Obligations.GuestsFollowTheirRules : Prop :=
  (∀ (slot core : Nat) (s : State), Begun s slot core guestCreateBlock none →
    let g := sentBy s slot
    let r := (s.hole slot).req slot
    Gives (.guestCreate slot) s fun t => Answers t slot .ok []
      ∧ t.guest? g = some { rooms := r.rooms, pasid := asked s slot 128 4, link := asked s slot 132 1, lastHome := r.rooms.headD 0 }
      ∧ (∀ k, k ∈ r.rooms ↔ k < 1024 ∧ (r.body.getD (k / 8) 0).getLsbD (k % 8) = true)
      ∧ (∀ m, m ≠ g → t.guest? m = s.guest? m)
      ∧ (∀ k j, k ∈ r.rooms → j < 8 → (t.vector (8 * k + j)).mask = true ∧ (t.vector (8 * k + j)).pending = false ∧ fget t.cipher.slots (8 * k + j) = none)
      ∧ t.tiles = s.tiles ∧ t.mem = s.mem)
  ∧ (∀ (slot core : Nat) (x : Guest) (s : State), s.guest? (sentBy s slot) = some x →
    let g := sentBy s slot
    let seq := ((s.hole slot).req slot).seq
    (Begun s slot core guestGrantBlock none → Gives (.guestGrant slot) s fun t => Answers t slot .ok []
      ∧ t.guest? g = some { x with grants := x.grants ++ [{ base := asked s slot 0 8, length := asked s slot 8 8 }] } ∧ ∀ m, m ≠ g → t.guest? m = s.guest? m)
    ∧ (Begun s slot core guestRevokeBlock none → Gives (.guestRevoke slot) s fun t => Answers t slot .deferred []
      ∧ t.guest? g = some { x with grants := x.grants.map fun (y : Grant) =>
          (if y.base = asked s slot 0 8 then { y with revoking := some (asked s slot 16 1 == 1, seq) } else y) } ∧ t.mem = s.mem)
    ∧ (Begun s slot core guestDestroyBlock none → s.net.conns = [] → s.ledgers.live = [] → Gives (.guestDestroy slot) s fun t => Answers t slot .deferred []
      ∧ (∃ y, t.guest? g = some y ∧ y.destroying = some seq ∧ y.rooms = x.rooms ∧ y.grants = x.grants ∧ y.pools = [] ∧ y.restore = none ∧ y.drain = none)
      ∧ (∀ m p, fget s.storage.pairs m = some p → p.guest = g → p.state ≠ 0 → (t.pair m).state = 4 ∧ (t.pair m).reset = false)
      ∧ (∀ k n, fget s.storage.namespaces k = some n → fget t.storage.namespaces k =
          some (if k / 512 = g ∧ n.deleting = none then { n with deleting := some seq } else n))))
  ∧ (∀ (g : Nat) (x : Guest) (y : Grant) (zero : Bool) (seq : Nat) (s : State), s.guest? g = some x → x.grants.find? (·.revoking.isSome) = some y →
      y.revoking = some (zero, seq) → s.firm.events.length < 256 → (∀ e ∈ s.jobs, e.2.save = none) → s.porter.waits = [] →
    let due := zero = true ∨ s.pendingIn y.base y.length = true
    (s.unfilledIn y.base y.length = true → due → Gives (.guestRevokeDone g) s fun t => t.guest? g = some x ∧ t.firm = s.firm)
    ∧ (¬ (s.unfilledIn y.base y.length = true ∧ due) → Gives (.guestRevokeDone g) s fun t => t.guest? g = some { x with grants := x.grants.filter (· != y) }
      ∧ (zero = true → s.Sound → ServedRange s y.base y.length → (∀ i, i < y.length → reads t (y.base + i) = some 0)
          ∧ ∀ a z, s.mem.reach a = .served z → (∀ i, i < y.length → s.mem.writeReach (y.base + i) ≠ .served z) → t.memByte a = s.memByte a)
      ∧ (zero = false → t.mem = s.mem)
      ∧ GuestEvents s t 2 0 0xFFFF 0 y.base g seq 0 ∧ ∀ m, m ≠ g → t.guest? m = s.guest? m))
  ∧ (∀ (g : Nat) (x : Guest) (seq : Nat) (s : State), s.guest? g = some x → x.destroying = some seq → (∀ e ∈ s.storage.pairs, e.2.guest ≠ g) →
      (∀ k ∈ x.rooms, (∀ j, j < 4 → (s.pair (4 * k + j)).state = 0) ∧ ∀ j, j < 64 → (s.conn (64 * k + j)).state = .closed) →
      (∀ e ∈ s.net.conns, e.2.guest = g → e.2.state = .closed) → (∀ e ∈ s.jobs, e.2.save = none) → s.porter.waits = [] →
      (∀ y ∈ x.grants, s.unfilledIn y.base y.length = false) → (∀ e ∈ s.ledgers.live, e.2.guest ≠ g) → (∀ e ∈ s.storage.namespaces, e.1 / 512 ≠ g) → s.firm.events.length + x.grants.length < 256 → (s.guests.map (·.1)).Nodup →
    Gives (.guestDestroyDone g) s fun t => t.guest? g = none ∧ (∀ m, m ≠ g → t.guest? m = s.guest? m)
      ∧ (s.Sound → ∀ y ∈ x.grants, ServedRange s y.base y.length → ∀ i, i < y.length → reads t (y.base + i) = some 0)
      ∧ (s.Sound → ∀ k, k ∈ x.rooms → k ∉ x.closedRooms → k < 1024 → ∀ i, i < 0x40000 → reads t (0x300000000000 + 0x40000 * k + i) = some 0)
      ∧ t.net.keys = s.net.keys.filter (·.2.guest != g) ∧ t.jobs = s.jobs.filter (·.2.guest != g)
      ∧ t.porter = { s.porter with checkpoints := s.porter.checkpoints.filter (·.guest != g) }
      ∧ GuestEvents (x.grants.foldl (fun (s : State) y => match y.revoking with
          | some (_, q) => s.guestEvent 2 0 0xFFFF 0 y.base g q
          | none => s) s) t 1 0 0xFFFF 0 0 g seq 0 ∧ t.tiles = s.tiles ∧ t.ledgers = s.ledgers)

/-- R390 to R396. -/
def Obligations.DoorbellsAndTheParlourFollowTheirRules : Prop :=
  (∀ (link g q m : Nat) (x : Guest) (v : BitVec 32) (s : State), TakesBar2 s link → g < 1024 → q ≤ 4096 → s.guest? g = some x → x.destroying = none → x.pairNo g q = some m →
      (s.pair m).state ≠ 0 → (q = 0 ∨ m / 4 ∈ x.open) →
    let p := s.pair m
    let bad := fun (t : State) => t = { s with storage := { s.storage with badDoorbell := satInc s.storage.badDoorbell } }
    (v.toNat < p.sqSize → Gives (.sqTail ⟨link, g⟩ q v) s fun t => t = s.modPair m fun p => { p with tail := v.toNat })
    ∧ (p.sqSize ≤ v.toNat → Gives (.sqTail ⟨link, g⟩ q v) s bad)
    ∧ (v.toNat < p.cqSize → (v.toNat + p.cqSize - p.cqHead) % p.cqSize ≤ (p.cqTail + p.cqSize - p.cqHead) % p.cqSize →
        Gives (.cqHead ⟨link, g⟩ q v) s fun t => t = s.modPair m fun p => { p with cqHead := v.toNat })
    ∧ (p.cqSize ≤ v.toNat → Gives (.cqHead ⟨link, g⟩ q v) s bad))
  ∧ (∀ (link g cn : Nat) (x : Guest) (v : BitVec 64) (s : State), TakesBar2 s link → s.guest? g = some x → x.destroying = none → x.moduleNo 64 (v.toNat % 65536) = some cn →
      cn / 64 ∈ x.open → (s.conn cn).state ≠ .closed → v.toNat / 65536 % 65536 = 0 →
    ((s.conn cn).closing ≠ [] → Gives (.courierDb ⟨link, g⟩ v) s fun t => t = s)
    ∧ ((s.conn cn).closing = [] → Gives (.courierDb ⟨link, g⟩ v) s fun t => t = s.modConn cn fun c =>
      if v.getLsbD 63 then { c with recvProd := v.toNat / 2 ^ 32 % 2 ^ 31 } else { c with sendProd := v.toNat / 2 ^ 32 % 2 ^ 31 }))
  ∧ (∀ (link g : Nat) (x : Guest) (s : State), TakesBar2 s link → s.guest? g = some x → x.destroying = none →
    (g ∉ s.hosts.parlour → Gives (.parlourRing ⟨link, g⟩) s fun t => t.hosts.parlour = s.hosts.parlour ++ [g] ∧ (∀ n, n ≠ s.mgr → t.link n = s.link n)
      ∧ t = (s.modHosts fun h => { h with parlour := s.hosts.parlour ++ [g] }).msix 2)
    ∧ (g ∈ s.hosts.parlour → Gives (.parlourRing ⟨link, g⟩) s fun t => t = s))
  ∧ (∀ (link g : Nat) (s : State), TakesBar2 s link → s.guest? g = none ∨ (∃ x, s.guest? g = some x ∧ x.destroying ≠ none) →
    let dropped := fun (t : State) => t = { s with hosts := { s.hosts with guestDropped := fset s.hosts.guestDropped g (satInc (fgetD 0 s.hosts.guestDropped g)) } }
    Gives (.parlourRing ⟨link, g⟩) s dropped ∧ (∀ v, Gives (.courierDb ⟨link, g⟩ v) s dropped)
    ∧ (∀ q v, g < 1024 → q ≤ 4096 → Gives (.sqTail ⟨link, g⟩ q v) s dropped ∧ Gives (.cqHead ⟨link, g⟩ q v) s dropped))
  ∧ (∀ (link g off n : Nat) (b : List Byte) (x : Guest) (s : State), TakesBar2 s link → s.guest? g = some x →
    let l := s.link link
    let sends := fun (t : State) (b : List Byte) => LinkBecomes s t link { l with sent := l.sent ++ [.completion b .success] }
    (1 ≤ n → off % 64 + n ≤ 64 → off + n ≤ 0x4000 →
      (∀ h, x.destroying = none → x.home = some h →
        let a := 0x300000000000 + h * 0x40000 + off
        Gives (.parlourWindowAccess ⟨link, g⟩ false off n b) s (fun t => sends t (s.memBytes a n))
        ∧ (b.length = n → Gives (.parlourWindowAccess ⟨link, g⟩ true off n b) s fun t => WritesNow s (.upstream link) a n →
            t = (s.rawWrite a b).outsideData a n ∧ (h < 1024 → s.Sound → ∀ i, i < n → t.memByte (a + i) = b.getD i 0)))
      ∧ (x.destroying ≠ none ∨ x.home = none → (b.length = n → Gives (.parlourWindowAccess ⟨link, g⟩ true off n b) s fun t => t.hosts.guestDropped =
            fset s.hosts.guestDropped g (satInc (fgetD 0 s.hosts.guestDropped g)) ∧ t.mem = s.mem) ∧ Gives (.parlourWindowAccess ⟨link, g⟩ false off n b) s fun t => sends t (zeros n)))
    ∧ (n = 0 ∨ 64 < off % 64 + n ∨ 0x4000 < off + n → Gives (.parlourWindowAccess ⟨link, g⟩ false off n b) s fun t => LinkBecomes s t link
        { l with urSent := satInc l.urSent, aer := l.aer ||| 0x100000, sent := l.sent ++ [.completion [] .ur] }))
  ∧ (∀ (link g : Nat) (s : State), link < 2 → (s.link link).up = true → (s.link link).memory = false →
    let n := link
    let l := s.link n
    let refused := fun (answer : Bool) (t : State) => LinkBecomes s t n { l with
      urSent := satInc l.urSent, aer := l.aer ||| 0x100000, sent := if answer then l.sent ++ [.completion [] .ur] else l.sent }
    Gives (.parlourRing ⟨link, g⟩) s (refused false) ∧ (∀ v, Gives (.courierDb ⟨link, g⟩ v) s (refused false))
    ∧ (∀ q v, g < 1024 → q ≤ 4096 → Gives (.sqTail ⟨link, g⟩ q v) s (refused false) ∧ Gives (.cqHead ⟨link, g⟩ q v) s (refused false))
    ∧ ∀ w off k b, Gives (.parlourWindowAccess ⟨link, g⟩ w off k b) s (refused (!w)))
  ∧ (∀ (g h : Nat) (x : Guest) (s : State), s.guest? g = some x → x.home = some h → h < 1024 →
    let v := 8 * h + 7
    let s1 : State := { s with hosts := { s.hosts with guestRing := BitVec.ofNat 10 g } }
    ((s.vector v).pending = true → Gives (.guestRing g) s fun t => t = s1)
    ∧ ((s.vector v).pending = false → fget s.irq.timers h = none → fgetD 0 s.irq.holdoff h ≠ 0 → Gives (.guestRing g) s fun t => t.hosts = s1.hosts
        ∧ t.vector v = { s.vector v with pending := true } ∧ (∀ w, w ≠ v → t.vector w = s.vector w)
        ∧ fget t.irq.timers h = some (fgetD 0 s.irq.holdoff h).toNat)
    ∧ ((s.vector v).pending = false → fget s.irq.timers h = none → fgetD 0 s.irq.holdoff h = 0 → s.holder h = some g → (s.link x.link).open = true →
        (s.link x.link).l1 = false → (s.link x.link).held = [] →
      Gives (.guestRing g) s fun t => t.hosts.guestRing = BitVec.ofNat 10 g ∧ GroupSent (s.modVector v fun e => { e with pending := true }) t h g))
  ∧ (∀ (g h : Nat) (x : Guest) (s : State), g < 1024 → s.guest? g = some x → s.mesh.emptying = [] → x.home = some h → h < 1024 → x.rooms.length ≤ 1024 →
    let n := leNat ((s.bar2Read g 0xB008 8).getD [])
    (∃ b, s.bar2Read g 0xB008 8 = some b ∧ b.length = 8)
    ∧ n % 2 ^ 10 = g ∧ n / 2 ^ 10 % 2 ^ 11 = x.open.length ∧ n / 2 ^ 21 % 2 = (if x.open.length = 1024 then 1 else 0) ∧ n / 2 ^ 22 % 2 ^ 10 = 0
    ∧ n / 2 ^ 32 % 2 ^ 10 = h ∧ (x.closedRooms.length ≤ 1024 → n / 2 ^ 42 = x.closedRooms.length))
  ∧ (∀ (g : Nat) (s : State), s.guest? g = none → Gives (.guestRing g) s fun t => t = { s with hosts := { s.hosts with guestRing := BitVec.ofNat 10 g } })

/-- R399 to R404. -/
def Obligations.DirtyLogsFollowTheirRules : Prop :=
  (∀ (slot core : Nat) (x : Guest) (s : State), s.guest? (sentBy s slot) = some x →
    let g := sentBy s slot
    let f := asked s slot
    let seq := ((s.hole slot).req slot).seq
    (Begun s slot core logStartBlock none → Gives (.logStart slot) s fun t => Answers t slot .ok []
      ∧ t.guest? g = some { x with log := some { base := f 0 8, pages := f 8 8, mapA := f 16 8, mapB := f 24 8 } } ∧ ∀ m, m ≠ g → t.guest? m = s.guest? m)
    ∧ (∀ (l : DirtyLog) (stop : Bool), x.log = some l → Begun s slot core (fenceBlock (if stop then 0x0212 else 0x0211) stop) none →
        (s.link x.link).open = true → (s.link x.link).held = [] → freeTag 2048 (s.link x.link).outstanding (s.link x.link).quarantine ≠ none →
      Gives (if stop then .logStop slot else .logFence slot) s fun t => Answers t slot .deferred []
        ∧ t.guest? g = some { x with log := some { l with activeB := !l.activeB, fence := some (stop, seq), stage := 0, fenceFailed := false } }
        ∧ HostTx.read (some x.pasid) 0 0 (.fence g false) ∈ (t.link x.link).sent))
  ∧ (∀ (g : Nat) (x : Guest) (l : DirtyLog) (s : State), s.guest? g = some x → x.log = some l →
    (∀ (second : Bool) (n tag : Nat) (o : Outstanding), n < 2 → (s.link n).up = true → fget (s.link n).outstanding tag = some o →
        o.tx = .read (if second then none else some x.pasid) 0 0 (.fence g second) → l.fence ≠ none → l.stage = (if second then 2 else 0) →
        (s.link n).held = [] → (second = false → (∀ w ∈ l.words, w.mapB = l.activeB) ∧ (s.link s.mgr).up = true) →
      Gives (.completionArrive n tag .success []) s fun t => t.guest? g = some { x with log := some { l with stage := if second then 3 else 2 } }
        ∧ (second = false → (s.link s.mgr).open = true → (s.link s.mgr).held = [] → freeTag 2048 (s.link s.mgr).outstanding (s.link s.mgr).quarantine ≠ none →
            HostTx.read none 0 0 (.fence g true) ∈ (t.link s.mgr).sent))
    ∧ (∀ (w : LogWord) (rest : List LogWord) (n tag : Nat) (o : Outstanding) (b : List Byte), n < 2 → (s.link n).up = true → (s.link n).held = [] →
        fget (s.link n).outstanding tag = some o → o.tx = .read none (l.mapBase w.mapB + 8 * w.word) 8 (.logWord g w.mapB w.word) → o.got = [] → b.length = 8 →
        l.words = w :: rest → w.read = false → (∀ y ∈ rest, y.mapB ≠ w.mapB ∨ y.word ≠ w.word) → l.fence = none →
      Gives (.completionArrive n tag .success b) s fun t =>
        t.guest? g = some { x with log := some { l with words := { w with bits := w.bits ||| BitVec.ofNat 64 (leNat b), read := true } :: rest } })
    ∧ (∀ (stop : Bool) (seq : Nat), l.fence = some (stop, seq) → l.stage = 3 → s.firm.events.length < 256 → Gives (.logFenceDone g) s fun t =>
        t.guest? g = some { x with log := if stop then none else some { l with
          fence := none, stage := 0, overflow := false, fenceFailed := false, dirty := l.dirty.filter (·.1 != !l.activeB) } }
        ∧ GuestEvents s t (if stop then 4 else 3) (if l.activeB then 0 else 1) 0xFFFF (if l.overflow ∨ l.fenceFailed then 1 else 0)
            (l.dirty.filter (·.1 == !l.activeB)).length g seq (if l.fenceFailed then 10 else 0)
        ∧ ∀ m, m ≠ g → t.guest? m = s.guest? m)
    ∧ (∀ (m : Nat) (c : Cqe) (r : List Cqe), (s.pair m).guest = g → (s.pair m).toPost = c :: r → (s.pair m).state = 1 → (s.pair m).cause = 0 →
        (s.pair m).cqFree = true → s.firm.mstate = .ready → s.stage < 4 → (s.link x.link).up = true → l.base % 4096 = 0 → (s.pair m).cqBase % 4096 = 0 →
        let page := ((s.pair m).cqBase + 16 * (s.pair m).cqTail) / 4096
        (l.base / 4096 ≤ page → page < l.base / 4096 + l.pages → Gives (.cqPost m) s fun t =>
          ∃ y k, t.guest? g = some y ∧ y.log = some k ∧ (l.activeB, page - l.base / 4096) ∈ k.dirty ∧ k.activeB = l.activeB)
        ∧ (page < l.base / 4096 ∨ l.base / 4096 + l.pages ≤ page → Gives (.cqPost m) s fun t =>
          ∃ y, t.guest? g = some y ∧ y.log = some { l with overflow := true }))
    ∧ (∀ (n : Nat) (down : Bool), n < 2 → (s.link n).up = true → (s.link n).outstanding = [] → (s.link n).held = [] → s.guests = [(g, x)] →
        s.firm.events.length < 256 → Gives (.linkReset n down) s fun t => t.guest? g = some { x with log := none }
        ∧ GuestEvents s t 4 (if (if l.fence = none then l.activeB else !l.activeB) then 1 else 0) 0xFFFF 1
            (l.dirty.filter (·.1 == (if l.fence = none then l.activeB else !l.activeB))).length g (match l.fence with | some f => f.2 | none => 0) 0))

/-- R411 to R423. -/
def Obligations.StorageQueuesFollowTheirRules : Prop :=
  (∀ (g q m : Nat) (x : Guest) (s : State), s.guest? g = some x → x.pairNo g q = some m → q ∈ s.fetchable g → x.localPair m = q →
      (∀ e ∈ s.guests, e.1 < 1024) → s.storage.lastGuest < 1024 → (∀ k ∈ s.fetchable g, k ≤ 4096) → x.lastQueue ≤ 4096 →
      (∀ e ∈ s.guests, s.fetchable e.1 ≠ [] → (g + 1023 - s.storage.lastGuest) % 1024 ≤ (e.1 + 1023 - s.storage.lastGuest) % 1024) →
      (∀ k ∈ s.fetchable g, (q + 4096 - x.lastQueue) % 4097 ≤ (k + 4096 - x.lastQueue) % 4097) → HostTakes s x →
    Gives .sqFetch s fun t => t.storage.lastGuest = g ∧ t.guest? g = some { x with lastQueue := q } ∧ t.pair m = { s.pair m with fetching := true }
      ∧ (∀ k, k ≠ m → t.pair k = s.pair k)
      ∧ (t.link x.link).sent = (s.link x.link).sent ++ [.read (some x.pasid) ((s.pair m).sqBase + 64 * (s.pair m).head) 64 (.sqFetch m)])
  ∧ (∀ (n tag m : Nat) (o : Outstanding) (pasid : Option Nat) (a : Nat) (b : List Byte) (s : State), n < 2 → (s.link n).up = true → (s.link n).held = [] →
      fget (s.link n).outstanding tag = some o → o.tx = .read pasid a 64 (.sqFetch m) → o.got = [] → b.length = 64 →
      (s.pair m).fetching = true → (s.pair m).state = 1 → (s.pair m).cause = 0 → 0 < (s.pair m).sqSize → (s.pair m).cmd? (field b 2 2) = none →
    let p := s.pair m
    let gone := match s.ns? p.guest (field b 4 4) with | some n => n.deleting.isSome | none => true
    Gives (.completionArrive n tag .success b) s fun t => (t.pair m).fetching = false ∧ (t.pair m).head = (p.head + 1) % p.sqSize
      ∧ (executes (decide (4096 ≤ m)) (field b 0 1) = true → (t.pair m).cmds = p.cmds ++ [{ entry := b, cid := field b 2 2, nsGone := gone }] ∧ (t.pair m).toPost = p.toPost)
      ∧ (executes (decide (4096 ≤ m)) (field b 0 1) = false → CmdEnds s t m (field b 2 2) 0 1 true))
  ∧ (∀ (m : Nat) (x : Guest) (c : Cqe) (r : List Cqe) (s : State), let p := s.pair m
      s.guest? p.guest = some x → x.log = none → p.toPost = c :: r → p.state ≠ 0 → p.cause = 0 → (p.cqTail + p.cqSize - p.cqHead) % p.cqSize + 1 < p.cqSize →
      s.firm.mstate = .ready ∨ s.firm.mstate = .degraded ∨ s.firm.mstate = .shedding → s.stage < 4 →
    ((s.link x.link).up = true → Gives (.cqPost m) s fun t =>
      t.pair m = { p with
        toPost := r, cqTail := if p.cqTail + 1 = p.cqSize then 0 else p.cqTail + 1, phase := if p.cqTail + 1 = p.cqSize then !p.phase else p.phase }
      ∧ (∃ e : List Byte, e.length = 16 ∧ field e 0 4 = c.dw0.toNat ∧ field e 8 2 = p.head % 65536 ∧ field e 10 2 = x.localPair m % 65536 ∧ field e 12 2 = c.cid % 65536
          ∧ field e 14 2 = (bit p.phase + 2 * c.sc + 2 ^ 9 * c.sct + 2 ^ 15 * bit c.dnr) % 65536
          ∧ (let u := (s.submit x.link (.write (some x.pasid) (p.cqBase + 16 * p.cqTail) e)).modPair m fun _ => t.pair m
             t = if p.ien then u.raiseVector p.vector else u)))
    ∧ ((s.link x.link).up = false → s.firm.events.length < 256 → Gives (.cqPost m) s fun t => (t.pair m).state = (if p.state = 4 then 4 else 3)
      ∧ (t.pair m).cause = 2 ∧ (t.pair m).toPost = [] ∧ (t.pair m).discarded = p.discarded + p.toPost.length
      ∧ StorageEvents s t 2 2 (x.localPair m) 0 0 (p.discarded + p.toPost.length) p.guest 0))
  ∧ (∀ (m : Nat) (s : State), let p := s.pair m
      p.state = 4 → p.cmds = [] → (p.toPost = [] ∨ p.cause ≠ 0 ∨ p.cqFree = false) → s.firm.events.length < 255 →
    let ended := fun (t : State) =>
      (p.reset = false → fget t.storage.pairs m = none) ∧ (p.reset = true → t.pair m = { p with
          state := if 3 ≤ s.stage then 2 else 1, cause := 0, head := 0, tail := 0, cqTail := 0, cqHead := 0, phase := true, toPost := [], deleteSeq := 0,
          reset := false, aborted := 0, discarded := 0 })
      ∧ (∀ k, k ≠ m → t.pair k = s.pair k)
    let event : Event := {
      opcode := 0x0780, guest := p.guest, seq := p.deleteSeq, status := 0, time := s.firm.aon,
      payload := leBytes 1 (if p.reset then 1 else 0) ++ [0] ++ leBytes 2 ((s.guest p.guest).localPair m) ++ zeros 4 ++ leBytes 4 p.aborted
        ++ leBytes 4 (p.discarded + p.toPost.length) }
    (s.mesh.emptying = [] → Gives (.queueDeleteDone m) s fun t => ended t ∧ t.firm.events = s.firm.events ++ [event])
    ∧ ∀ g x, s.mesh.emptying = [(m / 4, g)] → s.guest? g = some x → p.reset = false → m < 4096 → (∀ j, j < 4 → 4 * (m / 4) + j ≠ m → (s.pair (4 * (m / 4) + j)).state = 0) →
        (∀ j, j < 64 → (s.conn (64 * (m / 4) + j)).state = .closed) →
      Gives (.queueDeleteDone m) s fun t => ended t ∧ t.mesh.emptying = [] ∧ t.firm.events = s.firm.events ++ [event, {
        opcode := 0x0280, guest := g, seq := 0, status := 0, time := s.firm.aon, payload := [0, 0] ++ leBytes 2 (m / 4) ++ zeros 12 }])
  ∧ (∀ (g nsid seq : Nat) (x : Guest) (n : Namespace) (s : State), s.guest? g = some x → s.ns? g nsid = some n → n.deleting = some seq →
      (∀ e ∈ s.storage.pairs, e.2.guest = g → ∀ c ∈ e.2.cmds, c.nsid = nsid → c.nsGone = true) → s.firm.events.length < 256 → (s.pair (adminPair g)).cause = 0 →
    Gives (.nsDeleteDone g nsid) s fun t => t.ns? g nsid = none ∧ (∀ h k, h < 1024 → g < 1024 → k < 512 → (h ≠ g ∨ k ≠ nsid) → t.ns? h k = s.ns? h k)
      ∧ (∃ y, t.guest? g = some y ∧ (∀ k, k ∈ y.log04 ↔ k = nsid ∨ k ∈ x.log04) ∧ y.aers = x.aers.drop 1)
      ∧ (∀ cid r, x.aers = cid :: r → CmdEnds s t (adminPair g) cid 0 0 false 0x040002)
      ∧ StorageEvents s t 3 0 0xFFFF nsid 0 0 g seq)
  ∧ (∀ (slot core : Nat) (s : State),
    let g := sentBy s slot
    let f := asked s slot
    let r := (s.hole slot).req slot
    (Begun s slot core nsCreateBlock none → Gives (.storageNsCreate slot) s fun t => Answers t slot .ok []
      ∧ (∃ n, t.ns? g (f 0 4) = some n ∧ n.extents = (List.range (f 4 1)).map (r.extent s) ∧ n.readOnly = (f 5 1 == 1) ∧ n.lost = false ∧ n.deleting = none
        ∧ n.keySlot = (if f 6 2 = 0xFFFF then none else (s.guest g).moduleNo 8 (f 6 2)) ∧ ∀ b, b < n.size → n.unwritten b = true)
      ∧ (∀ k, k ≠ 512 * g + f 0 4 → fget t.storage.namespaces k = fget s.storage.namespaces k))
    ∧ (Begun s slot core nsDeleteBlock none → ∀ n, s.ns? g (f 0 4) = some n → Gives (.storageNsDelete slot) s fun t => Answers t slot .deferred []
      ∧ t.ns? g (f 0 4) = some { n with deleting := some r.seq })
    ∧ (∀ m v, (s.guest g).pairNo g (f 0 2) = some m → (s.guest g).moduleNo 8 (f 6 2) = some v → Begun s slot core queueCreateBlock none →
        Gives (.storageQueueCreate slot) s fun t => Answers t slot .ok []
        ∧ t.pair m = { state := if 3 ≤ s.stage then 2 else 1, guest := g, sqBase := f 8 8, cqBase := f 16 8, sqSize := f 2 2, cqSize := f 4 2, vector := v, ien := f 24 1 == 1 }
        ∧ ∀ k, k ≠ m → t.pair k = s.pair k)
    ∧ (∀ m, (s.guest g).pairNo g (f 0 2) = some m → Begun s slot core queueDeleteBlock none → ((s.pair m).cmds.map (·.cid)).Nodup → (s.pair m).cause = 0 →
        let gone := (s.pair m).cmds.filter (!·.sent)
        Gives (.storageQueueDelete slot) s fun t => Answers t slot .deferred []
        ∧ t.pair m = { s.pair m with
            state := 4, deleteSeq := r.seq, reset := f 2 1 == 1, fetching := false, aborted := gone.length, cmds := (s.pair m).cmds.filter (·.sent),
            toPost := (s.pair m).toPost ++ gone.map fun c => { cid := c.cid, sc := 8 } }))

/-- R406 to R418. -/
def Obligations.StorageCommandsFollowTheirRules : Prop :=
  (∀ (m cid : Nat) (x : Guest) (c : Cmd) (s : State), 4096 ≤ m →
    let g := (s.pair m).guest
    (Starts s m cid 8 x c → Gives (.abort m cid) s fun t => CmdEnds s t m cid 0 0 false 1)
    ∧ (Starts s m cid 9 x c → Gives (.setFeatures m cid) s fun t =>
        if c.f 40 1 = 0x0B then CmdEnds s t m cid 0 0 false ∧ t.guest? g = some { x with asyncConfig := BitVec.ofNat 32 (c.f 44 4) }
        else CmdEnds s t m cid 0 2 true ∧ t.guest? g = some (withError x m cid c 0 2 true))
    ∧ (Starts s m cid 10 x c → Gives (.getFeatures m cid) s fun t =>
        if c.f 40 1 = 7 then CmdEnds s t m cid 0 0 false (BitVec.ofNat 32 ((4 * x.open.length - 1) * 65537)) ∧ t.guest? g = some x
        else if c.f 40 1 = 0x0B then CmdEnds s t m cid 0 0 false x.asyncConfig ∧ t.guest? g = some x
        else CmdEnds s t m cid 0 2 true ∧ t.guest? g = some (withError x m cid c 0 2 true))
    ∧ (Starts s m cid 12 x c → Gives (.asynchronousEventRequest m cid) s fun t =>
        if 4 ≤ x.aers.length then CmdEnds s t m cid 1 5 true
        else t.guest? g = some { x with aers := x.aers ++ [cid] } ∧ (t.pair m).toPost = (s.pair m).toPost ∧ (t.pair m).cmd? cid = some { c with started := true })
    ∧ (Starts s m cid 6 x c → HostTakes s x → c.prp1 % 4096 = 0 → c.f 40 1 ≤ 2 →
      let wrote := fun (t : State) (d : List Byte) => d.length = 4096 ∧ (t.link x.link).sent = (s.link x.link).sent ++ [.write (some x.pasid) c.prp1 d] ∧ CmdEnds s t m cid 0 0 false
      (∀ n, c.f 40 1 = 0 → s.ns? g c.nsid = some n → c.nsGone = false → Gives (.identify m cid) s fun t => ∃ d, wrote t d ∧ field d 0 8 = n.size % 2 ^ 64)
      ∧ (c.f 40 1 = 1 → Gives (.identify m cid) s fun t => ∃ d, wrote t d ∧ field d 78 2 = (g + 1) % 65536)
      ∧ (c.f 40 1 = 2 → Gives (.identify m cid) s fun t => ∃ d, wrote t d
          ∧ ∀ i k, i < 1024 → ((s.nsids g).filter (c.nsid < ·))[i]? = some k → field d (4 * i) 4 = k))
    ∧ (Starts s m cid 2 x c → HostTakes s x → c.prp1 % 4096 = 0 → c.length true ≤ 4096 → c.f 40 1 = 4 ∨ c.f 40 1 = 1 → Gives (.getLogPage m cid) s fun t =>
        CmdEnds s t m cid 0 0 false ∧ t.guest? g = some (if c.f 40 1 = 1 ∨ c.f 40 4 / 2 ^ 15 % 2 = 1 then x else { x with log04 := [] })
        ∧ ∃ d, d.length = c.length true ∧ (t.link x.link).sent = (s.link x.link).sent ++ [.write (some x.pasid) c.prp1 d]
          ∧ (∀ i j k, c.f 40 1 = 4 → x.log04[i]? = some k → j < 4 → c.f 48 8 ≤ 4 * i + j → 4 * i + j < 4096 → 4 * i + j - c.f 48 8 < d.length →
              d.getD (4 * i + j - c.f 48 8) 0 = (leBytes 4 k).getD j 0)
          ∧ ∀ i e, c.f 40 1 = 1 → c.f 48 8 = 0 → x.log01[i]? = some e → 64 * i + 64 ≤ d.length → field d (64 * i) 8 = e.count % 2 ^ 64 ∧ field d (64 * i + 10) 2 = e.cid % 65536))
  ∧ (∀ (m cid : Nat) (x : Guest) (c : Cmd) (n : Namespace) (s : State), m < 4096 → Reaches s m c n →
    let l := s.link x.link
    let goes := fun (t : State) (c' : Cmd) => (t.pair m).cmd? cid = some c' ∧ (t.pair m).toPost = (s.pair m).toPost ∧ ∀ k, k ≠ m → t.pair k = s.pair k
    (Starts s m cid 0 x c → Gives (.flush m cid) s fun t => goes t { c with
        started := true, need := 0, pages := [], sent := true,
        parts := n.extents.map fun e => { remote := e.remote, port := e.port, conn := e.conn, backNsid := e.backNsid, lba := e.start } })
    ∧ (Starts s m cid 8 x c → c.data = [] → c.slba + c.nlb ≤ n.size → n.readOnly = false → Gives (.writeZeroes m cid) s fun t => goes t { c with
        started := true, need := 0, pages := [], sent := true, parts := n.parts c.slba c.nlb })
    ∧ (c.prp1 % 4096 = 0 →
      (Starts s m cid 2 x c → c.nlb = 1 → c.slba + c.nlb ≤ n.size → Gives (.read m cid) s fun t => goes t { c with
        started := true, need := 1, pages := [c.prp1], sent := true, parts := n.parts c.slba c.nlb })
      ∧ (Starts s m cid 1 x c → c.nlb = 1 → c.slba + c.nlb ≤ n.size → n.readOnly = false → HostTakes s x → Gives (.write m cid) s fun t =>
          goes t { c with started := true, need := 1, pages := [c.prp1] }
          ∧ (4096 ≤ mrrsBytes l.mrrs → (t.link x.link).sent = l.sent ++ [.read (some x.pasid) c.prp1 4096 (.dataIn m cid 0)])
          ∧ (l.mrrs = 2 → l.outstanding = [] → l.quarantine = [] →
              (t.link x.link).sent = l.sent ++ (List.range 8).map (fun i => .read (some x.pasid) (c.prp1 + 512 * i) 512 (.piece l.nextSplit i))
              ∧ fget (t.link x.link).splits l.nextSplit = some { why := .dataIn m cid 0, left := 8 }))
      ∧ (Starts s m cid 9 x c → HostTakes s x → Gives (.datasetManagement m cid) s fun t =>
          goes t { c with started := true, need := 1, pages := [c.prp1] }
          ∧ (16 * (c.f 40 1 + 1) ≤ mrrsBytes l.mrrs → (t.link x.link).sent = l.sent ++ [.read (some x.pasid) c.prp1 (16 * (c.f 40 1 + 1)) (.dataIn m cid 0)])))
    ∧ (∀ (l tag : Nat) (o : Outstanding) (pasid : Option Nat) (a : Nat) (b : List Byte), l < 2 → (s.link l).up = true → (s.link l).held = [] →
        fget (s.link l).outstanding tag = some o → o.tx = .read pasid a b.length (.dataIn m cid 0) → o.got = [] → (s.pair m).cmd? cid = some c → c.got = [] → c.need = 1 →
        (s.pair m).cause = 0 →
      (c.opcode = 1 → c.slba + c.nlb ≤ n.size → Gives (.completionArrive l tag .success b) s fun t => goes t { c with
          got := [(0, b)], data := b, sent := true,
          parts := (n.parts c.slba c.nlb).map fun x => { x with bytes := slice b (4096 * (x.first - c.slba)) (4096 * x.blocks) } })
      ∧ (c.opcode = 9 → c.f 44 4 / 4 % 2 = 0 → Gives (.completionArrive l tag .success b) s fun t => CmdEnds s t m cid 0 0 false)))
  ∧ (∀ (m cid l tag : Nat) (o : Outstanding) (pasid : Option Nat) (a : Nat) (b : List Byte) (c : Cmd) (s : State), l < 2 → (s.link l).up = true → (s.link l).held = [] →
        fget (s.link l).outstanding tag = some o → o.tx = .read pasid a b.length (.prpList m cid) → o.got = [] → (s.pair m).cmd? cid = some c → (s.pair m).cause = 0 →
        b.length / 8 = c.need - c.pages.length → (∃ i, i < b.length / 8 ∧ field b (8 * i) 8 % 4096 ≠ 0) →
      Gives (.completionArrive l tag .success b) s fun t => CmdEnds s t m cid 0 2 true)
  ∧ (∀ (n : Namespace) (first k : Nat), first + k ≤ n.size →
      ((n.parts first k).flatMap fun p => (List.range p.blocks).map (p.first + ·)) = (List.range k).map (first + ·)
      ∧ ∀ p ∈ n.parts first k, ∃ e ∈ n.extents, p.remote = e.remote ∧ p.port = e.port ∧ p.conn = e.conn ∧ p.backNsid = e.backNsid ∧ e.start ≤ p.lba
        ∧ p.lba + p.blocks ≤ e.start + e.count)
  ∧ (∀ (m cid i sct sc : Nat) (dnr : Bool) (b : List Byte) (c : Cmd) (x : Part) (s : State), m < 4096 → (s.pair m).cmd? cid = some c → c.sent = true → c.parts[i]? = some x →
      x.done = false → (s.pair m).cause = 0 →
    let y := { x with
      done := true, bytes := if c.opcode = 2 then b else x.bytes,
      sct := if sct = 0 ∧ sc = 0 then 0 else if sct = 2 then 2 else 0,
      sc := if sct = 0 ∧ sc = 0 then 0 else if sct = 2 then sc else if x.remote then 0x22 else 6,
      dnr := if sct = 2 ∧ ¬ (sct = 0 ∧ sc = 0) then dnr else false }
    let ps := c.parts.set i y
    let ends := Instr.backingComplete m cid i sct sc dnr b
    ((∃ z ∈ ps, z.done = false) → Gives ends s fun t => (t.pair m).cmd? cid = some { c with parts := ps } ∧ (t.pair m).toPost = (s.pair m).toPost)
    ∧ ((∀ z ∈ ps, z.done = true) →
      (∀ z ∈ ps, z.sct ≠ 0 ∨ z.sc ≠ 0 → (∀ w ∈ ps, w.sct ≠ 0 ∨ w.sc ≠ 0 → w = z ∨ z.first < w.first) → Gives ends s fun t => CmdEnds s t m cid z.sct z.sc z.dnr)
      ∧ ((∀ z ∈ ps, z.sct = 0 ∧ z.sc = 0) → c.opcode ≠ 2 → Gives ends s fun t => CmdEnds s t m cid 0 0 false)
      ∧ (∀ g n, (∀ z ∈ ps, z.sct = 0 ∧ z.sc = 0) → c.opcode = 2 → s.guest? (s.pair m).guest = some g → HostTakes s g → s.ns? (s.pair m).guest c.nsid = some n → n.keySlot = none →
          c.nlb = 1 → c.parts = [x] → x.blocks = 1 → b.length = 4096 → c.prp1 % 4096 = 0 → c.pages = [c.prp1] → Gives ends s fun t => CmdEnds s t m cid 0 0 false
            ∧ (t.link g.link).sent = (s.link g.link).sent ++ [.write (some g.pasid) c.prp1 (if n.unwritten c.slba then zeros 4096 else b)]))
    ∧ (x.remote = false → (∀ z ∈ c.parts.set i { x with done := true, sct := 0, sc := 6 }, z.done = true) →
        (∀ w ∈ c.parts, w.sct = 0 ∧ w.sc = 0) → x.dnr = false → Gives (.backingTimeout m cid i) s fun t => CmdEnds s t m cid 0 6 false
          ∧ t.storage.backingTimeouts = satInc s.storage.backingTimeouts))

/-- R425 to R437, R455, R456. -/
def Obligations.FramesAndRingsFollowTheirRules : Prop :=
  (∀ (port : Nat) (ok : Bool) (fr : List Byte) (s : State),
    let p := s.netPort port
    let pf := fgetD {} s.net.profiles p.profile.toNat
    let bad := ok = false ∨ fr.length + 4 < 64 ∨ p.maxFrame < fr.length + 4 ∨ etherType fr = 0x8808
    (p.linkUp = false → Gives (.frameReceive port ok fr) s fun t => t = s)
    ∧ (p.linkUp = true →
      (bad → Gives (.frameReceive port ok fr) s fun t => t = s.modNetPort port fun p => { p with frameErrors := satInc p.frameErrors })
      ∧ (¬ bad → s.courierPort port fr = some s.net.courierUdp.toNat → s.net.courierUdp.toNat ≠ 4791 → Gives (.frameReceive port ok fr) s fun t =>
          let packet := if packetOp (udpPayload fr) = 5 then Instr.courierAckReceive else if packetOp (udpPayload fr) = 6 then .courierNackReceive else .courierPacketReceive
          exec (packet port (udpSumOk fr) (ecnCe fr) (udpPayload fr)) s = .next t)
      ∧ (¬ bad → s.courierPort port fr = none → (s.link s.mgr).open = true → (s.link s.mgr).held = [] →
          freeTag 2048 (s.link s.mgr).outstanding (s.link s.mgr).quarantine ≠ none →
        (∀ pre i r post, s.net.rules = pre ++ (i, r) :: post → (∀ e ∈ pre, e.1 ≠ i ∧ ¬ RuleHits e.2 port p.profile.toNat (pf.key (slice fr 0 64))) → frising s.net.rules = true →
            RuleHits r port p.profile.toNat (pf.key (slice fr 0 64)) →
          let k := (r.getD 18 0).toNat
          let hit := fun (s : State) => s.modNet fun n => { n with rules := fset n.rules i (r.set 20 (satInc (r.getD 20 0))) }
          (k % 4 = 0 → Gives (.frameReceive port ok fr) s fun t => t = (hit s).countDrops port 1)
          ∧ (k % 4 = 1 → Gives (.frameReceive port ok fr) s fun t => ToRing (hit s) t port (k / 256 % 256) i fr)
          ∧ (2 ≤ k % 4 → Gives (.frameReceive port ok fr) s fun t => ToRing (hit s) t port (spreadRing (slice fr 0 64) pf (k / 256 % 256) (k / 65536 % 256)) i fr))
        ∧ ((∀ e ∈ s.net.rules, ¬ RuleHits e.2 port p.profile.toNat (pf.key (slice fr 0 64))) → Gives (.frameReceive port ok fr) s fun t =>
            if p.defaultRing = 0xFFFF then t = s.countDrops port 1 else ToRing s t port p.defaultRing 0xFFFF fr))))
  ∧ (∀ (v : BitVec 32) (s : State),
      let r := ((List.range 31).map fun w => if w = 20 then 0 else fgetD 0 s.net.staging w) ++ [v]
      Gives (.ruleCommit v) s fun t => t = { s with net := if ruleBad r then { s.net with ruleBad := true } else { s.net with rules := fset s.net.rules s.net.ruleIndex.toNat r } })
  ∧ (∀ (port : Nat) (s : State), s.firm.events.length + 2 ≤ 256 →
    ((s.netPort port).linkUp = false → port < s.netPorts → (s.netPort port).enabled = true → s.stage < 4 ∨ port = 0 → Gives (.netLinkChange port true) s fun t =>
      t.netPort port = { s.netPort port with linkUp := true } ∧ NetEvents s t 0 port 0xFFFF 0 0xFFFF 0 ∧ t.traffic = s.traffic
      ∧ DownIs s t (16 + port) False)
    ∧ ((s.netPort port).linkUp = true → Gives (.netLinkChange port false) s fun t =>
      let e := s.egress port
      t.netPort port = { s.netPort port with linkUp := false, drops := satAdd (s.netPort port).drops (e.frames.length + e.waiting.length) }
      ∧ NetEvents s t 1 port 0xFFFF 0 0xFFFF 0 ∧ (t.egress port).frames = [] ∧ (t.egress port).waiting = [] ∧ (∀ q, q ≠ port → t.egress q = s.egress q ∧ t.netPort q = s.netPort q)
      ∧ if (s.netPort port).enabled ∧ s.stage < 4 then DownIs s t (16 + port) True
        else t.firm.portsDown = s.firm.portsDown ∧ t.firm.mstate = s.firm.mstate))
  ∧ (∀ (n : Nat) (v : BitVec 32) (r : Ring) (s : State), n < 256 → fget s.net.rings n = some r → (s.link s.mgr).open = true → (s.link s.mgr).held = [] →
      freeTag 2048 (s.link s.mgr).outstanding (s.link s.mgr).quarantine ≠ none →
    (s.awaits (.frameRxDesc n) = false → Gives (.frameRxTail n v) s fun t => fgetD 0 t.net.rxTail n = v.setWidth 16 ∧ fget t.net.rings n = some r
      ∧ (t.link s.mgr).sent = (s.link s.mgr).sent ++
          if r.rxFetched = v.toNat % 65536 % r.rxEntries then [] else [.read none (r.rxBase + 16 * r.rxFetched) 16 (.frameRxDesc n)])
    ∧ (s.awaits (.frameTxDesc n) = false → r.txDesc = none → Gives (.frameTxTail n v) s fun t => fgetD 0 t.net.txTail n = v.setWidth 16 ∧ fget t.net.rings n = some r
      ∧ (t.link s.mgr).sent = (s.link s.mgr).sent ++
          if r.txHead = v.toNat % 65536 % r.txEntries then [] else [.read none (r.txBase + 16 * r.txHead) 16 (.frameTxDesc n)])
    ∧ (∀ (l tag : Nat) (o : Outstanding) (d b : List Byte) (a : Nat), l < 2 → (s.link l).up = true → (s.link l).held = [] → fget (s.link l).outstanding tag = some o →
        o.tx = .read none a b.length (.frameData n) → o.got = [] → r.txDesc = some d →
      (etherType b ≠ 0x8808 → Gives (.completionArrive l tag .success b) s fun t => fget t.net.rings n = some r
        ∧ (t.egress (field d 10 1)).waiting = (s.egress (field d 10 1)).waiting ++ [{ queue := field d 11 1, room := none, ring := some n, bytes := b }]
        ∧ (t.link s.mgr).sent = (s.link s.mgr).sent)
      ∧ (etherType b = 0x8808 → (r.txHead + 1) % r.txEntries = (fgetD 0 s.net.txTail n).toNat % r.txEntries → Gives (.completionArrive l tag .success b) s fun t =>
          fget t.net.rings n = some { r with txDesc := none, txHead := (r.txHead + 1) % r.txEntries } ∧ t.traffic = s.traffic
          ∧ HostTx.write none (r.txBase + 16 * r.txHead + 12) [1] ∈ (t.link s.mgr).sent)))
  ∧ (∀ (slot core : Nat) (s : State),
    let f := asked s slot
    let r := (s.hole slot).req slot
    (Begun s slot core netConfigBlock none → Gives (.netConfig slot) s fun t => Answers t slot .ok [] ∧ t.net.config = f 0 1 ∧ t.firm.record.netConfig = some (f 0 1) ∧ (∀ p, p < s.netPorts → 16 + p ∉ t.firm.portsDown)
      ∧ (∀ p, t.netPort p = { frameErrors := (t.netPort p).frameErrors, drops := (t.netPort p).drops } ∧ (t.netPort p).frameErrors = (s.netPort p).frameErrors)
      ∧ ∀ p, p < 32 → t.egress p = {
          wgMin := rateOf (f 0 1) / 8, redDrops := (s.egress p).redDrops, deDrops := (s.egress p).deDrops, sample := (s.egress p).sample, peak := (s.egress p).peak })
    ∧ (Begun s slot core netPortSetBlock none → f 1 1 = 1 → Gives (.netPortSet slot) s fun t => Answers t slot .ok [] ∧ (∀ q, q ≠ f 0 1 → t.netPort q = s.netPort q)
      ∧ t.netPort (f 0 1) = { s.netPort (f 0 1) with
          enabled := true, profile := BitVec.ofNat 3 (f 2 1), courierEn := f 3 1 == 1, maxFrame := f 4 2, defaultRing := f 6 2,
          mac := BitVec.ofNat 48 (leNat (r.b 8 6)), courierAddr := BitVec.ofNat 128 (leNat (r.b 16 16)) })
    ∧ (Begun s slot core netPortSetBlock none → f 1 1 = 0 → Gives (.netPortSet slot) s fun t => Answers t slot .ok []
      ∧ (t.netPort (f 0 1)).enabled = false ∧ (t.netPort (f 0 1)).linkUp = false ∧ 16 + f 0 1 ∉ t.firm.portsDown)
    ∧ (Begun s slot core netProfileBlock none → Gives (.netProfile slot) s fun t => Answers t slot .ok []
      ∧ fget t.net.profiles (f 0 1) = some { addrA := f 1 1, addrB := f 2 1, addrLen := f 3 1, portA := f 4 1, portB := f 5 1, proto := f 6 1,
                                             points := (List.range 16).map fun i => (f (8 + 2 * i) 1, f (9 + 2 * i) 1) }
      ∧ ∀ k, k ≠ f 0 1 → fget t.net.profiles k = fget s.net.profiles k)
    ∧ (Begun s slot core netRingBlock none → Gives (.netRing slot) s fun t => Answers t slot .ok [] ∧ (∀ k, k ≠ f 0 1 → fget t.net.rings k = fget s.net.rings k)
      ∧ fget t.net.rings (f 0 1) = if f 1 1 = 0 then some { vector := f 2 1, rxEntries := f 4 2, txEntries := f 6 2, rxBase := f 8 8, txBase := f 16 8 } else none)
    ∧ (Begun s slot core netTimeBlock none → Gives (.netTime slot) s fun t => Answers t slot .ok []
      ∧ t.net.time = if f 0 1 = 0 then BitVec.ofNat 32 (f 4 4) else s.net.time + BitVec.ofNat 32 (f 4 4)))

/-- R461 to R478. -/
def Obligations.EgressFollowsItsRules : Prop :=
  (∀ (p i : Nat) (f : EgressFrame) (s : State),
    let e := s.egress p
    e.waiting[i]? = some f →
    let first := ∀ j x, j < i → e.waiting[j]? = some x → x.conn = none ∨ x.conn ≠ f.conn
    let l := f.bytes.length + 4
    let q := e.queue f.queue
    let depth := ((e.held.filter (·.queue = f.queue)).map EgressFrame.len).sum
    let red := q.policer = true ∧ q.polPeak.tokens < l * 65536
    let yellow := q.policer = true ∧ l * 65536 ≤ q.polPeak.tokens ∧ q.polCommitted.tokens < l * 65536
    let paid : EgressQueue := if q.policer then { q with
        polPeak := { q.polPeak with tokens := q.polPeak.tokens - l * 65536 },
        polCommitted := if l * 65536 ≤ q.polCommitted.tokens then { q.polCommitted with tokens := q.polCommitted.tokens - l * 65536 } else q.polCommitted } else q
    let taken := { e with waiting := e.waiting.eraseIdx i }
    let fin := fun (t : State) => (∀ r, r ≠ p → t.egress r = s.egress r)
      ∧ (f.ring = none → t = { s with traffic := t.traffic, net := { s.net with ports := t.net.ports } })
      ∧ ∀ n r, f.ring = some n → fget s.net.rings n = some r → (s.link s.mgr).open = true → (s.link s.mgr).held = [] →
          fget t.net.rings n = some { r with txDesc := none, txHead := (r.txHead + 1) % r.txEntries } ∧ HostTx.write none (r.txBase + 16 * r.txHead + 12) [1] ∈ (t.link s.mgr).sent
    (¬ first → Gives (.egressEnqueue p i) s fun t => t = s)
    ∧ (first → (s.netPort p).linkUp = false → Gives (.egressEnqueue p i) s fun t => t.egress p = taken ∧ (t.netPort p).drops = satAdd (s.netPort p).drops 1 ∧ fin t)
    ∧ (first → (s.netPort p).linkUp = true →
      (red → Gives (.egressEnqueue p i) s fun t => t.egress p = { taken with redDrops := satInc e.redDrops } ∧ t.net.ports = s.net.ports ∧ fin t)
      ∧ (yellow → q.deLimit < depth + l → Gives (.egressEnqueue p i) s fun t => t.egress p = { taken with
          queues := fset e.queues f.queue paid, deDrops := satInc e.deDrops } ∧ t.net.ports = s.net.ports ∧ fin t)
      ∧ (¬ red → (yellow → depth + l ≤ q.deLimit) →
        (q.limit < depth + l ∨ 0x4000000 / s.netPorts < (e.held.map EgressFrame.len).sum + l → Gives (.egressEnqueue p i) s fun t => t = s)
        ∧ (depth + l ≤ q.limit → (e.held.map EgressFrame.len).sum + l ≤ 0x4000000 / s.netPorts → ∀ y : Bool, (y = true ↔ yellow) → Gives (.egressEnqueue p i) s fun t =>
            t.egress p = { taken with queues := fset e.queues f.queue paid, frames := e.frames ++ [{ f with yellow := y, entered := s.firm.aon }] }
            ∧ t.net.ports = s.net.ports ∧ fin t))))
  ∧ (∀ s : State, Gives .tokenUpdate s fun t => t = { s with traffic := t.traffic, net := { s.net with timeNs := min 30 (s.net.timeNs + 10) } } ∧ ∀ p, p < s.netPorts →
      let e := s.egress p
      let cap := 2 * (s.netPort p).maxFrame * 65536
      let fill := fun (b : Bucket) => { b with tokens := min (b.tokens + b.rate * 8192 / 100) (b.size * 65536) }
      (∀ q, fget (t.egress p).queues q = (fget e.queues q).map fun x => { x with
          polCommitted := fill x.polCommitted, polPeak := fill x.polPeak, shCommitted := fill x.shCommitted, shPeak := fill x.shPeak })
      ∧ (t.egress p).minTokens = min (e.minTokens + e.wgMin * 8192 / 100) cap
      ∧ (∀ r, (t.egress p).floor r = min (e.floor r + e.wgMin * 8192 / 102400) cap) ∧ (t.egress p).frames = e.frames)
  ∧ (∀ (p : Nat) (s : State),
    let s0 := s.modEgress p Egress.boundary
    let e := s0.egress p
    let tight := decide (2 ≤ s.stage)
    (e.line = none ∧ e.changes = [] ∧ e.frames = (s.egress p).frames ∧ e.queues = ((s.egress p).changes.foldl Egress.apply (s.egress p)).queues)
    ∧ (Gives (.schedulerDecide p) s fun t => (∀ r, r ≠ p → t.egress r = s.egress r) ∧ t = { s with traffic := t.traffic, net := t.net }
      ∧ ((t.egress p = e ∧ t.net = s.net)
        ∨ ∃ f ∈ e.frames, FrameStarts s t p f ∧ ∀ q, (∀ g ∈ (t.egress p).frames, g.queue ≠ q) → ((t.egress p).queue q).deficit = 0))
    ∧ (∀ flow f, e.ttGrant = some flow → e.frames.find? (·.queue == 72 + flow) = some f → s0.gatePasses p (72 + flow) (f.bytes.length + 4) = true →
        Gives (.schedulerDecide p) s fun t => FrameStarts s t p f ∧ (t.egress p).ttGrant = none)
    ∧ (e.ttGrant = none → (∀ f ∈ e.frames, f.queue < 8) → ∀ q f, q < 8 → e.frames.find? (·.queue == q) = some f → s0.mayStart p f = true →
        (∀ r g, r < q → e.frames.find? (·.queue == r) = some g → s0.mayStart p g = false) → Gives (.schedulerDecide p) s fun t => FrameStarts s t p f
        ∧ ((e.queue q).shaper = true → (t.egress p).queue q = { e.queue q with
            deficit := ((t.egress p).queue q).deficit, shPeak := (e.queue q).shPeak.charge (f.bytes.length + 4),
            shCommitted := if tight ∨ (f.bytes.length + 4) * 65536 ≤ (e.queue q).shCommitted.tokens then (e.queue q).shCommitted.charge (f.bytes.length + 4)
              else (e.queue q).shCommitted }))
    ∧ (e.ttGrant = none → ∀ f e', s0.weightedPick p = some (f, e') →
        let strict := fun (q : Nat) (g : EgressFrame) => q < 8 ∧ e.frames.find? (·.queue == q) = some g ∧ s0.mayStart p g = true
          ∧ ∀ r h, r < q → e.frames.find? (·.queue == r) = some h → s0.mayStart p h = false
        ((f.bytes.length + 4) * 65536 ≤ e.minTokens ∨ (∀ r g, r < 8 → e.frames.find? (·.queue == r) = some g → s0.mayStart p g = false) →
          Gives (.schedulerDecide p) s fun t => (t.egress p).line = some f ∧ t.net.sentFrames = s.net.sentFrames ++ [(p, f.bytes)])
        ∧ (∀ q g, e.minTokens < (f.bytes.length + 4) * 65536 → strict q g → Gives (.schedulerDecide p) s fun t => FrameStarts s t p g))
    ∧ (∀ r f, e.ttGrant = none → (∀ g ∈ e.frames, g.room = some r ∧ 8 ≤ g.queue ∧ g.queue < 72) → e.frames.head? = some f → (∀ g ∈ e.frames, f.queue ≤ g.queue) → s0.mayStart p f = true →
        (f.bytes.length + 4) * 65536 ≤ e.floor r → Gives (.schedulerDecide p) s fun t => FrameStarts s t p f
          ∧ (t.egress p).floor r = e.floor r - (f.bytes.length + 4) * 65536 ∧ (t.egress p).roomServed = e.roomServed.erase r ++ [r]
          ∧ (t.egress p).minTokens = e.minTokens - (f.bytes.length + 4) * 65536))
  ∧ (∀ (p : Nat) (s : State),
    let e := s.egress p
    let is := fun (t : State) (x : Egress) => t.egress p = x ∧ ∀ r, r ≠ p → t.egress r = s.egress r
    let ev := fun (t : State) (kind : Nat) => t.firm.events = s.firm.events ++ [{
      opcode := 0x0980, time := s.firm.aon, payload := [BitVec.ofNat 8 kind, BitVec.ofNat 8 p, 0, 0] ++ leBytes 4 s.net.time.toNat }]
    let now : Int := s.net.time.toNat * 1000 + s.net.timeFrac * 40 + s.net.timeNs
    let slotEnd := e.ttStart + e.tt.slotNs
    let entryEnd := e.gateStart + (match e.gates.entries[e.gateEntry]? with | some x => (x.2 : Int) | none => 0)
    (∀ n, e.tt.flows.length = n → 0 < n → slotEnd < now + 40 → (e.ttPending = none ∨ slotEnd < e.ttDue) → Gives (.timetableSlotStart p) s fun t =>
      is t { e with ttSlot := (e.ttSlot + 1) % n, ttStart := slotEnd, ttGrant := e.tt.flows.getD ((e.ttSlot + 1) % n) none })
    ∧ (now + 40 ≤ slotEnd ∨ (e.ttPending ≠ none ∧ e.ttDue ≤ slotEnd) → Gives (.timetableSlotStart p) s fun t => t = s)
    ∧ (∀ n, e.gates.entries.length = n → 0 < n → entryEnd < now + 40 → (e.gatesPending = none ∨ entryEnd < e.gatesDue) → Gives (.gateEntryAdvance p) s fun t =>
      is t { e with gateEntry := (e.gateEntry + 1) % n, gateStart := entryEnd })
    ∧ (now + 40 ≤ entryEnd ∨ (e.gatesPending ≠ none ∧ e.gatesDue ≤ entryEnd) → Gives (.gateEntryAdvance p) s fun t => t = s)
    ∧ (∀ gates : Bool, now + 40 ≤ (if gates then e.gatesDue else e.ttDue : Nat) → Gives (.scheduleSwitch p gates) s fun t => t = s)
    ∧ (∀ g, e.gatesPending = some g → e.gatesDue < now + 40 → s.firm.events.length < 256 → Gives (.scheduleSwitch p true) s fun t => ev t 1 ∧ is t { e with
        gates := g, gatesPending := none, gateStart := e.gatesDue, gateEntry := if g.entries = [] then 0x1FF else 0 })
    ∧ (∀ w, e.ttPending = some w → e.ttDue < now + 40 → s.firm.events.length < 256 → Gives (.scheduleSwitch p false) s fun t => ev t 0 ∧ is t { e with
        tt := w, ttPending := none, ttSlot := 0, ttStart := e.ttDue, ttGrant := w.flows.getD 0 none })
    ∧ (p < s.netPorts → Gives .queueSample s fun t => (t.egress p).frames = e.frames ∧ ∀ q, q < 104 →
        let d := min ((e.held.filter (·.queue = q)).map EgressFrame.len).sum 0xFFFFFF
        let w := min (((e.held.filter (·.queue = q)).map fun f => s.firm.aon - f.entered).foldl max 0 * 4) 0xFFFFFF
        fgetD (0, 0) (t.egress p).sample q = (d, w)
          ∧ (fgetD (0, 0) (t.egress p).peak q).1.toNat = max (fgetD (0, 0) e.peak q).1.toNat d
          ∧ (fgetD (0, 0) (t.egress p).peak q).2.toNat = max (fgetD (0, 0) e.peak q).2.toNat w))

/-- R480 to R483. -/
def Obligations.TrafficMessagesTakeEffect : Prop :=
  ∀ (slot core : Nat) (s : State),
    let f := asked s slot
    let r := (s.hole slot).req slot
    let p := f 0 1
    let e := s.egress p
    let is := fun (t : State) (x : Egress) => Answers t slot .ok [] ∧ t.egress p = x ∧ ∀ q, q ≠ p → t.egress q = s.egress q
    let due := fun (base len : Nat) (after : Int) (at' : Nat) => base ≤ at' ∧ after ≤ at' ∧ (0 < len → (at' - base) % len = 0 ∧ (at' = base ∨ (at' : Int) < after + len))
      ∧ (len = 0 → (at' : Int) = max (base : Int) after)
    let set := fun (b : Bucket) (rate size : Nat) => ({ rate, size, tokens := min b.tokens (size * 65536) } : Bucket)
    let q := e.queue (f 1 1)
    let metered : EgressQueue := { q with
      polCommitted := set q.polCommitted (f 16 4) (f 24 4), polPeak := set q.polPeak (f 20 4) (f 28 4),
      shCommitted := set q.shCommitted (f 32 4) (f 40 4), shPeak := set q.shPeak (f 36 4) (f 44 4) }
    (Begun s slot core trafficQueueBlock none →
      (e.line = none → Gives (.trafficQueue slot) s fun t => is t { e with
        queues := fset e.queues (f 1 1) { metered with
          weight := f 2 1, policer := bitOf (f 3 1) 0, shaper := bitOf (f 3 1) 1, limit := f 4 4, deLimit := f 8 4 } })
      ∧ (e.line ≠ none → Gives (.trafficQueue slot) s fun t => is t { e with
        queues := fset e.queues (f 1 1) metered, changes := e.changes ++ [.queue (f 1 1) (f 2 1) (bitOf (f 3 1) 0) (bitOf (f 3 1) 1) (f 4 4) (f 8 4)] }))
    ∧ (Begun s slot core trafficPortBlock none → Gives (.trafficPort slot) s fun t => ∃ map, (∀ d, d < 64 → fget map d = some (f (8 + d) 1))
        ∧ (e.line = none → is t { e with wgMin := f 4 4, dscp := map }) ∧ (e.line ≠ none → is t { e with wgMin := f 4 4, changes := e.changes ++ [.dscp map] }))
    ∧ (Begun s slot core trafficTimetableBlock none → Gives (.trafficTimetable slot) s fun t => is t { e with
        ttPending := some { slotNs := f 4 4, base := f 8 4, flows := (r.b 16 (f 2 2)).map fun b => if b = 0xFF then none else some b.toNat },
        ttDue := (t.egress p).ttDue } ∧ due (1000 * f 8 4) (f 4 4 * (r.b 16 (f 2 2)).length) (e.periodEnd s.nowNs) (t.egress p).ttDue)
    ∧ (Begun s slot core trafficGatesBlock none → Gives (.trafficGates slot) s fun t => is t { e with
        gatesPending := some { base := f 4 4, entries := (List.range (f 2 2)).map fun k => (BitVec.ofNat 10 (f (16 + 8 * k) 2), f (20 + 8 * k) 4) },
        gatesDue := (t.egress p).gatesDue } ∧ due (1000 * f 4 4) (((List.range (f 2 2)).map fun k => f (20 + 8 * k) 4).sum) (e.cycleEnd s.nowNs) (t.egress p).gatesDue)

/-- R438 to R459. -/
def Obligations.CourierFollowsItsRules : Prop :=
  (∀ (port : Nat) (ok ce : Bool) (p : List Byte) (s : State),
    let h := parseHead p
    let cn := h.conn
    let c := s.conn cn
    let b := p.drop 40
    let rx := Instr.courierPacketReceive port ok ce p
    (h.op ≠ 5 → h.op ≠ 6 → ok = false ∨ p.length < 40 ∨ c.state ≠ .opened ∨ h.gen ≠ c.gen ∨ c.roce = true → Gives rx s fun t => t = { s with net := { s.net with stale := satInc s.net.stale } })
    ∧ (∀ st, s.discards ok p = false → h.op = 1 ∨ h.op = 2 ∨ h.op = 3 → fget c.refusedMsns h.msn = some st → Gives rx s fun t =>
        PacketWaits s t cn 6 h.msn (fun x => beField x 6 2 = st % 65536) ∧ t = { s with traffic := t.traffic })
    ∧ (Takes s ok p → c.complete.contains h.msn = true → h.op = 1 ∨ h.op = 2 →
      (∀ a, fget c.dupAcks h.msn = some a → s.firm.aon < a + 200 → Gives rx s fun t => t = s)
      ∧ ((∀ a, fget c.dupAcks h.msn = some a → a + 200 ≤ s.firm.aon) → Gives rx s fun t => PacketWaits s t cn 5 h.msn (fun _ => True)
        ∧ t.conn cn = { c with dupAcks := fset c.dupAcks h.msn s.firm.aon } ∧ (∀ k, k ≠ cn → t.conn k = s.conn k)
        ∧ t = { s with traffic := t.traffic, net := { s.net with conns := t.net.conns } }))
    ∧ (Takes s ok p → c.complete.contains h.msn = false → h.offset = 0 → 0 < h.length → h.length ≤ c.pkt → h.length ≤ 2097152 →
      s.anchorOf c.guest h.op h.length h.addr = none →
      (h.op = 2 → b.length = h.length → s.stage < 3 → s.keyAllows c.guest h.key true h.addr b.length = none → Gives rx s fun t => PacketWaits s t cn 6 h.msn (fun x => beField x 6 2 = 1)
        ∧ t.net.key = satInc s.net.key ∧ t.mem = s.mem)
      ∧ (∀ k, h.op = 2 → b.length = h.length → s.keyAllows c.guest h.key true h.addr b.length = some k → k.kind ≠ 0 → tileRange h.addr b.length = none → s.tallyBlock c.guest h = false →
          h.flags = 0 → s.stage < 3 → s.trackersUsed < 16384 → (∀ t ∈ c.trackers, t.msn ≠ h.msn) → Gives rx s fun t =>
          let u := s.memWrite h.addr b .courier
          t.mem = u.mem ∧ t.porter = u.porter
          ∧ (∀ j x, fget s.jobs j = some x → x.live = true → x.timed = true → (∃ e ∈ s.guests, e.1 = x.guest ∧ ∃ r ∈ e.2.ranges, overlaps h.addr b.length r.1 r.2 = true) →
              ∃ y, fget t.jobs j = some y ∧ y.broken = true)
          ∧ (s.Sound → MergesOk s → h.addr + b.length ≤ stackTop → (∀ i, i < b.length → s.wordStatus (h.addr + i) = .ok) → WritesNow s .courier h.addr b.length →
              ∀ i, i < b.length → reads t (h.addr + i) = some (b.getD i 0))
          ∧ PacketWaits s t cn 5 h.msn (fun _ => True) ∧ (t.conn cn).completed h.msn = true ∧ (t.conn cn).trackers = c.trackers)
      ∧ (∀ k, h.op = 3 → s.keyAllows c.guest h.key false h.addr h.length = some k → k.kind ≠ 0 → tileRange h.addr h.length = none → s.rangeStatus h.addr h.length = .ok → s.stage < 3 →
          s.trackersUsed < 16384 → Gives rx s fun t => PacketWaits s t cn 4 h.msn (fun x => x.drop 40 = s.memBytes h.addr h.length ∧ beField x 20 4 = h.length % 2 ^ 32) ∧ t.mem.cells = s.mem.cells
          ∧ (t.conn cn).completed h.msn = true))
    ∧ (∀ f, s.discards ok p = false → c.flights.find? (·.msn == h.msn) = some f →
      let gone := fun (c : Conn) => { c with flights := c.flights.filter (·.msn != f.msn) }
      (h.op = 5 → f.wr.op ≠ 3 → Gives (.courierAckReceive port ok ce p) s fun t => (t.conn cn).flights = (gone c).flights
        ∧ (t.conn cn).limit = (if h.flags % 2 = 1 then max c.pkt (c.limit / 2) else min c.inflight (c.limit + c.pkt))
        ∧ (f.wr.signal = false → t = { s.modConn cn (fun _ => t.conn cn) with traffic := t.traffic })
        ∧ (t.egress c.port).waiting = (s.egress c.port).waiting.filter (fun x => !(x.conn == some cn && x.msg == some h.msn))
        ∧ (f.wr.signal = true → HostTakes s (s.guest c.guest) → EntryWritten s t cn f.wr.cookie.toNat f.msn f.wr.length 0 f.wr.op))
      ∧ (h.op = 6 → h.status ≠ 0 → Gives (.courierNackReceive port ok ce p) s fun t => (t.conn cn).flights = (gone c).flights ∧ (t.conn cn).limit = c.limit
        ∧ (HostTakes s (s.guest c.guest) → EntryWritten s t cn f.wr.cookie.toNat f.msn f.got h.status f.wr.op))))
  ∧ (∀ (cn msn : Nat) (f : InFlight) (s : State),
    let c := s.conn cn
    c.flights.find? (·.msn == msn) = some f → c.state = .opened → c.roce = false →
      (∀ b, f.resends < c.retries → f.wr.op < 4 → f.wr.data = some b → 0 < b.length → b.length ≤ c.pkt → Gives (.courierRtoExpire cn msn) s fun t =>
        (t.conn cn).flights = (c.flights.map fun x => if x.msn = msn then { f with resends := f.resends + 1, skip := 0 } else x) ∧ PacketWaits s t cn f.wr.op f.msn (fun x => x.drop 40 = b))
      ∧ (c.retries ≤ f.resends → c.flights = [f] → c.sends = [] → c.recvs = [] → s.firm.events.length < 256 → HostTakes s (s.guest c.guest) → Gives (.courierRtoExpire cn msn) s fun t =>
        (t.conn cn).state = .error ∧ (t.conn cn).flights = [] ∧ EntryWritten s t cn f.wr.cookie.toNat f.msn f.got 2 f.wr.op
        ∧ NetEvents s t 2 c.port ((s.guest c.guest).localNo 64 cn) 2 c.guest 0))
  ∧ (∀ (cn : Nat) (x : Guest) (s : State),
    let c := s.conn cn
    s.guest? c.guest = some x → c.state = .opened → HostTakes s x → s.firm.mstate ≠ .safeHold → s.mesh.emptying = [] →
    (s.awaits (.wrFetch cn false) = false → c.sendFetched % c.sendEntries ≠ c.sendProd % c.sendEntries → s.storedRequests c.guest < 1024 * x.open.length → s.storeUsed < 1048576 →
      Gives (.wrFetch cn false) s fun t => t.conn cn = c
        ∧ (t.link x.link).sent = (s.link x.link).sent ++ [.read (some x.pasid) (c.sendRing + 64 * (c.sendFetched % c.sendEntries)) 64 (.wrFetch cn false)])
    ∧ (∀ (l tag : Nat) (o : Outstanding) (a : Nat) (pasid : Option Nat) (b : List Byte), l < 2 → (s.link l).up = true → (s.link l).held = [] → fget (s.link l).outstanding tag = some o →
        o.tx = .read pasid a 64 (.wrFetch cn false) → o.got = [] → b.length = 64 → Gives (.completionArrive l tag .success b) s fun t =>
        ∃ w, t.conn cn = { c with sendFetched := c.sendFetched + 1, sends := c.sends ++ [w] } ∧ w.op = field b 0 1 ∧ w.length = field b 12 4 ∧ w.localAddr = field b 16 8
          ∧ w.remoteAddr = field b 32 8 ∧ w.cookie = BitVec.ofNat 32 (field b 48 4) ∧ w.signal = (field b 1 1 / 4 % 2 == 1) ∧ (w.length = 0 → w.bad = true))
    ∧ (∀ w rest, c.sends = w :: rest → s.stage < 3 → s.quietHeld c.guest = false → s.saving c.guest = false → c.roce = false → w.data = none →
      (w.bad = true → Gives (.courierRequestStart cn) s fun t => (t.conn cn).sends = rest ∧ (t.conn cn).nextMsn = c.nextMsn ∧ EntryWritten s t cn w.cookie.toNat c.nextMsn 0 6 w.op)
      ∧ (∀ k, w.bad = false → w.op = 2 → w.hold = false → w.tally = false → s.keyAllows c.guest w.localKey.toNat false w.localAddr w.length = some k → k.kind = 1 →
          tileRange w.localAddr w.length = none → s.rangeStatus w.localAddr w.length = .ok → c.mayStart w = true → 0 < w.length → w.length ≤ c.pkt →
        Gives (.courierRequestStart cn) s fun t => t.conn cn = { c with
            sends := rest, nextMsn := (c.nextMsn + 1) % 2 ^ 32, flights := c.flights ++ [{ wr := w, msn := c.nextMsn, ssn := c.nextSsn }] }
          ∧ PacketWaits s t cn 2 c.nextMsn (fun x => x.drop 40 = s.memBytes w.localAddr w.length ∧ beField x 24 8 = w.remoteAddr % 2 ^ 64 ∧ beField x 32 4 = w.remoteKey.toNat))))
  ∧ (∀ (cn : Nat) (x : Guest) (s : State),
    let c := s.conn cn
    s.guest? c.guest = some x → c.state = .error → HostTakes s x → s.mesh.emptying = [] →
    (s.awaits (.wrFetch cn false) = false → c.sendFetched % c.sendEntries ≠ c.sendProd % c.sendEntries → Gives (.wrFetch cn false) s fun t => t.conn cn = c
        ∧ (t.link x.link).sent = (s.link x.link).sent ++ [.read (some x.pasid) (c.sendRing + 64 * (c.sendFetched % c.sendEntries)) 64 (.wrFetch cn false)])
    ∧ (∀ (l tag : Nat) (o : Outstanding) (a : Nat) (pasid : Option Nat) (b : List Byte), l < 2 → (s.link l).up = true → (s.link l).held = [] → fget (s.link l).outstanding tag = some o →
        o.tx = .read pasid a 64 (.wrFetch cn false) → o.got = [] → b.length = 64 →
      (c.closing = [] → Gives (.completionArrive l tag .success b) s fun t => EntryWritten s t cn (field b 48 4) c.nextMsn 0 5 (field b 0 1)
        ∧ (t.conn cn).sendFetched = c.sendFetched + 1 ∧ (t.conn cn).sends = c.sends ∧ (t.conn cn).state = .error)
      ∧ (∀ seq, c.closing = [seq] → (c.sendFetched + 1) % c.sendEntries = c.sendProd % c.sendEntries → c.nextWr true = none → s.firm.events.length < 256 →
          Gives (.completionArrive l tag .success b) s fun t => (t.conn cn).state = .closed ∧ NetEvents s t 3 c.port (x.localNo 64 cn) 0 c.guest seq)))
  ∧ (∀ (slot core : Nat) (x : Guest) (s : State), s.guest? (sentBy s slot) = some x →
    let g := sentBy s slot
    let f := asked s slot
    let r := (s.hole slot).req slot
    (Begun s slot core courierKeyBlock none →
      (∀ i, f 0 1 = 0 → i < 4096 → fget s.net.keys i = none → (∀ j, j < i → fget s.net.keys j ≠ none) → Gives (.courierKey slot) s fun t =>
        let tag := BitVec.ofNat 20 s.net.keyCount
        fget t.net.keys i = some { tag, guest := g, kind := f 1 1, read := bitOf (f 2 1) 0, write := bitOf (f 2 1) 1 } ∧ Answers t slot .ok (leBytes 4 (i + 4096 * tag.toNat))
        ∧ t.net.keyCount = s.net.keyCount + 1 ∧ ∀ j, j ≠ i → fget t.net.keys j = fget s.net.keys j)
      ∧ (f 0 1 = 1 → Gives (.courierKey slot) s fun t => fget t.net.keys (f 4 4 % 4096) = none ∧ Answers t slot .ok (zeros 4)))
    ∧ (∀ cn, x.moduleNo 64 (f 0 2) = some cn →
      (Begun s slot core courierOpenBlock none → f 3 1 = 0 → Gives (.courierOpen slot) s fun t =>
        let gen := ((s.conn cn).gen + 1) % 65536
        Answers t slot .ok (leBytes 2 gen ++ [0, 0] ++ leBytes 4 cn) ∧ (∀ k, k ≠ cn → t.conn k = s.conn k) ∧ t.conn cn = {
          state := .opened, gen, guest := g, port := f 2 1, roce := false, peerConn := f 4 4, peerGen := f 8 4, paths := f 12 2, pkt := 1024 * 2 ^ f 14 1, dscp := f 15 1,
          peerAddr := BitVec.ofNat 128 (leNat (r.b 16 16)), peerMac := BitVec.ofNat 48 (leNat (r.b 32 6)), vector := (x.moduleNo 8 (f 38 2)).getD 0, rtoUs := f 40 4,
          retries := f 44 1, inflight := f 48 4, limit := f 48 4, sendRing := f 56 8, recvRing := f 64 8, cqRing := f 72 8, sendEntries := f 80 2, recvEntries := f 82 2,
          cqEntries := f 84 2, nextMsn := 0, base := 0 })
      ∧ (Begun s slot core courierCloseBlock none → (s.conn cn).flights = [] → (s.conn cn).sends = [] → (s.conn cn).recvs = [] → s.firm.events.length < 256 →
        (s.conn cn).closing = [] →
        ((s.conn cn).nextWr false ≠ none ∨ (s.conn cn).nextWr true ≠ none → Gives (.courierClose slot) s fun t => Answers t slot .deferred []
          ∧ t.conn cn = { s.conn cn with state := .error, closing := [r.seq], trackers := [] } ∧ t.firm.events = s.firm.events)
        ∧ ((s.conn cn).nextWr false = none → (s.conn cn).nextWr true = none →
          Gives (.courierClose slot) s fun t => Answers t slot .deferred [] ∧ t.conn cn = { gen := (s.conn cn).gen, closedAt := some s.firm.aon, guest := (s.conn cn).guest }
          ∧ NetEvents s t 3 (s.conn cn).port ((s.guest (s.conn cn).guest).localNo 64 cn) 0 (s.conn cn).guest r.seq))))
  ∧ (∀ (port cn : Nat) (fr : List Byte) (s : State),
      let q := s.netPort port
      q.linkUp = true → q.refuses true fr = false → s.courierPort port fr = some 4791 → icrcOk fr = true → ecnCe fr = false → 16 ≤ (udpPayload fr).length →
      beField (udpPayload fr) 0 1 = 0x81 → beField (udpPayload fr) 5 3 = cn → (s.conn cn).state = .opened → (s.conn cn).roce = true →
    Gives (.frameReceive port true fr) s fun t => t = s.modConn cn fun c => { c with limit := max c.pkt (c.limit / 2) })

/-- R485 to R503. -/
def Obligations.CipherFollowsItsRules : Prop :=
  (∀ (slot core : Nat) (s : State),
    let g := sentBy s slot
    let f := asked s slot
    let r := (s.hole slot).req slot
    (Begun s slot core keyIdentityBlock none → Gives (.keyIdentity slot) s fun t =>
      let q := ecMul pGx pGy Config.identityKey
      Answers t slot .ok (beBytes 48 q.1 ++ beBytes 48 q.2) ∧ t.cipher = s.cipher)
    ∧ (Begun s slot core kekInstallBlock none → Gives (.kekInstall slot) s fun t =>
      let z := (ecMul (beNat (r.b 8 48)) (beNat (r.b 56 48)) Config.identityKey).1
      Answers t slot .ok [] ∧ t.cipher.slots = s.cipher.slots ∧ (∀ k, k ≠ f 0 1 → fget t.cipher.keks k = fget s.cipher.keks k)
      ∧ fget t.cipher.keks (f 0 1) = some (keyOf (hkdf384 (beBytes 48 z) ([0x55, 0x4C, 0x50, 0x4B, 0x2D, 0x4B, 0x45, 0x4B] ++ r.b 0 1 ++ leBytes 8 Config.serial.toNat) 32)))
    ∧ (∀ k kek, (s.guest g).moduleNo 8 (f 0 2) = some k → fget s.cipher.keks (f 3 1) = some kek → Begun s slot core keyLoadBlock none →
      let got := unwrapKey (keyBytes kek) (r.b 8 (if f 2 1 = 2 then 72 else 40))
      ((got = none ∨ ∃ m, got = some m ∧ f 2 1 = 2 ∧ keyOf m = keyOf (m.drop 32)) → Gives (.keyLoad slot) s fun t => Answers t slot .faulted [] ∧ t.cipher = s.cipher)
      ∧ (∀ m, got = some m → ¬ (f 2 1 = 2 ∧ keyOf m = keyOf (m.drop 32)) → Gives (.keyLoad slot) s fun t => Answers t slot .ok []
        ∧ (∀ j, j ≠ k → j ≠ k + 1 → fget t.cipher.slots j = fget s.cipher.slots j)
        ∧ (f 2 1 = 1 → fget t.cipher.slots k = some { kind := .gcm, bits := keyOf m } ∧ fget t.cipher.slots (k + 1) = fget s.cipher.slots (k + 1))
        ∧ (f 2 1 = 2 → fget t.cipher.slots k = some { kind := .xtsLo, bits := keyOf m } ∧ fget t.cipher.slots (k + 1) = some { kind := .xtsHi, bits := keyOf (m.drop 32) })))
    ∧ (∀ k, (s.guest g).moduleNo 8 (f 0 2) = some k → Begun s slot core keyClearBlock none → Gives (.keyClear slot) s fun t =>
      fget t.cipher.slots k = none ∧ (s.slotKind k = some .xtsLo → fget t.cipher.slots (k + 1) = none)
      ∧ (∀ j, j ≠ k → ¬ (s.slotKind k = some .xtsLo ∧ j = k + 1) → fget t.cipher.slots j = fget s.cipher.slots j)
      ∧ (∀ e, (t.engine e).cache = (s.engine e).cache.filter (·.1 != k) ∧ (t.engine e).run = (s.engine e).run ∧ (t.engine e).block = (s.engine e).block)
      ∧ (s.slotHeld k = false → Answers t slot .ok []) ∧ (s.slotHeld k = true → t.hole slot = s.hole slot ∧ t.cipher.clearing = s.cipher.clearing.filter (·.1 != slot) ++ [(slot, k)]))
    ∧ (∀ k, s.cipher.clearing.find? (·.1 == slot) = some (slot, k) → (s.slotHeld k = true → Gives (.keyClearDone slot) s fun t => t = s)
      ∧ (s.slotHeld k = false → s.beganBy slot = some core → (s.hole slot).num 2 2 = 0x0A04 → Gives (.keyClearDone slot) s fun t => Answers t slot .ok []
        ∧ (t.core core).begun = none ∧ t.cipher.clearing = s.cipher.clearing.filter (·.1 != slot)))
    ∧ (∀ k e, (s.guest g).moduleNo 8 (f 2 2) = some k → s.freeEngine = some e → NoneWait s → s.enginesOn = true → s.stage < 3 → Begun s slot core cipherRunBlock none →
      Gives (.cipherRun slot) s fun t => Answers t slot .deferred [] ∧ (∀ i, i ≠ e → t.engine i = s.engine i) ∧ NoneWait t
        ∧ TakesOn (s.engine e) k (some {
            guest := g, mode := f 0 1, unit := f 1 1, slot := k, localSlot := f 2 2, source := f 8 8, dest := f 16 8, length := f 24 8, aad := f 32 8, aadLen := f 40 4,
            iv := r.b 48 16, tagAddr := f 64 8, seq := r.seq }) none (t.engine e)))
  ∧ (∀ (e slot : Nat) (kind : SlotKind) (s : State), e < 32 → (s.engine e).fetching = true → (s.engine e).needs = some (slot, kind) →
    (∀ k, s.slotKey slot kind = some k → Gives (.keyFetchDone e) s fun t => t = s.modEngine e (fun _ => t.engine e)
      ∧ t.engine e = {
          fetching := false, cache := ((slot, k) :: (s.engine e).cache.filter (·.1 != slot)).take 8,
          run := (s.engine e).run.map fun r => { r with key := some k }, block := (s.engine e).block.map fun b => { b with key := some k } })
    ∧ (s.slotKey slot kind = none → NoneWait s →
      (∀ r, (s.engine e).run = some r → s.firm.events.length < 256 → Gives (.keyFetchDone e) s fun t => (t.engine e).busy = false ∧ CipherEvents s t 0 2 r.localSlot 0 0 r.guest r.seq)
      ∧ (∀ b c, (s.engine e).run = none → (s.engine e).block = some b → (s.pair b.pair).cmd? b.cid = some c → (s.pair b.pair).cause = 0 →
          Gives (.keyFetchDone e) s fun t => (t.engine e).busy = false ∧ CmdEnds s t b.pair b.cid 2 0x86 true)))
  ∧ (∀ (e : Nat) (r : CipherRun) (k : BitVec 256 × BitVec 256) (s : State), e < 32 → (s.engine e).run = some r → r.key = some k → NoneWait s →
      s.guestMem r.guest r.source r.length = true → s.guestMem r.guest r.dest r.length = true → ReadsTo s r.guest r.aad r.aadLen r.aadLen → r.mode < 4 →
    let m := s.memBytes r.source r.length
    let ends := fun (u t : State) (result n : Nat) => t.mem = u.mem ∧ t.porter = u.porter ∧ (t.engine e).busy = false ∧ (∀ i, i ≠ e → t.engine i = s.engine i)
      ∧ (u.firm.events.length < 256 → CipherEvents u t 0 result r.localSlot 0 n r.guest r.seq)
      ∧ t.cipher.authFails = (if result = 1 then satInc s.cipher.authFails else s.cipher.authFails)
    (ReadsTo s r.guest r.source r.length r.length →
      (r.mode = 0 → Gives (.cipherRunDone e) s fun t => let out := gcmCtr (keyBytes k.1) (r.iv.take 12) m
        ends ((s.memWrite r.dest out (.cipher e)).memWrite r.tagAddr (gcmTag (keyBytes k.1) (r.iv.take 12) (s.memBytes r.aad r.aadLen) out) (.cipher e)) t 0 r.length)
      ∧ (r.mode = 1 → let u := s.memWrite r.dest (gcmCtr (keyBytes k.1) (r.iv.take 12) m) (.cipher e)
          ReadsTo u r.guest r.tagAddr 16 16 → Gives (.cipherRunDone e) s fun t => ends u t
            (if u.memBytes r.tagAddr 16 = gcmTag (keyBytes k.1) (r.iv.take 12) (s.memBytes r.aad r.aadLen) m then 0 else 1) r.length)
      ∧ (2 ≤ r.mode → r.length % (if r.unit = 0 then 512 else 4096) = 0 → m.length = r.length → Gives (.cipherRunDone e) s fun t =>
          ends (s.memWrite r.dest (xts (r.mode == 2) (keyBytes k.1) (keyBytes k.2) (leNat r.iv) (if r.unit = 0 then 512 else 4096) m) (.cipher e)) t 0 r.length))
    ∧ (∀ n, r.mode < 2 → n < r.length → ReadsTo s r.guest r.source r.length n → let out := gcmCtr (keyBytes k.1) (r.iv.take 12) (m.take n)
        Gives (.cipherRunDone e) s fun t => ends (s.memWrite r.dest out (.cipher e)) t 3 out.length))
  ∧ (∀ (e : Nat) (b : CipherBlock) (k : BitVec 256 × BitVec 256) (c : Cmd) (s : State), e < 32 → (s.engine e).run = none → (s.engine e).block = some b → b.key = some k →
      (s.pair b.pair).cmd? b.cid = some c → (s.pair b.pair).cause = 0 →
    let out := xts b.encrypt (keyBytes k.1) (keyBytes k.2) b.tweak 4096 (slice c.data (4096 * b.block) 4096)
    let d := c.data.take (4096 * b.block) ++ out ++ c.data.drop (4096 * b.block + 4096)
    (1 < c.left → Gives (.cipherBlockDone e) s fun t => (t.pair b.pair).cmd? b.cid = some { c with data := d, left := c.left - 1 }
      ∧ (NoneWait s → (t.engine e).busy = false)
      ∧ (∀ w, s.cipher.waiting = [w] → s.cipher.waitRuns = [] → s.enginesOn = true → (∀ i, i < e → (s.engine i).busy = true) → TakesOn (s.engine e) w.slot none (some w) (t.engine e)))
    ∧ (∀ p, c.left = 1 → b.encrypt = true → c.opcode = 1 → c.parts = [p] → p.done = false → s.unreachable p = none → Gives (.cipherBlockDone e) s fun t =>
        (t.pair b.pair).cmd? b.cid = some { c with
          data := d, left := 0, sent := true, parts := [{ p with bytes := slice d (4096 * (p.first - c.slba)) (4096 * p.blocks) }] })
    ∧ (∀ x n, c.left = 1 → b.encrypt = false → c.nlb = 1 → b.block = 0 → c.data.length = 4096 → out.length = 4096 → c.prp1 % 4096 = 0 → c.pages = [c.prp1] →
        s.guest? (s.pair b.pair).guest = some x → HostTakes s x → s.ns? (s.pair b.pair).guest c.nsid = some n → n.unwritten c.slba = false → Gives (.cipherBlockDone e) s fun t =>
        CmdEnds s t b.pair b.cid 0 0 false ∧ (t.link x.link).sent = (s.link x.link).sent ++ [.write (some x.pasid) c.prp1 out]))
  ∧ (∀ (cause : Nat) (s : State), cause < 5 →
    (s.cipher.active.getLsbD cause = false → Gives (.alarm cause) s fun t => Zeroised t ∧ t.cipher.count = satInc s.cipher.count
      ∧ (∀ i, t.cipher.active.getLsbD i = (s.cipher.active.getLsbD i || i == cause)) ∧ (∀ i, t.cipher.latched.getLsbD i = (s.cipher.latched.getLsbD i || i == cause))
      ∧ (∀ c, c < 19 → s.corePowered c = true → (t.core c).pend.getLsbD 3 = true)
      ∧ (s.cipher.engines = [] → NoneWait s → s.firm.events.length < 256 → CipherEvents s t 1 0 0xFFFF (2 ^ cause) 0 0xFFFF 0)
      ∧ (∀ e x r, s.cipher.engines = [(e, x)] → x.run = some r → NoneWait s → (t.engine e).busy = false ∧ t.cipher.keyLost = satInc s.cipher.keyLost
        ∧ (t.firm.events.length < 256 → ∃ n v, n ≤ r.length ∧ (r.key = none → n = 0 ∧ t.mem = s.mem) ∧ v ∈ t.firm.events ∧ v.opcode = 0x0A80 ∧ v.guest = r.guest ∧ v.seq = r.seq ∧ v.status = Status.faulted.code
          ∧ v.payload = [0, 2] ++ leBytes 2 r.localSlot ++ zeros 4 ++ leBytes 8 n)))
    ∧ (s.cipher.active.getLsbD cause = true → Gives (.alarmRezeroise cause) s fun t => Zeroised t ∧ t.cipher.active = s.cipher.active ∧ t.cipher.latched = s.cipher.latched
      ∧ t.cipher.count = s.cipher.count)
    ∧ (s.cipher.active.getLsbD cause = false → Gives (.alarmRezeroise cause) s fun t => t = s)
    ∧ (Gives (.alarmCauseClear cause) s fun t => t = s.modCipher (fun c => { c with active := t.cipher.active })
      ∧ ∀ i, t.cipher.active.getLsbD i = (s.cipher.active.getLsbD i && i != cause)))

/-- R506 to R538. -/
def Obligations.CheckpointsFollowTheirRules : Prop :=
  (∀ (slot core : Nat) (s : State),
    let g := sentBy s slot
    let f := asked s slot
    let r := (s.hole slot).req slot
    let j := f 0 4
    (∀ x, fget s.jobs j = some x → x.live = true → x.guest = g →
      (Begun s slot core ckptConfigBlock none → Gives (.ckptConfig slot) s fun t => Answers t slot .ok [] ∧ (∀ i, i ≠ j → fget t.jobs i = fget s.jobs i)
        ∧ fget t.jobs j = some { x with
            config := some {
              modules := f 4 4, rank := f 8 4, quietMs := f 12 4, group := f 16 8, area := f 24 8, areaLen := f 32 8, image := f 40 8, imageLen := f 48 8,
              peers := f 56 8, regions := f 64 8, regionCount := f 72 2, shapes := (List.range 5).map fun i => f (80 + 8 * i) 8 } })
      ∧ (Begun s slot core ckptStartBlock none → Gives (.ckptStart slot) s fun t => Answers t slot .deferred []
        ∧ saveOf t j = some { kind := f 4 1, stop := f 5 1 == 1, atStep := f 8 4, seq := r.seq } ∧ (f 4 1 = 0 → ∀ p ∈ s.saveTiles x, Halter.porter j ∈ (t.tile p).halts)
        ∧ t.mem = s.mem)
      ∧ (∀ v l, Saving s j x v l → Begun s slot core ckptCaptureBlock none → Gives (.ckptCapture slot) s fun t => Answers t slot .ok []
        ∧ saveOf t j = some (Captured s x v l) ∧ t.mem = s.mem))
    ∧ (∀ y, s.guest? g = some y →
      (Begun s slot core ckptRestoreBlock none → Gives (.ckptRestore slot) s fun t => Answers t slot .deferred [] ∧ t.guest? g = some { y with
          restore := some { kind := f 0 1, reportOnly := f 1 1 == 1, step := f 4 4, layout := r.layout 8, report := f 80 8, reportLen := f 88 8, seq := r.seq } })
      ∧ (Begun s slot core ckptDrainBlock none → Gives (.ckptDrain slot) s fun t => Answers t slot .deferred [] ∧ t.guest? g = some { y with
          drain := some { group := f 0 8, step := f 8 4, nsid := f 12 4, start := f 16 8, seq := r.seq } })))
  ∧ (∀ (j : Nat) (x : Job) (v : Save) (l : Layout) (s : State), Saving s j x v l →
    (v.kind = 0 → v.quiet = false →
      (s.jobQuiet x = true → s.coreUp steward = true → Gives (.ckptQuiet j) s fun t => CkptReports s t 0 0 j x.steps 0 0 x.guest v.seq true ∧ t.mem = s.mem
        ∧ saveOf t j = some (if l.modules = 1 then Captured s x { v with quiet := true } l else { v with quiet := true }))
      ∧ (s.jobQuiet x = false → Gives (.ckptQuiet j) s fun t => t = s)
      ∧ Gives (.ckptQuietTimeout j) s fun t => SaveEnds s t j x v 1 ∧ HaltsWithdrawn s t j x)
    ∧ (v.kind = 0 → v.capturing = true ∨ v.wanted = true → s.retires x = true → Gives (.ckptCaptured j) s fun t => saveOf t j = some { v with wanted := v.wanted } ∧ t.mem = s.mem
        ∧ t.tiles = s.tiles ∧ t.firm = s.firm)
    ∧ (v.kind = 0 → v.capturing = true ∨ v.wanted = true → v.copying = false → s.retires x = false → s.coreUp steward = true →
      (∀ p ∈ s.saveTiles x, (s.tile p).latent = [] ∧ (s.tile p).soft = [] ∧ (s.tile p).regErrs = []) →
      Gives (.ckptCaptured j) s fun t =>
        saveOf t j = some { (if v.capturing then v else Captured s x v l) with copying := true } ∧ HaltsWithdrawn s t j x ∧ CkptReports s t 1 0 j (if v.capturing then v.step else x.steps) 0 0 x.guest v.seq true
        ∧ ∃ c ∈ t.porter.checkpoints, c.jobNo = j ∧ c.step = x.steps ∧ c.complete = false ∧ c.conns = s.net.conns.filter (·.2.guest == x.guest)
          ∧ ((x.coords.map fun k => logicalIndex k.1 k.2).Nodup → ∀ k ∈ x.coords, fget c.tiles (logicalIndex k.1 k.2) = some (s.tile (s.phys k.1 k.2))))
    ∧ (∀ p, p ∈ v.marks → v.marks.filter (· != p) ≠ [] →
      let copied := fun t : State =>
        let u := s.modJob j fun x => { x with save := some { v with marks := v.marks.filter (· != p) } }
        saveOf t j = some { v with marks := v.marks.filter (· != p) } ∧ t.mem = u.settleWaits.mem ∧ t.porter = u.settleWaits.porter
          ∧ (s.porter.waits = [] → t.mem = s.mem ∧ t.porter.waits = [])
          ∧ (∀ w, s.porter.waits = [w] → (∀ q ∈ pagesOf w.addr w.data.length, q = p) → (∀ e ∈ s.jobs, e.1 ≠ j → ∀ y, e.2.save = some y → p ∉ y.marks) → frising s.jobs = true →
              t.porter.waits = [] ∧ t.mem = (s.writeNow w.addr w.data).mem)
      (p ∈ s.porter.aheads.take 4 → Gives (.copyAhead j p) s copied) ∧ (p ∉ s.porter.aheads.take 4 → Gives (.copyAhead j p) s fun t => t = s)
        ∧ (v.marks.min? = some p → v.copying = true → s.stage < 2 → Gives (.ckptPageCopy j) s copied))
    ∧ (∀ p, v.kind = 1 → l.modules = 1 → v.marks = [p] → v.copying = true → v.packed = false → s.stage < 2 → s.porter.checkpoints = [] → s.porter.waits = [] → l.regionCount ≤ 4096 →
      let es := s.entries l.regions l.regionCount
      let us := fun m => packUnits m [] es v.data
      let n := (us []).length
      (n ≤ areaSlots l.areaLen → Gives (.ckptPageCopy j) s fun t => saveOf t j = some { v with marks := [], packed := true, units := n }
        ∧ ∃ c m, c ∈ t.porter.checkpoints ∧ c.jobNo = j ∧ c.guest = x.guest ∧ c.kind = 1 ∧ c.step = v.step ∧ c.complete = false ∧ (c.units.map (·.slot)).Nodup
          ∧ (∀ u ∈ c.units, u.slot < areaSlots l.areaLen)
          ∧ m.length = unitSize ∧ (∃ rest, m = es.flatten ++ (es.filter fun e => decide (1 < field e 24 4)).flatten ++ rest) ∧ c.units.map (fun u => (u.region, u.length, u.digest)) = (us m).map fun u => (u.1, u.2.length, (sha256 u.2).take 16))
      ∧ (areaSlots l.areaLen < n → Gives (.ckptPageCopy j) s fun t => SaveEnds s t j x { v with marks := [] } 2))
    ∧ (v.packed = true → s.stage < 2 →
      (l.modules ≤ 1 ∨ s.groupReach x.guest l = true → s.porterPending j = false → (∀ w ∈ s.porter.waits, w.who ≠ .porter) → v.stop = false → Gives (.ckptSaveComplete j) s fun t => saveOf t j = none
        ∧ CkptReports s t 2 0 j v.step v.units 0 x.guest v.seq true ∧ t.porter.checkpoints.length = s.porter.checkpoints.length
        ∧ ∀ (i : Nat) (c : Checkpoint), s.porter.checkpoints[i]? = some c → t.porter.checkpoints[i]? = some (if c.jobNo = j then { c with complete := true } else c))
      ∧ (1 < l.modules → s.groupReach x.guest l = false → v.kind = 1 → Gives (.ckptSaveComplete j) s fun t => SaveEnds s t j x v 5)))
  ∧ (∀ (g : Nat) (y : Guest) (r : Restore) (s : State), s.guest? g = some y → y.restore = some r → s.coreUp steward = true →
    let l := r.layout
    let es := s.entries l.regions l.regionCount
    ((∀ c ∈ s.candidates g r.kind l, (r.step = 0xFFFFFFFF ∨ c.step = r.step) → s.stepComplete c es = false) → Gives (.ckptRestoreDone g) s fun t =>
      t.guest? g = some { y with restore := none } ∧ CkptReports s t 3 3 0 (if r.step = 0xFFFFFFFF then 0 else r.step) 0 0 g r.seq false ∧ t.mem = s.mem ∧ t.jobs = s.jobs)
    ∧ (∀ c, r.step ≠ 0xFFFFFFFF → s.candidates g r.kind l = [c] → c.step = r.step → s.stepComplete c es = true →
      (r.reportOnly = true → Gives (.ckptRestoreDone g) s fun t => CkptReports s t 3 0 0 c.step 0 0 g r.seq true ∧ t.mem = s.mem ∧ t.jobs = s.jobs)
      ∧ (∀ e, r.reportOnly = false → r.kind = 1 → es = [e] → Gives (.ckptRestoreDone g) s fun t => CkptReports s t 3 0 0 c.step 0 0 g r.seq true
        ∧ t.guest? g = some { y with restore := none, restored := some c.step }
        ∧ ∃ b : List Byte, t.mem = (s.memWrite (entryBase e) b .porter).mem ∧ t.porter.waits = (s.memWrite (entryBase e) b .porter).porter.waits ∧ b.length = entryLen e
          ∧ ∀ o v, o < entryLen e → s.elemByte c e (o / field e 20 1) (o % field e 20 1) = some v → b[o]? = some v)
      ∧ (r.reportOnly = false → r.kind = 0 → s.ranLately c = true → Gives (.ckptRestoreDone g) s fun t => t = s)
      ∧ (r.reportOnly = false → r.kind = 0 → s.ranLately c = false → s.shapeDiffers c l = true → Gives (.ckptRestoreDone g) s fun t => CkptReports s t 3 7 0 c.step 0 0 g r.seq false ∧ t.mem = s.mem
        ∧ t.jobs = s.jobs)
      ∧ (r.reportOnly = false → r.kind = 0 → s.ranLately c = false → s.shapeDiffers c l = false → s.jobsFull = true → Gives (.ckptRestoreDone g) s fun t =>
        CkptReports s t 3 0 0 c.step 0 0 g r.seq false ∧ t.mem = s.mem ∧ t.jobs = s.jobs)
      ∧ (∀ x, r.reportOnly = false → r.kind = 0 → s.shapeDiffers c l = false → s.jobsFull = false → c.job = some x → c.conns = [] → c.pairs = [] → c.ledgers = [] → Gives (.ckptRestoreDone g) s fun t =>
        let n := s.firm.nextJob
        CkptReports s t 3 0 n c.step 0 0 g r.seq true ∧ (∃ z, fget t.jobs n = some z ∧ z.live = true ∧ z.steps = c.step ∧ z.guest = x.guest ∧ z.config = some l)
        ∧ (∀ k T, c.tiles = [(k, T)] → c.entries = [] → ∀ a, (t.tile (s.phys (k % 64) (k / 64))).word a = T.word a)
        ∧ (∀ e, c.tiles = [] → c.entries = [e] → ∃ b : List Byte, t.mem = (s.memWrite (entryBase e) b .porter).mem ∧ b.length = entryLen e
            ∧ ∀ o v, o < entryLen e → s.savedByte c 0 o = some v → b[o]? = some v))))
  ∧ (∀ (g : Nat) (y : Guest) (d : Drain) (ns : Namespace) (s : State), s.guest? g = some y → y.drain = some d → s.stage = 0 → (∀ e ∈ s.jobs, e.2.live = true → e.2.timed = false) →
      s.ns? g d.nsid = some ns →
    let cs := s.porter.checkpoints.filter fun c => c.guest == g && c.layout.group == d.group && c.step == d.step
    let n := (cs.map fun c => c.units.length).sum
    (∀ c ∈ cs, c.layout.modules ≤ 1) → Gives (.ckptDrainDone g) s fun t => t.guest? g = some { y with drain := none }
      ∧ (ns.size < d.start + 1025 * n → CkptReports s t 4 0 0 d.step 0 0 g d.seq false ∧ t.storage = s.storage)
      ∧ (d.start + 1025 * n ≤ ns.size → CkptReports s t 4 0 0 d.step n 0 g d.seq true
        ∧ ∃ z, t.ns? g d.nsid = some z ∧ ∀ b, z.unwritten b = (ns.unwritten b && !(decide (d.start ≤ b) && decide (b < d.start + 1025 * n)))))
  ∧ (∀ m r k i j : Nat, 2 ≤ m → r < m → i < (stripeShape m).1 + (stripeShape m).2 → j < (stripeShape m).1 + (stripeShape m).2 →
      unitRank m r k i < m ∧ unitRank m r k i ≠ r ∧ (unitRank m r k i = unitRank m r k j → i = j))
  ∧ ∀ (a b : List Byte) (i : Nat), i < unitSize → (parityP [a, b])[i]? = some (a.getD i 0 ^^^ b.getD i 0) ∧ (parityQ [a, b])[i]? = some (a.getD i 0 ^^^ gfMul 2 (b.getD i 0))

/-- R600 to R607; R142. -/
def Obligations.ServiceFollowsItsRules : Prop :=
  (∀ s : State,
    let busy := fun b => (s.flash b).state = 2 ∨ (s.flash b).state = 4
    (busy false ∨ busy true → Gives .moduleButtonPress s fun t => t = s)
    ∧ (s.firm.mstate = .auxOnly → ¬ busy false → ¬ busy true → Gives .moduleButtonPress s fun t =>
        t = { s with service := { s.service with presses := satInc s.service.presses, blink := true } })
    ∧ (s.firm.mstate ≠ .auxOnly → ¬ busy false → ¬ busy true → Gives .moduleButtonPress s fun t =>
        t.service = { s.service with presses := satInc s.service.presses, blink := true }
        ∧ (∀ b, (s.flash b).state = 5 → (b = true → (s.flash false).state ≠ 5) → FlashEnters s t b 3 ∧ ServiceReports s t 1 (bit b) 0 true)
        ∧ ((s.flash false).state ≠ 5 → (s.flash true).state ≠ 5 → FlashEnters s t false (s.flash false).state ∧ ServiceReports s t 0 0xFF 0 true))
    ∧ (Gives .locateBlinkExpire s fun t => t = { s with service := { s.service with blink := false } }))
  ∧ (∀ (slot core : Nat) (s : State),
    let f := asked s slot
    let r := (s.hole slot).req slot
    let b := f 0 1 == 1
    (Begun s slot core serviceLocateBlock none → Gives (.serviceLocate slot) s fun t => Answers t slot .ok []
      ∧ t.service = { s.service with locate := BitVec.ofNat 2 (f 0 1) })
    ∧ (Begun s slot core flashReleaseBlock none → NoneMoves s →
      (∀ w rest, s.firm.recordQueue = w :: rest → w.1 = b → (s.flash b).state = 1 → Gives (.flashRelease slot) s fun t => Answers t slot .deferred [] ∧ FlashEnters s t b 2
        ∧ t.firm.recordQueue = w :: rest.filter (·.1 != b) ∧ t.firm.releaseSeq = r.seq)
      ∧ ((∀ w rest, s.firm.recordQueue = w :: rest → w.1 ≠ b ∨ (s.flash b).state ≠ 1) → Gives (.flashRelease slot) s fun t => Answers t slot .deferred [] ∧ FlashEnters s t b 3
        ∧ ServiceReports s t 1 (bit b) r.seq true ∧ t.firm.recordQueue = s.firm.recordQueue.filter (·.1 != b)))
    ∧ (Begun s slot core tileRetireBlock none → (s.core (innkeeper (clusterOf (f 0 2)))).run = .running → Gives (.tileRetire slot) s fun t => Answers t slot .deferred []
      ∧ t.cluster (clusterOf (f 0 2)) = { s.cluster (clusterOf (f 0 2)) with
          queue := (s.cluster (clusterOf (f 0 2))).queue ++ [{ tile := f 0 2, cause := 0, seq := r.seq }] }
      ∧ (∀ k, k ≠ clusterOf (f 0 2) → t.cluster k = s.cluster k) ∧ ∀ p, t.tile p = s.tile p))
  ∧ (∀ (device : Nat) (s : State), device < 2 →
    let b := device == 1
    (s.firm.mstate ≠ .auxOnly → (s.flash b).state = 0 ∨ (s.flash b).state = 3 → Gives (.flashPresence device) s fun t =>
      (t.flash b).state = 4 ∧ (t.flash b).image = none ∧ t.flash (!b) = s.flash (!b) ∧ t.firm.mstate = (if s.firm.mstate = .ready then .degraded else s.firm.mstate))
    ∧ (s.firm.mstate = .auxOnly ∨ (s.flash b).state ≠ 0 ∧ (s.flash b).state ≠ 3 → Gives (.flashPresence device) s fun t => t = s)
    ∧ ((s.flash b).state ≠ 4 ∨ s.coreUp doorkeeper = false → ∀ copied, Gives (.flashFillDone device copied) s fun t => t = s)
    ∧ ((s.flash b).state = 4 → s.coreUp doorkeeper = true →
      (s.firm.running.valid s.firm.rollbackFloor = true → Gives (.flashFillDone device true) s fun t =>
        t.flash b = { state := 1, image := some s.firm.running, record := s.firm.record, overlay := (s.flash (!b)).overlay } ∧ t.flash (!b) = s.flash (!b)
        ∧ ServiceReports s t 2 (bit b) 0 true ∧ (s.firm.mstate = .degraded → t.firm.mstate = if t.conditions then .degraded else .ready))
      ∧ (∀ copied, copied = false ∨ s.firm.running.valid s.firm.rollbackFloor = false → Gives (.flashFillDone device copied) s fun t =>
        FlashEnters s t b 5 ∧ ServiceReports s t 2 (bit b) 0 false ∧ t.firm.mstate = s.firm.mstate))
    ∧ ((s.flash b).state = 1 → NoneMoves s → s.firm.staging = none → Gives (.flashRemoved device) s fun t =>
      t.flash b = { state := 0, image := none } ∧ t.flash (!b) = s.flash (!b) ∧ ServiceReports s t 3 (bit b) 0 true ∧ t.firm.recordQueue = s.firm.recordQueue.filter (·.1 != b)
      ∧ t.firm.staged = (if b = s.otherDevice then none else s.firm.staged) ∧ t.firm.mstate = (if s.firm.mstate = .ready then .degraded else s.firm.mstate)))
end

