-- ==== Sys2Proof/Laws/Cells.lean ====
section
/-! SUPPORT. The cells of memory: every operation keeps the canonical form, a byte reads as it was last written, and no other
byte changes. -/

namespace Sys2Proof.Machine

/-- Every address of the cells lies above a bound. -/
def cellsAbove (a : Nat) (m : List Host.Cell) : Prop := ∀ c ∈ m, a < c.1

theorem cellsWf_tail {c : Host.Cell} {r : List Host.Cell} (h : cellsWf (c :: r) = true) : cellsWf r = true := by
  cases r with
  | nil => rfl
  | cons d r => simp [cellsWf] at h; exact h.2

theorem cellsWf_head {c : Host.Cell} {r : List Host.Cell} (h : cellsWf (c :: r) = true) : c.2 ≠ 0 := by
  cases r with
  | nil => simpa [cellsWf] using h
  | cons d r => simp [cellsWf] at h; exact h.1.1

theorem cellsWf_above {c : Host.Cell} {r : List Host.Cell} (h : cellsWf (c :: r) = true) : cellsAbove c.1 r := by
  induction r generalizing c with
  | nil => intro d hd; cases hd
  | cons d r ih =>
    have hlt : c.1 < d.1 := by simp [cellsWf] at h; exact h.1.2
    intro e he
    cases he with
    | head => exact hlt
    | tail _ he => exact Nat.lt_trans hlt (ih (cellsWf_tail h) e he)

theorem cellsWf_cons {c : Host.Cell} {r : List Host.Cell} (hb : c.2 ≠ 0) (ha : cellsAbove c.1 r) (hr : cellsWf r = true) :
    cellsWf (c :: r) = true := by
  cases r with
  | nil => simpa [cellsWf] using hb
  | cons d r => simpa [cellsWf, hr, ha d (List.mem_cons_self ..)] using hb

theorem cellsAbove_cellSet {k a : Nat} {b : Byte} {m : List Host.Cell} (h : cellsAbove k m) (hk : k < a) :
    cellsAbove k (cellSet m a b) := by
  induction m with
  | nil =>
    intro c hc
    unfold cellSet at hc
    split at hc
    · cases hc
    · cases hc with | head => exact hk | tail _ h => cases h
  | cons d r ih =>
    have hr : cellsAbove k r := fun c hc => h c (List.mem_cons_of_mem _ hc)
    have hd : k < d.1 := h d (List.mem_cons_self ..)
    intro c hc
    simp only [cellSet] at hc
    split at hc
    · split at hc
      · exact h c hc
      · cases hc with
        | head => exact hk
        | tail _ hc => exact h c hc
    · split at hc
      · split at hc
        · exact hr c hc
        · cases hc with
          | head => exact hk
          | tail _ hc => exact hr c hc
      · cases hc with
        | head => exact hd
        | tail _ hc => exact ih hr c hc

/-- A byte written keeps the canonical form. -/
theorem cellsWf_cellSet {m : List Host.Cell} {a : Nat} {b : Byte} (h : cellsWf m = true) : cellsWf (cellSet m a b) = true := by
  induction m with
  | nil =>
    unfold cellSet
    split
    · rfl
    · simpa [cellsWf]
  | cons c r ih =>
    have hr := cellsWf_tail h
    have ha := cellsWf_above h
    simp only [cellSet]
    split
    · rename_i hlt
      split
      · exact h
      · refine cellsWf_cons (by assumption) (fun d hd => ?_) h
        cases hd with
        | head => exact hlt
        | tail _ hd => exact Nat.lt_trans hlt (ha d hd)
    · split
      · rename_i heq
        split
        · exact hr
        · exact cellsWf_cons (by assumption) (by rw [heq]; exact ha) hr
      · refine cellsWf_cons (cellsWf_head h) (cellsAbove_cellSet ha (by omega)) (ih hr)

/-- Bytes written from an address on keep the canonical form. -/
theorem cellsWf_cellsWrite {m : List Host.Cell} {a : Nat} {l : List Byte} (h : cellsWf m = true) :
    cellsWf (cellsWrite m a l) = true := by
  induction l generalizing m a with
  | nil => exact h
  | cons b r ih => exact ih (cellsWf_cellSet h)

theorem cellsWf_filter {m : List Host.Cell} {p : Host.Cell → Bool} (h : cellsWf m = true) : cellsWf (m.filter p) = true := by
  induction m with
  | nil => rfl
  | cons c r ih =>
    have hr := ih (cellsWf_tail h)
    rw [List.filter_cons]
    split
    · exact cellsWf_cons (cellsWf_head h) (fun d hd => cellsWf_above h d (List.mem_filter.1 hd).1) hr
    · exact hr

/-- A range set to zeros keeps the canonical form. -/
theorem cellsWf_cellsZero {m : List Host.Cell} {a n : Nat} (h : cellsWf m = true) : cellsWf (cellsZero m a n) = true :=
  cellsWf_filter h

theorem cellGet_above {m : List Host.Cell} {a : Nat} (h : cellsAbove a m) : cellGet m a = 0 := by
  cases m with
  | nil => rfl
  | cons c r =>
    have := h c (List.mem_cons_self ..)
    simp [cellGet, Nat.ne_of_gt this, this]

/-- A byte reads as it was last written. -/
theorem cellGet_cellSet_same {m : List Host.Cell} {a : Nat} {b : Byte} (h : cellsWf m = true) : cellGet (cellSet m a b) a = b := by
  induction m with
  | nil =>
    unfold cellSet
    split
    · simp_all [cellGet]
    · simp [cellGet]
  | cons c r ih =>
    have ha := cellsWf_above h
    simp only [cellSet]
    split
    · rename_i hlt
      split
      · rename_i hb
        rw [hb]
        exact cellGet_above fun d hd => by
          cases hd with
          | head => exact hlt
          | tail _ hd => exact Nat.lt_trans hlt (ha d hd)
      · simp [cellGet]
    · split
      · rename_i heq
        split
        · rename_i hb
          rw [hb, heq]
          exact cellGet_above ha
        · simp [cellGet]
      · rename_i hlt hne
        simp only [cellGet]
        rw [if_neg (Ne.symm hne), if_neg hlt]
        exact ih (cellsWf_tail h)

/-- A byte written leaves every other byte as it was. -/
theorem cellGet_cellSet_other {m : List Host.Cell} {a x : Nat} {b : Byte} (h : cellsWf m = true) (hx : x ≠ a) :
    cellGet (cellSet m a b) x = cellGet m x := by
  induction m with
  | nil =>
    unfold cellSet
    split
    · rfl
    · simp [cellGet, Ne.symm hx]
  | cons c r ih =>
    have ha := cellsWf_above h
    simp only [cellSet]
    split
    · rename_i hlt
      split
      · rfl
      · by_cases hxa : x < a
        · simp only [cellGet]
          rw [if_neg (Ne.symm hx), if_pos hxa, if_neg (by omega), if_pos (by omega)]
        · have h1 : cellGet ((a, b) :: c :: r) x = cellGet (c :: r) x := by
            simp only [cellGet]
            rw [if_neg (Ne.symm hx), if_neg hxa]
          exact h1
    · split
      · rename_i heq
        have hr : cellGet (c :: r) x = if x < c.1 then 0 else cellGet r x := by
          simp only [cellGet]
          rw [if_neg (by omega)]
        rw [hr]
        split
        · split
          · rename_i hlt
            exact cellGet_above fun d hd => Nat.lt_trans hlt (ha d hd)
          · rfl
        · simp only [cellGet]
          rw [if_neg (by omega), heq]
      · rename_i hlt hne
        simp only [cellGet]
        rw [ih (cellsWf_tail h)]

/-- Bytes written from an address on read back. -/
theorem cellGet_cellsWrite_out {m : List Host.Cell} {a x : Nat} {l : List Byte} (h : cellsWf m = true)
    (hx : x < a ∨ a + l.length ≤ x) : cellGet (cellsWrite m a l) x = cellGet m x := by
  induction l generalizing m a with
  | nil => rfl
  | cons b r ih =>
    simp only [List.length_cons] at hx
    rw [cellsWrite, ih (cellsWf_cellSet h) (by omega), cellGet_cellSet_other h (by omega)]

theorem cellGet_cellsWrite_in {m : List Host.Cell} {a i : Nat} {l : List Byte} (h : cellsWf m = true) (hi : i < l.length) :
    cellGet (cellsWrite m a l) (a + i) = l[i] := by
  induction l generalizing m a i with
  | nil => cases hi
  | cons b r ih =>
    cases i with
    | zero =>
      show cellGet (cellsWrite (cellSet m a b) (a + 1) r) a = b
      rw [cellGet_cellsWrite_out (cellsWf_cellSet h) (Or.inl (Nat.lt_succ_self a)), cellGet_cellSet_same h]
    | succ i =>
      have := ih (m := cellSet m a b) (a := a + 1) (i := i) (cellsWf_cellSet h) (by simpa using hi)
      rw [cellsWrite, show a + (i + 1) = a + 1 + i by omega, this]
      rfl

/-- A range set to zeros reads as zeros, and nothing else changes. -/
theorem cellGet_filter {m : List Host.Cell} {p : Nat → Bool} {x : Nat} (h : cellsWf m = true) :
    cellGet (m.filter fun c => p c.1) x = if p x then cellGet m x else 0 := by
  induction m with
  | nil => simp [cellGet]
  | cons c r ih =>
    have ha := cellsWf_above h
    have ih := ih (cellsWf_tail h)
    rw [List.filter_cons]
    by_cases hx : c.1 = x
    · subst hx
      by_cases hp : p c.1
      · simp [hp, cellGet]
      · simp only [hp, if_false, Bool.false_eq_true]
        exact cellGet_above fun d hd => ha d (List.mem_filter.1 hd).1
    · by_cases hlt : x < c.1
      · have h1 : cellGet (c :: r) x = 0 := by simp only [cellGet]; rw [if_neg hx, if_pos hlt]
        rw [h1]
        have : cellGet (if p c.1 then c :: r.filter (fun c => p c.1) else r.filter (fun c => p c.1)) x = 0 := by
          apply cellGet_above
          intro d hd
          split at hd
          · cases hd with
            | head => exact hlt
            | tail _ hd => exact Nat.lt_trans hlt (ha d (List.mem_filter.1 hd).1)
          · exact Nat.lt_trans hlt (ha d (List.mem_filter.1 hd).1)
        rw [this]; simp
      · have h1 : cellGet (c :: r) x = cellGet r x := by simp only [cellGet]; rw [if_neg hx, if_neg hlt]
        rw [h1, ← ih]
        split
        · simp only [cellGet]; rw [if_neg hx, if_neg hlt]
        · rfl

theorem cellGet_cellsZero {m : List Host.Cell} {a n x : Nat} (h : cellsWf m = true) :
    cellGet (cellsZero m a n) x = if a ≤ x ∧ x < a + n then 0 else cellGet m x := by
  rw [cellsZero, cellGet_filter (p := fun y => y < a || a + n ≤ y) h]
  by_cases hx : a ≤ x ∧ x < a + n
  · rw [if_neg (by simp; omega), if_pos hx]
  · rw [if_pos (by simp; omega), if_neg hx]

end Sys2Proof.Machine
end

