-- ==== Sys2Proof/Laws/State.lean ====
section
/-! SUPPORT. One lemma for each field of the state after each update, so that no proof unfolds an update. -/

namespace Sys2Proof.Machine
section
variable (s : State) (p : Nat) (t : Tile)
@[simp] theorem State.setTile_firm : (s.setTile p t).firm = s.firm := rfl
@[simp] theorem State.setTile_mesh : (s.setTile p t).mesh = s.mesh := rfl
@[simp] theorem State.setTile_tiles : (s.setTile p t).tiles = fset s.tiles p t := rfl
@[simp] theorem State.setTile_routers : (s.setTile p t).routers = s.routers := rfl
@[simp] theorem State.setTile_linkErrs : (s.setTile p t).linkErrs = s.linkErrs := rfl
@[simp] theorem State.setTile_clusters : (s.setTile p t).clusters = s.clusters := rfl
@[simp] theorem State.setTile_jobs : (s.setTile p t).jobs = s.jobs := rfl
@[simp] theorem State.setTile_ledgers : (s.setTile p t).ledgers = s.ledgers := rfl
@[simp] theorem State.setTile_mem : (s.setTile p t).mem = s.mem := rfl
@[simp] theorem State.setTile_hosts : (s.setTile p t).hosts = s.hosts := rfl
@[simp] theorem State.setTile_guests : (s.setTile p t).guests = s.guests := rfl
@[simp] theorem State.setTile_storage : (s.setTile p t).storage = s.storage := rfl
@[simp] theorem State.setTile_net : (s.setTile p t).net = s.net := rfl
@[simp] theorem State.setTile_traffic : (s.setTile p t).traffic = s.traffic := rfl
@[simp] theorem State.setTile_cipher : (s.setTile p t).cipher = s.cipher := rfl
@[simp] theorem State.setTile_porter : (s.setTile p t).porter = s.porter := rfl
@[simp] theorem State.setTile_power : (s.setTile p t).power = s.power := rfl
@[simp] theorem State.setTile_irq : (s.setTile p t).irq = s.irq := rfl
@[simp] theorem State.setTile_service : (s.setTile p t).service = s.service := rfl
@[simp] theorem State.setTile_fresh : (s.setTile p t).fresh = s.fresh := rfl
@[simp] theorem State.setTile_pending : (s.setTile p t).pending = s.pending := rfl
end

section
variable (s : State) (p : Nat) (f : Router → Router)
@[simp] theorem State.modRouter_firm : (s.modRouter p f).firm = s.firm := rfl
@[simp] theorem State.modRouter_mesh : (s.modRouter p f).mesh = s.mesh := rfl
@[simp] theorem State.modRouter_tiles : (s.modRouter p f).tiles = s.tiles := rfl
@[simp] theorem State.modRouter_routers : (s.modRouter p f).routers = fupd {} s.routers p f := rfl
@[simp] theorem State.modRouter_linkErrs : (s.modRouter p f).linkErrs = s.linkErrs := rfl
@[simp] theorem State.modRouter_clusters : (s.modRouter p f).clusters = s.clusters := rfl
@[simp] theorem State.modRouter_jobs : (s.modRouter p f).jobs = s.jobs := rfl
@[simp] theorem State.modRouter_ledgers : (s.modRouter p f).ledgers = s.ledgers := rfl
@[simp] theorem State.modRouter_mem : (s.modRouter p f).mem = s.mem := rfl
@[simp] theorem State.modRouter_hosts : (s.modRouter p f).hosts = s.hosts := rfl
@[simp] theorem State.modRouter_guests : (s.modRouter p f).guests = s.guests := rfl
@[simp] theorem State.modRouter_storage : (s.modRouter p f).storage = s.storage := rfl
@[simp] theorem State.modRouter_net : (s.modRouter p f).net = s.net := rfl
@[simp] theorem State.modRouter_traffic : (s.modRouter p f).traffic = s.traffic := rfl
@[simp] theorem State.modRouter_cipher : (s.modRouter p f).cipher = s.cipher := rfl
@[simp] theorem State.modRouter_porter : (s.modRouter p f).porter = s.porter := rfl
@[simp] theorem State.modRouter_power : (s.modRouter p f).power = s.power := rfl
@[simp] theorem State.modRouter_irq : (s.modRouter p f).irq = s.irq := rfl
@[simp] theorem State.modRouter_service : (s.modRouter p f).service = s.service := rfl
@[simp] theorem State.modRouter_fresh : (s.modRouter p f).fresh = s.fresh := rfl
@[simp] theorem State.modRouter_pending : (s.modRouter p f).pending = s.pending := rfl
end

section
variable (s : State) (c : Nat) (f : Cluster → Cluster)
@[simp] theorem State.modCluster_firm : (s.modCluster c f).firm = s.firm := rfl
@[simp] theorem State.modCluster_mesh : (s.modCluster c f).mesh = s.mesh := rfl
@[simp] theorem State.modCluster_tiles : (s.modCluster c f).tiles = s.tiles := rfl
@[simp] theorem State.modCluster_routers : (s.modCluster c f).routers = s.routers := rfl
@[simp] theorem State.modCluster_linkErrs : (s.modCluster c f).linkErrs = s.linkErrs := rfl
@[simp] theorem State.modCluster_clusters : (s.modCluster c f).clusters = fupd {} s.clusters c f := rfl
@[simp] theorem State.modCluster_jobs : (s.modCluster c f).jobs = s.jobs := rfl
@[simp] theorem State.modCluster_ledgers : (s.modCluster c f).ledgers = s.ledgers := rfl
@[simp] theorem State.modCluster_mem : (s.modCluster c f).mem = s.mem := rfl
@[simp] theorem State.modCluster_hosts : (s.modCluster c f).hosts = s.hosts := rfl
@[simp] theorem State.modCluster_guests : (s.modCluster c f).guests = s.guests := rfl
@[simp] theorem State.modCluster_storage : (s.modCluster c f).storage = s.storage := rfl
@[simp] theorem State.modCluster_net : (s.modCluster c f).net = s.net := rfl
@[simp] theorem State.modCluster_traffic : (s.modCluster c f).traffic = s.traffic := rfl
@[simp] theorem State.modCluster_cipher : (s.modCluster c f).cipher = s.cipher := rfl
@[simp] theorem State.modCluster_porter : (s.modCluster c f).porter = s.porter := rfl
@[simp] theorem State.modCluster_power : (s.modCluster c f).power = s.power := rfl
@[simp] theorem State.modCluster_irq : (s.modCluster c f).irq = s.irq := rfl
@[simp] theorem State.modCluster_service : (s.modCluster c f).service = s.service := rfl
@[simp] theorem State.modCluster_fresh : (s.modCluster c f).fresh = s.fresh := rfl
@[simp] theorem State.modCluster_pending : (s.modCluster c f).pending = s.pending := rfl
end

section
variable (s : State) (f : Firm → Firm)
@[simp] theorem State.modFirm_firm : (s.modFirm f).firm = f s.firm := rfl
@[simp] theorem State.modFirm_mesh : (s.modFirm f).mesh = s.mesh := rfl
@[simp] theorem State.modFirm_tiles : (s.modFirm f).tiles = s.tiles := rfl
@[simp] theorem State.modFirm_routers : (s.modFirm f).routers = s.routers := rfl
@[simp] theorem State.modFirm_linkErrs : (s.modFirm f).linkErrs = s.linkErrs := rfl
@[simp] theorem State.modFirm_clusters : (s.modFirm f).clusters = s.clusters := rfl
@[simp] theorem State.modFirm_jobs : (s.modFirm f).jobs = s.jobs := rfl
@[simp] theorem State.modFirm_ledgers : (s.modFirm f).ledgers = s.ledgers := rfl
@[simp] theorem State.modFirm_mem : (s.modFirm f).mem = s.mem := rfl
@[simp] theorem State.modFirm_hosts : (s.modFirm f).hosts = s.hosts := rfl
@[simp] theorem State.modFirm_guests : (s.modFirm f).guests = s.guests := rfl
@[simp] theorem State.modFirm_storage : (s.modFirm f).storage = s.storage := rfl
@[simp] theorem State.modFirm_net : (s.modFirm f).net = s.net := rfl
@[simp] theorem State.modFirm_traffic : (s.modFirm f).traffic = s.traffic := rfl
@[simp] theorem State.modFirm_cipher : (s.modFirm f).cipher = s.cipher := rfl
@[simp] theorem State.modFirm_porter : (s.modFirm f).porter = s.porter := rfl
@[simp] theorem State.modFirm_power : (s.modFirm f).power = s.power := rfl
@[simp] theorem State.modFirm_irq : (s.modFirm f).irq = s.irq := rfl
@[simp] theorem State.modFirm_service : (s.modFirm f).service = s.service := rfl
@[simp] theorem State.modFirm_fresh : (s.modFirm f).fresh = s.fresh := rfl
@[simp] theorem State.modFirm_pending : (s.modFirm f).pending = s.pending := rfl
end

section
variable (s : State) (f : Mesh → Mesh)
@[simp] theorem State.modMesh_firm : (s.modMesh f).firm = s.firm := rfl
@[simp] theorem State.modMesh_mesh : (s.modMesh f).mesh = f s.mesh := rfl
@[simp] theorem State.modMesh_tiles : (s.modMesh f).tiles = s.tiles := rfl
@[simp] theorem State.modMesh_routers : (s.modMesh f).routers = s.routers := rfl
@[simp] theorem State.modMesh_linkErrs : (s.modMesh f).linkErrs = s.linkErrs := rfl
@[simp] theorem State.modMesh_clusters : (s.modMesh f).clusters = s.clusters := rfl
@[simp] theorem State.modMesh_jobs : (s.modMesh f).jobs = s.jobs := rfl
@[simp] theorem State.modMesh_ledgers : (s.modMesh f).ledgers = s.ledgers := rfl
@[simp] theorem State.modMesh_mem : (s.modMesh f).mem = s.mem := rfl
@[simp] theorem State.modMesh_hosts : (s.modMesh f).hosts = s.hosts := rfl
@[simp] theorem State.modMesh_guests : (s.modMesh f).guests = s.guests := rfl
@[simp] theorem State.modMesh_storage : (s.modMesh f).storage = s.storage := rfl
@[simp] theorem State.modMesh_net : (s.modMesh f).net = s.net := rfl
@[simp] theorem State.modMesh_traffic : (s.modMesh f).traffic = s.traffic := rfl
@[simp] theorem State.modMesh_cipher : (s.modMesh f).cipher = s.cipher := rfl
@[simp] theorem State.modMesh_porter : (s.modMesh f).porter = s.porter := rfl
@[simp] theorem State.modMesh_power : (s.modMesh f).power = s.power := rfl
@[simp] theorem State.modMesh_irq : (s.modMesh f).irq = s.irq := rfl
@[simp] theorem State.modMesh_service : (s.modMesh f).service = s.service := rfl
@[simp] theorem State.modMesh_fresh : (s.modMesh f).fresh = s.fresh := rfl
@[simp] theorem State.modMesh_pending : (s.modMesh f).pending = s.pending := rfl
end

section
variable (s : State) (f : Mem → Mem)
@[simp] theorem State.modMem_firm : (s.modMem f).firm = s.firm := rfl
@[simp] theorem State.modMem_mesh : (s.modMem f).mesh = s.mesh := rfl
@[simp] theorem State.modMem_tiles : (s.modMem f).tiles = s.tiles := rfl
@[simp] theorem State.modMem_routers : (s.modMem f).routers = s.routers := rfl
@[simp] theorem State.modMem_linkErrs : (s.modMem f).linkErrs = s.linkErrs := rfl
@[simp] theorem State.modMem_clusters : (s.modMem f).clusters = s.clusters := rfl
@[simp] theorem State.modMem_jobs : (s.modMem f).jobs = s.jobs := rfl
@[simp] theorem State.modMem_ledgers : (s.modMem f).ledgers = s.ledgers := rfl
@[simp] theorem State.modMem_mem : (s.modMem f).mem = f s.mem := rfl
@[simp] theorem State.modMem_hosts : (s.modMem f).hosts = s.hosts := rfl
@[simp] theorem State.modMem_guests : (s.modMem f).guests = s.guests := rfl
@[simp] theorem State.modMem_storage : (s.modMem f).storage = s.storage := rfl
@[simp] theorem State.modMem_net : (s.modMem f).net = s.net := rfl
@[simp] theorem State.modMem_traffic : (s.modMem f).traffic = s.traffic := rfl
@[simp] theorem State.modMem_cipher : (s.modMem f).cipher = s.cipher := rfl
@[simp] theorem State.modMem_porter : (s.modMem f).porter = s.porter := rfl
@[simp] theorem State.modMem_power : (s.modMem f).power = s.power := rfl
@[simp] theorem State.modMem_irq : (s.modMem f).irq = s.irq := rfl
@[simp] theorem State.modMem_service : (s.modMem f).service = s.service := rfl
@[simp] theorem State.modMem_fresh : (s.modMem f).fresh = s.fresh := rfl
@[simp] theorem State.modMem_pending : (s.modMem f).pending = s.pending := rfl
end

section
variable (s : State) (f : Hosts → Hosts)
@[simp] theorem State.modHosts_firm : (s.modHosts f).firm = s.firm := rfl
@[simp] theorem State.modHosts_mesh : (s.modHosts f).mesh = s.mesh := rfl
@[simp] theorem State.modHosts_tiles : (s.modHosts f).tiles = s.tiles := rfl
@[simp] theorem State.modHosts_routers : (s.modHosts f).routers = s.routers := rfl
@[simp] theorem State.modHosts_linkErrs : (s.modHosts f).linkErrs = s.linkErrs := rfl
@[simp] theorem State.modHosts_clusters : (s.modHosts f).clusters = s.clusters := rfl
@[simp] theorem State.modHosts_jobs : (s.modHosts f).jobs = s.jobs := rfl
@[simp] theorem State.modHosts_ledgers : (s.modHosts f).ledgers = s.ledgers := rfl
@[simp] theorem State.modHosts_mem : (s.modHosts f).mem = s.mem := rfl
@[simp] theorem State.modHosts_hosts : (s.modHosts f).hosts = f s.hosts := rfl
@[simp] theorem State.modHosts_guests : (s.modHosts f).guests = s.guests := rfl
@[simp] theorem State.modHosts_storage : (s.modHosts f).storage = s.storage := rfl
@[simp] theorem State.modHosts_net : (s.modHosts f).net = s.net := rfl
@[simp] theorem State.modHosts_traffic : (s.modHosts f).traffic = s.traffic := rfl
@[simp] theorem State.modHosts_cipher : (s.modHosts f).cipher = s.cipher := rfl
@[simp] theorem State.modHosts_porter : (s.modHosts f).porter = s.porter := rfl
@[simp] theorem State.modHosts_power : (s.modHosts f).power = s.power := rfl
@[simp] theorem State.modHosts_irq : (s.modHosts f).irq = s.irq := rfl
@[simp] theorem State.modHosts_service : (s.modHosts f).service = s.service := rfl
@[simp] theorem State.modHosts_fresh : (s.modHosts f).fresh = s.fresh := rfl
@[simp] theorem State.modHosts_pending : (s.modHosts f).pending = s.pending := rfl
end

section
variable (s : State) (f : Ledgers → Ledgers)
@[simp] theorem State.modLedgers_firm : (s.modLedgers f).firm = s.firm := rfl
@[simp] theorem State.modLedgers_mesh : (s.modLedgers f).mesh = s.mesh := rfl
@[simp] theorem State.modLedgers_tiles : (s.modLedgers f).tiles = s.tiles := rfl
@[simp] theorem State.modLedgers_routers : (s.modLedgers f).routers = s.routers := rfl
@[simp] theorem State.modLedgers_linkErrs : (s.modLedgers f).linkErrs = s.linkErrs := rfl
@[simp] theorem State.modLedgers_clusters : (s.modLedgers f).clusters = s.clusters := rfl
@[simp] theorem State.modLedgers_jobs : (s.modLedgers f).jobs = s.jobs := rfl
@[simp] theorem State.modLedgers_ledgers : (s.modLedgers f).ledgers = f s.ledgers := rfl
@[simp] theorem State.modLedgers_mem : (s.modLedgers f).mem = s.mem := rfl
@[simp] theorem State.modLedgers_hosts : (s.modLedgers f).hosts = s.hosts := rfl
@[simp] theorem State.modLedgers_guests : (s.modLedgers f).guests = s.guests := rfl
@[simp] theorem State.modLedgers_storage : (s.modLedgers f).storage = s.storage := rfl
@[simp] theorem State.modLedgers_net : (s.modLedgers f).net = s.net := rfl
@[simp] theorem State.modLedgers_traffic : (s.modLedgers f).traffic = s.traffic := rfl
@[simp] theorem State.modLedgers_cipher : (s.modLedgers f).cipher = s.cipher := rfl
@[simp] theorem State.modLedgers_porter : (s.modLedgers f).porter = s.porter := rfl
@[simp] theorem State.modLedgers_power : (s.modLedgers f).power = s.power := rfl
@[simp] theorem State.modLedgers_irq : (s.modLedgers f).irq = s.irq := rfl
@[simp] theorem State.modLedgers_service : (s.modLedgers f).service = s.service := rfl
@[simp] theorem State.modLedgers_fresh : (s.modLedgers f).fresh = s.fresh := rfl
@[simp] theorem State.modLedgers_pending : (s.modLedgers f).pending = s.pending := rfl
end

section
variable (s : State) (f : Net → Net)
@[simp] theorem State.modNet_firm : (s.modNet f).firm = s.firm := rfl
@[simp] theorem State.modNet_mesh : (s.modNet f).mesh = s.mesh := rfl
@[simp] theorem State.modNet_tiles : (s.modNet f).tiles = s.tiles := rfl
@[simp] theorem State.modNet_routers : (s.modNet f).routers = s.routers := rfl
@[simp] theorem State.modNet_linkErrs : (s.modNet f).linkErrs = s.linkErrs := rfl
@[simp] theorem State.modNet_clusters : (s.modNet f).clusters = s.clusters := rfl
@[simp] theorem State.modNet_jobs : (s.modNet f).jobs = s.jobs := rfl
@[simp] theorem State.modNet_ledgers : (s.modNet f).ledgers = s.ledgers := rfl
@[simp] theorem State.modNet_mem : (s.modNet f).mem = s.mem := rfl
@[simp] theorem State.modNet_hosts : (s.modNet f).hosts = s.hosts := rfl
@[simp] theorem State.modNet_guests : (s.modNet f).guests = s.guests := rfl
@[simp] theorem State.modNet_storage : (s.modNet f).storage = s.storage := rfl
@[simp] theorem State.modNet_net : (s.modNet f).net = f s.net := rfl
@[simp] theorem State.modNet_traffic : (s.modNet f).traffic = s.traffic := rfl
@[simp] theorem State.modNet_cipher : (s.modNet f).cipher = s.cipher := rfl
@[simp] theorem State.modNet_porter : (s.modNet f).porter = s.porter := rfl
@[simp] theorem State.modNet_power : (s.modNet f).power = s.power := rfl
@[simp] theorem State.modNet_irq : (s.modNet f).irq = s.irq := rfl
@[simp] theorem State.modNet_service : (s.modNet f).service = s.service := rfl
@[simp] theorem State.modNet_fresh : (s.modNet f).fresh = s.fresh := rfl
@[simp] theorem State.modNet_pending : (s.modNet f).pending = s.pending := rfl
end

section
variable (s : State) (f : Cipher → Cipher)
@[simp] theorem State.modCipher_firm : (s.modCipher f).firm = s.firm := rfl
@[simp] theorem State.modCipher_mesh : (s.modCipher f).mesh = s.mesh := rfl
@[simp] theorem State.modCipher_tiles : (s.modCipher f).tiles = s.tiles := rfl
@[simp] theorem State.modCipher_routers : (s.modCipher f).routers = s.routers := rfl
@[simp] theorem State.modCipher_linkErrs : (s.modCipher f).linkErrs = s.linkErrs := rfl
@[simp] theorem State.modCipher_clusters : (s.modCipher f).clusters = s.clusters := rfl
@[simp] theorem State.modCipher_jobs : (s.modCipher f).jobs = s.jobs := rfl
@[simp] theorem State.modCipher_ledgers : (s.modCipher f).ledgers = s.ledgers := rfl
@[simp] theorem State.modCipher_mem : (s.modCipher f).mem = s.mem := rfl
@[simp] theorem State.modCipher_hosts : (s.modCipher f).hosts = s.hosts := rfl
@[simp] theorem State.modCipher_guests : (s.modCipher f).guests = s.guests := rfl
@[simp] theorem State.modCipher_storage : (s.modCipher f).storage = s.storage := rfl
@[simp] theorem State.modCipher_net : (s.modCipher f).net = s.net := rfl
@[simp] theorem State.modCipher_traffic : (s.modCipher f).traffic = s.traffic := rfl
@[simp] theorem State.modCipher_cipher : (s.modCipher f).cipher = f s.cipher := rfl
@[simp] theorem State.modCipher_porter : (s.modCipher f).porter = s.porter := rfl
@[simp] theorem State.modCipher_power : (s.modCipher f).power = s.power := rfl
@[simp] theorem State.modCipher_irq : (s.modCipher f).irq = s.irq := rfl
@[simp] theorem State.modCipher_service : (s.modCipher f).service = s.service := rfl
@[simp] theorem State.modCipher_fresh : (s.modCipher f).fresh = s.fresh := rfl
@[simp] theorem State.modCipher_pending : (s.modCipher f).pending = s.pending := rfl
end

section
variable (s : State) (f : Power → Power)
@[simp] theorem State.modPower_firm : (s.modPower f).firm = s.firm := rfl
@[simp] theorem State.modPower_mesh : (s.modPower f).mesh = s.mesh := rfl
@[simp] theorem State.modPower_tiles : (s.modPower f).tiles = s.tiles := rfl
@[simp] theorem State.modPower_routers : (s.modPower f).routers = s.routers := rfl
@[simp] theorem State.modPower_linkErrs : (s.modPower f).linkErrs = s.linkErrs := rfl
@[simp] theorem State.modPower_clusters : (s.modPower f).clusters = s.clusters := rfl
@[simp] theorem State.modPower_jobs : (s.modPower f).jobs = s.jobs := rfl
@[simp] theorem State.modPower_ledgers : (s.modPower f).ledgers = s.ledgers := rfl
@[simp] theorem State.modPower_mem : (s.modPower f).mem = s.mem := rfl
@[simp] theorem State.modPower_hosts : (s.modPower f).hosts = s.hosts := rfl
@[simp] theorem State.modPower_guests : (s.modPower f).guests = s.guests := rfl
@[simp] theorem State.modPower_storage : (s.modPower f).storage = s.storage := rfl
@[simp] theorem State.modPower_net : (s.modPower f).net = s.net := rfl
@[simp] theorem State.modPower_traffic : (s.modPower f).traffic = s.traffic := rfl
@[simp] theorem State.modPower_cipher : (s.modPower f).cipher = s.cipher := rfl
@[simp] theorem State.modPower_porter : (s.modPower f).porter = s.porter := rfl
@[simp] theorem State.modPower_power : (s.modPower f).power = f s.power := rfl
@[simp] theorem State.modPower_irq : (s.modPower f).irq = s.irq := rfl
@[simp] theorem State.modPower_service : (s.modPower f).service = s.service := rfl
@[simp] theorem State.modPower_fresh : (s.modPower f).fresh = s.fresh := rfl
@[simp] theorem State.modPower_pending : (s.modPower f).pending = s.pending := rfl
end

section
variable (s : State) (f : Irq → Irq)
@[simp] theorem State.modIrq_firm : (s.modIrq f).firm = s.firm := rfl
@[simp] theorem State.modIrq_mesh : (s.modIrq f).mesh = s.mesh := rfl
@[simp] theorem State.modIrq_tiles : (s.modIrq f).tiles = s.tiles := rfl
@[simp] theorem State.modIrq_routers : (s.modIrq f).routers = s.routers := rfl
@[simp] theorem State.modIrq_linkErrs : (s.modIrq f).linkErrs = s.linkErrs := rfl
@[simp] theorem State.modIrq_clusters : (s.modIrq f).clusters = s.clusters := rfl
@[simp] theorem State.modIrq_jobs : (s.modIrq f).jobs = s.jobs := rfl
@[simp] theorem State.modIrq_ledgers : (s.modIrq f).ledgers = s.ledgers := rfl
@[simp] theorem State.modIrq_mem : (s.modIrq f).mem = s.mem := rfl
@[simp] theorem State.modIrq_hosts : (s.modIrq f).hosts = s.hosts := rfl
@[simp] theorem State.modIrq_guests : (s.modIrq f).guests = s.guests := rfl
@[simp] theorem State.modIrq_storage : (s.modIrq f).storage = s.storage := rfl
@[simp] theorem State.modIrq_net : (s.modIrq f).net = s.net := rfl
@[simp] theorem State.modIrq_traffic : (s.modIrq f).traffic = s.traffic := rfl
@[simp] theorem State.modIrq_cipher : (s.modIrq f).cipher = s.cipher := rfl
@[simp] theorem State.modIrq_porter : (s.modIrq f).porter = s.porter := rfl
@[simp] theorem State.modIrq_power : (s.modIrq f).power = s.power := rfl
@[simp] theorem State.modIrq_irq : (s.modIrq f).irq = f s.irq := rfl
@[simp] theorem State.modIrq_service : (s.modIrq f).service = s.service := rfl
@[simp] theorem State.modIrq_fresh : (s.modIrq f).fresh = s.fresh := rfl
@[simp] theorem State.modIrq_pending : (s.modIrq f).pending = s.pending := rfl
end

section
variable (s : State) (f : Service → Service)
@[simp] theorem State.modService_firm : (s.modService f).firm = s.firm := rfl
@[simp] theorem State.modService_mesh : (s.modService f).mesh = s.mesh := rfl
@[simp] theorem State.modService_tiles : (s.modService f).tiles = s.tiles := rfl
@[simp] theorem State.modService_routers : (s.modService f).routers = s.routers := rfl
@[simp] theorem State.modService_linkErrs : (s.modService f).linkErrs = s.linkErrs := rfl
@[simp] theorem State.modService_clusters : (s.modService f).clusters = s.clusters := rfl
@[simp] theorem State.modService_jobs : (s.modService f).jobs = s.jobs := rfl
@[simp] theorem State.modService_ledgers : (s.modService f).ledgers = s.ledgers := rfl
@[simp] theorem State.modService_mem : (s.modService f).mem = s.mem := rfl
@[simp] theorem State.modService_hosts : (s.modService f).hosts = s.hosts := rfl
@[simp] theorem State.modService_guests : (s.modService f).guests = s.guests := rfl
@[simp] theorem State.modService_storage : (s.modService f).storage = s.storage := rfl
@[simp] theorem State.modService_net : (s.modService f).net = s.net := rfl
@[simp] theorem State.modService_traffic : (s.modService f).traffic = s.traffic := rfl
@[simp] theorem State.modService_cipher : (s.modService f).cipher = s.cipher := rfl
@[simp] theorem State.modService_porter : (s.modService f).porter = s.porter := rfl
@[simp] theorem State.modService_power : (s.modService f).power = s.power := rfl
@[simp] theorem State.modService_irq : (s.modService f).irq = s.irq := rfl
@[simp] theorem State.modService_service : (s.modService f).service = f s.service := rfl
@[simp] theorem State.modService_fresh : (s.modService f).fresh = s.fresh := rfl
@[simp] theorem State.modService_pending : (s.modService f).pending = s.pending := rfl
end

section
variable (s : State) (f : Storage → Storage)
@[simp] theorem State.modStorage_firm : (s.modStorage f).firm = s.firm := rfl
@[simp] theorem State.modStorage_mesh : (s.modStorage f).mesh = s.mesh := rfl
@[simp] theorem State.modStorage_tiles : (s.modStorage f).tiles = s.tiles := rfl
@[simp] theorem State.modStorage_routers : (s.modStorage f).routers = s.routers := rfl
@[simp] theorem State.modStorage_linkErrs : (s.modStorage f).linkErrs = s.linkErrs := rfl
@[simp] theorem State.modStorage_clusters : (s.modStorage f).clusters = s.clusters := rfl
@[simp] theorem State.modStorage_jobs : (s.modStorage f).jobs = s.jobs := rfl
@[simp] theorem State.modStorage_ledgers : (s.modStorage f).ledgers = s.ledgers := rfl
@[simp] theorem State.modStorage_mem : (s.modStorage f).mem = s.mem := rfl
@[simp] theorem State.modStorage_hosts : (s.modStorage f).hosts = s.hosts := rfl
@[simp] theorem State.modStorage_guests : (s.modStorage f).guests = s.guests := rfl
@[simp] theorem State.modStorage_storage : (s.modStorage f).storage = f s.storage := rfl
@[simp] theorem State.modStorage_net : (s.modStorage f).net = s.net := rfl
@[simp] theorem State.modStorage_traffic : (s.modStorage f).traffic = s.traffic := rfl
@[simp] theorem State.modStorage_cipher : (s.modStorage f).cipher = s.cipher := rfl
@[simp] theorem State.modStorage_porter : (s.modStorage f).porter = s.porter := rfl
@[simp] theorem State.modStorage_power : (s.modStorage f).power = s.power := rfl
@[simp] theorem State.modStorage_irq : (s.modStorage f).irq = s.irq := rfl
@[simp] theorem State.modStorage_service : (s.modStorage f).service = s.service := rfl
@[simp] theorem State.modStorage_fresh : (s.modStorage f).fresh = s.fresh := rfl
@[simp] theorem State.modStorage_pending : (s.modStorage f).pending = s.pending := rfl
end

section
variable (s : State) (p : Nat) (f : Egress → Egress)
@[simp] theorem State.modEgress_firm : (s.modEgress p f).firm = s.firm := rfl
@[simp] theorem State.modEgress_mesh : (s.modEgress p f).mesh = s.mesh := rfl
@[simp] theorem State.modEgress_tiles : (s.modEgress p f).tiles = s.tiles := rfl
@[simp] theorem State.modEgress_routers : (s.modEgress p f).routers = s.routers := rfl
@[simp] theorem State.modEgress_linkErrs : (s.modEgress p f).linkErrs = s.linkErrs := rfl
@[simp] theorem State.modEgress_clusters : (s.modEgress p f).clusters = s.clusters := rfl
@[simp] theorem State.modEgress_jobs : (s.modEgress p f).jobs = s.jobs := rfl
@[simp] theorem State.modEgress_ledgers : (s.modEgress p f).ledgers = s.ledgers := rfl
@[simp] theorem State.modEgress_mem : (s.modEgress p f).mem = s.mem := rfl
@[simp] theorem State.modEgress_hosts : (s.modEgress p f).hosts = s.hosts := rfl
@[simp] theorem State.modEgress_guests : (s.modEgress p f).guests = s.guests := rfl
@[simp] theorem State.modEgress_storage : (s.modEgress p f).storage = s.storage := rfl
@[simp] theorem State.modEgress_net : (s.modEgress p f).net = s.net := rfl
@[simp] theorem State.modEgress_traffic : (s.modEgress p f).traffic = fupd {} s.traffic p f := rfl
@[simp] theorem State.modEgress_cipher : (s.modEgress p f).cipher = s.cipher := rfl
@[simp] theorem State.modEgress_porter : (s.modEgress p f).porter = s.porter := rfl
@[simp] theorem State.modEgress_power : (s.modEgress p f).power = s.power := rfl
@[simp] theorem State.modEgress_irq : (s.modEgress p f).irq = s.irq := rfl
@[simp] theorem State.modEgress_service : (s.modEgress p f).service = s.service := rfl
@[simp] theorem State.modEgress_fresh : (s.modEgress p f).fresh = s.fresh := rfl
@[simp] theorem State.modEgress_pending : (s.modEgress p f).pending = s.pending := rfl
end

end Sys2Proof.Machine
end

