-- ==== Sys2Proof/Laws/Tables.lean ====
section
/-! SUPPORT. Sparse tables: an entry reads as it was written and no other changes; and so for every table of the state. -/

namespace Sys2Proof.Machine

section tables
variable {α : Type}

/-- An entry written reads back. -/
@[simp] theorem fget_fset_same (m : FMap α) (k : Nat) (a : α) : fget (fset m k a) k = some a := by
  induction m with
  | nil => simp [fset, fget]
  | cons e r ih =>
    obtain ⟨i, b⟩ := e
    simp only [fset]
    split
    · simp [fget]
    · split
      · simp [fget]
      · rename_i h
        simp only [fget]
        rw [if_neg (Ne.symm h)]
        exact ih

/-- Every other entry is as it was. -/
theorem fget_fset_other (m : FMap α) {k j : Nat} (a : α) (h : j ≠ k) : fget (fset m k a) j = fget m j := by
  induction m with
  | nil => simp [fset, fget, Ne.symm h]
  | cons e r ih =>
    obtain ⟨i, b⟩ := e
    simp only [fset]
    split
    · simp only [fget]
      rw [if_neg (Ne.symm h)]
    · split
      · rename_i hk
        simp only [fget]
        rw [if_neg (Ne.symm h), if_neg (by rw [← hk]; exact Ne.symm h)]
      · simp only [fget]
        rw [ih]

@[simp] theorem fgetD_fset_same (d : α) (m : FMap α) (k : Nat) (a : α) : fgetD d (fset m k a) k = a := by
  simp [fgetD]

theorem fgetD_fset_other (d : α) (m : FMap α) {k j : Nat} (a : α) (h : j ≠ k) : fgetD d (fset m k a) j = fgetD d m j := by
  simp [fgetD, fget_fset_other m a h]

@[simp] theorem fgetD_fupd_same (d : α) (m : FMap α) (k : Nat) (f : α → α) : fgetD d (fupd d m k f) k = f (fgetD d m k) := by
  simp [fupd]

theorem fgetD_fupd_other (d : α) (m : FMap α) {k j : Nat} (f : α → α) (h : j ≠ k) : fgetD d (fupd d m k f) j = fgetD d m j := by
  simp [fupd, fgetD_fset_other d m _ h]

/-- An entry removed is gone, and every other is as it was. -/
theorem fget_fdel (m : FMap α) (k j : Nat) : fget (fdel m k) j = if j = k then none else fget m j := by
  induction m with
  | nil => simp [fdel, fget]
  | cons e r ih =>
    obtain ⟨i, b⟩ := e
    simp only [fdel, List.filter_cons] at ih ⊢
    by_cases hi : i = k
    · subst hi
      simp only [bne_self_eq_false, if_neg (Bool.false_ne_true)]
      rw [ih]
      split
      · rfl
      · simp only [fget]
        rw [if_neg (by omega)]
    · have : (i != k) = true := by simpa using hi
      simp only [this, if_true, fget]
      by_cases hj : i = j
      · subst hj
        simp [hi]
      · rw [if_neg hj, ih, if_neg hj]

end tables

section accessors
variable (s : State) (n m : Nat)

@[simp] theorem State.tile_setTile (t : Tile) : (s.setTile n t).tile n = t := by simp [State.tile]
theorem State.tile_setTile_other (t : Tile) (h : m ≠ n) : (s.setTile n t).tile m = s.tile m := fgetD_fset_other _ _ _ h
@[simp] theorem State.tile_modTile (f : Tile → Tile) : (s.modTile n f).tile n = f (s.tile n) := by simp [State.modTile]
theorem State.tile_modTile_other (f : Tile → Tile) (h : m ≠ n) : (s.modTile n f).tile m = s.tile m :=
  State.tile_setTile_other s n m _ h
@[simp] theorem State.router_modRouter (f : Router → Router) : (s.modRouter n f).router n = f (s.router n) := fgetD_fupd_same ..
theorem State.router_modRouter_other (f : Router → Router) (h : m ≠ n) : (s.modRouter n f).router m = s.router m :=
  fgetD_fupd_other _ _ _ h
@[simp] theorem State.cluster_modCluster (f : Cluster → Cluster) : (s.modCluster n f).cluster n = f (s.cluster n) := fgetD_fupd_same ..
theorem State.cluster_modCluster_other (f : Cluster → Cluster) (h : m ≠ n) : (s.modCluster n f).cluster m = s.cluster m :=
  fgetD_fupd_other _ _ _ h
@[simp] theorem State.core_modCore (f : Core → Core) : (s.modCore n f).core n = f (s.core n) := fgetD_fupd_same ..
theorem State.core_modCore_other (f : Core → Core) (h : m ≠ n) : (s.modCore n f).core m = s.core m := fgetD_fupd_other _ _ _ h
@[simp] theorem State.hole_modHole (f : Pigeonhole → Pigeonhole) : (s.modHole n f).hole n = f (s.hole n) := fgetD_fupd_same ..
theorem State.hole_modHole_other (f : Pigeonhole → Pigeonhole) (h : m ≠ n) : (s.modHole n f).hole m = s.hole m :=
  fgetD_fupd_other _ _ _ h
@[simp] theorem State.link_modLink (f : Upstream → Upstream) : (s.modLink n f).link n = f (s.link n) := fgetD_fupd_same ..
theorem State.link_modLink_other (f : Upstream → Upstream) (h : m ≠ n) : (s.modLink n f).link m = s.link m := fgetD_fupd_other _ _ _ h
@[simp] theorem State.port_modPort (f : Port → Port) : (s.modPort n f).port n = f (s.port n) := fgetD_fupd_same ..
theorem State.port_modPort_other (f : Port → Port) (h : m ≠ n) : (s.modPort n f).port m = s.port m := fgetD_fupd_other _ _ _ h
@[simp] theorem State.pair_modPair (f : Pair → Pair) : (s.modPair n f).pair n = f (s.pair n) := fgetD_fupd_same ..
theorem State.pair_modPair_other (f : Pair → Pair) (h : m ≠ n) : (s.modPair n f).pair m = s.pair m := fgetD_fupd_other _ _ _ h
@[simp] theorem State.conn_modConn (f : Conn → Conn) : (s.modConn n f).conn n = f (s.conn n) := fgetD_fupd_same ..
theorem State.conn_modConn_other (f : Conn → Conn) (h : m ≠ n) : (s.modConn n f).conn m = s.conn m := fgetD_fupd_other _ _ _ h
@[simp] theorem State.netPort_modNetPort (f : NetPort → NetPort) : (s.modNetPort n f).netPort n = f (s.netPort n) := fgetD_fupd_same ..
theorem State.netPort_modNetPort_other (f : NetPort → NetPort) (h : m ≠ n) : (s.modNetPort n f).netPort m = s.netPort m :=
  fgetD_fupd_other _ _ _ h
@[simp] theorem State.egress_modEgress (f : Egress → Egress) : (s.modEgress n f).egress n = f (s.egress n) := fgetD_fupd_same ..
theorem State.egress_modEgress_other (f : Egress → Egress) (h : m ≠ n) : (s.modEgress n f).egress m = s.egress m :=
  fgetD_fupd_other _ _ _ h
@[simp] theorem State.stack_modStack (f : Stack → Stack) : (s.modStack n f).stack n = f (s.stack n) := fgetD_fupd_same ..
theorem State.stack_modStack_other (f : Stack → Stack) (h : m ≠ n) : (s.modStack n f).stack m = s.stack m := fgetD_fupd_other _ _ _ h
@[simp] theorem State.engine_modEngine (f : Engine → Engine) : (s.modEngine n f).engine n = f (s.engine n) := fgetD_fupd_same ..
theorem State.engine_modEngine_other (f : Engine → Engine) (h : m ≠ n) : (s.modEngine n f).engine m = s.engine m :=
  fgetD_fupd_other _ _ _ h

@[simp] theorem State.hole_modCore (f : Core → Core) : (s.modCore n f).hole m = s.hole m := rfl
@[simp] theorem State.core_modHole (f : Pigeonhole → Pigeonhole) : (s.modHole n f).core m = s.core m := rfl

/-- The contexts of a tile after a change of one. -/
@[simp] theorem State.ctx_modCtx (f : Ctx → Ctx) : (s.modCtx n m f).ctx n m = f (s.ctx n m) := by
  simp [State.ctx, State.modCtx, Tile.ctx, Tile.setCtx]
theorem State.ctx_modCtx_other (f : Ctx → Ctx) (p c : Nat) (h : ¬(p = n ∧ c = m)) : (s.modCtx n m f).ctx p c = s.ctx p c := by
  by_cases hp : p = n
  · subst hp
    have hc : c ≠ m := fun e => h ⟨rfl, e⟩
    simp [State.ctx, State.modCtx, Tile.ctx, Tile.setCtx, fgetD_fset_other _ _ _ hc]
  · simp only [State.ctx, State.modCtx]
    rw [State.tile_modTile_other _ _ _ _ hp]

end accessors

end Sys2Proof.Machine
end

