-- ==== Sys2Proof/Laws/Holes.lean ====
section
/-! SUPPORT. Pigeonholes: bytes put into a slot read back and leave every other byte, and what a response does to its slot and to
the rest of the state. -/

namespace Sys2Proof.Machine

theorem fgetD_fdel {α : Type} (d : α) (m : FMap α) (k j : Nat) : fgetD d (fdel m k) j = if j = k then d else fgetD d m j := by
  simp only [fgetD, fget_fdel]
  split <;> rfl

/-- One byte set in a slot's table. -/
def setByte (m : FMap Byte) (a : Nat) (b : Byte) : FMap Byte := if b = 0 then fdel m a else fset m a b

theorem fgetD_setByte (m : FMap Byte) (a j : Nat) (b : Byte) : fgetD 0 (setByte m a b) j = if j = a then b else fgetD 0 m j := by
  unfold setByte
  split
  · rename_i hb
    rw [fgetD_fdel, hb]
  · split
    · rename_i hj
      rw [hj, fgetD_fset_same]
    · rename_i hj
      exact fgetD_fset_other 0 m b hj

theorem fgetD_putFrom (l : List Byte) (m : FMap Byte) (off k j : Nat) :
    fgetD 0 ((l.zipIdx k).foldl (fun m (b, i) => if b = 0 then fdel m (off + i) else fset m (off + i) b) m) j
      = if off + k ≤ j ∧ j < off + k + l.length then l.getD (j - (off + k)) 0 else fgetD 0 m j := by
  induction l generalizing m k with
  | nil =>
    simp only [List.zipIdx_nil, List.foldl_nil, List.length_nil]
    rw [if_neg (by omega)]
  | cons b r ih =>
    have step := ih (setByte m (off + k) b) (k + 1)
    simp only [setByte] at step
    simp only [List.zipIdx_cons, List.foldl_cons, List.length_cons]
    rw [step]
    have base := fgetD_setByte m (off + k) j b
    simp only [setByte] at base
    by_cases h1 : off + (k + 1) ≤ j ∧ j < off + (k + 1) + r.length
    · rw [if_pos h1, if_pos (by omega)]
      have e : j - (off + k) = (j - (off + (k + 1))) + 1 := by omega
      rw [e, List.getD_cons_succ]
    · rw [if_neg h1, base]
      by_cases h2 : j = off + k
      · rw [if_pos h2, if_pos (by omega), h2, Nat.sub_self, List.getD_cons_zero]
      · rw [if_neg h2, if_neg (by omega)]

/-- A byte of a slot after bytes are put into it. -/
theorem Pigeonhole.byte_put (h : Pigeonhole) (off : Nat) (l : List Byte) (j : Nat) :
    fgetD 0 (h.put off l).bytes j = if off ≤ j ∧ j < off + l.length then l.getD (j - off) 0 else fgetD 0 h.bytes j := by
  have := fgetD_putFrom l h.bytes off 0 j
  simpa [Pigeonhole.put] using this

/-- Bytes put into a slot leave its flags. -/
@[simp] theorem Pigeonhole.put_busy (h : Pigeonhole) (off : Nat) (l : List Byte) : (h.put off l).busy = h.busy := rfl
@[simp] theorem Pigeonhole.put_done (h : Pigeonhole) (off : Nat) (l : List Byte) : (h.put off l).done = h.done := rfl
@[simp] theorem Pigeonhole.put_irqEn (h : Pigeonhole) (off : Nat) (l : List Byte) : (h.put off l).irqEn = h.irqEn := rfl
@[simp] theorem Pigeonhole.put_dropped (h : Pigeonhole) (off : Nat) (l : List Byte) : (h.put off l).dropped = h.dropped := rfl
@[simp] theorem Pigeonhole.put_server (h : Pigeonhole) (off : Nat) (l : List Byte) : (h.put off l).server = h.server := rfl

/-- The number that its low bytes spell. -/
theorem leNat_leBytes (n v : Nat) : leNat (leBytes n v) = v % 256 ^ n := by
  induction n generalizing v with
  | zero => simp [leBytes, leNat, Nat.mod_one]
  | succ n ih =>
    simp only [leBytes, leNat, ih, BitVec.toNat_ofNat]
    rw [show (2:Nat)^8 = 256 from rfl, Nat.pow_succ, Nat.mul_comm (256 ^ n) 256, Nat.mod_mul]

theorem leBytes_length (n v : Nat) : (leBytes n v).length = n := by
  induction n generalizing v with
  | zero => rfl
  | succ n ih => simp [leBytes, ih]

/-- Bytes put into a slot read back. -/
theorem Pigeonhole.get_put_same (h : Pigeonhole) (off : Nat) (l : List Byte) (n : Nat) (hn : n = l.length) : (h.put off l).get off n = l := by
  subst hn
  apply List.ext_getElem
  · simp [Pigeonhole.get]
  · intro i h1 h2
    simp only [Pigeonhole.get, List.getElem_map, List.getElem_range, Pigeonhole.byte_put]
    rw [if_pos (by omega)]
    simp [List.getElem?_eq_getElem h2]

/-- Bytes put elsewhere leave a field. -/
theorem Pigeonhole.get_put_out (h : Pigeonhole) (off : Nat) (l : List Byte) (o n : Nat) (hn : o + n ≤ off ∨ off + l.length ≤ o) :
    (h.put off l).get o n = h.get o n := by
  simp only [Pigeonhole.get]
  apply List.map_congr_left
  intro i hi
  rw [Pigeonhole.byte_put, if_neg]
  have := List.mem_range.1 hi
  omega

/-- A field inside the bytes put. -/
theorem Pigeonhole.get_put_in (h : Pigeonhole) (off : Nat) (l : List Byte) (o n : Nat) (h1 : off ≤ o) (h2 : o + n ≤ off + l.length) :
    (h.put off l).get o n = (l.drop (o - off)).take n := by
  apply List.ext_getElem
  · simp [Pigeonhole.get]; omega
  · intro i hi1 hi2
    simp [Pigeonhole.get] at hi1
    simp only [Pigeonhole.get, List.getElem_map, List.getElem_range, Pigeonhole.byte_put]
    rw [if_pos (by omega)]
    have : o + i - off < l.length := by omega
    simp only [List.getElem_take, List.getElem_drop]
    rw [List.getD_eq_getElem?_getD, List.getElem?_eq_getElem this]
    simp
    congr 1
    omega

/-- A slot's flags do not change its bytes. -/
@[simp] theorem Pigeonhole.get_flags (h : Pigeonhole) (b d : Bool) : ({ h with busy := b, done := d } : Pigeonhole).get = h.get := rfl
@[simp] theorem Pigeonhole.get_doneFlag (h : Pigeonhole) (d : Bool) : ({ h with done := d } : Pigeonhole).get = h.get := rfl

/-- What setting DONE can do beside it: the interrupt at the manager's link. -/
theorem State.holeDone_shape (s : State) (slot : Nat) :
    ∃ l, s.holeDone slot = { s with hosts := { s.hosts with links := l } } ∧ ((s.hole slot).irqEn = false → l = s.hosts.links) := by
  unfold State.holeDone
  split
  · exact ⟨_, rfl, by simp_all⟩
  · exact ⟨s.hosts.links, rfl, fun _ => rfl⟩

/-- Everything a response does: its slot, and the slot's interrupt (R53, R573). -/
theorem State.respond_shape (s : State) (slot : Nat) (st : Status) (p : List Byte) :
    ∃ l, s.respond slot st p = { s with firm := (s.respond slot st p).firm, hosts := { s.hosts with links := l } }
      ∧ ((s.hole slot).irqEn = false → l = s.hosts.links)
      ∧ (s.respond slot st p).firm = { s.firm with holes := (s.respond slot st p).firm.holes }
      ∧ (∀ k, k ≠ slot → (s.respond slot st p).hole k = s.hole k)
      ∧ (((s.respond slot st p).hole slot).busy = false ∧ ((s.respond slot st p).hole slot).done = true
        ∧ ((s.respond slot st p).hole slot).num 12 2 = st.code ∧ ((s.respond slot st p).hole slot).num 6 2 % 2 = 1)
      ∧ (p.length < 4064 → ((s.respond slot st p).hole slot).num 4 2 = p.length ∧ ((s.respond slot st p).hole slot).get 32 p.length = p) := by
  unfold State.respond
  extract_lets minor now
  generalize hx : (s.modHole slot _) = x
  obtain ⟨l, hl, hq⟩ := State.holeDone_shape x slot
  have hh : ∀ k, (x.holeDone slot).hole k = x.hole k := by rw [hl]; intro k; rfl
  have hslot := hx ▸ State.hole_modHole s slot _
  refine ⟨l, ?_, ?_, ?_, ?_, ?_, ?_⟩
  · rw [hl]; subst hx; rfl
  · intro hi
    rw [hq]
    · subst hx; rfl
    · rw [hslot]; exact hi
  · rw [hl]; subst hx; rfl
  · intro k hk; rw [hh]; subst hx; exact State.hole_modHole_other _ _ _ _ hk
  · rw [hh, hslot]
    refine ⟨rfl, rfl, ?_, ?_⟩
    · show leNat (Pigeonhole.get _ 12 2) = _
      simp only [Pigeonhole.get]
      show leNat ((Pigeonhole.put _ 16 _).get 12 2) = _
      rw [Pigeonhole.get_put_out _ _ _ _ _ (by simp), Pigeonhole.get_put_same _ _ _ _ (by simp [leBytes_length]), leNat_leBytes]
      cases st <;> rfl
    · show leNat ((Pigeonhole.put _ 16 _).get 6 2) % 2 = 1
      rw [Pigeonhole.get_put_out _ _ _ _ _ (by simp), Pigeonhole.get_put_out _ _ _ _ _ (by simp), Pigeonhole.get_put_in _ _ _ _ _ (by simp) (by simp [leBytes_length])]
      simp [leBytes, leNat]
  · intro hp
    rw [hh, hslot]
    constructor
    · show leNat ((Pigeonhole.put _ 16 _).get 4 2) = _
      rw [Pigeonhole.get_put_out _ _ _ _ _ (by simp), Pigeonhole.get_put_out _ _ _ _ _ (by simp), Pigeonhole.get_put_in _ _ _ _ _ (by simp) (by simp [leBytes_length])]
      simp [leBytes, leNat]
      omega
    · show (Pigeonhole.put _ 16 _).get 32 p.length = p
      rw [Pigeonhole.get_put_in _ _ _ _ _ (by simp) (by simp [leBytes_length, zeros]; omega)]
      simp [leBytes, zeros]

end Sys2Proof.Machine
end

