-- ==== Sys2Proof/Laws/Issue.lean ====
section
/-! SUPPORT. The issue of a bundle by a context of a tile: what leaves the contexts and the words of the tiles as they are, how results
commit, and what a context holds after a bundle has issued. -/

namespace Sys2Proof.Machine

/-- A part of a tile that its contexts and its words decide. -/
structure View (β : Type) where
  get : Tile → β
  blind : ∀ t u : Tile, t.ctxs = u.ctxs → t.words = u.words → get t = get u

/-- What no bundle of a tile changes: the mapping, the routers and links, and the units outside the mesh; a
write that meets a marked page joins those that the Porter holds (R513). -/
def State.outer (s : State) : Mesh × FMap Router × FMap LinkErr × Hosts × Storage × FMap Egress × Cipher × Porter × Power × Irq × Service × List Instr :=
  (s.mesh, s.routers, s.linkErrs, s.hosts, s.storage, s.traffic, s.cipher, { s.porter with aheads := [], waits := [] }, s.power, s.irq, s.service, s.pending)

/-- A view of every tile is as given, and so are the units outside. -/
def SameTiles {β : Type} (v : View β) (q : (Nat → β) × State) (s : State) : Prop :=
  (∀ p, v.get (s.tile p) = q.1 p) ∧ s.outer = q.2.outer

section contexts
variable {β : Type} {v : View β} {q : (Nat → β) × State} {s : State}

theorem tiles_mk {f : Firm} {cl : FMap Cluster} {jo : FMap Job} {ld : Ledgers} {me : Mem} {gu : FMap Guest} {ne : Net} {fr : Nat}
    (h : SameTiles v q s) :
    SameTiles v q (State.mk f s.mesh s.tiles s.routers s.linkErrs cl jo ld me s.hosts gu s.storage ne s.traffic s.cipher s.porter s.power
      s.irq s.service fr s.pending) := h

theorem tiles_foldl {α : Type} {f : State → α → State} {l : List α} (h : SameTiles v q s) (hf : ∀ s a, SameTiles v q s → SameTiles v q (f s a)) :
    SameTiles v q (l.foldl f s) := by
  induction l generalizing s with
  | nil => exact h
  | cons a r ih => exact ih (hf s a h)

/-- A change of a tile that leaves its contexts and words. -/
theorem tiles_modTile (h : SameTiles v q s) (p : Nat) {f : Tile → Tile} (hf : ∀ t, (f t).ctxs = t.ctxs ∧ (f t).words = t.words) :
    SameTiles v q (s.modTile p f) := by
  refine ⟨fun a => ?_, h.2⟩
  rw [← h.1 a]
  by_cases ha : a = p
  · subst ha
    rw [State.tile_modTile]
    exact v.blind _ _ (hf _).1 (hf _).2
  · rw [State.tile_modTile_other _ _ _ _ ha]

theorem tiles_modLedgers (h : SameTiles v q s) (a1 : _) : SameTiles v q (State.modLedgers s a1) := h

theorem tiles_modLedger (h : SameTiles v q s) (a1 a2 : _) : SameTiles v q (State.modLedger s a1 a2) := by
  unfold State.modLedger
  repeat' first
    | with_reducible assumption
    | with_reducible apply tiles_modLedgers
    | exact fun _ => ⟨rfl, rfl⟩
    | (intro t; split <;> exact ⟨rfl, rfl⟩)
    | with_reducible intro _
    | split

theorem tiles_modFirm (h : SameTiles v q s) (a1 : _) : SameTiles v q (State.modFirm s a1) := h

theorem tiles_raise (h : SameTiles v q s) (a1 a2 a3 a4 a5 : _) : SameTiles v q (State.raise s a1 a2 a3 a4 a5) := h

theorem tiles_modCluster (h : SameTiles v q s) (a1 a2 : _) : SameTiles v q (State.modCluster s a1 a2) := h

theorem tiles_modNet (h : SameTiles v q s) (a1 : _) : SameTiles v q (State.modNet s a1) := h

theorem tiles_stateEvent (h : SameTiles v q s) (a1 a2 a3 : _) : SameTiles v q (State.stateEvent s a1 a2 a3) := h

theorem tiles_degrade (h : SameTiles v q s) (a1 : _) : SameTiles v q (State.degrade s a1) := by
  unfold State.degrade
  repeat' first
    | with_reducible assumption
    | with_reducible apply tiles_stateEvent
    | with_reducible apply tiles_modFirm
    | exact fun _ => ⟨rfl, rfl⟩
    | (intro t; split <;> exact ⟨rfl, rfl⟩)
    | with_reducible intro _
    | split

theorem tiles_writeRecord (h : SameTiles v q s) (a1 : _) : SameTiles v q (State.writeRecord s a1) := h

theorem tiles_modJob (h : SameTiles v q s) (a1 a2 : _) : SameTiles v q (State.modJob s a1 a2) := by
  unfold State.modJob
  repeat' first
    | with_reducible assumption
    | exact fun _ => ⟨rfl, rfl⟩
    | (intro t; split <;> exact ⟨rfl, rfl⟩)
    | with_reducible intro _
    | split
    | with_reducible apply tiles_mk

theorem tiles_modMem (h : SameTiles v q s) (a1 : _) : SameTiles v q (State.modMem s a1) := h

theorem tiles_modGuest (h : SameTiles v q s) (a1 a2 : _) : SameTiles v q (State.modGuest s a1 a2) := by
  unfold State.modGuest
  repeat' first
    | with_reducible assumption
    | exact fun _ => ⟨rfl, rfl⟩
    | (intro t; split <;> exact ⟨rfl, rfl⟩)
    | with_reducible intro _
    | split
    | with_reducible apply tiles_mk

theorem tiles_modStack (h : SameTiles v q s) (a1 a2 : _) : SameTiles v q (State.modStack s a1 a2) := by
  unfold State.modStack
  repeat' first
    | with_reducible assumption
    | with_reducible apply tiles_modMem
    | exact fun _ => ⟨rfl, rfl⟩
    | (intro t; split <;> exact ⟨rfl, rfl⟩)
    | with_reducible intro _

theorem tiles_breakJob (h : SameTiles v q s) (a1 : _) : SameTiles v q (State.breakJob s a1) := by
  unfold State.breakJob
  repeat' first
    | with_reducible assumption
    | with_reducible apply tiles_modLedgers
    | with_reducible apply tiles_modJob
    | exact fun _ => ⟨rfl, rfl⟩
    | (intro t; split <;> exact ⟨rfl, rfl⟩)
    | with_reducible intro _
    | split

theorem tiles_breakTile (h : SameTiles v q s) (a1 : _) : SameTiles v q (State.breakTile s a1) := by
  unfold State.breakTile
  repeat' first
    | with_reducible assumption
    | with_reducible apply tiles_breakJob
    | with_reducible refine tiles_foldl ?_ (fun _ _ _ => ?_)
    | exact fun _ => ⟨rfl, rfl⟩
    | (intro t; split <;> exact ⟨rfl, rfl⟩)
    | with_reducible intro _

theorem tiles_halt (h : SameTiles v q s) (a1 a2 : _) : SameTiles v q (State.halt s a1 a2) := by
  unfold State.halt
  repeat' first
    | with_reducible assumption
    | (extract_lets +onlyGivenNames x; refine (fun (hx : SameTiles v q x) => ?_) ?_; clear_value x; rotate_left; subst x)
    | (extract_lets +onlyGivenNames x; clear_value x)
    | with_reducible apply tiles_modTile
    | with_reducible apply tiles_breakTile
    | exact fun _ => ⟨rfl, rfl⟩
    | (intro t; split <;> exact ⟨rfl, rfl⟩)
    | with_reducible intro _
    | split

theorem tiles_queueRetirement (h : SameTiles v q s) (a1 : _) : SameTiles v q (State.queueRetirement s a1) := by
  unfold State.queueRetirement
  repeat' first
    | with_reducible assumption
    | (extract_lets +onlyGivenNames x; refine (fun (hx : SameTiles v q x) => ?_) ?_; clear_value x; rotate_left; subst x)
    | (extract_lets +onlyGivenNames x; clear_value x)
    | with_reducible apply tiles_modCluster
    | with_reducible apply tiles_halt
    | exact fun _ => ⟨rfl, rfl⟩
    | (intro t; split <;> exact ⟨rfl, rfl⟩)
    | with_reducible intro _
    | split

theorem tiles_findBad (h : SameTiles v q s) (a1 a2 : _) : SameTiles v q (State.findBad s a1 a2) := by
  unfold State.findBad
  repeat' first
    | with_reducible assumption
    | (extract_lets +onlyGivenNames x; refine (fun (hx : SameTiles v q x) => ?_) ?_; clear_value x; rotate_left; subst x)
    | (extract_lets +onlyGivenNames x; clear_value x)
    | with_reducible apply tiles_modTile
    | with_reducible apply tiles_modCluster
    | with_reducible apply tiles_queueRetirement
    | exact fun _ => ⟨rfl, rfl⟩
    | (intro t; split <;> exact ⟨rfl, rfl⟩)
    | with_reducible intro _
    | split

theorem tiles_correct (h : SameTiles v q s) (a1 a2 : _) : SameTiles v q (State.correct s a1 a2) := by
  unfold State.correct
  repeat' first
    | with_reducible assumption
    | (extract_lets +onlyGivenNames x; refine (fun (hx : SameTiles v q x) => ?_) ?_; clear_value x; rotate_left; subst x)
    | (extract_lets +onlyGivenNames x; clear_value x)
    | with_reducible apply tiles_modTile
    | with_reducible apply tiles_modCluster
    | with_reducible apply tiles_queueRetirement
    | exact fun _ => ⟨rfl, rfl⟩
    | (intro t; split <;> exact ⟨rfl, rfl⟩)
    | with_reducible intro _
    | split

theorem tiles_readFinds (h : SameTiles v q s) (a1 a2 : _) : SameTiles v q (State.readFinds s a1 a2) := by
  unfold State.readFinds
  repeat' first
    | with_reducible assumption
    | (extract_lets +onlyGivenNames x; refine (fun (hx : SameTiles v q x) => ?_) ?_; clear_value x; rotate_left; subst x)
    | (extract_lets +onlyGivenNames x; clear_value x)
    | with_reducible apply tiles_findBad
    | with_reducible apply tiles_correct
    | with_reducible refine tiles_foldl ?_ (fun _ _ _ => ?_)
    | exact fun _ => ⟨rfl, rfl⟩
    | (intro t; split <;> exact ⟨rfl, rfl⟩)
    | with_reducible intro _
    | split

theorem tiles_drawRequest (h : SameTiles v q s) (a1 a2 : _) : SameTiles v q (State.drawRequest s a1 a2) := by
  unfold State.drawRequest
  repeat' first
    | with_reducible assumption
    | (extract_lets +onlyGivenNames x; refine (fun (hx : SameTiles v q x) => ?_) ?_; clear_value x; rotate_left; subst x)
    | (extract_lets +onlyGivenNames x; clear_value x)
    | with_reducible apply tiles_modTile
    | with_reducible apply tiles_modLedgers
    | exact fun _ => ⟨rfl, rfl⟩
    | (intro t; split <;> exact ⟨rfl, rfl⟩)
    | with_reducible intro _
    | split

theorem tiles_watchFires (h : SameTiles v q s) (a1 a2 : _) : SameTiles v q (State.watchFires s a1 a2) := by
  unfold State.watchFires
  repeat' first
    | with_reducible assumption
    | with_reducible apply tiles_modNet
    | exact fun _ => ⟨rfl, rfl⟩
    | (intro t; split <;> exact ⟨rfl, rfl⟩)
    | with_reducible intro _
    | split

theorem tiles_storeRange (h : SameTiles v q s) (a1 a2 a3 a4 a5 : _) : SameTiles v q (State.storeRange s a1 a2 a3 a4 a5) := by
  unfold State.storeRange
  repeat' first
    | with_reducible assumption
    | (extract_lets +onlyGivenNames x; refine (fun (hx : SameTiles v q x) => ?_) ?_; clear_value x; rotate_left; subst x)
    | (extract_lets +onlyGivenNames x; clear_value x)
    | with_reducible apply tiles_modMem
    | with_reducible apply tiles_modStack
    | with_reducible refine tiles_foldl ?_ (fun _ _ _ => ?_)
    | exact fun _ => ⟨rfl, rfl⟩
    | (intro t; split <;> exact ⟨rfl, rfl⟩)
    | with_reducible intro _
    | split

theorem tiles_memEvent (h : SameTiles v q s) (a1 a2 a3 a4 a5 : _) : SameTiles v q (State.memEvent s a1 a2 a3 a4 a5) := h

theorem tiles_markFailing (h : SameTiles v q s) (a1 : _) : SameTiles v q (State.markFailing s a1) := by
  unfold State.markFailing
  repeat' first
    | with_reducible assumption
    | with_reducible apply tiles_memEvent
    | with_reducible apply tiles_writeRecord
    | with_reducible apply tiles_degrade
    | with_reducible apply tiles_modMem
    | exact fun _ => ⟨rfl, rfl⟩
    | (intro t; split <;> exact ⟨rfl, rfl⟩)
    | with_reducible intro _
    | split

theorem tiles_repairRow (h : SameTiles v q s) (a1 : _) : SameTiles v q (State.repairRow s a1) := by
  unfold State.repairRow
  repeat' first
    | with_reducible assumption
    | dsimp -zeta only
    | (extract_lets +onlyGivenNames x; refine (fun (hx : SameTiles v q x) => ?_) ?_; clear_value x; rotate_left; subst x)
    | (extract_lets +onlyGivenNames x; subst x)
    | with_reducible apply tiles_markFailing
    | with_reducible apply tiles_modMem
    | with_reducible apply tiles_modStack
    | with_reducible apply tiles_writeRecord
    | with_reducible apply tiles_memEvent
    | with_reducible refine tiles_foldl ?_ (fun _ _ _ => ?_)
    | exact fun _ => ⟨rfl, rfl⟩
    | (intro t; split <;> exact ⟨rfl, rfl⟩)
    | with_reducible intro _
    | split

theorem tiles_noteCorrected (h : SameTiles v q s) (a1 : _) : SameTiles v q (State.noteCorrected s a1) := by
  unfold State.noteCorrected
  repeat' first
    | with_reducible assumption
    | (extract_lets +onlyGivenNames x; refine (fun (hx : SameTiles v q x) => ?_) ?_; clear_value x; rotate_left; subst x)
    | (extract_lets +onlyGivenNames x; clear_value x)
    | with_reducible apply tiles_modStack
    | with_reducible apply tiles_markFailing
    | exact fun _ => ⟨rfl, rfl⟩
    | (intro t; split <;> exact ⟨rfl, rfl⟩)
    | with_reducible intro _
    | split

theorem tiles_noteStack (h : SameTiles v q s) (a1 a2 : _) : SameTiles v q (State.noteStack s a1 a2) := by
  unfold State.noteStack
  repeat' first
    | with_reducible assumption
    | dsimp -zeta only
    | (extract_lets +onlyGivenNames x; refine (fun (hx : SameTiles v q x) => ?_) ?_; clear_value x; rotate_left; subst x)
    | (extract_lets +onlyGivenNames x; subst x)
    | with_reducible apply tiles_modStack
    | with_reducible apply tiles_repairRow
    | with_reducible apply tiles_noteCorrected
    | exact fun _ => ⟨rfl, rfl⟩
    | (intro t; split <;> exact ⟨rfl, rfl⟩)
    | with_reducible intro _
    | split

theorem tiles_bothPlaces (h : SameTiles v q s) (a1 a2 a3 : _) (h3 : ∀ c s, SameTiles v q s → SameTiles v q (a3 c s)) : SameTiles v q (State.bothPlaces s a1 a2 a3) := by
  unfold State.bothPlaces
  repeat' first
    | with_reducible assumption
    | (extract_lets +onlyGivenNames x; refine (fun (hx : SameTiles v q x) => ?_) ?_; clear_value x; rotate_left; subst x)
    | (extract_lets +onlyGivenNames x; clear_value x)
    | with_reducible apply tiles_modMem
    | exact fun _ => ⟨rfl, rfl⟩
    | (intro t; split <;> exact ⟨rfl, rfl⟩)
    | with_reducible intro _
    | split
    | with_reducible apply h3

theorem tiles_zeroPiece (h : SameTiles v q s) (a1 a2 : _) : SameTiles v q (State.zeroPiece s a1 a2) := by
  unfold State.zeroPiece
  repeat' first
    | with_reducible assumption
    | with_reducible apply tiles_bothPlaces
    | with_reducible apply tiles_storeRange
    | with_reducible apply tiles_modMem
    | exact fun _ => ⟨rfl, rfl⟩
    | (intro t; split <;> exact ⟨rfl, rfl⟩)
    | with_reducible intro _
    | split

theorem tiles_zeroRange (h : SameTiles v q s) (a1 a2 : _) : SameTiles v q (State.zeroRange s a1 a2) := by
  unfold State.zeroRange
  repeat' first
    | with_reducible assumption
    | with_reducible apply tiles_zeroPiece
    | with_reducible refine tiles_foldl ?_ (fun _ _ _ => ?_)
    | exact fun _ => ⟨rfl, rfl⟩
    | (intro t; split <;> exact ⟨rfl, rfl⟩)
    | with_reducible intro _

theorem tiles_askAheads (h : SameTiles v q s) (a1 : _) : SameTiles v q (State.askAheads s a1) := h

theorem tiles_storeLine (h : SameTiles v q s) (a1 a2 : _) : SameTiles v q (State.storeLine s a1 a2) := by
  unfold State.storeLine
  repeat' first
    | with_reducible assumption
    | (extract_lets +onlyGivenNames x; refine (fun (hx : SameTiles v q x) => ?_) ?_; clear_value x; rotate_left; subst x)
    | (extract_lets +onlyGivenNames x; clear_value x)
    | with_reducible apply tiles_modMem
    | with_reducible apply tiles_modStack
    | exact fun _ => ⟨rfl, rfl⟩
    | (intro t; split <;> exact ⟨rfl, rfl⟩)
    | with_reducible intro _

theorem tiles_writeBack (h : SameTiles v q s) (a1 : _) : SameTiles v q (State.writeBack s a1) := by
  unfold State.writeBack
  repeat' first
    | with_reducible assumption
    | (extract_lets +onlyGivenNames x; refine (fun (hx : SameTiles v q x) => ?_) ?_; clear_value x; rotate_left; subst x)
    | (extract_lets +onlyGivenNames x; clear_value x)
    | with_reducible apply tiles_modStack
    | with_reducible apply tiles_repairRow
    | with_reducible apply tiles_modMem
    | with_reducible apply tiles_memEvent
    | with_reducible apply tiles_noteCorrected
    | with_reducible refine tiles_foldl ?_ (fun _ _ _ => ?_)
    | exact fun _ => ⟨rfl, rfl⟩
    | (intro t; split <;> exact ⟨rfl, rfl⟩)
    | with_reducible intro _
    | split

theorem tiles_mergeWrite (h : SameTiles v q s) (a1 a2 a3 : _) : SameTiles v q (State.mergeWrite s a1 a2 a3) := by
  unfold State.mergeWrite
  repeat' first
    | with_reducible assumption
    | (extract_lets +onlyGivenNames x; refine (fun (hx : SameTiles v q x) => ?_) ?_; clear_value x; rotate_left; subst x)
    | (extract_lets +onlyGivenNames x; clear_value x)
    | with_reducible apply tiles_storeLine
    | with_reducible apply tiles_modStack
    | with_reducible apply tiles_writeBack
    | exact fun _ => ⟨rfl, rfl⟩
    | (intro t; split <;> exact ⟨rfl, rfl⟩)
    | with_reducible intro _
    | split

theorem tiles_storeAt (h : SameTiles v q s) (a1 a2 : _) : SameTiles v q (State.storeAt s a1 a2) := by
  unfold State.storeAt
  repeat' first
    | with_reducible assumption
    | with_reducible apply tiles_storeLine
    | with_reducible apply tiles_mergeWrite
    | with_reducible apply tiles_modMem
    | exact fun _ => ⟨rfl, rfl⟩
    | (intro t; split <;> exact ⟨rfl, rfl⟩)
    | with_reducible intro _
    | split

theorem tiles_writePiece (h : SameTiles v q s) (a1 a2 : _) : SameTiles v q (State.writePiece s a1 a2) := by
  unfold State.writePiece
  repeat' first
    | with_reducible assumption
    | with_reducible apply tiles_bothPlaces
    | with_reducible apply tiles_storeAt
    | with_reducible apply tiles_modMem
    | exact fun _ => ⟨rfl, rfl⟩
    | (intro t; split <;> exact ⟨rfl, rfl⟩)
    | with_reducible intro _
    | split

theorem tiles_writeFuel (h : SameTiles v q s) (a0 a2 a3 : _) : SameTiles v q (State.writeFuel a0 s a2 a3) := by
  induction a0 generalizing s a2 a3 with
  | zero => exact h
  | succ f ih =>
    unfold State.writeFuel
    repeat' first
      | with_reducible assumption
      | with_reducible apply ih
      | (extract_lets +onlyGivenNames x; refine (fun (hx : SameTiles v q x) => ?_) ?_; clear_value x; rotate_left; subst x)
      | (extract_lets +onlyGivenNames x; clear_value x)
      | with_reducible apply tiles_writePiece
      | exact fun _ => ⟨rfl, rfl⟩
      | (intro t; split <;> exact ⟨rfl, rfl⟩)
      | with_reducible intro _
      | split

theorem tiles_rawWrite (h : SameTiles v q s) (a1 a2 : _) : SameTiles v q (State.rawWrite s a1 a2) := by
  unfold State.rawWrite
  repeat' first
    | with_reducible assumption
    | with_reducible apply tiles_writeFuel
    | exact fun _ => ⟨rfl, rfl⟩
    | (intro t; split <;> exact ⟨rfl, rfl⟩)
    | with_reducible intro _

theorem tiles_writeNow (h : SameTiles v q s) (a1 a2 : _) : SameTiles v q (State.writeNow s a1 a2) := by
  unfold State.writeNow
  repeat' first
    | with_reducible assumption
    | with_reducible apply tiles_rawWrite
    | with_reducible apply tiles_zeroRange
    | exact fun _ => ⟨rfl, rfl⟩
    | (intro t; split <;> exact ⟨rfl, rfl⟩)
    | with_reducible intro _
    | split

theorem tiles_putData (h : SameTiles v q s) (a1 a2 a3 : _) : SameTiles v q (State.putData s a1 a2 a3) := by
  unfold State.putData
  dsimp only
  split
  · split
    · exact h
    · exact tiles_askAheads (s := { s with porter := { s.porter with waits := s.porter.waits ++ [{ who := a3, addr := a1, data := a2 }] } }) h ((pagesOf a1 a2.length).filter s.marked)
  · exact tiles_writeNow h _ _

theorem tiles_memWrite (h : SameTiles v q s) (a1 a2 a3 : _) : SameTiles v q (State.memWrite s a1 a2 a3) := tiles_putData h a1 (.bytes a2) a3

theorem tiles_setRun (h : SameTiles v q s) (a1 a2 a3 : _) : SameTiles v q (State.setRun s a1 a2 a3) := by
  unfold State.setRun
  repeat' first
    | with_reducible assumption
    | (extract_lets +onlyGivenNames x; refine (fun (hx : SameTiles v q x) => ?_) ?_; clear_value x; rotate_left; subst x)
    | (extract_lets +onlyGivenNames x; clear_value x)
    | with_reducible apply tiles_modLedger
    | with_reducible apply tiles_memWrite
    | exact fun _ => ⟨rfl, rfl⟩
    | (intro t; split <;> exact ⟨rfl, rfl⟩)
    | with_reducible intro _
    | split

theorem tiles_ledgerEvent (h : SameTiles v q s) (a1 a2 a3 a4 a5 a6 a7 : _) : SameTiles v q (State.ledgerEvent s a1 a2 a3 a4 a5 a6 a7) := h

theorem tiles_endMove (h : SameTiles v q s) (a1 a2 : _) : SameTiles v q (State.endMove s a1 a2) := by
  unfold State.endMove
  repeat' first
    | with_reducible assumption
    | (extract_lets +onlyGivenNames x; refine (fun (hx : SameTiles v q x) => ?_) ?_; clear_value x; rotate_left; subst x)
    | (extract_lets +onlyGivenNames x; clear_value x)
    | with_reducible apply tiles_modLedger
    | with_reducible apply tiles_ledgerEvent
    | exact fun _ => ⟨rfl, rfl⟩
    | (intro t; split <;> exact ⟨rfl, rfl⟩)
    | with_reducible intro _
    | split

theorem tiles_takeRun (h : SameTiles v q s) (a1 a2 a3 : _) : SameTiles v q (State.takeRun s a1 a2 a3) := by
  unfold State.takeRun
  repeat' first
    | with_reducible assumption
    | with_reducible apply tiles_modGuest
    | exact fun _ => ⟨rfl, rfl⟩
    | (intro t; split <;> exact ⟨rfl, rfl⟩)
    | with_reducible intro _
    | split

theorem tiles_nextMove (h : SameTiles v q s) (a1 : _) : SameTiles v q (State.nextMove s a1) := by
  unfold State.nextMove
  repeat' first
    | with_reducible assumption
    | (extract_lets +onlyGivenNames x; refine (fun (hx : SameTiles v q x) => ?_) ?_; clear_value x; rotate_left; subst x)
    | (extract_lets +onlyGivenNames x; clear_value x)
    | with_reducible apply tiles_endMove
    | with_reducible apply tiles_takeRun
    | with_reducible apply tiles_setRun
    | exact fun _ => ⟨rfl, rfl⟩
    | (intro t; split <;> exact ⟨rfl, rfl⟩)
    | with_reducible intro _
    | split

theorem tiles_startMove (h : SameTiles v q s) (a1 a2 a3 : _) : SameTiles v q (State.startMove s a1 a2 a3) := by
  unfold State.startMove
  repeat' first
    | with_reducible assumption
    | with_reducible apply tiles_nextMove
    | with_reducible apply tiles_modLedger
    | exact fun _ => ⟨rfl, rfl⟩
    | (intro t; split <;> exact ⟨rfl, rfl⟩)
    | with_reducible intro _
    | split

theorem tiles_nameLedger (h : SameTiles v q s) (a1 : _) : SameTiles v q (State.nameLedger s a1) := by
  unfold State.nameLedger
  repeat' first
    | with_reducible assumption
    | (extract_lets +onlyGivenNames x; refine (fun (hx : SameTiles v q x) => ?_) ?_; clear_value x; rotate_left; subst x)
    | (extract_lets +onlyGivenNames x; clear_value x)
    | with_reducible apply tiles_modLedger
    | with_reducible apply tiles_startMove
    | exact fun _ => ⟨rfl, rfl⟩
    | (intro t; split <;> exact ⟨rfl, rfl⟩)
    | with_reducible intro _
    | split

theorem tiles_send (h : SameTiles v q s) (a1 a2 : _) : SameTiles v q (State.send s a1 a2) := by
  unfold State.send
  repeat' first
    | with_reducible assumption
    | (extract_lets +onlyGivenNames x; refine (fun (hx : SameTiles v q x) => ?_) ?_; clear_value x; rotate_left; subst x)
    | (extract_lets +onlyGivenNames x; clear_value x)
    | with_reducible apply tiles_modTile
    | exact fun _ => ⟨rfl, rfl⟩
    | (intro t; split <;> exact ⟨rfl, rfl⟩)
    | with_reducible intro _
    | split

theorem tiles_downgrade (h : SameTiles v q s) (a1 : _) : SameTiles v q (State.downgrade s a1) := by
  unfold State.downgrade
  repeat' first
    | with_reducible assumption
    | with_reducible apply tiles_modLedgers
    | with_reducible apply tiles_modJob
    | exact fun _ => ⟨rfl, rfl⟩
    | (intro t; split <;> exact ⟨rfl, rfl⟩)
    | with_reducible intro _
    | split

theorem tiles_regFinds (h : SameTiles v q s) (a1 a2 a3 : _) : SameTiles v q (State.regFinds s a1 a2 a3) := by
  unfold State.regFinds
  repeat' first
    | with_reducible assumption
    | (extract_lets +onlyGivenNames x; refine (fun (hx : SameTiles v q x) => ?_) ?_; clear_value x; rotate_left; subst x)
    | (extract_lets +onlyGivenNames x; clear_value x)
    | with_reducible apply tiles_modTile
    | with_reducible apply tiles_queueRetirement
    | exact fun _ => ⟨rfl, rfl⟩
    | (intro t; split <;> exact ⟨rfl, rfl⟩)
    | with_reducible intro _
    | split

theorem tiles_bundleFinds (h : SameTiles v q s) (a1 a2 a3 a4 : _) : SameTiles v q (State.bundleFinds s a1 a2 a3 a4) := by
  unfold State.bundleFinds
  repeat' first
    | with_reducible assumption
    | (extract_lets +onlyGivenNames x; refine (fun (hx : SameTiles v q x) => ?_) ?_; clear_value x; rotate_left; subst x)
    | (extract_lets +onlyGivenNames x; clear_value x)
    | with_reducible apply tiles_regFinds
    | with_reducible apply tiles_findBad
    | with_reducible apply tiles_correct
    | with_reducible refine tiles_foldl ?_ (fun _ _ _ => ?_)
    | exact fun _ => ⟨rfl, rfl⟩
    | (intro t; split <;> exact ⟨rfl, rfl⟩)
    | with_reducible intro _
    | split

end contexts

/-! ## Contexts and words through commits -/

/-- The contexts of a tile. -/
def ctxView : View (FMap Ctx) := ⟨Tile.ctxs, fun _ _ h _ => h⟩
/-- The words of a tile. -/
def wordView : View (FMap TWord) := ⟨Tile.words, fun _ _ _ h => h⟩

theorem State.ctx_of_tiles {s t : State} (h : SameTiles ctxView (fun p => (s.tile p).ctxs, s) t) (p n : Nat) : t.ctx p n = s.ctx p n := by
  have := h.1 p
  simp only [ctxView] at this
  simp [State.ctx, Tile.ctx, this]

theorem State.word_of_tiles {s t : State} (h : SameTiles wordView (fun p => (s.tile p).words, s) t) (p a : Nat) :
    (t.tile p).word a = (s.tile p).word a := by
  have := h.1 p
  simp only [wordView] at this
  simp [Tile.word, this]

@[simp] theorem Tile.storeBytes_ctxs (t : Tile) (w : StoreWrite) : (t.storeBytes w).ctxs = t.ctxs := by
  unfold Tile.storeBytes Tile.cover
  simp only
  generalize wordsIn w.addr w.bytes.length = l
  induction l generalizing t with
  | nil => rfl
  | cons a r ih => exact (ih _).trans rfl

theorem State.ctx_modCtx_else (s : State) (p n : Nat) (f : Ctx → Ctx) {a b : Nat} (h : a ≠ p ∨ b ≠ n) :
    (s.modCtx p n f).ctx a b = s.ctx a b := by
  by_cases ha : a = p
  · subst ha
    have hb : b ≠ n := by simpa using h
    simp [State.modCtx, State.ctx, Tile.setCtx, Tile.ctx, fgetD_fset_other _ _ _ hb]
  · simp only [State.modCtx, State.ctx]
    rw [State.tile_modTile_other _ _ _ _ ha]

/-- A tile function that leaves the contexts leaves them in the state. -/
theorem State.ctx_modTile (s : State) (p : Nat) (f : Tile → Tile) (hf : ∀ t, (f t).ctxs = t.ctxs) (a b : Nat) :
    (s.modTile p f).ctx a b = s.ctx a b := by
  by_cases ha : a = p
  · subst ha; simp [State.ctx, Tile.ctx, hf]
  · simp only [State.ctx]; rw [State.tile_modTile_other _ _ _ _ ha]

@[simp] theorem Tile.mark_ctxs (t : Tile) (a : Nat) : (t.mark a).ctxs = t.ctxs := rfl

/-- What the reads of words find leaves every context. -/
theorem State.ctx_readFinds (s : State) (p : Nat) (l : List Nat) (a b : Nat) : (s.readFinds p l).ctx a b = s.ctx a b :=
  State.ctx_of_tiles (tiles_readFinds ⟨fun _ => rfl, rfl⟩ p l) a b

/-- A commit to a watched word leaves every context. -/
theorem State.ctx_watchFires (s : State) (p x a b : Nat) : (s.watchFires p x).ctx a b = s.ctx a b :=
  State.ctx_of_tiles (tiles_watchFires ⟨fun _ => rfl, rfl⟩ p x) a b

theorem State.ctx_drawRequest (s : State) (p x a b : Nat) : (s.drawRequest p x).ctx a b = s.ctx a b :=
  State.ctx_of_tiles (tiles_drawRequest ⟨fun _ => rfl, rfl⟩ p x) a b

theorem State.ctx_applyStore (s : State) (p : Nat) (e : Effect) (a b : Nat) : (s.applyStore p e).ctx a b = s.ctx a b := by
  unfold State.applyStore
  split
  · rename_i ws
    induction ws generalizing s with
    | nil => rfl
    | cons w r ih =>
      simp only [List.foldl_cons]
      refine (ih _).trans ?_
      generalize wordsIn w.addr w.bytes.length = l
      have h1 : ∀ (l : List Nat) (s : State), ((l.foldl (fun s a => s.watchFires p a) s).ctx a b) = s.ctx a b := fun l s =>
        State.ctx_of_tiles (tiles_foldl ⟨fun _ => rfl, rfl⟩ fun _ _ h => tiles_watchFires h _ _) a b
      refine (h1 _ _).trans ?_
      refine (State.ctx_modTile _ _ _ (fun t => Tile.storeBytes_ctxs t w) _ _).trans ?_
      exact State.ctx_of_tiles (tiles_readFinds ⟨fun _ => rfl, rfl⟩ _ _) a b
  · rename_i x
    rw [State.ctx_watchFires, State.ctx_drawRequest, State.ctx_modTile _ _ _ (fun t => Tile.mark_ctxs t x), State.ctx_readFinds]
  · rename_i x
    rw [State.ctx_modTile _ _ _ (fun t => Tile.mark_ctxs t x), State.ctx_readFinds]
  · rfl

/-- The results of a context that commit now (R126, R127), and what they leave. -/
def Ctx.dueNow (c : Ctx) : List Commit := c.queue.takeWhile fun q => decide (q.due < c.pos) && q.produced
def Ctx.notYet (c : Ctx) : List Commit := c.queue.dropWhile fun q => decide (q.due < c.pos) && q.produced
def Ctx.applyAll (c : Ctx) (l : List Commit) : Ctx := l.foldl (fun c q => c.apply q.eff) c
def Ctx.committed (c : Ctx) : Ctx := { c.applyAll c.dueNow with queue := c.notYet }

theorem Ctx.apply_queue (c : Ctx) (e : Effect) (q : List Commit) : ({ c with queue := q } : Ctx).apply e = { c.apply e with queue := q } := by
  cases e <;> simp only [Ctx.apply] <;> (try split) <;> rfl

theorem Ctx.apply_pos (c : Ctx) (e : Effect) : (c.apply e).pos = c.pos := by
  cases e <;> simp only [Ctx.apply] <;> (try split) <;> rfl

theorem Ctx.apply_keeps_queue (c : Ctx) (e : Effect) : (c.apply e).queue = c.queue := by
  cases e <;> simp only [Ctx.apply] <;> (try split) <;> rfl

theorem Ctx.applyAll_queue (l : List Commit) (c : Ctx) (q : List Commit) :
    ({ c with queue := q } : Ctx).applyAll l = { c.applyAll l with queue := q } := by
  induction l generalizing c with
  | nil => rfl
  | cons a r ih => simp only [Ctx.applyAll, List.foldl_cons, Ctx.apply_queue]; exact ih _

theorem State.ctx_applyEffect (s : State) (p n : Nat) (e : Effect) : (s.applyEffect p n e).ctx p n = (s.ctx p n).apply e := by
  unfold State.applyEffect
  rw [State.ctx_applyStore, State.ctx_modCtx, State.ctx_modTile _ _ _ (by intro t; rfl)]

theorem State.ctx_applyEffect_other (s : State) (p n : Nat) (e : Effect) {a b : Nat} (h : a ≠ p ∨ b ≠ n) :
    (s.applyEffect p n e).ctx a b = s.ctx a b := by
  unfold State.applyEffect
  rw [State.ctx_applyStore, State.ctx_modCtx_else _ _ _ _ h, State.ctx_modTile _ _ _ (by intro t; rfl)]

/-- The first due result applied, the rest follow. -/
theorem Ctx.committed_cons (c : Ctx) (q : Commit) (r : List Commit) (h : c.queue = q :: r)
    (hq : (decide (q.due < c.pos) && q.produced) = true) : (({ c with queue := r } : Ctx).apply q.eff).committed = c.committed := by
  rw [Ctx.apply_queue]
  unfold Ctx.committed Ctx.dueNow Ctx.notYet
  rw [h, List.takeWhile_cons_of_pos (p := fun q : Commit => decide (q.due < c.pos) && q.produced) hq,
    List.dropWhile_cons_of_pos (p := fun q : Commit => decide (q.due < c.pos) && q.produced) hq]
  show ({ (({ c.apply q.eff with queue := r } : Ctx).applyAll (r.takeWhile fun x => decide (x.due < (c.apply q.eff).pos) && x.produced)) with
    queue := r.dropWhile fun x => decide (x.due < (c.apply q.eff).pos) && x.produced } : Ctx) = _
  rw [Ctx.apply_pos, Ctx.applyAll_queue]
  rfl

/-- A context after its due results have committed. -/
theorem State.ctx_commitDue (f : Nat) (s : State) (p n : Nat) (hf : (s.ctx p n).queue.length < f) :
    (State.commitDue f s p n).ctx p n = (s.ctx p n).committed := by
  induction f generalizing s with
  | zero => simp at hf
  | succ f ih =>
    unfold State.commitDue
    simp only
    split
    · rename_i h
      simp [Ctx.committed, Ctx.dueNow, Ctx.notYet, Ctx.applyAll, h]
      rw [← h]
    · rename_i q r h
      split
      · rename_i hq
        rw [ih, State.ctx_applyEffect, State.ctx_modCtx]
        · exact Ctx.committed_cons _ q r h (by simpa using hq)
        · rw [State.ctx_applyEffect, State.ctx_modCtx, Ctx.apply_keeps_queue]
          simp [h] at hf ⊢; omega
      · rename_i hq
        have hq' : ¬ ((decide (q.due < (s.ctx p n).pos) && q.produced) = true) := by simpa using hq
        unfold Ctx.committed Ctx.dueNow Ctx.notYet Ctx.applyAll
        rw [h, List.takeWhile_cons_of_neg (p := fun q : Commit => decide (q.due < (s.ctx p n).pos) && q.produced) hq',
          List.dropWhile_cons_of_neg (p := fun q : Commit => decide (q.due < (s.ctx p n).pos) && q.produced) hq', List.foldl_nil, ← h]

theorem State.ctx_commitDue_other (f : Nat) (s : State) (p n : Nat) {a b : Nat} (h : a ≠ p ∨ b ≠ n) :
    (State.commitDue f s p n).ctx a b = s.ctx a b := by
  induction f generalizing s with
  | zero => rfl
  | succ f ih =>
    unfold State.commitDue
    simp only
    split
    · rfl
    · split
      · rw [ih, State.ctx_applyEffect_other _ _ _ _ h, State.ctx_modCtx_else _ _ _ _ h]
      · rfl

/-! ## What a context holds after a bundle -/

/-- The control of a bundle's scalar slot. -/
def ctlOf (outs : List SlotOut) : Ctl := (outs.map (·.ctl)).headD .none

/-- The engine that an ASTREAM joins streams for the context. -/
def Ctx.streamed (c : Ctx) (outs : List SlotOut) : Ctx :=
  match outs.findSome? (·.stream) with | some _ => { c with streaming := true } | none => c

/-- A grouped MMAC.A that used its combined anchor ends its exchange. -/
def Ctx.anchored (c old : Ctx) (b : Bundle) : Ctx :=
  match b.m with
  | .op o => if o.op == .mmacA && old.exch.combined.isSome then { c with exch := { number := (c.exch.number + 1) % 65536, up := c.exch.up, mods := c.exch.mods } } else c
  | _ => c

/-- A WAIT or STEP takes effect once the due results have committed. -/
def Ctx.held (c : Ctx) (ctl : Ctl) (pend : Nat → Bool) : Ctx :=
  match ctl with
  | .wait a => if pend a then { c with waiting := some a } else c
  | .step => { c with atStep := true }
  | _ => c

/-- A context after a bundle of its has issued, other than one of END or BRK; `pend` says whether the word a WAIT names reads PENDING. -/
def Ctx.ran (c : Ctx) (b : Bundle) (outs : List SlotOut) (pend : Nat → Bool) : Ctx :=
  (((((c.issued outs).next (ctlOf outs)).streamed outs).anchored c b).committed).held (ctlOf outs) pend

theorem State.ctx_startStream (s : State) (p n : Nat) (o : StreamOp) (a b : Nat) :
    (s.startStream p n o).ctx a b = if a = p ∧ b = n then { s.ctx p n with streaming := true } else s.ctx a b := by
  unfold State.startStream
  simp only
  rw [State.ctx_of_tiles (tiles_nameLedger ⟨fun _ => rfl, rfl⟩ _)]
  refine (State.ctx_modTile _ _ _ (by intro t; rfl) _ _).trans ?_
  split
  · rename_i h; obtain ⟨rfl, rfl⟩ := h; rw [State.ctx_modCtx]
  · rename_i h; rw [State.ctx_modCtx_else]; by_cases ha : a = p <;> simp_all

theorem State.ctx_downgrade (s : State) (j a b : Nat) : (s.downgrade j).ctx a b = s.ctx a b :=
  State.ctx_of_tiles (tiles_downgrade ⟨fun _ => rfl, rfl⟩ _) a b

theorem State.ctx_send (s : State) (p : Nat) (ps : List Packet) (a b : Nat) : (s.send p ps).ctx a b = s.ctx a b :=
  State.ctx_of_tiles (tiles_send ⟨fun _ => rfl, rfl⟩ _ _) a b

theorem State.ctx_bundleFinds (s : State) (p n : Nat) (e : Env) (c : Ctx) (a b : Nat) : (s.bundleFinds p n e c).ctx a b = s.ctx a b :=
  State.ctx_of_tiles (tiles_bundleFinds ⟨fun _ => rfl, rfl⟩ _ _ _ _) a b

theorem State.ctx_issueRun (s : State) (p n : Nat) (b : Bundle) (outs : List SlotOut) (hf : ctlOf outs ≠ .finish) (hb : ctlOf outs ≠ .brk) :
    (s.issueRun p n b outs).ctx p n = (s.ctx p n).ran b outs (fun a => ((s.tile p).word a).tag == .pending) := by
  unfold State.issueRun
  extract_lets old ctl word s1 s2 s3 s4 s5 s6
  have hctl : ctl = ctlOf outs := rfl
  have h1 : s1.ctx p n = (old.issued outs).next ctl := State.ctx_modCtx ..
  have h2 : s2.ctx p n = s1.ctx p n := State.ctx_modTile _ _ _ (by intro t; rfl) _ _
  have h3 : s3.ctx p n = s2.ctx p n := State.ctx_send ..
  have h4 : s4.ctx p n = (s3.ctx p n).streamed outs := by
    dsimp only [s4, Ctx.streamed]; split <;> simp [State.ctx_startStream, *]
  have h5 : s5.ctx p n = s4.ctx p n := by
    dsimp only [s5]; split
    · exact State.ctx_downgrade ..
    · rfl
  have h6 : s6.ctx p n = (s5.ctx p n).anchored old b := by
    dsimp only [s6, Ctx.anchored]
    rcases hm : b.m with _ | _ | o <;> simp only
    split
    · rw [State.ctx_modCtx]
    · rfl
  have h7 := State.ctx_commitDue ((s6.ctx p n).queue.length + 1) s6 p n (by omega)
  have e4 : s6.ctx p n = (((old.issued outs).next ctl).streamed outs).anchored old b := by rw [h6, h5, h4, h3, h2, h1]
  have e5 : (s.ctx p n).ran b outs (fun a => ((s.tile p).word a).tag == .pending)
      = (((s6.ctx p n).committed).held ctl fun a => ((s.tile p).word a).tag == .pending) := by
    rw [e4]; rfl
  rw [e5]
  simp only [← hctl] at hf hb
  clear e5 e4 h6
  clear_value ctl s6
  cases ctl <;> simp only [Ctx.held, word, beq_iff_eq] at hf hb ⊢ <;> try exact h7
  · rw [State.ctx_modCtx, h7]
  · exact absurd rfl hf
  · exact absurd rfl hb
  · split
    · rw [State.ctx_modCtx, h7]
    · exact h7

/-- The other contexts are as they were. -/
theorem State.ctx_issueRun_else (s : State) (p n : Nat) (b : Bundle) (outs : List SlotOut) (hf : ctlOf outs ≠ .finish) (hb : ctlOf outs ≠ .brk)
    {u v : Nat} (h : u ≠ p ∨ v ≠ n) : (s.issueRun p n b outs).ctx u v = s.ctx u v := by
  unfold State.issueRun
  extract_lets old ctl word s1 s2 s3 s4 s5 s6
  have hctl : ctl = ctlOf outs := rfl
  have h1 : s1.ctx u v = s.ctx u v := State.ctx_modCtx_else _ _ _ _ h
  have h2 : s2.ctx u v = s1.ctx u v := State.ctx_modTile _ _ _ (by intro t; rfl) _ _
  have h3 : s3.ctx u v = s2.ctx u v := State.ctx_send ..
  have h4 : s4.ctx u v = s3.ctx u v := by
    have : ¬ (u = p ∧ v = n) := by omega
    dsimp only [s4]; split <;> simp [State.ctx_startStream, this]
  have h5 : s5.ctx u v = s4.ctx u v := by
    dsimp only [s5]; split
    · exact State.ctx_downgrade ..
    · rfl
  have h6 : s6.ctx u v = s5.ctx u v := by
    dsimp only [s6]
    rcases hm : b.m with _ | _ | o <;> simp only
    split
    · exact State.ctx_modCtx_else _ _ _ _ h
    · rfl
  have h7 := State.ctx_commitDue_other ((s6.ctx p n).queue.length + 1) s6 p n h
  have e4 : s6.ctx u v = s.ctx u v := by rw [h6, h5, h4, h3, h2, h1]
  rw [e4] at h7
  simp only [← hctl] at hf hb
  clear e4 h6
  clear_value ctl s6
  cases ctl <;> simp only at hf hb ⊢ <;> try exact h7
  · exact (State.ctx_modCtx_else _ _ _ _ h).trans h7
  · exact absurd rfl hf
  · exact absurd rfl hb
  · split
    · exact (State.ctx_modCtx_else _ _ _ _ h).trans h7
    · exact h7

/-! ## Words -/

/-- What an effect does to the word k of the store: the bytes that a store covers are replaced and the word takes its tag (R178); a mark
makes it PENDING. -/
def Effect.onWord (k : Nat) (old : TWord) : Effect → TWord
  | .store ws => ws.foldl (fun old w =>
      if (wordsIn w.addr w.bytes.length).contains (8 * k) then { tag := w.tag, data := mergeWord old.data (8 * k) w } else old) old
  | .mark a => if a / 8 = k then { old with tag := .pending } else old
  | .pend a => if a / 8 = k then { old with tag := .pending } else old
  | _ => old

theorem Tile.word_key (t : Tile) (a : Nat) : t.word a = t.word (8 * (a / 8)) := by
  simp [Tile.word]

theorem Tile.word_putWord (t : Tile) (a b : Nat) (w : TWord) : (t.putWord a w).word b = if b / 8 = a / 8 then w else t.word b := by
  unfold Tile.putWord Tile.word
  simp only
  split
  · rename_i h; rw [h]; simp
  · rename_i h; rw [fgetD_fset_other _ _ _ h]

theorem wordsIn_nodup (a n : Nat) : (wordsIn a n).Nodup := by
  unfold wordsIn
  split
  · exact List.nodup_nil
  · refine List.Nodup.map ?_ List.nodup_range
    intro x y h
    simp only at h
    omega

theorem wordsIn_aligned (a n : Nat) : ∀ x ∈ wordsIn a n, x % 8 = 0 := by
  unfold wordsIn
  split
  · simp
  · intro x hx
    simp only [List.mem_map] at hx
    obtain ⟨k, _, rfl⟩ := hx
    omega

theorem Tile.word_putList (w : StoreWrite) (l : List Nat) (hn : l.Nodup) (ha : ∀ x ∈ l, x % 8 = 0) (t : Tile) (b : Nat) :
    (l.foldl (fun t a => t.putWord a { tag := w.tag, data := mergeWord (t.word a).data a w }) t).word b
      = if l.contains (8 * (b / 8)) then { tag := w.tag, data := mergeWord (t.word b).data (8 * (b / 8)) w } else t.word b := by
  induction l generalizing t with
  | nil => rfl
  | cons a r ih =>
    rw [List.foldl_cons, ih (List.nodup_cons.mp hn).2 (fun x hx => ha x (List.mem_cons_of_mem _ hx))]
    have h8 := ha a (by simp)
    have hnr := (List.nodup_cons.mp hn).1
    rw [Tile.word_putWord]
    by_cases h : b / 8 = a / 8
    · have e : 8 * (b / 8) = a := by omega
      have : r.contains a = false := by simpa using hnr
      have hw : t.word b = t.word a := by rw [Tile.word_key t b, e]
      rw [e, this]
      simp [h, hw]
    · have e : 8 * (b / 8) ≠ a := by omega
      simp [h, e]

@[simp] theorem Tile.word_cover (t : Tile) (a n b : Nat) : (t.cover a n).word b = t.word b := rfl

theorem Tile.word_storeBytes (t : Tile) (w : StoreWrite) (b : Nat) :
    (t.storeBytes w).word b = if (wordsIn w.addr w.bytes.length).contains (8 * (b / 8)) then
      { tag := w.tag, data := mergeWord (t.word b).data (8 * (b / 8)) w } else t.word b := by
  unfold Tile.storeBytes
  rw [Tile.word_cover]
  exact Tile.word_putList w _ (wordsIn_nodup _ _) (wordsIn_aligned _ _) t b

theorem State.word_modTile_other (s : State) {p u : Nat} (f : Tile → Tile) (h : u ≠ p) (b : Nat) :
    ((s.modTile p f).tile u).word b = (s.tile u).word b := by
  rw [State.tile_modTile_other _ _ _ _ h]

theorem State.word_modTile (s : State) (p u : Nat) (f : Tile → Tile) (hf : ∀ t, (f t).words = t.words) (b : Nat) :
    ((s.modTile p f).tile u).word b = (s.tile u).word b := by
  by_cases h : u = p
  · subst h; simp [Tile.word, hf]
  · exact State.word_modTile_other s f h b

theorem State.word_modCtx (s : State) (p n u : Nat) (f : Ctx → Ctx) (b : Nat) :
    ((s.modCtx p n f).tile u).word b = (s.tile u).word b := State.word_modTile _ _ _ _ (by intro t; rfl) _

/-- What the reads of words find leaves the words. -/
theorem State.word_readFinds (s : State) (p : Nat) (l : List Nat) (u b : Nat) : ((s.readFinds p l).tile u).word b = (s.tile u).word b :=
  State.word_of_tiles (tiles_readFinds ⟨fun _ => rfl, rfl⟩ p l) u b

theorem State.word_watchFires (s : State) (p x u b : Nat) : ((s.watchFires p x).tile u).word b = (s.tile u).word b :=
  State.word_of_tiles (tiles_watchFires ⟨fun _ => rfl, rfl⟩ p x) u b

theorem State.word_drawRequest (s : State) (p x u b : Nat) : ((s.drawRequest p x).tile u).word b = (s.tile u).word b :=
  State.word_of_tiles (tiles_drawRequest ⟨fun _ => rfl, rfl⟩ p x) u b

/-- A mark makes its word PENDING, with its data, and leaves the others. -/
theorem Tile.word_mark (t : Tile) (a b : Nat) : (t.mark a).word b = if a / 8 = b / 8 then { t.word b with tag := .pending } else t.word b := by
  unfold Tile.mark
  rw [Tile.word_putWord]
  by_cases h : a / 8 = b / 8
  · have e : t.word a = t.word b := by rw [Tile.word_key t a, Tile.word_key t b, h]
    have : b / 8 = 8 * (a / 8) / 8 := by omega
    rw [if_pos this, if_pos h, e]
  · have : ¬ b / 8 = 8 * (a / 8) / 8 := by omega
    rw [if_neg this, if_neg h]

theorem State.word_applyStore (s : State) (p : Nat) (e : Effect) (u b : Nat) :
    ((s.applyStore p e).tile u).word b = if u = p then e.onWord (b / 8) ((s.tile u).word b) else (s.tile u).word b := by
  unfold State.applyStore Effect.onWord
  split
  · rename_i ws
    induction ws generalizing s with
    | nil => split <;> rfl
    | cons w r ih =>
      simp only [List.foldl_cons]
      rw [ih]
      have h1 : ∀ (l : List Nat) (s : State), ((l.foldl (fun s a => s.watchFires p a) s).tile u).word b = (s.tile u).word b := fun l s =>
        State.word_of_tiles (tiles_foldl ⟨fun _ => rfl, rfl⟩ fun _ _ h => tiles_watchFires h _ _) u b
      rw [h1]
      have h2 : ∀ l, ((s.readFinds p l).tile u).word b = (s.tile u).word b := fun l =>
        State.word_of_tiles (tiles_readFinds ⟨fun _ => rfl, rfl⟩ _ _) u b
      by_cases hu : u = p
      · subst hu
        simp only [if_true]
        rw [State.tile_modTile, Tile.word_storeBytes, h2]
      · simp only [hu, if_false]
        rw [State.word_modTile_other _ _ hu, h2]
  · rename_i x
    rw [State.word_watchFires, State.word_drawRequest]
    by_cases hu : u = p
    · subst hu
      rw [State.tile_modTile, if_pos rfl, Tile.word_mark, State.word_readFinds]
    · rw [State.word_modTile_other _ _ hu, if_neg hu, State.word_readFinds]
  · rename_i x
    by_cases hu : u = p
    · subst hu
      rw [State.tile_modTile, if_pos rfl, Tile.word_mark, State.word_readFinds]
    · rw [State.word_modTile_other _ _ hu, if_neg hu, State.word_readFinds]
  · rename_i h1 h2 h3
    cases e with
    | store w => exact (h1 w rfl).elim
    | mark a => exact (h2 a rfl).elim
    | pend a => exact (h3 a rfl).elim
    | _ => split <;> rfl

theorem Ctx.dueNow_cons (c : Ctx) (q : Commit) (r : List Commit) (h : c.queue = q :: r)
    (hq : (decide (q.due < c.pos) && q.produced) = true) : c.dueNow = q :: (({ c with queue := r } : Ctx).apply q.eff).dueNow := by
  rw [Ctx.apply_queue]
  unfold Ctx.dueNow
  rw [h, List.takeWhile_cons_of_pos (p := fun q : Commit => decide (q.due < c.pos) && q.produced) hq]
  show _ = q :: (r.takeWhile fun x => decide (x.due < (c.apply q.eff).pos) && x.produced)
  rw [Ctx.apply_pos]

/-- The words of the tiles after the due results of a context have committed. -/
theorem State.word_commitDue (f : Nat) (s : State) (p n : Nat) (hf : (s.ctx p n).queue.length < f) (u b : Nat) :
    ((State.commitDue f s p n).tile u).word b
      = if u = p then (s.ctx p n).dueNow.foldl (fun w q => q.eff.onWord (b / 8) w) ((s.tile u).word b) else (s.tile u).word b := by
  induction f generalizing s with
  | zero => simp at hf
  | succ f ih =>
    unfold State.commitDue
    simp only
    split
    · rename_i h
      simp [Ctx.dueNow, h]
    · rename_i q r h
      split
      · rename_i hq
        rw [ih]
        · rw [State.ctx_applyEffect, State.ctx_modCtx, Ctx.dueNow_cons _ q r h (by simpa using hq)]
          unfold State.applyEffect
          rw [State.word_applyStore, State.word_modCtx, State.word_modTile _ _ _ _ (by intro t; rfl), State.word_modCtx]
          split <;> simp
        · rw [State.ctx_applyEffect, State.ctx_modCtx, Ctx.apply_keeps_queue]
          simp [h] at hf ⊢; omega
      · rename_i hq
        have hq' : ¬ ((decide (q.due < (s.ctx p n).pos) && q.produced) = true) := by simpa using hq
        unfold Ctx.dueNow
        rw [h, List.takeWhile_cons_of_neg (p := fun q : Commit => decide (q.due < (s.ctx p n).pos) && q.produced) hq']
        simp

theorem State.outer_readFinds (s : State) (p : Nat) (l : List Nat) : (s.readFinds p l).outer = s.outer :=
  (tiles_readFinds (v := ctxView) (q := (fun p => (s.tile p).ctxs, s)) ⟨fun _ => rfl, rfl⟩ p l).2

theorem State.outer_watchFires (s : State) (p x : Nat) : (s.watchFires p x).outer = s.outer :=
  (tiles_watchFires (v := ctxView) (q := (fun p => (s.tile p).ctxs, s)) ⟨fun _ => rfl, rfl⟩ p x).2

theorem State.outer_drawRequest (s : State) (p x : Nat) : (s.drawRequest p x).outer = s.outer :=
  (tiles_drawRequest (v := ctxView) (q := (fun p => (s.tile p).ctxs, s)) ⟨fun _ => rfl, rfl⟩ p x).2

theorem State.outer_applyStore (s : State) (p : Nat) (e : Effect) : (s.applyStore p e).outer = s.outer := by
  unfold State.applyStore
  split
  · rename_i ws
    induction ws generalizing s with
    | nil => rfl
    | cons w r ih =>
      simp only [List.foldl_cons]
      refine (ih _).trans ?_
      have h1 : ∀ (l : List Nat) (s : State), (l.foldl (fun s a => s.watchFires p a) s).outer = s.outer := fun l s =>
        (tiles_foldl (v := ctxView) (q := (fun p => (s.tile p).ctxs, s)) ⟨fun _ => rfl, rfl⟩ fun _ _ h => tiles_watchFires h _ _).2
      refine (h1 _ _).trans ?_
      exact (tiles_readFinds (v := ctxView) (q := (fun p => (s.tile p).ctxs, s)) ⟨fun _ => rfl, rfl⟩ _ _).2
  · rename_i x
    rw [State.outer_watchFires, State.outer_drawRequest]
    exact State.outer_readFinds s p [x]
  · rename_i x
    exact State.outer_readFinds s p [x]
  · rfl

theorem State.outer_commitDue (f : Nat) (s : State) (p n : Nat) : (State.commitDue f s p n).outer = s.outer := by
  induction f generalizing s with
  | zero => rfl
  | succ f ih =>
    unfold State.commitDue
    simp only
    split
    · rfl
    · split
      · rw [ih]; exact State.outer_applyStore ..
      · rfl

theorem State.outer_startStream (s : State) (p n : Nat) (o : StreamOp) : (s.startStream p n o).outer = s.outer := by
  unfold State.startStream
  extract_lets s1 s2
  exact (tiles_nameLedger (v := ctxView) (q := (fun u => (s2.tile u).ctxs, s)) ⟨fun _ => rfl, rfl⟩ _).2

theorem State.word_startStream (s : State) (p n : Nat) (o : StreamOp) (u b : Nat) :
    ((s.startStream p n o).tile u).word b = (s.tile u).word b := by
  unfold State.startStream
  extract_lets s1 s2
  have h2 : (s2.tile u).word b = (s1.tile u).word b := State.word_modTile _ _ _ _ (by intro t; rfl) _
  refine (State.word_of_tiles (tiles_nameLedger ⟨fun _ => rfl, rfl⟩ _) u b).trans (h2.trans (State.word_modCtx ..))

/-- The units outside a bundle's tile (END and BRK apart, which may end a job). -/
theorem State.outer_issueRun (s : State) (p n : Nat) (b : Bundle) (outs : List SlotOut) (hf : ctlOf outs ≠ .finish) (hb : ctlOf outs ≠ .brk) :
    (s.issueRun p n b outs).outer = s.outer := by
  unfold State.issueRun
  extract_lets old ctl word s1 s2 s3 s4 s5 s6
  have hctl : ctl = ctlOf outs := rfl
  have h3 : s3.outer = s.outer := rfl
  have h4 : s4.outer = s3.outer := by
    dsimp only [s4]; split
    · exact State.outer_startStream ..
    · rfl
  have h5 : s5.outer = s4.outer := by
    dsimp only [s5]; split
    · exact (tiles_downgrade (v := ctxView) (q := (fun u => (s4.tile u).ctxs, s4)) ⟨fun _ => rfl, rfl⟩ _).2
    · rfl
  have h6 : s6.outer = s5.outer := by
    dsimp only [s6]
    rcases hm : b.m with _ | _ | o <;> simp only
    split <;> rfl
  have h7 := State.outer_commitDue ((s6.ctx p n).queue.length + 1) s6 p n
  have e4 : s6.outer = s.outer := by rw [h6, h5, h4, h3]
  rw [e4] at h7
  simp only [← hctl] at hf hb
  clear e4 h6
  clear_value ctl s6
  cases ctl <;> simp only at hf hb ⊢ <;> try exact h7
  · exact absurd rfl hf
  · exact absurd rfl hb
  · split <;> exact h7

theorem Ctx.next_queue (c : Ctx) (ctl : Ctl) : (c.next ctl).queue = c.queue ∧ (c.next ctl).pos = c.pos := by
  unfold Ctx.next
  extract_lets seq c1
  have h : c1.queue = c.queue ∧ c1.pos = c.pos := by
    dsimp only [c1]
    split
    · split <;> exact ⟨rfl, rfl⟩
    · split <;> exact ⟨rfl, rfl⟩
  clear_value c1
  split <;> exact h

/-- The results of a bundle and of those before it that commit as it issues. -/
def Ctx.commits (c : Ctx) (outs : List SlotOut) : List Commit := (c.issued outs).dueNow

theorem Ctx.ran_dueNow (c : Ctx) (b : Bundle) (outs : List SlotOut) :
    ((((c.issued outs).next (ctlOf outs)).streamed outs).anchored c b).dueNow = c.commits outs := by
  have h1 := Ctx.next_queue (c.issued outs) (ctlOf outs)
  have h2 : ∀ x : Ctx, (x.streamed outs).queue = x.queue ∧ (x.streamed outs).pos = x.pos := by
    intro x; unfold Ctx.streamed; split <;> exact ⟨rfl, rfl⟩
  have h3 : ∀ x : Ctx, (x.anchored c b).queue = x.queue ∧ (x.anchored c b).pos = x.pos := by
    intro x; unfold Ctx.anchored; split
    · split <;> exact ⟨rfl, rfl⟩
    · exact ⟨rfl, rfl⟩
  unfold Ctx.commits Ctx.dueNow
  rw [(h3 _).1, (h3 _).2, (h2 _).1, (h2 _).2, h1.1, h1.2]

/-- The words of the tiles after a bundle: the stores and marks that commit. -/
theorem State.word_issueRun (s : State) (p n : Nat) (b : Bundle) (outs : List SlotOut) (hf : ctlOf outs ≠ .finish) (hb : ctlOf outs ≠ .brk)
    (u a : Nat) : ((s.issueRun p n b outs).tile u).word a
      = if u = p then ((s.ctx p n).commits outs).foldl (fun w q => q.eff.onWord (a / 8) w) ((s.tile u).word a)
        else (s.tile u).word a := by
  unfold State.issueRun
  extract_lets old ctl word s1 s2 s3 s4 s5 s6
  have hctl : ctl = ctlOf outs := rfl
  have h1 : (s1.tile u).word a = (s.tile u).word a := State.word_modCtx ..
  have h2 : (s2.tile u).word a = (s1.tile u).word a := State.word_modTile _ _ _ _ (by intro t; rfl) _
  have h3 : (s3.tile u).word a = (s2.tile u).word a := State.word_of_tiles (tiles_send ⟨fun _ => rfl, rfl⟩ _ _) u a
  have h4 : (s4.tile u).word a = (s3.tile u).word a := by
    dsimp only [s4]; split
    · exact State.word_startStream ..
    · rfl
  have h5 : (s5.tile u).word a = (s4.tile u).word a := by
    dsimp only [s5]; split
    · exact State.word_of_tiles (tiles_downgrade ⟨fun _ => rfl, rfl⟩ _) u a
    · rfl
  have h6 : (s6.tile u).word a = (s5.tile u).word a := by
    dsimp only [s6]
    rcases hm : b.m with _ | _ | o <;> simp only
    split
    · exact State.word_modCtx ..
    · rfl
  have c1 : s1.ctx p n = (old.issued outs).next ctl := State.ctx_modCtx ..
  have c2 : s2.ctx p n = s1.ctx p n := State.ctx_modTile _ _ _ (by intro t; rfl) _ _
  have c3 : s3.ctx p n = s2.ctx p n := State.ctx_send ..
  have c4 : s4.ctx p n = (s3.ctx p n).streamed outs := by
    dsimp only [s4, Ctx.streamed]; split <;> simp [State.ctx_startStream, *]
  have c5 : s5.ctx p n = s4.ctx p n := by
    dsimp only [s5]; split
    · exact State.ctx_downgrade ..
    · rfl
  have c6 : s6.ctx p n = (s5.ctx p n).anchored old b := by
    dsimp only [s6, Ctx.anchored]
    rcases hm : b.m with _ | _ | o <;> simp only
    split
    · rw [State.ctx_modCtx]
    · rfl
  have cd : (s6.ctx p n).dueNow = (s.ctx p n).commits outs := by
    rw [c6, c5, c4, c3, c2, c1]; exact Ctx.ran_dueNow _ _ _
  have h7 := State.word_commitDue ((s6.ctx p n).queue.length + 1) s6 p n (by omega) u a
  rw [cd, h6, h5, h4, h3, h2, h1] at h7
  rw [← h7]
  simp only [← hctl] at hf hb
  clear h7 cd c6 h6
  clear_value ctl s6
  cases ctl <;> simp only at hf hb ⊢ <;> try rfl
  · exact State.word_modCtx ..
  · exact absurd rfl hf
  · exact absurd rfl hb
  · split
    · exact State.word_modCtx ..
    · rfl

/-! ## The command -/

/-- The bundle that a tile's context is about to issue: it does not trap, and nothing holds it. -/
def Issuing (s : State) (x y n : Nat) (cmd : SlotCmd) (b : Bundle) (outs : List SlotOut) : Prop :=
  s.chosen (s.phys x y) = some n ∧ s.mesh.serves (s.phys x y) = some (x, y)
    ∧ evalBundle (s.env (s.phys x y) n) (s.ctx (s.phys x y) n) = .run b outs ∧ b.holds cmd = true
    ∧ s.needsExchange (s.phys x y) n b = none ∧ (s.tile (s.phys x y)).freezes n b outs = false

theorem evalBundle_run_fetch {e : Env} {c : Ctx} {b : Bundle} {outs : List SlotOut} (h : evalBundle e c = .run b outs) :
    b = e.fetch ∧ outs = evalSlots e c b := by
  unfold evalBundle at h
  split at h
  · cases h
  · dsimp only at h
    split at h
    · cases h
    · split at h
      · cases h
      · cases h; exact ⟨rfl, rfl⟩

/-- The command issues its bundle. -/
theorem tileCommand_issues {s : State} {x y n : Nat} {cmd : SlotCmd} {b : Bundle} {outs : List SlotOut} (h : Issuing s x y n cmd b outs) :
    tileCommand x y n cmd s = ((s.bundleFinds (s.phys x y) n (s.env (s.phys x y) n) (s.ctx (s.phys x y) n)).modTile (s.phys x y)
      fun t => { t with last := n }).issueRun (s.phys x y) n b outs := by
  obtain ⟨h1, h2, h3, h4, h5, h6⟩ := h
  unfold tileCommand
  simp only [h1, h2, and_self, if_true]
  rw [if_pos]
  · unfold State.issueNext
    simp [h3, h5, h6]
  · rw [← (evalBundle_run_fetch h3).1, h4]; simp

/-- What the command leaves: the context that issued, every other context, the words of every tile, and the units outside. -/
theorem tileCommand_leaves {s : State} {x y n : Nat} {cmd : SlotCmd} {b : Bundle} {outs : List SlotOut} (h : Issuing s x y n cmd b outs)
    (hf : ctlOf outs ≠ .finish) (hb : ctlOf outs ≠ .brk) :
    ((tileCommand x y n cmd s).ctx (s.phys x y) n = (s.ctx (s.phys x y) n).ran b outs fun a => ((s.tile (s.phys x y)).word a).tag == .pending)
      ∧ (∀ u v, u ≠ s.phys x y ∨ v ≠ n → (tileCommand x y n cmd s).ctx u v = s.ctx u v)
      ∧ (∀ u a, ((tileCommand x y n cmd s).tile u).word a
          = if u = s.phys x y then ((s.ctx (s.phys x y) n).commits outs).foldl (fun w q => q.eff.onWord (a / 8) w) ((s.tile u).word a)
            else (s.tile u).word a)
      ∧ (tileCommand x y n cmd s).outer = s.outer := by
  rw [tileCommand_issues h]
  generalize hs' : (s.bundleFinds (s.phys x y) n (s.env (s.phys x y) n) (s.ctx (s.phys x y) n)).modTile (s.phys x y)
      (fun t => { t with last := n }) = s'
  have hc : ∀ u v, s'.ctx u v = s.ctx u v := fun u v => by
    rw [← hs']
    exact (State.ctx_modTile _ _ _ (by intro t; rfl) _ _).trans (State.ctx_bundleFinds ..)
  have hw : ∀ u a, (s'.tile u).word a = (s.tile u).word a := fun u a => by
    rw [← hs']
    exact (State.word_modTile _ _ _ _ (by intro t; rfl) _).trans (State.word_of_tiles (tiles_bundleFinds ⟨fun _ => rfl, rfl⟩ _ _ _ _) u a)
  have ho : s'.outer = s.outer := by
    rw [← hs']
    exact (tiles_bundleFinds (v := ctxView) (q := (fun u => (s.tile u).ctxs, s)) ⟨fun _ => rfl, rfl⟩ _ _ _ _).2
  refine ⟨?_, ?_, ?_, ?_⟩
  · rw [State.ctx_issueRun _ _ _ _ _ hf hb, hc]
    simp only [hw]
  · intro u v huv
    rw [State.ctx_issueRun_else _ _ _ _ _ hf hb huv, hc]
  · intro u a
    rw [State.word_issueRun _ _ _ _ _ hf hb, hc, hw]
  · rw [State.outer_issueRun _ _ _ _ _ hf hb, ho]

/-! ## Results -/

theorem mem_insertCommit (q : List Commit) (c x : Commit) : x ∈ insertCommit q c ↔ x = c ∨ x ∈ q := by
  have h := List.takeWhile_append_dropWhile (p := c.ahead) (l := q)
  unfold insertCommit
  rw [List.mem_append, List.mem_cons]
  constructor
  · rintro (h1 | h1 | h1)
    · exact Or.inr (List.IsPrefix.mem h1 (List.takeWhile_prefix _))
    · exact Or.inl h1
    · exact Or.inr (List.IsSuffix.mem h1 (List.dropWhile_suffix _))
  · rintro (h1 | h1)
    · exact Or.inr (Or.inl h1)
    · rw [← h, List.mem_append] at h1
      rcases h1 with h1 | h1
      · exact Or.inl h1
      · exact Or.inr (Or.inr h1)

/-- A bundle's results as they join the queue at a position. -/
def resultAt (pos : Nat) (r : Nat × Bool × Effect) : Commit := { due := pos + r.1, issued := pos, produced := r.2.1, eff := r.2.2 }

theorem Ctx.issued_queue (c : Ctx) (outs : List SlotOut) :
    (c.issued outs).queue = (atIssue outs ++ outs.flatMap (·.results)).foldl (fun q r => insertCommit q (resultAt c.pos r)) c.queue := rfl

/-- What a bundle does at issue has been produced. -/
theorem atIssue_produced (outs : List SlotOut) : ∀ r ∈ atIssue outs, r.2.1 = true := by
  intro r hr
  simp only [atIssue, List.mem_append, List.mem_flatMap, List.mem_map] at hr
  rcases hr with ⟨_, _, _, _, rfl⟩ | ⟨_, _, _, _, rfl⟩ <;> rfl

theorem mem_foldl_insert (l : List (Nat × Bool × Effect)) (pos : Nat) (q : List Commit) (x : Commit) :
    x ∈ l.foldl (fun q r => insertCommit q (resultAt pos r)) q ↔ x ∈ q ∨ ∃ r ∈ l, x = resultAt pos r := by
  induction l generalizing q with
  | nil => simp
  | cons a r ih =>
    rw [List.foldl_cons, ih, mem_insertCommit]
    simp only [List.mem_cons, exists_eq_or_imp]
    tauto

theorem mem_dropWhile_of_not {α : Type} (p : α → Bool) (l : List α) (x : α) (h : x ∈ l) (hx : p x = false) : x ∈ l.dropWhile p := by
  induction l with
  | nil => cases h
  | cons a r ih =>
    rw [List.dropWhile_cons]
    split
    · rename_i ha
      rcases List.mem_cons.mp h with h | h
      · subst h; rw [hx] at ha; cases ha
      · exact ih h
    · exact h

theorem Ctx.ran_queue (c : Ctx) (b : Bundle) (outs : List SlotOut) (pend : Nat → Bool) :
    (c.ran b outs pend).queue = (c.issued outs).notYet := by
  have hh : ∀ (x : Ctx) (ctl : Ctl), (x.held ctl pend).queue = x.queue := by
    intro x ctl; unfold Ctx.held; split
    · split <;> rfl
    · rfl
    · rfl
  unfold Ctx.ran
  rw [hh]
  have h1 := Ctx.next_queue (c.issued outs) (ctlOf outs)
  have h2 : ∀ x : Ctx, (x.streamed outs).queue = x.queue ∧ (x.streamed outs).pos = x.pos := by
    intro x; unfold Ctx.streamed; split <;> exact ⟨rfl, rfl⟩
  have h3 : ∀ x : Ctx, (x.anchored c b).queue = x.queue ∧ (x.anchored c b).pos = x.pos := by
    intro x; unfold Ctx.anchored; split
    · split <;> exact ⟨rfl, rfl⟩
    · exact ⟨rfl, rfl⟩
  show Ctx.notYet _ = _
  unfold Ctx.notYet
  rw [(h3 _).1, (h3 _).2, (h2 _).1, (h2 _).2, h1.1, h1.2]

/-- A result of distance 1 or more waits in the queue when its bundle has issued (R126). -/
theorem Ctx.ran_waits (c : Ctx) (b : Bundle) (outs : List SlotOut) (pend : Nat → Bool) (r : Nat × Bool × Effect)
    (hr : r ∈ outs.flatMap (·.results)) (hd : 1 ≤ r.1) : resultAt c.pos r ∈ (c.ran b outs pend).queue := by
  rw [Ctx.ran_queue]
  unfold Ctx.notYet
  apply mem_dropWhile_of_not
  · rw [Ctx.issued_queue, mem_foldl_insert]
    exact Or.inr ⟨r, List.mem_append_right _ hr, rfl⟩
  · have : ¬ (resultAt c.pos r).due < (c.issued outs).pos := by
      show ¬ (c.pos + r.1 < c.pos + 1); omega
    simp [this]

/-- The shape of the queue once a result of distance 0 has joined it: it stands behind everything due, and in front of the rest. -/
def Shape (pos : Nat) (r : Commit) (q : List Commit) : Prop :=
  ∃ a b, q = a ++ r :: b ∧ (∀ x ∈ a, x.due ≤ pos) ∧ (∀ x ∈ b.head?, pos < x.due)

theorem takeWhile_all_append {α : Type} (p : α → Bool) (a b : List α) (h : ∀ x ∈ a, p x = true) : (a ++ b).takeWhile p = a ++ b.takeWhile p := by
  induction a with
  | nil => rfl
  | cons x r ih =>
    rw [List.cons_append, List.takeWhile_cons_of_pos (h x (by simp)), ih (fun y hy => h y (by simp [hy]))]; rfl

theorem dropWhile_all_append {α : Type} (p : α → Bool) (a b : List α) (h : ∀ x ∈ a, p x = true) : (a ++ b).dropWhile p = b.dropWhile p := by
  induction a with
  | nil => rfl
  | cons x r ih =>
    rw [List.cons_append, List.dropWhile_cons_of_pos (h x (by simp)), ih (fun y hy => h y (by simp [hy]))]

theorem shape_insert0 (pos : Nat) (r : Commit) (q : List Commit) (hr : r.due = pos) (hq : ∀ x ∈ q, x.due ≤ pos → x.produced = true) :
    Shape pos r (insertCommit q r) := by
  refine ⟨q.takeWhile r.ahead, q.dropWhile r.ahead, rfl, ?_, ?_⟩
  · intro x hx
    have := List.mem_takeWhile_imp hx
    simp only [Commit.ahead, Bool.or_eq_true, decide_eq_true_eq, Bool.and_eq_true, beq_iff_eq] at this
    omega
  · intro x hx
    have hn := List.head?_dropWhile_not r.ahead q
    have hm : x ∈ q := List.IsSuffix.mem (List.mem_of_head? hx) (List.dropWhile_suffix _)
    rw [Option.mem_def] at hx
    rw [hx] at hn
    by_contra hc
    have hp := hq x hm (by omega)
    simp only [Commit.ahead, hp, Bool.true_or, Bool.and_true, Bool.or_eq_false_iff, decide_eq_false_iff_not, beq_eq_false_iff_ne] at hn
    omega

theorem shape_insert (pos : Nat) (r : Commit) (q : List Commit) (c : Commit) (hc : pos < c.due) (hr : r.due = pos) (h : Shape pos r q) :
    Shape pos r (insertCommit q c) := by
  obtain ⟨a, b, rfl, ha, hb⟩ := h
  have hp : ∀ x ∈ a ++ [r], c.ahead x = true := by
    intro x hx
    have : x.due < c.due := by
      simp only [List.mem_append, List.mem_singleton] at hx
      rcases hx with hx | rfl
      · have := ha x hx; omega
      · omega
    simp [Commit.ahead, this]
  have e : a ++ r :: b = (a ++ [r]) ++ b := by simp
  unfold insertCommit
  rw [e, takeWhile_all_append _ _ _ hp, dropWhile_all_append _ _ _ hp]
  refine ⟨a, b.takeWhile c.ahead ++ c :: b.dropWhile c.ahead, by simp, ha, ?_⟩
  intro x hx
  cases b with
  | nil => simp at hx; subst hx; exact hc
  | cons y t =>
    rw [List.takeWhile_cons] at hx
    split at hx
    · simp at hx; subst hx; exact hb y (by simp)
    · simp at hx; subst hx; exact hc

theorem shape_foldl (pos : Nat) (r : Commit) (l : List (Nat × Bool × Effect)) (hl : ∀ x ∈ l, 1 ≤ x.1) (hr : r.due = pos) (q : List Commit)
    (h : Shape pos r q) : Shape pos r (l.foldl (fun q r => insertCommit q (resultAt pos r)) q) := by
  induction l generalizing q with
  | nil => exact h
  | cons a t ih =>
    rw [List.foldl_cons]
    refine ih (fun x hx => hl x (by simp [hx])) _ (shape_insert pos r q _ ?_ hr h)
    have := hl a (by simp)
    show pos < pos + a.1; omega

/-- A result of distance 0 is the last to commit as its bundle issues, if everything due has been produced. -/
theorem Ctx.ran_commits (c : Ctx) (outs : List SlotOut) (e : Effect) (l : List (Nat × Bool × Effect))
    (ho : outs.flatMap (·.results) = (0, true, e) :: l) (hl : ∀ x ∈ l, 1 ≤ x.1)
    (hp : ∀ q ∈ c.queue, q.due ≤ c.pos → q.produced = true) : ∃ a, c.commits outs = a ++ [resultAt c.pos (0, true, e)] := by
  have hs : Shape c.pos (resultAt c.pos (0, true, e)) (c.issued outs).queue := by
    rw [Ctx.issued_queue, ho, List.foldl_append, List.foldl_cons]
    refine shape_foldl c.pos (resultAt c.pos (0, true, e)) l hl rfl _ (shape_insert0 c.pos _ _ rfl fun x hx hd => ?_)
    rcases (mem_foldl_insert _ _ _ _).mp hx with h1 | ⟨r, hr, rfl⟩
    · exact hp x h1 hd
    · exact atIssue_produced outs r hr
  obtain ⟨a, b, hq, ha, hb⟩ := hs
  refine ⟨a, ?_⟩
  unfold Ctx.commits Ctx.dueNow
  rw [hq]
  have hmem : ∀ x ∈ a, x.produced = true := by
    intro x hx
    have : x ∈ (c.issued outs).queue := by rw [hq]; simp [hx]
    rw [Ctx.issued_queue, mem_foldl_insert, ho] at this
    rcases this with h1 | ⟨r, hr, rfl⟩
    · exact hp x h1 (ha x hx)
    · rcases List.mem_append.mp hr with hr | hr
      · exact atIssue_produced outs r hr
      rcases List.mem_cons.mp hr with rfl | hr
      · rfl
      · have h1 := ha _ hx; have h2 := hl r hr
        have : c.pos + r.1 ≤ c.pos := h1
        omega
  have hall : ∀ x ∈ a ++ [resultAt c.pos (0, true, e)], (decide (x.due < (c.issued outs).pos) && x.produced) = true := by
    intro x hx
    have hpos : (c.issued outs).pos = c.pos + 1 := rfl
    simp only [List.mem_append, List.mem_singleton] at hx
    rcases hx with hx | rfl
    · have := ha x hx; rw [hpos, hmem x hx]; simp; omega
    · rw [hpos]; simp [resultAt]
  have e1 : a ++ resultAt c.pos (0, true, e) :: b = (a ++ [resultAt c.pos (0, true, e)]) ++ b := by simp
  rw [e1, takeWhile_all_append _ _ _ hall]
  have : b.takeWhile (fun q => decide (q.due < (c.issued outs).pos) && q.produced) = [] := by
    cases b with
    | nil => rfl
    | cons y t =>
      have hy := hb y (by simp)
      have hpos : (c.issued outs).pos = c.pos + 1 := rfl
      rw [List.takeWhile_cons_of_neg]
      rw [hpos]; simp; intro; omega
  rw [this]; simp

/-- What a context holds is what stood before the commits, with the due results applied. -/
theorem Ctx.ran_apply (c : Ctx) (b : Bundle) (outs : List SlotOut) (pend : Nat → Bool) :
    ∃ q w h, c.ran b outs pend
      = { ((((c.issued outs).next (ctlOf outs)).streamed outs).anchored c b).applyAll (c.commits outs) with queue := q, waiting := w, atStep := h } := by
  unfold Ctx.ran Ctx.committed
  rw [Ctx.ran_dueNow]
  unfold Ctx.held
  split
  · split <;> exact ⟨_, _, _, rfl⟩
  · exact ⟨_, _, _, rfl⟩
  · exact ⟨_, _, _, rfl⟩

theorem Ctx.applyAll_append (c : Ctx) (l m : List Commit) : c.applyAll (l ++ m) = (c.applyAll l).applyAll m := by
  simp [Ctx.applyAll]

/-- A register that the last result to commit writes. -/
theorem Ctx.ran_sr (c : Ctx) (b : Bundle) (outs : List SlotOut) (pend : Nat → Bool) (rd : Nat) (w : TWord) (l : List (Nat × Bool × Effect))
    (ho : outs.flatMap (·.results) = (0, true, .sreg rd w) :: l) (hl : ∀ x ∈ l, 1 ≤ x.1)
    (hp : ∀ q ∈ c.queue, q.due ≤ c.pos → q.produced = true) : (c.ran b outs pend).sr rd = w := by
  obtain ⟨q, x, h, e⟩ := Ctx.ran_apply c b outs pend
  obtain ⟨a, ha⟩ := Ctx.ran_commits c outs _ l ho hl hp
  rw [e, ha, Ctx.applyAll_append]
  simp [Ctx.sr, Ctx.applyAll, resultAt, Ctx.apply]

/-! ## Slots of a bundle that issues -/

theorem lowestTrap_foldl_some (l : List TrapCond) (a : TrapCond) :
    (l.foldl (fun acc t => match acc with | none => some t | some a => if t.num < a.num then some t else some a) (some a)) ≠ none := by
  induction l generalizing a with
  | nil => simp
  | cons t r ih =>
    rw [List.foldl_cons]
    simp only
    split <;> exact ih _

theorem lowestTrap_none {l : List TrapCond} (h : lowestTrap l = none) : l = [] := by
  cases l with
  | nil => rfl
  | cons t r => exact absurd h (lowestTrap_foldl_some r t)

theorem chooseTrap_none {pc : Nat} {l before : List SlotOut} {k : Nat} (h : chooseTrap pc before l k = none) : ∀ o ∈ l, o.traps = [] := by
  induction l generalizing before k with
  | nil => simp
  | cons o r ih =>
    unfold chooseTrap at h
    split at h
    · cases h
    · rename_i hn
      have := lowestTrap_none hn
      simp only [List.append_eq_nil_iff] at this
      intro x hx
      rcases List.mem_cons.mp hx with rfl | hx
      · exact this.1.1
      · exact ih h x hx

/-- The slots of a bundle that issues, none of which traps. -/
theorem evalBundle_slots {e : Env} {c : Ctx} {b : Bundle} {outs : List SlotOut} (h : evalBundle e c = .run b outs) :
    e.fetchTraps = [] ∧ e.malformed b = false ∧ b = e.fetch ∧ outs = evalSlots e c b ∧ ∀ o ∈ outs, o.traps = [] := by
  unfold evalBundle at h
  split at h
  · cases h
  · rename_i h0
    dsimp only at h
    split at h
    · cases h
    · rename_i h1
      split at h
      · cases h
      · rename_i h2
        cases h
        exact ⟨lowestTrap_none h0, by simpa using h1, rfl, rfl, chooseTrap_none h2⟩

theorem evalVector_results (c : Ctx) (o : VSlot) : ∀ r ∈ (evalVector c o).results, 1 ≤ r.1 := by
  unfold evalVector
  extract_lets
  cases o.op <;> simp [vecResult, cmpResult, SlotOut.addTraps] <;> split <;> omega

theorem evalStep_results (e : Env) (c : Ctx) (o : MSlot) (a : Bool) (cl : Option Int) : (evalStep e c o a cl).results = [] := by
  unfold evalStep
  extract_lets
  split
  · split <;> rfl
  · rfl

theorem evalMatrix_results (e : Env) (c : Ctx) (o : MSlot) : (evalMatrix e c o).results = [] := by
  unfold evalMatrix
  cases o.op <;> simp only
  · exact evalStep_results ..
  · exact evalStep_results ..
  · exact evalStep_results ..
  · exact evalStep_results ..
  · unfold evalTget
    extract_lets
    split <;> rfl

theorem evalMove_results (e : Env) (c : Ctx) (o : XSlot) : ∀ r ∈ (evalMove e c o).results, 1 ≤ r.1 := by
  unfold evalMove
  cases o.op <;> simp only
  · simp [evalVld]
  · simp [evalVst]
  · unfold evalVstmx
    extract_lets
    split
    · split
      · simp
      · simp [trapOut]
    · simp [trapOut]
  · simp [evalTrd]
  · simp [evalTput]
  · unfold evalTxmx
    extract_lets
    split
    · split <;> simp
    · simp
  · unfold evalPut
    extract_lets
    split <;> simp
  · unfold evalGet
    extract_lets
    split <;> simp
  · unfold evalAstream
    extract_lets
    split <;> simp [trapOut]

/-- The scalar slot of a bundle that issues: its results come first, and the other slots' have a distance. -/
theorem evalBundle_scalar {e : Env} {c : Ctx} {b : Bundle} {outs : List SlotOut} {o : SSlot} (h : evalBundle e c = .run b outs)
    (ho : b.s = .op o) : (evalScalar e c b o).traps = [] ∧ ctlOf outs = (evalScalar e c b o).ctl
      ∧ (c.shadow.isSome && o.op.noShadow) = false
      ∧ ∃ l, outs.flatMap (·.results) = (evalScalar e c b o).results ++ l ∧ ∀ x ∈ l, 1 ≤ x.1 := by
  obtain ⟨_, _, _, rfl, ht⟩ := evalBundle_slots h
  unfold evalSlots at ht ⊢
  extract_lets sl v m x at ht ⊢
  have hs : sl = (evalScalar e c b o).addTraps (if c.shadow.isSome && o.op.noShadow then [{ num := 0 }] else []) := by
    dsimp only [sl]; rw [ho]
  have h1 := ht sl (by simp)
  rw [hs] at h1
  simp only [SlotOut.addTraps, List.append_eq_nil_iff] at h1
  refine ⟨h1.2, ?_, ?_, ?_⟩
  · show sl.ctl = _
    rw [hs]; rfl
  · by_contra hc
    have hc' : (c.shadow.isSome && o.op.noShadow) = true := by simpa using hc
    rw [hc'] at h1
    simp at h1
  · refine ⟨v.results ++ (m.results ++ x.results), ?_, ?_⟩
    · have : sl.results = (evalScalar e c b o).results := by rw [hs]; rfl
      simp [← this]
    · intro r hr
      simp only [List.mem_append] at hr
      rcases hr with hr | hr | hr
      · dsimp only [v] at hr
        split at hr
        · cases hr
        · cases hr
        · exact evalVector_results _ _ r hr
      · dsimp only [m] at hr
        split at hr
        · cases hr
        · cases hr
        · rw [evalMatrix_results] at hr; cases hr
      · dsimp only [x] at hr
        split at hr
        · cases hr
        · cases hr
        · exact evalMove_results _ _ _ r hr

theorem Ctx.applyAll_pos (c : Ctx) (l : List Commit) : (c.applyAll l).pos = c.pos := by
  unfold Ctx.applyAll
  induction l generalizing c with
  | nil => rfl
  | cons a r ih => rw [List.foldl_cons, ih, Ctx.apply_pos]

theorem Ctx.ran_pos (c : Ctx) (b : Bundle) (outs : List SlotOut) (pend : Nat → Bool) : (c.ran b outs pend).pos = c.pos + 1 := by
  obtain ⟨q, w, h, e⟩ := Ctx.ran_apply c b outs pend
  rw [e]
  show (Ctx.applyAll _ _).pos = _
  rw [Ctx.applyAll_pos]
  have h2 : ∀ x : Ctx, (x.streamed outs).pos = x.pos := by
    intro x; unfold Ctx.streamed; split <;> rfl
  have h3 : ∀ x : Ctx, (x.anchored c b).pos = x.pos := by
    intro x; unfold Ctx.anchored; split
    · split <;> rfl
    · rfl
  rw [h3, h2, (Ctx.next_queue _ _).2]
  rfl

/-- A check that finds nothing leaves a word of an accepted tag. -/
theorem tagCheck_nil {w : TWord} {ok : Tag → Bool} {i v : Nat} (h : tagCheck w ok i v = []) :
    w.tag ≠ .empty ∧ w.tag ≠ .pending ∧ ok w.tag = true := by
  unfold tagCheck at h
  split at h
  · cases h
  · cases h
  · rename_i h1 h2
    split at h
    · rename_i h3; exact ⟨h1, h2, h3⟩
    · cases h

theorem need_nil {c : Ctx} {r : Nat} {ok : Tag → Bool} (h : need c r ok = []) : (c.sr r).tag ≠ .empty ∧ (c.sr r).tag ≠ .pending ∧ ok (c.sr r).tag = true :=
  tagCheck_nil h

end Sys2Proof.Machine
end

