-- ==== Sys2Proof/Laws/Keeping.lean ====
section
/-! SUPPORT. What every operation keeps of a state, its queue and the canonical form of its memory: the predicate, and what it says of the
results that carry a state. -/

namespace Sys2Proof.Machine

/-- What every command keeps: the queue as it was handed to it, and the memory in its canonical form. -/
def Keeps (q : List Instr) (s : State) : Prop := s.pending = q ∧ cellsWf s.mem.cells = true

/-- The same of the state an outcome, a response, a block's run or an operation's result carries. -/
def KeepsOut (q : List Instr) (o : Out) : Prop := ∃ t, o = .next t ∧ Keeps q t
def KeepsReply (q : List Instr) (r : Reply) : Prop := Keeps q r.state
def KeepsBlock (q : List Instr) (b : ReqBlock) : Prop := ∀ r s, Keeps q s → KeepsReply q (b.run r s)
def KeepsFst {α : Type} (q : List Instr) (p : State × α) : Prop := Keeps q p.1
def KeepsSnd {α : Type} (q : List Instr) (p : α × State) : Prop := Keeps q p.2
def KeepsThird {α β : Type} (q : List Instr) (p : α × β × State) : Prop := Keeps q p.2.2
def KeepsOpt (q : List Instr) (o : Option State) : Prop := ∀ t, o = some t → Keeps q t
def KeepsOptSnd {α : Type} (q : List Instr) (o : Option (α × State)) : Prop := ∀ a t, o = some (a, t) → Keeps q t

section keeping
variable {q : List Instr} {s t : State}

theorem Keeps.pending (h : Keeps q s) : s.pending = q := h.1
theorem Keeps.cells (h : Keeps q s) : cellsWf s.mem.cells = true := h.2
theorem keepsOut_done (h : Keeps q s) : KeepsOut q (done s) := ⟨s, rfl, h⟩
theorem keepsReply_mk {a b c : _} (h : Keeps q s) : KeepsReply q (Reply.mk s a b c) := h
theorem keepsReply_state {r : Reply} (h : KeepsReply q r) : Keeps q r.state := h
theorem keepsBlock_run {b : ReqBlock} {r : Req} (hb : KeepsBlock q b) (h : Keeps q s) : KeepsReply q (b.run r s) := hb r s h
theorem keepsBlock_mk {a b c d e f g : _} {k : Req → State → Reply} (h : ∀ r s, Keeps q s → KeepsReply q (k r s)) :
    KeepsBlock q (ReqBlock.mk a b c d e f g k) := h
theorem keepsFst_mk {α : Type} {a : α} (h : Keeps q s) : KeepsFst q (s, a) := h
theorem keepsSnd_mk {α : Type} {a : α} (h : Keeps q s) : KeepsSnd q (a, s) := h
theorem keepsThird_mk {α β : Type} {a : α} {b : β} (h : Keeps q s) : KeepsThird q (a, b, s) := h
theorem keepsFst_of {α : Type} {p : State × α} {a : α} (e : p = (t, a)) (h : KeepsFst q p) : Keeps q t := by subst e; exact h
theorem keepsSnd_of {α : Type} {p : α × State} {a : α} (e : p = (a, t)) (h : KeepsSnd q p) : Keeps q t := by subst e; exact h
theorem keepsThird_of {α β : Type} {p : α × β × State} {a : α} {b : β} (e : p = (a, b, t)) (h : KeepsThird q p) : Keeps q t := by
  subst e; exact h
theorem keepsSnd_snd {α : Type} {p : α × State} (h : KeepsSnd q p) : Keeps q p.2 := h
theorem keepsFst_fst {α : Type} {p : State × α} (h : KeepsFst q p) : Keeps q p.1 := h
theorem keepsThird_snd {α β : Type} {p : α × β × State} (h : KeepsThird q p) : Keeps q p.2.2 := h
theorem keepsOpt_none : KeepsOpt q none := fun _ e => by cases e
theorem keepsOpt_some (h : Keeps q s) : KeepsOpt q (some s) := fun _ e => by cases e; exact h
theorem keepsOpt_of {o : Option State} (e : o = some t) (h : KeepsOpt q o) : Keeps q t := h t e
theorem keepsOptSnd_none {α : Type} : KeepsOptSnd (α := α) q none := fun _ _ e => by cases e
theorem keepsOptSnd_some {α : Type} {a : α} (h : Keeps q s) : KeepsOptSnd q (some (a, s)) := fun _ _ e => by cases e; exact h
theorem keepsOptSnd_of {α : Type} {a : α} {o : Option (α × State)} (e : o = some (a, t)) (h : KeepsOptSnd q o) : Keeps q t := h a t e

/-- A state written out keeps what its queue and its memory keep. -/
theorem keeps_mk {f : Firm} {m : Mesh} {ti : FMap Tile} {ro : FMap Router} {le : FMap LinkErr} {cl : FMap Cluster} {jo : FMap Job}
    {ld : Ledgers} {me : Mem} {ho : Hosts} {gu : FMap Guest} {st : Storage} {ne : Net} {tr : FMap Egress} {ci : Cipher} {po : Porter}
    {pw : Power} {ir : Irq} {se : Service} {fr : Nat} {pe : List Instr} (hp : pe = q) (hm : cellsWf me.cells = true) :
    Keeps q (State.mk f m ti ro le cl jo ld me ho gu st ne tr ci po pw ir se fr pe) := ⟨hp, hm⟩

theorem keeps_foldl {α : Type} {f : State → α → State} {l : List α} (h : Keeps q s) (hf : ∀ s a, Keeps q s → Keeps q (f s a)) :
    Keeps q (l.foldl f s) := by
  induction l generalizing s with
  | nil => exact h
  | cons a r ih => exact ih (hf s a h)

theorem keepsFst_foldl {α β : Type} {f : State × β → α → State × β} {l : List α} {p : State × β} (h : KeepsFst q p)
    (hf : ∀ p a, KeepsFst q p → KeepsFst q (f p a)) : KeepsFst q (l.foldl f p) := by
  induction l generalizing p with
  | nil => exact h
  | cons a r ih => exact ih (hf p a h)

theorem cells_foldl {α : Type} {g : List Host.Cell → α → List Host.Cell} {l : List α} {m : List Host.Cell}
    (h : cellsWf m = true) (hg : ∀ m a, cellsWf m = true → cellsWf (g m a) = true) : cellsWf (l.foldl g m) = true := by
  induction l generalizing m with
  | nil => exact h
  | cons a r ih => exact ih (hg m a h)

theorem keeps_modMem (h : Keeps q s) {f : Mem → Mem} (hf : ∀ m, cellsWf m.cells = true → cellsWf (f m).cells = true) :
    Keeps q (s.modMem f) := ⟨h.1, hf _ h.2⟩

/-- A wrong symbol leaves the memory in its form (R301). -/
theorem cellsWf_memUpset {m : Mem} {l i : Nat} {f : BitVec 16} (h : cellsWf m.cells = true) : cellsWf (m.upset l i f).cells = true := by
  unfold Mem.upset
  dsimp only
  split
  · exact h
  · exact cellsWf_cellsWrite h
theorem cellsWf_fresh {m : Mem} {w : Nat → Bool} (h : cellsWf m.cells = true) : cellsWf (m.fresh w).cells = true := h
@[simp] theorem cells_noteWritten (m : Mem) (a : Nat) : (m.noteWritten a).cells = m.cells := by
  unfold Mem.noteWritten
  split
  · split <;> rfl
  · rfl
@[simp] theorem cells_hold (m : Mem) (k a : Nat) (d : WriteData) : (m.hold k a d).cells = m.cells := by
  unfold Mem.hold
  split <;> rfl
@[simp] theorem cells_switchRegion (m : Mem) (k t : Nat) : (m.switchRegion k t).cells = m.cells := by
  unfold Mem.switchRegion
  split
  · rfl
  · split
    · split <;> rfl
    · rfl
@[simp] theorem cells_tableEntry (m : Mem) (k i v : Nat) : (m.tableEntry k i v).cells = m.cells := rfl
@[simp] theorem cells_fixedPut (m : Mem) (k i a : Nat) (w : BitVec 64) : (m.fixedPut k i a w).cells = m.cells := by
  unfold Mem.fixedPut
  split
  · rw [cells_tableEntry, cells_tableEntry]
  · rfl
@[simp] theorem cells_fixedWrite (m : Mem) (a : Nat) (w : BitVec 64) : (m.fixedWrite a w).cells = m.cells := cells_fixedPut m _ _ _ _
theorem cellsWf_noteWritten {m : Mem} {a : Nat} (h : cellsWf m.cells = true) : cellsWf (m.noteWritten a).cells = true := by simpa using h
theorem cellsWf_hold {m : Mem} {k a : Nat} {d : WriteData} (h : cellsWf m.cells = true) : cellsWf (m.hold k a d).cells = true := by simpa using h
theorem cellsWf_switchRegion {m : Mem} {k t : Nat} (h : cellsWf m.cells = true) : cellsWf (m.switchRegion k t).cells = true := by
  simpa using h
theorem cellsWf_fixedWrite {m : Mem} {a : Nat} {w : BitVec 64} (h : cellsWf m.cells = true) :
    cellsWf (m.fixedWrite a w).cells = true := by
  rw [cells_fixedWrite]
  exact h

end keeping

end Sys2Proof.Machine
end

