-- ==== Sys2Proof/Laws/KeepingTiles.lean ====
section
/-! SUPPORT. That the shared operations and the request blocks keep the queue and the memory's form, in the order they build on each other
(part 1 of 3). -/

namespace Sys2Proof.Machine

set_option linter.unusedTactic false
set_option linter.unreachableTactic false

section keeping
variable {q : List Instr} {s : State}

theorem keeps_modCipher (h : Keeps q s) (a1 : _) : Keeps q (State.modCipher s a1) := h

theorem keeps_modEngine (h : Keeps q s) (a1 a2 : _) : Keeps q (State.modEngine s a1 a2) := h

theorem keeps_setTile (h : Keeps q s) (a1 a2 : _) : Keeps q (State.setTile s a1 a2) := h

theorem keeps_modHosts (h : Keeps q s) (a1 : _) : Keeps q (State.modHosts s a1) := h

theorem keeps_modLink (h : Keeps q s) (a1 a2 : _) : Keeps q (State.modLink s a1 a2) := h

theorem keeps_modLedgers (h : Keeps q s) (a1 : _) : Keeps q (State.modLedgers s a1) := h

theorem keeps_modLedger (h : Keeps q s) (a1 a2 : _) : Keeps q (State.modLedger s a1 a2) := by
  unfold State.modLedger
  repeat' with_reducible first
    | assumption | apply keeps_modLedgers | intro _ | split

theorem keeps_modPower (h : Keeps q s) (a1 : _) : Keeps q (State.modPower s a1) := h

theorem keeps_modFirm (h : Keeps q s) (a1 : _) : Keeps q (State.modFirm s a1) := h

theorem keeps_raise (h : Keeps q s) (a1 a2 a3 a4 a5 : _) : Keeps q (State.raise s a1 a2 a3 a4 a5) := h

theorem keeps_modEgress (h : Keeps q s) (a1 a2 : _) : Keeps q (State.modEgress s a1 a2) := h

theorem keeps_modStorage (h : Keeps q s) (a1 : _) : Keeps q (State.modStorage s a1) := h

theorem keeps_modPair (h : Keeps q s) (a1 a2 : _) : Keeps q (State.modPair s a1 a2) := h

theorem keeps_modCluster (h : Keeps q s) (a1 a2 : _) : Keeps q (State.modCluster s a1 a2) := h

theorem keeps_modNet (h : Keeps q s) (a1 : _) : Keeps q (State.modNet s a1) := h

theorem keeps_modConn (h : Keeps q s) (a1 a2 : _) : Keeps q (State.modConn s a1 a2) := h

theorem keeps_stateEvent (h : Keeps q s) (a1 a2 a3 : _) : Keeps q (State.stateEvent s a1 a2 a3) := h

theorem keeps_settle (h : Keeps q s) : Keeps q (State.settle s) := by
  unfold State.settle
  repeat' with_reducible first
    | assumption | apply keeps_stateEvent | apply keeps_modFirm | intro _ | split

theorem keeps_portBack (h : Keeps q s) (a1 : _) : Keeps q (State.portBack s a1) := by
  unfold State.portBack
  repeat' with_reducible first
    | assumption | apply keeps_settle | apply keeps_modFirm | intro _ | split

theorem keeps_modTile (h : Keeps q s) (a1 a2 : _) : Keeps q (State.modTile s a1 a2) := h

theorem keeps_modPort (h : Keeps q s) (a1 a2 : _) : Keeps q (State.modPort s a1 a2) := h

theorem keeps_modRouter (h : Keeps q s) (a1 a2 : _) : Keeps q (State.modRouter s a1 a2) := h

theorem keeps_modCore (h : Keeps q s) (a1 a2 : _) : Keeps q (State.modCore s a1 a2) := h

theorem keeps_fire (h : Keeps q s) (a1 a2 : _) : Keeps q (State.fire s a1 a2) := h

theorem keeps_degrade (h : Keeps q s) (a1 : _) : Keeps q (State.degrade s a1) := by
  unfold State.degrade
  repeat' with_reducible first
    | assumption | apply keeps_stateEvent | apply keeps_modFirm | intro _ | split

theorem keeps_modHole (h : Keeps q s) (a1 a2 : _) : Keeps q (State.modHole s a1 a2) := h

theorem keeps_writeRecord (h : Keeps q s) (a1 : _) : Keeps q (State.writeRecord s a1) := h

theorem keeps_freeBytes (h : Keeps q s) (a1 : _) : KeepsSnd q (State.freeBytes s a1) := by
  unfold State.freeBytes
  repeat' with_reducible first
    | assumption | intro _ | apply keepsFst_mk | apply keepsSnd_mk | apply keepsThird_mk | apply keeps_mk | apply Keeps.pending
    | apply Keeps.cells

theorem keeps_modCtx (h : Keeps q s) (a1 a2 a3 : _) : Keeps q (State.modCtx s a1 a2 a3) := h

theorem keeps_modJob (h : Keeps q s) (a1 a2 : _) : Keeps q (State.modJob s a1 a2) := by
  unfold State.modJob
  repeat' with_reducible first
    | assumption | intro _ | split | apply keeps_mk | apply Keeps.pending | apply Keeps.cells

theorem keeps_modGuest (h : Keeps q s) (a1 a2 : _) : Keeps q (State.modGuest s a1 a2) := by
  unfold State.modGuest
  repeat' with_reducible first
    | assumption | intro _ | split | apply keeps_mk | apply Keeps.pending | apply Keeps.cells

theorem keeps_fireAll (h : Keeps q s) (a1 : _) : Keeps q (State.fireAll s a1) := by
  unfold State.fireAll
  repeat' with_reducible first
    | assumption | apply keeps_fire | refine keeps_foldl ?_ (fun _ _ _ => ?_) | intro _ | split

theorem keeps_modNetPort (h : Keeps q s) (a1 a2 : _) : Keeps q (State.modNetPort s a1 a2) := h

theorem keeps_modService (h : Keeps q s) (a1 : _) : Keeps q (State.modService s a1) := h

theorem keeps_aonCycle (h : Keeps q s) : Keeps q (State.aonCycle s) := by
  unfold State.aonCycle
  repeat' with_reducible first
    | assumption | (extract_lets +onlyGivenNames x; refine (fun (hx : Keeps q x) => ?_) ?_; clear_value x; rotate_left; subst x)
    | apply keeps_modFirm | apply keeps_modNet

theorem keeps_modStack (h : Keeps q s) (a1 a2 : _) : Keeps q (State.modStack s a1 a2) := by
  unfold State.modStack
  repeat' with_reducible first
    | assumption | apply keeps_modMem | apply Keeps.cells | intro _

theorem keeps_modIrq (h : Keeps q s) (a1 : _) : Keeps q (State.modIrq s a1) := h

theorem keeps_modMesh (h : Keeps q s) (a1 : _) : Keeps q (State.modMesh s a1) := h

theorem keeps_portLost (h : Keeps q s) (a1 : _) : Keeps q (State.portLost s a1) := by
  unfold State.portLost
  repeat' with_reducible first
    | assumption | apply keeps_degrade | apply keeps_modFirm

theorem keeps_breakJob (h : Keeps q s) (a1 : _) : Keeps q (State.breakJob s a1) := by
  unfold State.breakJob
  repeat' with_reducible first
    | assumption | apply keeps_modLedgers | apply keeps_modJob | intro _ | split

theorem keeps_breakTile (h : Keeps q s) (a1 : _) : Keeps q (State.breakTile s a1) := by
  unfold State.breakTile
  repeat' with_reducible first
    | assumption | apply keeps_breakJob | refine keeps_foldl ?_ (fun _ _ _ => ?_)

theorem keeps_halt (h : Keeps q s) (a1 a2 : _) : Keeps q (State.halt s a1 a2) := by
  unfold State.halt
  repeat' with_reducible first
    | assumption | (extract_lets +onlyGivenNames x; refine (fun (hx : Keeps q x) => ?_) ?_; clear_value x; rotate_left; subst x)
    | apply keeps_modTile | apply keeps_breakTile

theorem keeps_queueRetirement (h : Keeps q s) (a1 : _) : Keeps q (State.queueRetirement s a1) := by
  unfold State.queueRetirement
  repeat' with_reducible first
    | assumption | (extract_lets +onlyGivenNames x; refine (fun (hx : Keeps q x) => ?_) ?_; clear_value x; rotate_left; subst x)
    | (extract_lets +onlyGivenNames x; clear_value x) | apply keeps_modCluster | apply keeps_halt | intro _ | split

theorem keeps_findBad (h : Keeps q s) (a1 a2 : _) : Keeps q (State.findBad s a1 a2) := by
  unfold State.findBad
  repeat' with_reducible first
    | assumption | (extract_lets +onlyGivenNames x; refine (fun (hx : Keeps q x) => ?_) ?_; clear_value x; rotate_left; subst x)
    | apply keeps_modTile | apply keeps_modCluster | apply keeps_queueRetirement | intro _ | split

theorem keeps_correct (h : Keeps q s) (a1 a2 : _) : Keeps q (State.correct s a1 a2) := by
  unfold State.correct
  repeat' with_reducible first
    | assumption | (extract_lets +onlyGivenNames x; refine (fun (hx : Keeps q x) => ?_) ?_; clear_value x; rotate_left; subst x)
    | (extract_lets +onlyGivenNames x; clear_value x) | apply keeps_modTile | apply keeps_modCluster
    | apply keeps_queueRetirement | intro _ | split

theorem keeps_readFinds (h : Keeps q s) (a1 a2 : _) : Keeps q (State.readFinds s a1 a2) := by
  unfold State.readFinds
  repeat' with_reducible first
    | assumption | (extract_lets +onlyGivenNames x; refine (fun (hx : Keeps q x) => ?_) ?_; clear_value x; rotate_left; subst x)
    | (extract_lets +onlyGivenNames x; clear_value x) | apply keeps_findBad | apply keeps_correct
    | refine keeps_foldl ?_ (fun _ _ _ => ?_) | intro _ | split

theorem keeps_arriveBytes (h : Keeps q s) (a1 a2 a3 a4 : _) : Keeps q (State.arriveBytes s a1 a2 a3 a4) := by
  unfold State.arriveBytes
  repeat' with_reducible first
    | assumption | (extract_lets +onlyGivenNames x; refine (fun (hx : Keeps q x) => ?_) ?_; clear_value x; rotate_left; subst x)
    | (extract_lets +onlyGivenNames x; clear_value x) | apply keeps_readFinds | apply keeps_modTile

theorem keeps_drawRequest (h : Keeps q s) (a1 a2 : _) : Keeps q (State.drawRequest s a1 a2) := by
  unfold State.drawRequest
  repeat' with_reducible first
    | assumption | (extract_lets +onlyGivenNames x; refine (fun (hx : Keeps q x) => ?_) ?_; clear_value x; rotate_left; subst x)
    | (extract_lets +onlyGivenNames x; clear_value x) | apply keeps_modTile | apply keeps_modLedgers | intro _ | split

theorem keeps_unhalt (h : Keeps q s) (a1 a2 : _) : Keeps q (State.unhalt s a1 a2) := h

theorem keeps_breakAll (h : Keeps q s) : Keeps q (State.breakAll s) := by
  unfold State.breakAll
  repeat' with_reducible first
    | assumption | apply keeps_breakJob | refine keeps_foldl ?_ (fun _ _ _ => ?_)

theorem keeps_unhaltAll (h : Keeps q s) (a1 : _) : Keeps q (State.unhaltAll s a1) := by
  unfold State.unhaltAll
  repeat' with_reducible first
    | assumption | (extract_lets +onlyGivenNames x; refine (fun (hx : Keeps q x) => ?_) ?_; clear_value x; rotate_left; subst x)
    | (extract_lets +onlyGivenNames x; clear_value x) | apply keeps_modMesh | intro _ | apply keeps_mk | apply Keeps.pending
    | apply Keeps.cells

theorem keeps_watchFires (h : Keeps q s) (a1 a2 : _) : Keeps q (State.watchFires s a1 a2) := by
  unfold State.watchFires
  repeat' with_reducible first
    | assumption | apply keeps_modNet | intro _ | split

theorem keeps_applyStore (h : Keeps q s) (a1 a2 : _) : Keeps q (State.applyStore s a1 a2) := by
  unfold State.applyStore
  repeat' with_reducible first
    | assumption | (extract_lets +onlyGivenNames x; refine (fun (hx : Keeps q x) => ?_) ?_; clear_value x; rotate_left; subst x)
    | (extract_lets +onlyGivenNames x; clear_value x) | apply keeps_readFinds | apply keeps_modTile | apply keeps_watchFires
    | apply keeps_drawRequest | refine keeps_foldl ?_ (fun _ _ _ => ?_) | intro _ | split

theorem keeps_applyEffect (h : Keeps q s) (a1 a2 a3 : _) : Keeps q (State.applyEffect s a1 a2 a3) := by
  unfold State.applyEffect
  repeat' with_reducible first
    | assumption | apply keeps_applyStore | apply keeps_modCtx | apply keeps_modTile

theorem keeps_commitDue (h : Keeps q s) (a0 a2 a3 : _) : Keeps q (State.commitDue a0 s a2 a3) := by
  induction a0 generalizing s a2 a3 with
  | zero => exact h
  | succ f ih =>
    unfold State.commitDue
    repeat' with_reducible first
      | assumption | apply ih
      | (extract_lets +onlyGivenNames x; refine (fun (hx : Keeps q x) => ?_) ?_; clear_value x; rotate_left; subst x)
      | (extract_lets +onlyGivenNames x; clear_value x) | apply keeps_applyEffect | apply keeps_modCtx | intro _ | split

theorem keeps_breakGuest (h : Keeps q s) (a1 : _) : Keeps q (State.breakGuest s a1) := by
  unfold State.breakGuest
  repeat' with_reducible first
    | assumption | apply keeps_breakJob | refine keeps_foldl ?_ (fun _ _ _ => ?_) | intro _ | split

theorem keeps_haltAll (h : Keeps q s) (a1 : _) : Keeps q (State.haltAll s a1) := by
  unfold State.haltAll
  repeat' with_reducible first
    | assumption | apply keeps_breakAll | apply keeps_modMesh | intro _ | split

theorem keeps_commitAll (h : Keeps q s) (a1 a2 : _) : Keeps q (State.commitAll s a1 a2) := by
  unfold State.commitAll
  repeat' with_reducible first
    | assumption | (extract_lets +onlyGivenNames x; refine (fun (hx : Keeps q x) => ?_) ?_; clear_value x; rotate_left; subst x)
    | (extract_lets +onlyGivenNames x; clear_value x) | apply keeps_applyEffect | apply keeps_modCtx
    | refine keeps_foldl ?_ (fun _ _ _ => ?_)

theorem keeps_imageFinds (h : Keeps q s) (a1 : _) : Keeps q (State.imageFinds s a1) := by
  unfold State.imageFinds
  repeat' with_reducible first
    | assumption | (extract_lets +onlyGivenNames x; refine (fun (hx : Keeps q x) => ?_) ?_; clear_value x; rotate_left; subst x)
    | (extract_lets +onlyGivenNames x; clear_value x) | apply keeps_readFinds | apply keeps_queueRetirement
    | apply keeps_modTile | intro _ | split

theorem keeps_arrive (h : Keeps q s) (a1 a2 a3 : _) : Keeps q (State.arrive s a1 a2 a3) := h

theorem keeps_storeRange (h : Keeps q s) (a1 a2 a3 a4 a5 : _) : Keeps q (State.storeRange s a1 a2 a3 a4 a5) := by
  unfold State.storeRange
  repeat' with_reducible first
    | assumption | (extract_lets +onlyGivenNames x; refine (fun (hx : Keeps q x) => ?_) ?_; clear_value x; rotate_left; subst x)
    | (extract_lets +onlyGivenNames x; clear_value x) | apply keeps_modMem | apply keeps_modStack | apply Keeps.cells
    | refine keeps_foldl ?_ (fun _ _ _ => ?_) | refine cells_foldl ?_ (fun _ _ _ => ?_) | apply cellsWf_cellSet
    | apply cellsWf_cellsZero | intro _ | split

theorem keeps_copyPlace (h : Keeps q s) (a1 a2 a3 : _) : Keeps q (State.copyPlace s a1 a2 a3) := by
  unfold State.copyPlace
  repeat' with_reducible first
    | assumption | (extract_lets +onlyGivenNames x; refine (fun (hx : Keeps q x) => ?_) ?_; clear_value x; rotate_left; subst x)
    | (extract_lets +onlyGivenNames x; clear_value x) | apply keeps_storeRange

theorem keeps_memEvent (h : Keeps q s) (a1 a2 a3 a4 a5 : _) : Keeps q (State.memEvent s a1 a2 a3 a4 a5) := h

theorem keeps_markFailing (h : Keeps q s) (a1 : _) : Keeps q (State.markFailing s a1) := by
  unfold State.markFailing
  repeat' with_reducible first
    | assumption | apply keeps_memEvent | apply keeps_writeRecord | apply keeps_degrade | apply keeps_modMem | apply Keeps.cells
    | intro _ | split

theorem keeps_repairRow (h : Keeps q s) (a1 : _) : Keeps q (State.repairRow s a1) := by
  unfold State.repairRow
  repeat' with_reducible first
    | assumption | dsimp -zeta only
    | (extract_lets +onlyGivenNames x; refine (fun (hx : Keeps q x) => ?_) ?_; clear_value x; rotate_left; subst x)
    | (extract_lets +onlyGivenNames x; subst x) | apply keeps_markFailing | apply keeps_modMem | apply keeps_modStack
    | apply keeps_writeRecord | apply keeps_memEvent | apply Keeps.cells | refine keeps_foldl ?_ (fun _ _ _ => ?_)
    | refine cells_foldl ?_ (fun _ _ _ => ?_) | intro _ | split | apply keepsFst_mk | apply keepsSnd_mk | apply keepsThird_mk
    | apply cellsWf_fresh

theorem keeps_noteCorrected (h : Keeps q s) (a1 : _) : Keeps q (State.noteCorrected s a1) := by
  unfold State.noteCorrected
  repeat' with_reducible first
    | assumption | (extract_lets +onlyGivenNames x; refine (fun (hx : Keeps q x) => ?_) ?_; clear_value x; rotate_left; subst x)
    | (extract_lets +onlyGivenNames x; clear_value x) | apply keeps_modStack | apply keeps_markFailing | intro _ | split

theorem keeps_noteStack (h : Keeps q s) (a1 a2 : _) : Keeps q (State.noteStack s a1 a2) := by
  unfold State.noteStack
  repeat' with_reducible first
    | assumption | dsimp -zeta only
    | (extract_lets +onlyGivenNames x; refine (fun (hx : Keeps q x) => ?_) ?_; clear_value x; rotate_left; subst x)
    | (extract_lets +onlyGivenNames x; subst x) | apply keeps_modStack | apply keeps_repairRow | apply keeps_noteCorrected
    | intro _ | split

theorem keeps_cellarError (h : Keeps q s) (a1 : _) : Keeps q (State.cellarError s a1) := by
  unfold State.cellarError
  repeat' with_reducible first
    | assumption | apply keeps_modMem | apply Keeps.cells | intro _ | split

theorem keeps_noteLine (h : Keeps q s) (a1 a2 a3 : _) : Keeps q (State.noteLine s a1 a2 a3) := by
  unfold State.noteLine
  repeat' with_reducible first
    | assumption | apply keeps_noteStack | apply keeps_cellarError | intro _ | split

theorem keeps_memRead (h : Keeps q s) (a1 a2 : _) : KeepsThird q (State.memRead s a1 a2) := by
  unfold State.memRead
  repeat' with_reducible first
    | assumption | (extract_lets +onlyGivenNames x; refine (fun (hx : Keeps q x) => ?_) ?_; clear_value x; rotate_left; subst x)
    | (extract_lets +onlyGivenNames x; clear_value x) | apply keeps_noteLine | refine keeps_foldl ?_ (fun _ _ _ => ?_) | intro _
    | split | apply keepsFst_mk | apply keepsSnd_mk | apply keepsThird_mk

theorem keeps_bothPlaces (h : Keeps q s) (a1 a2 a3 : _) (h3 : ∀ c s, Keeps q s → Keeps q (a3 c s)) : Keeps q (State.bothPlaces s a1 a2 a3) := by
  unfold State.bothPlaces
  repeat' with_reducible first
    | assumption | (extract_lets +onlyGivenNames x; refine (fun (hx : Keeps q x) => ?_) ?_; clear_value x; rotate_left; subst x)
    | (extract_lets +onlyGivenNames x; clear_value x) | apply keeps_modMem | intro _ | split | apply h3
    | apply cellsWf_noteWritten

theorem keeps_zeroPiece (h : Keeps q s) (a1 a2 : _) : Keeps q (State.zeroPiece s a1 a2) := by
  unfold State.zeroPiece
  repeat' with_reducible first
    | assumption | apply keeps_bothPlaces | apply keeps_storeRange | apply keeps_modMem | intro _ | split | apply cellsWf_hold

theorem keeps_zeroRange (h : Keeps q s) (a1 a2 : _) : Keeps q (State.zeroRange s a1 a2) := by
  unfold State.zeroRange
  repeat' with_reducible first
    | assumption | apply keeps_zeroPiece | refine keeps_foldl ?_ (fun _ _ _ => ?_)

theorem keeps_askAheads (h : Keeps q s) (a1 : _) : Keeps q (State.askAheads s a1) := by
  unfold State.askAheads
  repeat' with_reducible first
    | assumption | (extract_lets +onlyGivenNames x; refine (fun (hx : Keeps q x) => ?_) ?_; clear_value x; rotate_left; subst x)
    | (extract_lets +onlyGivenNames x; clear_value x) | refine keeps_foldl ?_ (fun _ _ _ => ?_) | intro _ | split
    | apply keeps_mk | apply Keeps.pending | apply Keeps.cells

theorem keeps_storeLine (h : Keeps q s) (a1 a2 : _) : Keeps q (State.storeLine s a1 a2) := by
  unfold State.storeLine
  repeat' with_reducible first
    | assumption | (extract_lets +onlyGivenNames x; refine (fun (hx : Keeps q x) => ?_) ?_; clear_value x; rotate_left; subst x)
    | (extract_lets +onlyGivenNames x; clear_value x) | apply keeps_modMem | apply keeps_modStack | apply Keeps.cells
    | apply cellsWf_cellsWrite | intro _

theorem keeps_writeBack (h : Keeps q s) (a1 : _) : Keeps q (State.writeBack s a1) := by
  unfold State.writeBack
  repeat' with_reducible first
    | assumption | (extract_lets +onlyGivenNames x; refine (fun (hx : Keeps q x) => ?_) ?_; clear_value x; rotate_left; subst x)
    | (extract_lets +onlyGivenNames x; clear_value x) | apply keeps_modStack | apply keeps_repairRow | apply keeps_modMem
    | apply keeps_memEvent | apply keeps_noteCorrected | apply Keeps.cells | refine keeps_foldl ?_ (fun _ _ _ => ?_)
    | refine cells_foldl ?_ (fun _ _ _ => ?_) | apply cellsWf_cellSet | intro _ | split

theorem keeps_mergeWrite (h : Keeps q s) (a1 a2 a3 : _) : Keeps q (State.mergeWrite s a1 a2 a3) := by
  unfold State.mergeWrite
  repeat' with_reducible first
    | assumption | (extract_lets +onlyGivenNames x; refine (fun (hx : Keeps q x) => ?_) ?_; clear_value x; rotate_left; subst x)
    | (extract_lets +onlyGivenNames x; clear_value x) | apply keeps_storeLine | apply keeps_modStack | apply keeps_writeBack
    | intro _ | split

theorem keeps_storeAt (h : Keeps q s) (a1 a2 : _) : Keeps q (State.storeAt s a1 a2) := by
  unfold State.storeAt
  repeat' with_reducible first
    | assumption | apply keeps_storeLine | apply keeps_mergeWrite | apply keeps_modMem | apply Keeps.cells
    | apply cellsWf_cellsWrite | intro _ | split

theorem keeps_writePiece (h : Keeps q s) (a1 a2 : _) : Keeps q (State.writePiece s a1 a2) := by
  unfold State.writePiece
  repeat' with_reducible first
    | assumption | apply keeps_bothPlaces | apply keeps_storeAt | apply keeps_modMem | intro _ | split | apply cellsWf_hold

theorem keeps_writeFuel (h : Keeps q s) (a0 a2 a3 : _) : Keeps q (State.writeFuel a0 s a2 a3) := by
  induction a0 generalizing s a2 a3 with
  | zero => exact h
  | succ f ih =>
    unfold State.writeFuel
    repeat' with_reducible first
      | assumption | apply ih
      | (extract_lets +onlyGivenNames x; refine (fun (hx : Keeps q x) => ?_) ?_; clear_value x; rotate_left; subst x)
      | (extract_lets +onlyGivenNames x; clear_value x) | apply keeps_writePiece | intro _ | split

theorem keeps_rawWrite (h : Keeps q s) (a1 a2 : _) : Keeps q (State.rawWrite s a1 a2) := by
  unfold State.rawWrite
  repeat' with_reducible first
    | assumption | apply keeps_writeFuel

theorem keeps_writeNow (h : Keeps q s) (a1 a2 : _) : Keeps q (State.writeNow s a1 a2) := by
  unfold State.writeNow
  repeat' with_reducible first
    | assumption | apply keeps_rawWrite | apply keeps_zeroRange | intro _ | split

theorem keeps_askFill (h : Keeps q s) (a1 a2 : _) : Keeps q (State.askFill s a1 a2) := by
  unfold State.askFill
  repeat' with_reducible first
    | assumption | apply keeps_modMem | refine keeps_foldl ?_ (fun _ _ _ => ?_) | refine cells_foldl ?_ (fun _ _ _ => ?_)
    | intro _ | split | apply cellsWf_hold

theorem keeps_askRange (h : Keeps q s) (a1 a2 : _) : Keeps q (State.askRange s a1 a2) := by
  unfold State.askRange
  repeat' with_reducible first
    | assumption | apply keeps_askFill | apply keeps_askAheads

theorem keeps_flushMerges (h : Keeps q s) (a1 : _) : Keeps q (State.flushMerges s a1) := by
  unfold State.flushMerges
  repeat' with_reducible first
    | assumption | apply keeps_writeBack | refine keeps_foldl ?_ (fun _ _ _ => ?_)

theorem keeps_guestFault (h : Keeps q s) (a1 : _) : Keeps q (State.guestFault s a1) := h

theorem keeps_flushWaits (h : Keeps q s) : Keeps q (State.flushWaits s) := by
  unfold State.flushWaits
  repeat' with_reducible first
    | assumption | (extract_lets +onlyGivenNames x; refine (fun (hx : Keeps q x) => ?_) ?_; clear_value x; rotate_left; subst x)
    | (extract_lets +onlyGivenNames x; clear_value x) | apply keeps_writeNow | refine keeps_foldl ?_ (fun _ _ _ => ?_) | intro _
    | apply keeps_mk | apply Keeps.pending | apply Keeps.cells

theorem keeps_outsideData (h : Keeps q s) (a1 a2 : _) : Keeps q (State.outsideData s a1 a2) := by
  unfold State.outsideData
  repeat' with_reducible first
    | assumption | apply keeps_breakGuest | refine keeps_foldl ?_ (fun _ _ _ => ?_)

theorem keeps_copyPiece (h : Keeps q s) (a1 a2 a3 : _) : Keeps q (State.copyPiece s a1 a2 a3) := by
  unfold State.copyPiece
  repeat' with_reducible first
    | assumption | apply keeps_bothPlaces | apply keeps_copyPlace | apply keeps_storeRange | apply keeps_modMem | intro _
    | split | apply cellsWf_hold

theorem keeps_memCopy (h : Keeps q s) (a1 a2 a3 : _) : Keeps q (State.memCopy s a1 a2 a3) := by
  unfold State.memCopy
  repeat' with_reducible first
    | assumption | dsimp -zeta only | apply keeps_copyPiece | refine keeps_foldl ?_ (fun _ _ _ => ?_)

theorem keeps_engineRead (h : Keeps q s) (a1 a2 a3 : _) : Keeps q (State.engineRead s a1 a2 a3) := by
  unfold State.engineRead
  repeat' with_reducible first
    | assumption | apply keeps_memRead | apply keeps_guestFault | intro _ | split | apply keepsThird_snd

theorem keeps_putFixed (h : Keeps q s) (a1 a2 : _) : Keeps q (State.putFixed s a1 a2) := by
  unfold State.putFixed
  repeat' with_reducible first
    | assumption | intro _ | apply cellsWf_fixedWrite | apply keeps_mk | apply Keeps.pending | apply Keeps.cells

theorem keeps_putData (h : Keeps q s) (a1 a2 a3 : _) : Keeps q (State.putData s a1 a2 a3) := by
  unfold State.putData
  repeat' with_reducible first
    | assumption | (extract_lets +onlyGivenNames x; refine (fun (hx : Keeps q x) => ?_) ?_; clear_value x; rotate_left; subst x)
    | (extract_lets +onlyGivenNames x; clear_value x) | apply keeps_askAheads | apply keeps_writeNow | intro _ | split
    | apply keeps_mk | apply Keeps.pending | apply Keeps.cells

theorem keeps_settleWaits (h : Keeps q s) : Keeps q (State.settleWaits s) := by
  unfold State.settleWaits
  repeat' with_reducible first
    | assumption | (extract_lets +onlyGivenNames x; refine (fun (hx : Keeps q x) => ?_) ?_; clear_value x; rotate_left; subst x)
    | (extract_lets +onlyGivenNames x; clear_value x) | apply keeps_putData | refine keeps_foldl ?_ (fun _ _ _ => ?_) | intro _
    | apply keeps_mk | apply Keeps.pending | apply Keeps.cells

theorem keeps_fixedWords (h : Keeps q s) (a1 a2 : _) : Keeps q (State.fixedWords s a1 a2) := by
  unfold State.fixedWords
  repeat' with_reducible first
    | assumption | apply keeps_putFixed | refine keeps_foldl ?_ (fun _ _ _ => ?_)

theorem keeps_memZero (h : Keeps q s) (a1 a2 : _) : Keeps q (State.memZero s a1 a2) := by
  unfold State.memZero
  repeat' with_reducible first
    | assumption | apply keeps_putData

theorem keeps_memWrite (h : Keeps q s) (a1 a2 a3 : _) : Keeps q (State.memWrite s a1 a2 a3) := by
  unfold State.memWrite
  repeat' with_reducible first
    | assumption | apply keeps_putData

theorem keeps_engineWrite (h : Keeps q s) (a1 a2 a3 a4 : _) : Keeps q (State.engineWrite s a1 a2 a3 a4) := by
  unfold State.engineWrite
  repeat' with_reducible first
    | assumption | apply keeps_memWrite | apply keeps_guestFault | intro _ | split

theorem keeps_setRun (h : Keeps q s) (a1 a2 a3 : _) : Keeps q (State.setRun s a1 a2 a3) := by
  unfold State.setRun
  repeat' with_reducible first
    | assumption | (extract_lets +onlyGivenNames x; refine (fun (hx : Keeps q x) => ?_) ?_; clear_value x; rotate_left; subst x)
    | apply keeps_modLedger | apply keeps_memWrite | intro _ | split

theorem keeps_ledgerEvent (h : Keeps q s) (a1 a2 a3 a4 a5 a6 a7 : _) : Keeps q (State.ledgerEvent s a1 a2 a3 a4 a5 a6 a7) := h

theorem keeps_endMove (h : Keeps q s) (a1 a2 : _) : Keeps q (State.endMove s a1 a2) := by
  unfold State.endMove
  repeat' with_reducible first
    | assumption | (extract_lets +onlyGivenNames x; refine (fun (hx : Keeps q x) => ?_) ?_; clear_value x; rotate_left; subst x)
    | apply keeps_modLedger | apply keeps_ledgerEvent | intro _ | split

theorem keeps_takeRun (h : Keeps q s) (a1 a2 a3 : _) : Keeps q (State.takeRun s a1 a2 a3) := by
  unfold State.takeRun
  repeat' with_reducible first
    | assumption | apply keeps_modGuest

theorem keeps_nextMove (h : Keeps q s) (a1 : _) : Keeps q (State.nextMove s a1) := by
  unfold State.nextMove
  repeat' with_reducible first
    | assumption | (extract_lets +onlyGivenNames x; refine (fun (hx : Keeps q x) => ?_) ?_; clear_value x; rotate_left; subst x)
    | (extract_lets +onlyGivenNames x; clear_value x) | apply keeps_endMove | apply keeps_takeRun | apply keeps_setRun | intro _
    | split

theorem keeps_startMove (h : Keeps q s) (a1 a2 a3 : _) : Keeps q (State.startMove s a1 a2 a3) := by
  unfold State.startMove
  repeat' with_reducible first
    | assumption | apply keeps_nextMove | apply keeps_modLedger | intro _ | split

theorem keeps_nameLedger (h : Keeps q s) (a1 : _) : Keeps q (State.nameLedger s a1) := by
  unfold State.nameLedger
  repeat' with_reducible first
    | assumption | (extract_lets +onlyGivenNames x; refine (fun (hx : Keeps q x) => ?_) ?_; clear_value x; rotate_left; subst x)
    | apply keeps_modLedger | apply keeps_startMove | intro _ | split

theorem keeps_giveRun (h : Keeps q s) (a1 a2 a3 : _) : Keeps q (State.giveRun s a1 a2 a3) := by
  unfold State.giveRun
  repeat' with_reducible first
    | assumption | apply keeps_modGuest

theorem keeps_runMoveDone (h : Keeps q s) (a1 a2 : _) : Keeps q (State.runMoveDone s a1 a2) := by
  unfold State.runMoveDone
  repeat' with_reducible first
    | assumption | (extract_lets +onlyGivenNames x; refine (fun (hx : Keeps q x) => ?_) ?_; clear_value x; rotate_left; subst x)
    | (extract_lets +onlyGivenNames x; clear_value x) | apply keeps_askRange | apply keeps_askFill | apply keeps_memCopy
    | apply keeps_flushMerges | apply keeps_setRun | apply keeps_modLedger | apply keeps_nextMove | apply keeps_giveRun
    | intro _ | split

theorem keeps_streamFlag (h : Keeps q s) (a1 a2 a3 a4 a5 : _) : Keeps q (State.streamFlag s a1 a2 a3 a4 a5) := by
  unfold State.streamFlag
  repeat' with_reducible first
    | assumption | (extract_lets +onlyGivenNames x; refine (fun (hx : Keeps q x) => ?_) ?_; clear_value x; rotate_left; subst x)
    | (extract_lets +onlyGivenNames x; clear_value x) | apply keeps_arrive | apply keeps_modTile | apply keeps_modCtx
    | apply keeps_modLedgers | apply keeps_ledgerEvent | intro _ | split

theorem keeps_noteCellar (h : Keeps q s) (a1 a2 a3 a4 : _) : Keeps q (State.noteCellar s a1 a2 a3 a4) := by
  unfold State.noteCellar
  repeat' with_reducible first
    | assumption | apply keeps_breakJob | intro _ | split

theorem keeps_clearTail (h : Keeps q s) (a1 a2 a3 a4 : _) : Keeps q (State.clearTail s a1 a2 a3 a4) := by
  unfold State.clearTail
  repeat' with_reducible first
    | assumption | (extract_lets +onlyGivenNames x; refine (fun (hx : Keeps q x) => ?_) ?_; clear_value x; rotate_left; subst x)
    | (extract_lets +onlyGivenNames x; clear_value x) | apply keeps_memZero | intro _ | split

theorem keeps_giveSpan (h : Keeps q s) (a1 a2 a3 : _) : Keeps q (State.giveSpan s a1 a2 a3) := by
  unfold State.giveSpan
  repeat' with_reducible first
    | assumption | (extract_lets +onlyGivenNames x; refine (fun (hx : Keeps q x) => ?_) ?_; clear_value x; rotate_left; subst x)
    | (extract_lets +onlyGivenNames x; clear_value x) | apply keeps_clearTail | apply keeps_takeRun | apply keeps_modLedger
    | apply keeps_setRun | apply keeps_ledgerEvent | intro _ | split

theorem keeps_unfull (h : Keeps q s) (a1 : _) : Keeps q (State.unfull s a1) := by
  unfold State.unfull
  repeat' with_reducible first
    | assumption | apply keeps_giveSpan | refine keeps_foldl ?_ (fun _ _ _ => ?_) | intro _ | split

theorem keeps_restartMove (h : Keeps q s) (a1 a2 a3 : _) : Keeps q (State.restartMove s a1 a2 a3) := by
  unfold State.restartMove
  repeat' with_reducible first
    | assumption | (extract_lets +onlyGivenNames x; refine (fun (hx : Keeps q x) => ?_) ?_; clear_value x; rotate_left; subst x)
    | (extract_lets +onlyGivenNames x; clear_value x) | apply keeps_setRun | apply keeps_nextMove | apply keeps_unfull
    | apply keeps_giveRun | intro _ | split

theorem keeps_appendDone (h : Keeps q s) (a1 a2 : _) : Keeps q (State.appendDone s a1 a2) := by
  unfold State.appendDone
  repeat' with_reducible first
    | assumption | (extract_lets +onlyGivenNames x; refine (fun (hx : Keeps q x) => ?_) ?_; clear_value x; rotate_left; subst x)
    | (extract_lets +onlyGivenNames x; clear_value x) | apply keeps_streamFlag | apply keeps_readFinds | apply keeps_guestFault
    | apply keeps_noteCellar | apply keeps_memWrite | apply keeps_restartMove | apply keeps_modLedger | intro _ | split

theorem keeps_streamDone (h : Keeps q s) (a1 a2 : _) : Keeps q (State.streamDone s a1 a2) := by
  unfold State.streamDone
  repeat' with_reducible first
    | assumption | dsimp -zeta only
    | (extract_lets +onlyGivenNames x; refine (fun (hx : Keeps q x) => ?_) ?_; clear_value x; rotate_left; subst x)
    | (extract_lets +onlyGivenNames x; subst x) | apply keeps_streamFlag | apply keeps_arriveBytes | apply keeps_noteCellar
    | apply keeps_breakJob | apply keeps_memRead | refine keeps_foldl ?_ (fun _ _ _ => ?_) | intro _ | split | apply keepsFst_mk
    | apply keepsSnd_mk | apply keepsThird_mk | apply keepsThird_snd

theorem keeps_resumeMoves (h : Keeps q s) : Keeps q (State.resumeMoves s) := by
  unfold State.resumeMoves
  repeat' with_reducible first
    | assumption | apply keeps_nextMove | refine keeps_foldl ?_ (fun _ _ _ => ?_)

theorem keeps_advanceLedger (h : Keeps q s) (a1 : _) : Keeps q (State.advanceLedger s a1) := by
  unfold State.advanceLedger
  repeat' with_reducible first
    | assumption | (extract_lets +onlyGivenNames x; refine (fun (hx : Keeps q x) => ?_) ?_; clear_value x; rotate_left; subst x)
    | (extract_lets +onlyGivenNames x; clear_value x) | apply keeps_modLedger | apply keeps_giveSpan | apply keeps_modLedgers
    | apply keeps_ledgerEvent | apply keeps_startMove | apply keeps_nextMove | intro _ | split

theorem keeps_advance (h : Keeps q s) (a1 : _) : Keeps q (State.advance s a1) := by
  unfold State.advance
  repeat' with_reducible first
    | assumption | apply keeps_advanceLedger | refine keeps_foldl ?_ (fun _ _ _ => ?_)

theorem keeps_releaseJob (h : Keeps q s) (a1 : _) : Keeps q (State.releaseJob s a1) := by
  unfold State.releaseJob
  repeat' with_reducible first
    | assumption | intro _ | split | apply keeps_mk | apply Keeps.pending | apply Keeps.cells

theorem keeps_returnRows (h : Keeps q s) : Keeps q (State.returnRows s) := by
  unfold State.returnRows
  repeat' with_reducible first
    | assumption | (extract_lets +onlyGivenNames x; refine (fun (hx : Keeps q x) => ?_) ?_; clear_value x; rotate_left; subst x)
    | (extract_lets +onlyGivenNames x; clear_value x) | apply keeps_modMesh | apply keeps_breakAll | intro _ | split

theorem keeps_jobEvent (h : Keeps q s) (a1 a2 a3 a4 a5 a6 a7 a8 a9 a10 a11 : _) : Keeps q (State.jobEvent s a1 a2 a3 a4 a5 a6 a7 a8 a9 a10 a11) := h

theorem keeps_endJob (h : Keeps q s) (a1 a2 a3 : _) : Keeps q (State.endJob s a1 a2 a3) := by
  unfold State.endJob
  repeat' with_reducible first
    | assumption | (extract_lets +onlyGivenNames x; refine (fun (hx : Keeps q x) => ?_) ?_; clear_value x; rotate_left; subst x)
    | (extract_lets +onlyGivenNames x; clear_value x) | apply keeps_releaseJob | apply keeps_modNet | apply keeps_returnRows
    | apply keeps_settleWaits | apply keeps_modJob | apply keeps_jobEvent | refine keeps_foldl ?_ (fun _ _ _ => ?_) | intro _
    | split

theorem keeps_haltToEnd (h : Keeps q s) (a1 a2 a3 : _) : Keeps q (State.haltToEnd s a1 a2 a3) := by
  unfold State.haltToEnd
  repeat' with_reducible first
    | assumption | (extract_lets +onlyGivenNames x; refine (fun (hx : Keeps q x) => ?_) ?_; clear_value x; rotate_left; subst x)
    | (extract_lets +onlyGivenNames x; clear_value x) | apply keeps_halt | apply keeps_modJob
    | refine keeps_foldl ?_ (fun _ _ _ => ?_) | intro _ | split

theorem keeps_send (h : Keeps q s) (a1 a2 : _) : Keeps q (State.send s a1 a2) := by
  unfold State.send
  repeat' with_reducible first
    | assumption | (extract_lets +onlyGivenNames x; refine (fun (hx : Keeps q x) => ?_) ?_; clear_value x; rotate_left; subst x)
    | (extract_lets +onlyGivenNames x; clear_value x) | apply keeps_modTile

theorem keeps_sendAnchor (h : Keeps q s) (a1 a2 a3 a4 a5 a6 : _) : Keeps q (State.sendAnchor s a1 a2 a3 a4 a5 a6) := by
  unfold State.sendAnchor
  repeat' with_reducible first
    | assumption | (extract_lets +onlyGivenNames x; refine (fun (hx : Keeps q x) => ?_) ?_; clear_value x; rotate_left; subst x)
    | (extract_lets +onlyGivenNames x; clear_value x) | apply keeps_modConn | intro _ | split

theorem keeps_spreadAnchor (h : Keeps q s) (a1 a2 a3 a4 a5 a6 : _) : Keeps q (State.spreadAnchor s a1 a2 a3 a4 a5 a6) := by
  unfold State.spreadAnchor
  repeat' with_reducible first
    | assumption | (extract_lets +onlyGivenNames x; refine (fun (hx : Keeps q x) => ?_) ?_; clear_value x; rotate_left; subst x)
    | (extract_lets +onlyGivenNames x; clear_value x) | apply keeps_modCtx | apply keeps_send | apply keeps_sendAnchor
    | refine keeps_foldl ?_ (fun _ _ _ => ?_) | intro _ | split

theorem keeps_endAtRest (h : Keeps q s) (a1 : _) : Keeps q (State.endAtRest s a1) := by
  unfold State.endAtRest
  repeat' with_reducible first
    | assumption | (extract_lets +onlyGivenNames x; refine (fun (hx : Keeps q x) => ?_) ?_; clear_value x; rotate_left; subst x)
    | (extract_lets +onlyGivenNames x; clear_value x) | apply keeps_endJob | intro _ | split

theorem keeps_checkJob (h : Keeps q s) (a1 : _) : Keeps q (State.checkJob s a1) := by
  unfold State.checkJob
  repeat' with_reducible first
    | assumption | apply keeps_endJob | intro _ | split

theorem keeps_downgrade (h : Keeps q s) (a1 : _) : Keeps q (State.downgrade s a1) := by
  unfold State.downgrade
  repeat' with_reducible first
    | assumption | apply keeps_modLedgers | apply keeps_modJob | intro _ | split

theorem keeps_combine (h : Keeps q s) (a1 a2 : _) : Keeps q (State.combine s a1 a2) := by
  unfold State.combine
  repeat' with_reducible first
    | assumption | (extract_lets +onlyGivenNames x; refine (fun (hx : Keeps q x) => ?_) ?_; clear_value x; rotate_left; subst x)
    | (extract_lets +onlyGivenNames x; clear_value x) | apply keeps_modCtx | apply keeps_send | apply keeps_sendAnchor
    | apply keeps_spreadAnchor | intro _ | split

theorem keeps_endCtx (h : Keeps q s) (a1 a2 a3 : _) : Keeps q (State.endCtx s a1 a2 a3) := by
  unfold State.endCtx
  repeat' with_reducible first
    | assumption | apply keeps_checkJob | apply keeps_modTile | apply keeps_modCtx | apply keeps_commitAll

theorem keeps_regFinds (h : Keeps q s) (a1 a2 a3 : _) : Keeps q (State.regFinds s a1 a2 a3) := by
  unfold State.regFinds
  repeat' with_reducible first
    | assumption | (extract_lets +onlyGivenNames x; refine (fun (hx : Keeps q x) => ?_) ?_; clear_value x; rotate_left; subst x)
    | (extract_lets +onlyGivenNames x; clear_value x) | apply keeps_modTile | apply keeps_queueRetirement | intro _ | split

theorem keeps_bundleFinds (h : Keeps q s) (a1 a2 a3 a4 : _) : Keeps q (State.bundleFinds s a1 a2 a3 a4) := by
  unfold State.bundleFinds
  repeat' with_reducible first
    | assumption | (extract_lets +onlyGivenNames x; refine (fun (hx : Keeps q x) => ?_) ?_; clear_value x; rotate_left; subst x)
    | (extract_lets +onlyGivenNames x; clear_value x) | apply keeps_regFinds | apply keeps_findBad | apply keeps_correct
    | refine keeps_foldl ?_ (fun _ _ _ => ?_) | intro _ | split

theorem keeps_takeTrap (h : Keeps q s) (a1 a2 a3 a4 a5 : _) : Keeps q (State.takeTrap s a1 a2 a3 a4 a5) := by
  unfold State.takeTrap
  repeat' with_reducible first
    | assumption | (extract_lets +onlyGivenNames x; refine (fun (hx : Keeps q x) => ?_) ?_; clear_value x; rotate_left; subst x)
    | (extract_lets +onlyGivenNames x; clear_value x) | apply keeps_modCtx | apply keeps_modJob | apply keeps_checkJob
    | apply keeps_jobEvent | intro _ | split

theorem keeps_startExchange (h : Keeps q s) (a1 a2 a3 a4 a5 : _) : Keeps q (State.startExchange s a1 a2 a3 a4 a5) := by
  unfold State.startExchange
  repeat' with_reducible first
    | assumption | (extract_lets +onlyGivenNames x; refine (fun (hx : Keeps q x) => ?_) ?_; clear_value x; rotate_left; subst x)
    | (extract_lets +onlyGivenNames x; clear_value x) | apply keeps_combine | apply keeps_modCtx

theorem keeps_startStream (h : Keeps q s) (a1 a2 a3 : _) : Keeps q (State.startStream s a1 a2 a3) := by
  unfold State.startStream
  repeat' with_reducible first
    | assumption | (extract_lets +onlyGivenNames x; refine (fun (hx : Keeps q x) => ?_) ?_; clear_value x; rotate_left; subst x)
    | apply keeps_modCtx | apply keeps_modTile | apply keeps_nameLedger

theorem keeps_issueRun (h : Keeps q s) (a1 a2 a3 a4 : _) : Keeps q (State.issueRun s a1 a2 a3 a4) := by
  unfold State.issueRun
  repeat' with_reducible first
    | assumption | (extract_lets +onlyGivenNames x; refine (fun (hx : Keeps q x) => ?_) ?_; clear_value x; rotate_left; subst x)
    | (extract_lets +onlyGivenNames x; clear_value x) | apply keeps_modCtx | apply keeps_modTile | apply keeps_send
    | apply keeps_startStream | apply keeps_downgrade | apply keeps_endCtx | apply keeps_commitDue | apply keeps_takeTrap
    | intro _ | split

theorem keeps_issueNext (h : Keeps q s) (a1 a2 : _) : Keeps q (State.issueNext s a1 a2) := by
  unfold State.issueNext
  repeat' with_reducible first
    | assumption | (extract_lets +onlyGivenNames x; refine (fun (hx : Keeps q x) => ?_) ?_; clear_value x; rotate_left; subst x)
    | (extract_lets +onlyGivenNames x; clear_value x) | apply keeps_bundleFinds | apply keeps_takeTrap | apply keeps_modTile
    | apply keeps_startExchange | apply keeps_issueRun | intro _ | split

theorem keeps_tileCommand (h : Keeps q s) (a0 a1 a2 a3 : _) : Keeps q (tileCommand a0 a1 a2 a3 s) := by
  unfold tileCommand
  repeat' with_reducible first
    | assumption | (extract_lets +onlyGivenNames x; refine (fun (hx : Keeps q x) => ?_) ?_; clear_value x; rotate_left; subst x)
    | (extract_lets +onlyGivenNames x; clear_value x) | apply keeps_issueNext | intro _ | split

theorem keeps_produce (h : Keeps q s) (a1 : _) : Keeps q (State.produce s a1) := by
  unfold State.produce
  repeat' with_reducible first
    | assumption | (extract_lets +onlyGivenNames x; refine (fun (hx : Keeps q x) => ?_) ?_; clear_value x; rotate_left; subst x)
    | apply keeps_modTile | apply keeps_modCtx | apply keeps_commitDue | apply keeps_endCtx | intro _ | split

theorem keeps_tclk (h : Keeps q s) (a1 : _) (h1 : ∀ s, Keeps q s → Keeps q (a1 s)) : Keeps q (State.tclk s a1) := by
  unfold State.tclk
  repeat' with_reducible first
    | assumption | intro _ | split | apply h1

theorem keeps_serveLocal (h : Keeps q s) (a1 a2 a3 : _) : Keeps q (State.serveLocal s a1 a2 a3) := by
  unfold State.serveLocal
  repeat' with_reducible first
    | assumption | (extract_lets +onlyGivenNames x; refine (fun (hx : Keeps q x) => ?_) ?_; clear_value x; rotate_left; subst x)
    | (extract_lets +onlyGivenNames x; clear_value x) | apply keeps_modRouter | apply keeps_modCluster | intro _ | split

theorem keeps_sendAck (h : Keeps q s) (a1 a2 : _) : Keeps q (State.sendAck s a1 a2) := by
  unfold State.sendAck
  repeat' with_reducible first
    | assumption | (extract_lets +onlyGivenNames x; refine (fun (hx : Keeps q x) => ?_) ?_; clear_value x; rotate_left; subst x)
    | (extract_lets +onlyGivenNames x; clear_value x) | apply keeps_modTile | apply keeps_send | intro _ | split

theorem keeps_countDelivered (h : Keeps q s) (a1 a2 : _) : Keeps q (State.countDelivered s a1 a2) := by
  unfold State.countDelivered
  repeat' with_reducible first
    | assumption | (extract_lets +onlyGivenNames x; refine (fun (hx : Keeps q x) => ?_) ?_; clear_value x; rotate_left; subst x)
    | (extract_lets +onlyGivenNames x; clear_value x) | apply keeps_modCluster | apply keeps_modTile | apply keeps_sendAck
    | intro _ | split

theorem keeps_anchorDown (h : Keeps q s) (a1 a2 a3 a4 : _) : Keeps q (State.anchorDown s a1 a2 a3 a4) := by
  unfold State.anchorDown
  repeat' with_reducible first
    | assumption | (extract_lets +onlyGivenNames x; refine (fun (hx : Keeps q x) => ?_) ?_; clear_value x; rotate_left; subst x)
    | (extract_lets +onlyGivenNames x; clear_value x) | apply keeps_spreadAnchor | apply keeps_modCtx | apply keeps_issueNext
    | intro _ | split

theorem keeps_act (h : Keeps q s) (a1 a2 : _) : Keeps q (State.act s a1 a2) := by
  unfold State.act
  repeat' with_reducible first
    | assumption | (extract_lets +onlyGivenNames x; refine (fun (hx : Keeps q x) => ?_) ?_; clear_value x; rotate_left; subst x)
    | (extract_lets +onlyGivenNames x; clear_value x) | apply keeps_arrive | apply keeps_readFinds | apply keeps_send
    | apply keeps_modTile | apply keeps_combine | apply keeps_modCtx | apply keeps_anchorDown | intro _ | split

theorem keeps_deliver (h : Keeps q s) (a1 a2 : _) : Keeps q (State.deliver s a1 a2) := by
  unfold State.deliver
  repeat' with_reducible first
    | assumption | (extract_lets +onlyGivenNames x; refine (fun (hx : Keeps q x) => ?_) ?_; clear_value x; rotate_left; subst x)
    | (extract_lets +onlyGivenNames x; clear_value x) | apply keeps_modCluster | apply keeps_send | apply keeps_countDelivered
    | apply keeps_act | intro _ | split

theorem keeps_arrival (h : Keeps q s) (a1 a2 : _) : Keeps q (State.arrival s a1 a2) := by
  unfold State.arrival
  repeat' with_reducible first
    | assumption | (extract_lets +onlyGivenNames x; refine (fun (hx : Keeps q x) => ?_) ?_; clear_value x; rotate_left; subst x)
    | apply keeps_serveLocal | apply keeps_modCluster | apply keeps_deliver | intro _ | split

theorem keeps_fndRead (h : Keeps q s) (a1 : _) : KeepsSnd q (State.fndRead s a1) := by
  unfold State.fndRead
  repeat' with_reducible first
    | assumption | (extract_lets +onlyGivenNames x; refine (fun (hx : Keeps q x) => ?_) ?_; clear_value x; rotate_left; subst x)
    | (extract_lets +onlyGivenNames x; clear_value x) | apply keeps_readFinds | apply keeps_memRead | intro _ | split
    | apply keepsFst_mk | apply keepsSnd_mk | apply keepsThird_mk | apply keepsThird_snd

theorem keeps_inject (h : Keeps q s) (a1 : _) : Keeps q (State.inject s a1) := by
  unfold State.inject
  repeat' with_reducible first
    | assumption | (extract_lets +onlyGivenNames x; refine (fun (hx : Keeps q x) => ?_) ?_; clear_value x; rotate_left; subst x)
    | apply keeps_modTile | apply keeps_modRouter | intro _ | split

theorem keeps_takeCrossing (h : Keeps q s) (a1 : _) : Keeps q (State.takeCrossing s a1) := by
  unfold State.takeCrossing
  repeat' with_reducible first
    | assumption | (extract_lets +onlyGivenNames x; refine (fun (hx : Keeps q x) => ?_) ?_; clear_value x; rotate_left; subst x)
    | (extract_lets +onlyGivenNames x; clear_value x) | apply keeps_modRouter

theorem keeps_fndBreaks (h : Keeps q s) (a1 a2 : _) : Keeps q (State.fndBreaks s a1 a2) := by
  unfold State.fndBreaks
  repeat' with_reducible first
    | assumption | (extract_lets +onlyGivenNames x; refine (fun (hx : Keeps q x) => ?_) ?_; clear_value x; rotate_left; subst x)
    | (extract_lets +onlyGivenNames x; clear_value x) | apply keeps_breakTile | intro _ | split

theorem keeps_flitFail (h : Keeps q s) (a1 a2 a3 : _) : Keeps q (State.flitFail s a1 a2 a3) := by
  unfold State.flitFail
  repeat' with_reducible first
    | assumption | (extract_lets +onlyGivenNames x; refine (fun (hx : Keeps q x) => ?_) ?_; clear_value x; rotate_left; subst x)
    | (extract_lets +onlyGivenNames x; clear_value x) | apply keeps_breakAll | apply keeps_modCluster
    | apply keeps_queueRetirement | intro _ | split | apply keepsFst_mk | apply keepsSnd_mk | apply keepsThird_mk
    | apply keeps_mk | apply Keeps.pending | apply Keeps.cells

theorem keeps_moduleAnchor (h : Keeps q s) (a1 a2 a3 : _) : Keeps q (State.moduleAnchor s a1 a2 a3) := by
  unfold State.moduleAnchor
  repeat' with_reducible first
    | assumption | (extract_lets +onlyGivenNames x; refine (fun (hx : Keeps q x) => ?_) ?_; clear_value x; rotate_left; subst x)
    | (extract_lets +onlyGivenNames x; clear_value x) | apply keeps_breakJob | apply keeps_anchorDown | apply keeps_combine
    | apply keeps_modCtx | intro _ | split

theorem keeps_hop (h : Keeps q s) (a1 a2 : _) : Keeps q (State.hop s a1 a2) := by
  unfold State.hop
  repeat' with_reducible first
    | assumption | (extract_lets +onlyGivenNames x; refine (fun (hx : Keeps q x) => ?_) ?_; clear_value x; rotate_left; subst x)
    | (extract_lets +onlyGivenNames x; clear_value x) | apply keeps_flitFail | apply keeps_modRouter | apply keeps_modCluster
    | intro _ | split

theorem keeps_modVector (h : Keeps q s) (a1 a2 : _) : Keeps q (State.modVector s a1 a2) := h

theorem keeps_submit (h : Keeps q s) (a1 a2 : _) : Keeps q (State.submit s a1 a2) := h

theorem keeps_sendGroup (h : Keeps q s) (a1 : _) : Keeps q (State.sendGroup s a1) := by
  unfold State.sendGroup
  repeat' with_reducible first
    | assumption | (extract_lets +onlyGivenNames x; refine (fun (hx : Keeps q x) => ?_) ?_; clear_value x; rotate_left; subst x)
    | (extract_lets +onlyGivenNames x; clear_value x) | apply keeps_submit | apply keeps_modVector
    | refine keeps_foldl ?_ (fun _ _ _ => ?_) | intro _ | split

theorem keeps_expireGroup (h : Keeps q s) (a1 : _) : Keeps q (State.expireGroup s a1) := by
  unfold State.expireGroup
  repeat' with_reducible first
    | assumption | dsimp -zeta only
    | (extract_lets +onlyGivenNames x; refine (fun (hx : Keeps q x) => ?_) ?_; clear_value x; rotate_left; subst x)
    | (extract_lets +onlyGivenNames x; subst x) | apply keeps_modIrq | apply keeps_modLink | apply keeps_sendGroup | intro _
    | split

theorem keeps_raiseVector (h : Keeps q s) (a1 : _) : Keeps q (State.raiseVector s a1) := by
  unfold State.raiseVector
  repeat' with_reducible first
    | assumption | (extract_lets +onlyGivenNames x; refine (fun (hx : Keeps q x) => ?_) ?_; clear_value x; rotate_left; subst x)
    | (extract_lets +onlyGivenNames x; clear_value x) | apply keeps_modVector | apply keeps_expireGroup | apply keeps_modIrq
    | intro _ | split

theorem keeps_msix (h : Keeps q s) (a1 : _) : Keeps q (State.msix s a1) := h

theorem keeps_parlourVector (h : Keeps q s) (a1 : _) : Keeps q (State.parlourVector s a1) := by
  unfold State.parlourVector
  repeat' with_reducible first
    | assumption | apply keeps_raiseVector | intro _ | split

theorem keeps_modLog (h : Keeps q s) (a1 a2 : _) : Keeps q (State.modLog s a1 a2) := by
  unfold State.modLog
  repeat' with_reducible first
    | assumption | apply keeps_modGuest

theorem keeps_writeBackWord (h : Keeps q s) (a1 a2 : _) : Keeps q (State.writeBackWord s a1 a2) := by
  unfold State.writeBackWord
  repeat' with_reducible first
    | assumption | (extract_lets +onlyGivenNames x; refine (fun (hx : Keeps q x) => ?_) ?_; clear_value x; rotate_left; subst x)
    | (extract_lets +onlyGivenNames x; clear_value x) | apply keeps_modLog | apply keeps_submit | intro _ | split

theorem keeps_evictWord (h : Keeps q s) : Keeps q (State.evictWord s) := by
  unfold State.evictWord
  repeat' with_reducible first
    | assumption | apply keeps_writeBackWord | intro _ | split

theorem keeps_markPage (h : Keeps q s) (a1 a2 : _) : Keeps q (State.markPage s a1 a2) := by
  unfold State.markPage
  repeat' with_reducible first
    | assumption | (extract_lets +onlyGivenNames x; refine (fun (hx : Keeps q x) => ?_) ?_; clear_value x; rotate_left; subst x)
    | (extract_lets +onlyGivenNames x; clear_value x) | apply keeps_modLog | apply keeps_evictWord | apply keeps_submit
    | intro _ | split

theorem keeps_disown (h : Keeps q s) (a1 : _) : Keeps q (State.disown s a1) := h

theorem keeps_logWrite (h : Keeps q s) (a1 a2 a3 : _) : Keeps q (State.logWrite s a1 a2 a3) := by
  unfold State.logWrite
  repeat' with_reducible first
    | assumption | (extract_lets +onlyGivenNames x; refine (fun (hx : Keeps q x) => ?_) ?_; clear_value x; rotate_left; subst x)
    | (extract_lets +onlyGivenNames x; clear_value x) | apply keeps_markPage | apply keeps_modLog
    | refine keeps_foldl ?_ (fun _ _ _ => ?_) | intro _ | split

theorem keeps_guestRead (h : Keeps q s) (a1 a2 a3 a4 : _) : KeepsFst q (State.guestRead s a1 a2 a3 a4) := by
  unfold State.guestRead
  repeat' with_reducible first
    | assumption | (extract_lets +onlyGivenNames x; refine (fun (hx : Keeps q x) => ?_) ?_; clear_value x; rotate_left; subst x)
    | (extract_lets +onlyGivenNames x; clear_value x) | apply keeps_submit | intro _ | apply keepsFst_mk

theorem keeps_mgrWrite (h : Keeps q s) (a1 a2 : _) : Keeps q (State.mgrWrite s a1 a2) := h

theorem keeps_sendExpired (h : Keeps q s) (a1 : _) : Keeps q (State.sendExpired s a1) := by
  unfold State.sendExpired
  repeat' with_reducible first
    | assumption | (extract_lets +onlyGivenNames x; refine (fun (hx : Keeps q x) => ?_) ?_; clear_value x; rotate_left; subst x)
    | (extract_lets +onlyGivenNames x; clear_value x) | apply keeps_sendGroup | apply keeps_modIrq
    | refine keeps_foldl ?_ (fun _ _ _ => ?_) | intro _ | split

theorem keeps_clearVectors (h : Keeps q s) (a1 : _) : Keeps q (State.clearVectors s a1) := by
  unfold State.clearVectors
  repeat' with_reducible first
    | assumption | (extract_lets +onlyGivenNames x; refine (fun (hx : Keeps q x) => ?_) ?_; clear_value x; rotate_left; subst x)
    | (extract_lets +onlyGivenNames x; clear_value x) | apply keeps_modIrq | apply keeps_modVector
    | refine keeps_foldl ?_ (fun _ _ _ => ?_)

theorem keeps_mgrRead (h : Keeps q s) (a1 a2 a3 : _) : KeepsFst q (State.mgrRead s a1 a2 a3) := by
  unfold State.mgrRead
  repeat' with_reducible first
    | assumption | apply keeps_submit | intro _ | apply keepsFst_mk

theorem keeps_guestWrite (h : Keeps q s) (a1 a2 a3 : _) : Keeps q (State.guestWrite s a1 a2 a3) := by
  unfold State.guestWrite
  repeat' with_reducible first
    | assumption | (extract_lets +onlyGivenNames x; refine (fun (hx : Keeps q x) => ?_) ?_; clear_value x; rotate_left; subst x)
    | (extract_lets +onlyGivenNames x; clear_value x) | apply keeps_logWrite | apply keeps_submit

theorem keeps_unsupported (h : Keeps q s) (a1 a2 : _) : Keeps q (State.unsupported s a1 a2) := h

theorem keeps_holeDone (h : Keeps q s) (a1 : _) : Keeps q (State.holeDone s a1) := by
  unfold State.holeDone
  repeat' with_reducible first
    | assumption | apply keeps_msix | intro _ | split

theorem keeps_respond (h : Keeps q s) (a1 a2 a3 : _) : Keeps q (State.respond s a1 a2 a3) := by
  unfold State.respond
  repeat' with_reducible first
    | assumption | (extract_lets +onlyGivenNames x; refine (fun (hx : Keeps q x) => ?_) ?_; clear_value x; rotate_left; subst x)
    | (extract_lets +onlyGivenNames x; clear_value x) | apply keeps_holeDone | apply keeps_modHole

theorem keeps_dispatcherCompletes (h : Keeps q s) (a1 a2 : _) : Keeps q (State.dispatcherCompletes s a1 a2) := by
  unfold State.dispatcherCompletes
  repeat' with_reducible first
    | assumption | apply keeps_respond | apply keeps_modHole

theorem keeps_go (h : Keeps q s) (a1 : _) : Keeps q (State.go s a1) := by
  unfold State.go
  repeat' with_reducible first
    | assumption | (extract_lets +onlyGivenNames x; refine (fun (hx : Keeps q x) => ?_) ?_; clear_value x; rotate_left; subst x)
    | (extract_lets +onlyGivenNames x; clear_value x) | apply keeps_modHole | apply keeps_dispatcherCompletes | apply keeps_fire
    | apply keeps_modCore | intro _ | split

theorem keeps_finish (h : Keeps q s) (a1 : _) : Keeps q (State.finish s a1) := h

theorem keeps_serve (h : Keeps q s) {a0 : ReqBlock} (hb : KeepsBlock q a0) (a1 : _) : Keeps q (serve a0 a1 s) := by
  unfold serve
  repeat' with_reducible first
    | assumption | (extract_lets +onlyGivenNames x; refine (fun (hx : Keeps q x) => ?_) ?_; clear_value x; rotate_left; subst x)
    | (extract_lets +onlyGivenNames x; refine (fun (hx : KeepsReply q x) => ?_) ?_; clear_value x; rotate_left; subst x)
    | (extract_lets +onlyGivenNames x; clear_value x) | apply keeps_respond | apply keeps_finish | apply keeps_ReqBlock_run
    | apply keeps_Reply_state | apply keepsBlock_run | apply keepsReply_state | intro _ | split

theorem keeps_deferred (h : Keeps q s) (a1 : _) : KeepsReply q (deferred s a1) := by
  unfold deferred
  repeat' with_reducible first
    | assumption | intro _ | apply keepsReply_mk

theorem keeps_dropRequests (h : Keeps q s) (a1 : _) : Keeps q (State.dropRequests s a1) := by
  unfold State.dropRequests
  repeat' with_reducible first
    | assumption | (extract_lets +onlyGivenNames x; refine (fun (hx : Keeps q x) => ?_) ?_; clear_value x; rotate_left; subst x)
    | (extract_lets +onlyGivenNames x; clear_value x) | apply keeps_modCore | apply keeps_respond
    | apply keeps_dispatcherCompletes | refine keeps_foldl ?_ (fun _ _ _ => ?_) | intro _ | split

theorem keeps_trafficTimetableBlock : KeepsBlock q trafficTimetableBlock := by
  unfold trafficTimetableBlock
  repeat' with_reducible first
    | assumption | (extract_lets +onlyGivenNames x; refine (fun (hx : Keeps q x) => ?_) ?_; clear_value x; rotate_left; subst x)
    | (extract_lets +onlyGivenNames x; clear_value x) | apply keeps_modEgress | refine keepsBlock_mk (fun _ _ _ => ?_) | intro _
    | apply keepsReply_mk

theorem keeps_countDrops (h : Keeps q s) (a1 a2 : _) : Keeps q (State.countDrops s a1 a2) := h

theorem keeps_dropPort (h : Keeps q s) (a1 : _) : Keeps q (State.dropPort s a1) := by
  unfold State.dropPort
  repeat' with_reducible first
    | assumption | (extract_lets +onlyGivenNames x; refine (fun (hx : Keeps q x) => ?_) ?_; clear_value x; rotate_left; subst x)
    | (extract_lets +onlyGivenNames x; clear_value x) | apply keeps_countDrops | apply keeps_modEgress

theorem keeps_dropRoom (h : Keeps q s) (a1 : _) : Keeps q (State.dropRoom s a1) := by
  unfold State.dropRoom
  repeat' with_reducible first
    | assumption | (extract_lets +onlyGivenNames x; refine (fun (hx : Keeps q x) => ?_) ?_; clear_value x; rotate_left; subst x)
    | (extract_lets +onlyGivenNames x; clear_value x) | apply keeps_countDrops | apply keeps_modEgress
    | refine keeps_foldl ?_ (fun _ _ _ => ?_) | intro _ | split

theorem keeps_trafficQueueBlock : KeepsBlock q trafficQueueBlock := by
  unfold trafficQueueBlock
  repeat' with_reducible first
    | assumption | (extract_lets +onlyGivenNames x; refine (fun (hx : Keeps q x) => ?_) ?_; clear_value x; rotate_left; subst x)
    | (extract_lets +onlyGivenNames x; clear_value x) | apply keeps_modEgress | refine keepsBlock_mk (fun _ _ _ => ?_) | intro _
    | split | apply keepsReply_mk

theorem keeps_trafficEvent (h : Keeps q s) (a1 a2 : _) : Keeps q (State.trafficEvent s a1 a2) := h

theorem keeps_reposition (h : Keeps q s) : Keeps q (State.reposition s) := by
  unfold State.reposition
  repeat' with_reducible first
    | assumption | (extract_lets +onlyGivenNames x; refine (fun (hx : Keeps q x) => ?_) ?_; clear_value x; rotate_left; subst x)
    | (extract_lets +onlyGivenNames x; clear_value x) | intro _ | apply keeps_mk | apply Keeps.pending | apply Keeps.cells

theorem keeps_offer (h : Keeps q s) (a1 a2 : _) : Keeps q (State.offer s a1 a2) := h

theorem keeps_trafficPortBlock : KeepsBlock q trafficPortBlock := by
  unfold trafficPortBlock
  repeat' with_reducible first
    | assumption | (extract_lets +onlyGivenNames x; refine (fun (hx : Keeps q x) => ?_) ?_; clear_value x; rotate_left; subst x)
    | (extract_lets +onlyGivenNames x; clear_value x) | apply keeps_modEgress | refine keepsBlock_mk (fun _ _ _ => ?_) | intro _
    | split | apply keepsReply_mk

theorem keeps_trafficGatesBlock : KeepsBlock q trafficGatesBlock := by
  unfold trafficGatesBlock
  repeat' with_reducible first
    | assumption | (extract_lets +onlyGivenNames x; refine (fun (hx : Keeps q x) => ?_) ?_; clear_value x; rotate_left; subst x)
    | (extract_lets +onlyGivenNames x; clear_value x) | apply keeps_modEgress | refine keepsBlock_mk (fun _ _ _ => ?_) | intro _
    | apply keepsReply_mk

theorem keeps_ruleCommit (h : Keeps q s) (a1 : _) : Keeps q (State.ruleCommit s a1) := h

theorem keeps_modRing (h : Keeps q s) (a1 a2 : _) : Keeps q (State.modRing s a1 a2) := h

theorem keeps_rxPlace (h : Keeps q s) (a1 a2 a3 a4 : _) : Keeps q (State.rxPlace s a1 a2 a3 a4) := by
  unfold State.rxPlace
  repeat' with_reducible first
    | assumption | (extract_lets +onlyGivenNames x; refine (fun (hx : Keeps q x) => ?_) ?_; clear_value x; rotate_left; subst x)
    | (extract_lets +onlyGivenNames x; clear_value x) | apply keeps_mgrWrite | apply keeps_msix | apply keeps_modRing

theorem keeps_fetchRx (h : Keeps q s) (a1 : _) : Keeps q (State.fetchRx s a1) := by
  unfold State.fetchRx
  repeat' with_reducible first
    | assumption | apply keeps_mgrRead | intro _ | split | apply keepsFst_fst

theorem keeps_rxServe (h : Keeps q s) (a1 : _) : Keeps q (State.rxServe s a1) := by
  unfold State.rxServe
  repeat' with_reducible first
    | assumption | apply keeps_rxPlace | apply keeps_fetchRx | intro _ | split

end keeping

end Sys2Proof.Machine
end

