-- ==== Sys2Proof/Laws/KeepingHosts.lean ====
section
/-! SUPPORT. That the shared operations and the request blocks keep the queue and the memory's form, in the order they build on each other
(part 2 of 3). -/

namespace Sys2Proof.Machine

set_option linter.unusedTactic false
set_option linter.unreachableTactic false

section keeping
variable {q : List Instr} {s : State}

theorem keeps_fetchTx (h : Keeps q s) (a1 : _) : Keeps q (State.fetchTx s a1) := by
  unfold State.fetchTx
  repeat' with_reducible first
    | assumption | apply keeps_mgrRead | intro _ | split | apply keepsFst_fst

theorem keeps_txDone (h : Keeps q s) (a1 a2 : _) : Keeps q (State.txDone s a1 a2) := by
  unfold State.txDone
  repeat' with_reducible first
    | assumption | (extract_lets +onlyGivenNames x; refine (fun (hx : Keeps q x) => ?_) ?_; clear_value x; rotate_left; subst x)
    | (extract_lets +onlyGivenNames x; clear_value x) | apply keeps_mgrWrite | apply keeps_modRing | apply keeps_fetchTx
    | apply keeps_msix | intro _ | split

theorem keeps_txDescArrives (h : Keeps q s) (a1 a2 : _) : Keeps q (State.txDescArrives s a1 a2) := by
  unfold State.txDescArrives
  repeat' with_reducible first
    | assumption | (extract_lets +onlyGivenNames x; refine (fun (hx : Keeps q x) => ?_) ?_; clear_value x; rotate_left; subst x)
    | (extract_lets +onlyGivenNames x; refine (fun (hx : KeepsFst q x) => ?_) ?_; clear_value x; rotate_left; subst x)
    | (extract_lets +onlyGivenNames x; clear_value x) | apply keeps_modRing | apply keeps_txDone | apply keeps_mgrRead | intro _
    | split | apply keepsFst_fst

theorem keeps_toRing (h : Keeps q s) (a1 a2 a3 a4 : _) : Keeps q (State.toRing s a1 a2 a3 a4) := by
  unfold State.toRing
  repeat' with_reducible first
    | assumption | apply keeps_countDrops | apply keeps_rxServe | apply keeps_modRing | intro _ | split

theorem keeps_dropLink (h : Keeps q s) (a1 : _) : Keeps q (State.dropLink s a1) := by
  unfold State.dropLink
  repeat' with_reducible first
    | assumption | apply keeps_txDone | apply keeps_dropPort | refine keeps_foldl ?_ (fun _ _ _ => ?_)

theorem keeps_netEvent (h : Keeps q s) (a1 a2 a3 a4 a5 a6 : _) : Keeps q (State.netEvent s a1 a2 a3 a4 a5 a6) := h

theorem keeps_netLink (h : Keeps q s) (a1 a2 : _) : Keeps q (State.netLink s a1 a2) := by
  unfold State.netLink
  repeat' with_reducible first
    | assumption | (extract_lets +onlyGivenNames x; refine (fun (hx : Keeps q x) => ?_) ?_; clear_value x; rotate_left; subst x)
    | apply keeps_modNetPort | apply keeps_dropLink | apply keeps_netEvent | intro _ | split

theorem keeps_netConfigBlock : KeepsBlock q netConfigBlock := by
  unfold netConfigBlock
  repeat' with_reducible first
    | assumption | (extract_lets +onlyGivenNames x; refine (fun (hx : Keeps q x) => ?_) ?_; clear_value x; rotate_left; subst x)
    | (extract_lets +onlyGivenNames x; clear_value x) | apply keeps_writeRecord | apply keeps_portBack | apply keeps_netLink
    | apply keeps_modNet | refine keeps_foldl ?_ (fun _ _ _ => ?_) | refine keepsBlock_mk (fun _ _ _ => ?_) | intro _
    | apply keepsReply_mk | apply keepsFst_mk | apply keepsSnd_mk | apply keepsThird_mk | apply keeps_mk | apply Keeps.pending
    | apply Keeps.cells

theorem keeps_ringGone (h : Keeps q s) (a1 : _) : Keeps q (State.ringGone s a1) := by
  unfold State.ringGone
  repeat' with_reducible first
    | assumption | (extract_lets +onlyGivenNames x; refine (fun (hx : Keeps q x) => ?_) ?_; clear_value x; rotate_left; subst x)
    | (extract_lets +onlyGivenNames x; clear_value x) | apply keeps_countDrops | apply keeps_disown | apply keeps_modNet
    | refine keeps_foldl ?_ (fun _ _ _ => ?_) | intro _ | apply keeps_mk | apply Keeps.pending | apply Keeps.cells

theorem keeps_netRingBlock : KeepsBlock q netRingBlock := by
  unfold netRingBlock
  repeat' with_reducible first
    | assumption | (extract_lets +onlyGivenNames x; refine (fun (hx : Keeps q x) => ?_) ?_; clear_value x; rotate_left; subst x)
    | (extract_lets +onlyGivenNames x; clear_value x) | apply keeps_modNet | apply keeps_ringGone
    | refine keepsBlock_mk (fun _ _ _ => ?_) | intro _ | split | apply keepsReply_mk

theorem keeps_netPortSetBlock : KeepsBlock q netPortSetBlock := by
  unfold netPortSetBlock
  repeat' with_reducible first
    | assumption | (extract_lets +onlyGivenNames x; refine (fun (hx : Keeps q x) => ?_) ?_; clear_value x; rotate_left; subst x)
    | (extract_lets +onlyGivenNames x; clear_value x) | apply keeps_modNetPort | apply keeps_portBack | apply keeps_netLink
    | refine keepsBlock_mk (fun _ _ _ => ?_) | intro _ | split | apply keepsReply_mk

theorem keeps_classify (h : Keeps q s) (a1 a2 : _) : Keeps q (State.classify s a1 a2) := by
  unfold State.classify
  repeat' with_reducible first
    | assumption | (extract_lets +onlyGivenNames x; refine (fun (hx : Keeps q x) => ?_) ?_; clear_value x; rotate_left; subst x)
    | (extract_lets +onlyGivenNames x; clear_value x) | apply keeps_countDrops | apply keeps_toRing | apply keeps_modNet
    | intro _ | split

theorem keeps_netProfileBlock : KeepsBlock q netProfileBlock := by
  unfold netProfileBlock
  repeat' with_reducible first
    | assumption | apply keeps_modNet | refine keepsBlock_mk (fun _ _ _ => ?_) | intro _ | apply keepsReply_mk

theorem keeps_rxDescArrives (h : Keeps q s) (a1 a2 : _) : Keeps q (State.rxDescArrives s a1 a2) := by
  unfold State.rxDescArrives
  repeat' with_reducible first
    | assumption | (extract_lets +onlyGivenNames x; refine (fun (hx : Keeps q x) => ?_) ?_; clear_value x; rotate_left; subst x)
    | (extract_lets +onlyGivenNames x; clear_value x) | apply keeps_rxServe | apply keeps_modRing | apply keeps_fetchRx
    | intro _ | split

theorem keeps_netTimeBlock : KeepsBlock q netTimeBlock := by
  unfold netTimeBlock
  repeat' with_reducible first
    | assumption | (extract_lets +onlyGivenNames x; refine (fun (hx : Keeps q x) => ?_) ?_; clear_value x; rotate_left; subst x)
    | (extract_lets +onlyGivenNames x; clear_value x) | apply keeps_modNet | apply keeps_reposition
    | refine keepsBlock_mk (fun _ _ _ => ?_) | intro _ | split | apply keepsReply_mk

theorem keeps_txTail (h : Keeps q s) (a1 a2 : _) : Keeps q (State.txTail s a1 a2) := by
  unfold State.txTail
  repeat' with_reducible first
    | assumption | (extract_lets +onlyGivenNames x; refine (fun (hx : Keeps q x) => ?_) ?_; clear_value x; rotate_left; subst x)
    | apply keeps_modNet | apply keeps_fetchTx | intro _ | split

theorem keeps_txFrameArrives (h : Keeps q s) (a1 a2 : _) : Keeps q (State.txFrameArrives s a1 a2) := by
  unfold State.txFrameArrives
  repeat' with_reducible first
    | assumption | apply keeps_txDone | apply keeps_offer | intro _ | split

theorem keeps_rxTail (h : Keeps q s) (a1 a2 : _) : Keeps q (State.rxTail s a1 a2) := by
  unfold State.rxTail
  repeat' with_reducible first
    | assumption | (extract_lets +onlyGivenNames x; refine (fun (hx : Keeps q x) => ?_) ?_; clear_value x; rotate_left; subst x)
    | apply keeps_modNet | apply keeps_fetchRx | intro _ | split

theorem keeps_sendFrame (h : Keeps q s) (a1 a2 a3 : _) : Keeps q (State.sendFrame s a1 a2 a3) := by
  unfold State.sendFrame
  repeat' with_reducible first
    | assumption | (extract_lets +onlyGivenNames x; refine (fun (hx : Keeps q x) => ?_) ?_; clear_value x; rotate_left; subst x)
    | (extract_lets +onlyGivenNames x; clear_value x) | apply keeps_offer

theorem keeps_sendNative (h : Keeps q s) (a1 a2 a3 a4 : _) : Keeps q (State.sendNative s a1 a2 a3 a4) := by
  unfold State.sendNative
  repeat' with_reducible first
    | assumption | (extract_lets +onlyGivenNames x; refine (fun (hx : Keeps q x) => ?_) ?_; clear_value x; rotate_left; subst x)
    | (extract_lets +onlyGivenNames x; clear_value x) | apply keeps_sendFrame

theorem keeps_sendNack (h : Keeps q s) (a1 a2 a3 : _) : Keeps q (State.sendNack s a1 a2 a3) := by
  unfold State.sendNack
  repeat' with_reducible first
    | assumption | apply keeps_sendNative

theorem keeps_refuseMessage (h : Keeps q s) (a1 a2 a3 : _) : Keeps q (State.refuseMessage s a1 a2 a3) := by
  unfold State.refuseMessage
  repeat' with_reducible first
    | assumption | (extract_lets +onlyGivenNames x; refine (fun (hx : Keeps q x) => ?_) ?_; clear_value x; rotate_left; subst x)
    | apply keeps_modConn | apply keeps_sendNack

theorem keeps_keyRead (h : Keeps q s) (a1 a2 : _) : KeepsSnd q (State.keyRead s a1 a2) := by
  unfold State.keyRead
  split
  · exact keepsSnd_mk (keeps_readFinds h _ _)
  · exact keepsSnd_mk (keepsThird_snd (keeps_memRead h _ _))

theorem keeps_sendMessage (h : Keeps q s) (a1 a2 a3 : _) : Keeps q (State.sendMessage s a1 a2 a3) := by
  unfold State.sendMessage
  repeat' with_reducible first
    | assumption | (extract_lets +onlyGivenNames x; refine (fun (hx : Keeps q x) => ?_) ?_; clear_value x; rotate_left; subst x)
    | (extract_lets +onlyGivenNames x; clear_value x) | apply keeps_sendNative | refine keeps_foldl ?_ (fun _ _ _ => ?_)

theorem keeps_serveRead (h : Keeps q s) (a1 a2 a3 : _) : Keeps q (State.serveRead s a1 a2 a3) := by
  unfold State.serveRead
  repeat' with_reducible first
    | assumption | dsimp -zeta only
    | (extract_lets +onlyGivenNames x; refine (fun (hx : Keeps q x) => ?_) ?_; clear_value x; rotate_left; subst x)
    | (extract_lets +onlyGivenNames x; refine (fun (hx : KeepsFst q x) => ?_) ?_; clear_value x; rotate_left; subst x)
    | (extract_lets +onlyGivenNames x; refine (fun (hx : KeepsSnd q x) => ?_) ?_; clear_value x; rotate_left; subst x)
    | (extract_lets +onlyGivenNames x; subst x) | apply keeps_refuseMessage | apply keeps_modNet | apply keeps_modConn
    | apply keeps_guestRead | apply keeps_keyRead | apply keeps_sendMessage | intro _ | split | apply keepsFst_fst
    | refine keepsFst_of (by assumption) ?_ | apply keepsSnd_snd | refine keepsSnd_of (by assumption) ?_

theorem keeps_courierEntry (h : Keeps q s) (a1 a2 a3 a4 a5 a6 : _) : Keeps q (State.courierEntry s a1 a2 a3 a4 a5 a6) := by
  unfold State.courierEntry
  repeat' with_reducible first
    | assumption | (extract_lets +onlyGivenNames x; refine (fun (hx : Keeps q x) => ?_) ?_; clear_value x; rotate_left; subst x)
    | (extract_lets +onlyGivenNames x; clear_value x) | apply keeps_guestWrite | apply keeps_modConn | apply keeps_raiseVector

theorem keeps_endSend (h : Keeps q s) (a1 a2 a3 a4 a5 : _) : Keeps q (State.endSend s a1 a2 a3 a4 a5) := by
  unfold State.endSend
  repeat' with_reducible first
    | assumption | apply keeps_courierEntry | intro _ | split

theorem keeps_endFlight (h : Keeps q s) (a1 a2 a3 a4 : _) : Keeps q (State.endFlight s a1 a2 a3 a4) := by
  unfold State.endFlight
  repeat' with_reducible first
    | assumption | apply keeps_endSend | apply keeps_modConn

theorem keeps_closed (h : Keeps q s) (a1 : _) : Keeps q (State.closed s a1) := by
  unfold State.closed
  repeat' with_reducible first
    | assumption | (extract_lets +onlyGivenNames x; refine (fun (hx : Keeps q x) => ?_) ?_; clear_value x; rotate_left; subst x)
    | (extract_lets +onlyGivenNames x; clear_value x) | apply keeps_disown | apply keeps_modConn | apply keeps_netEvent
    | refine keeps_foldl ?_ (fun _ _ _ => ?_)

theorem keeps_wrFails (h : Keeps q s) (a1 : _) : Keeps q (State.wrFails s a1) := by
  unfold State.wrFails
  repeat' with_reducible first
    | assumption | apply keeps_closed | intro _ | split

theorem keeps_keyWrite (h : Keeps q s) (a1 a2 a3 a4 : _) : Keeps q (State.keyWrite s a1 a2 a3 a4) := by
  unfold State.keyWrite
  repeat' with_reducible first
    | assumption | apply keeps_guestWrite | apply keeps_breakTile | apply keeps_arriveBytes | apply keeps_outsideData
    | apply keeps_memWrite | intro _ | split

theorem keeps_readResponse (h : Keeps q s) (a1 a2 a3 : _) : Keeps q (State.readResponse s a1 a2 a3) := by
  unfold State.readResponse
  repeat' with_reducible first
    | assumption | (extract_lets +onlyGivenNames x; refine (fun (hx : Keeps q x) => ?_) ?_; clear_value x; rotate_left; subst x)
    | (extract_lets +onlyGivenNames x; clear_value x) | apply keeps_endFlight | apply keeps_keyWrite | apply keeps_modConn
    | intro _ | split

theorem keeps_stopResend (h : Keeps q s) (a1 a2 : _) : Keeps q (State.stopResend s a1 a2) := h

theorem keeps_ackArrives (h : Keeps q s) (a1 : _) : Keeps q (State.ackArrives s a1) := by
  unfold State.ackArrives
  repeat' with_reducible first
    | assumption | apply keeps_endFlight | apply keeps_stopResend | apply keeps_modConn | intro _ | split

theorem keeps_nackArrives (h : Keeps q s) (a1 : _) : Keeps q (State.nackArrives s a1) := by
  unfold State.nackArrives
  repeat' with_reducible first
    | assumption | apply keeps_endFlight | intro _ | split

theorem keeps_sendAckMsn (h : Keeps q s) (a1 a2 a3 : _) : Keeps q (State.sendAckMsn s a1 a2 a3) := by
  unfold State.sendAckMsn
  repeat' with_reducible first
    | assumption | apply keeps_sendNative

theorem keeps_ackDuplicate (h : Keeps q s) (a1 a2 : _) : Keeps q (State.ackDuplicate s a1 a2) := by
  unfold State.ackDuplicate
  repeat' with_reducible first
    | assumption | (extract_lets +onlyGivenNames x; refine (fun (hx : Keeps q x) => ?_) ?_; clear_value x; rotate_left; subst x)
    | (extract_lets +onlyGivenNames x; clear_value x) | apply keeps_sendAckMsn | apply keeps_modConn | intro _ | split

theorem keeps_completeMessage (h : Keeps q s) (a1 a2 a3 a4 : _) : Keeps q (State.completeMessage s a1 a2 a3 a4) := by
  unfold State.completeMessage
  repeat' with_reducible first
    | assumption | (extract_lets +onlyGivenNames x; refine (fun (hx : Keeps q x) => ?_) ?_; clear_value x; rotate_left; subst x)
    | (extract_lets +onlyGivenNames x; clear_value x) | apply keeps_arrive | apply keeps_modConn | apply keeps_courierEntry
    | apply keeps_sendAckMsn | intro _ | split

theorem keeps_placeAnchor (h : Keeps q s) (a1 a2 a3 a4 a5 : _) : Keeps q (State.placeAnchor s a1 a2 a3 a4 a5) := by
  unfold State.placeAnchor
  repeat' with_reducible first
    | assumption | apply keeps_moduleAnchor | apply keeps_completeMessage

theorem keeps_placeTally (h : Keeps q s) (a1 a2 : _) : Keeps q (State.placeTally s a1 a2) := by
  unfold State.placeTally
  repeat' with_reducible first
    | assumption | (extract_lets +onlyGivenNames x; refine (fun (hx : Keeps q x) => ?_) ?_; clear_value x; rotate_left; subst x)
    | (extract_lets +onlyGivenNames x; clear_value x) | apply keeps_breakTile | apply keeps_arrive
    | refine keeps_foldl ?_ (fun _ _ _ => ?_) | intro _ | split

theorem keeps_placeMessage (h : Keeps q s) (a1 a2 a3 : _) : Keeps q (State.placeMessage s a1 a2 a3) := by
  unfold State.placeMessage
  repeat' with_reducible first
    | assumption | (extract_lets +onlyGivenNames x; refine (fun (hx : Keeps q x) => ?_) ?_; clear_value x; rotate_left; subst x)
    | (extract_lets +onlyGivenNames x; clear_value x) | apply keeps_keyWrite | intro _ | split

theorem keeps_placePacket (h : Keeps q s) (a1 a2 a3 a4 : _) : Keeps q (State.placePacket s a1 a2 a3 a4) := by
  unfold State.placePacket
  repeat' with_reducible first
    | assumption | dsimp -zeta only
    | (extract_lets +onlyGivenNames x; refine (fun (hx : Keeps q x) => ?_) ?_; clear_value x; rotate_left; subst x)
    | (extract_lets +onlyGivenNames x; subst x) | apply keeps_placeAnchor | apply keeps_refuseMessage | apply keeps_modNet
    | apply keeps_modConn | apply keeps_courierEntry | apply keeps_placeTally | apply keeps_placeMessage
    | apply keeps_completeMessage | intro _ | split

theorem keeps_dataArrives (h : Keeps q s) (a1 a2 a3 : _) : Keeps q (State.dataArrives s a1 a2 a3) := by
  unfold State.dataArrives
  repeat' with_reducible first
    | assumption | dsimp -zeta only
    | (extract_lets +onlyGivenNames x; refine (fun (hx : Keeps q x) => ?_) ?_; clear_value x; rotate_left; subst x)
    | (extract_lets +onlyGivenNames x; subst x) | apply keeps_sendNack | apply keeps_modNet | apply keeps_serveRead
    | apply keeps_ackDuplicate | apply keeps_placePacket | intro _ | split

theorem keeps_nativeArrives (h : Keeps q s) (a1 a2 a3 : _) : Keeps q (State.nativeArrives s a1 a2 a3) := by
  unfold State.nativeArrives
  repeat' with_reducible first
    | assumption | (extract_lets +onlyGivenNames x; refine (fun (hx : Keeps q x) => ?_) ?_; clear_value x; rotate_left; subst x)
    | (extract_lets +onlyGivenNames x; clear_value x) | apply keeps_modNet | apply keeps_readResponse | apply keeps_ackArrives
    | apply keeps_nackArrives | apply keeps_dataArrives | intro _ | split

theorem keeps_flushConn (h : Keeps q s) (a1 a2 a3 : _) : Keeps q (State.flushConn s a1 a2 a3) := by
  unfold State.flushConn
  repeat' with_reducible first
    | assumption | (extract_lets +onlyGivenNames x; refine (fun (hx : Keeps q x) => ?_) ?_; clear_value x; rotate_left; subst x)
    | (extract_lets +onlyGivenNames x; clear_value x) | apply keeps_modConn | apply keeps_endSend | apply keeps_courierEntry
    | refine keeps_foldl ?_ (fun _ _ _ => ?_) | intro _ | split

theorem keeps_courierKeyBlock : KeepsBlock q courierKeyBlock := by
  unfold courierKeyBlock
  repeat' with_reducible first
    | assumption | (extract_lets +onlyGivenNames x; refine (fun (hx : Keeps q x) => ?_) ?_; clear_value x; rotate_left; subst x)
    | (extract_lets +onlyGivenNames x; clear_value x) | apply keeps_modNet | refine keepsBlock_mk (fun _ _ _ => ?_) | intro _
    | split | apply keepsReply_mk

theorem keeps_sendRoce (h : Keeps q s) (a1 a2 a3 a4 a5 a6 : _) : Keeps q (State.sendRoce s a1 a2 a3 a4 a5 a6) := by
  unfold State.sendRoce
  repeat' with_reducible first
    | assumption | (extract_lets +onlyGivenNames x; refine (fun (hx : Keeps q x) => ?_) ?_; clear_value x; rotate_left; subst x)
    | (extract_lets +onlyGivenNames x; clear_value x) | apply keeps_sendFrame

theorem keeps_roceMessage (h : Keeps q s) (a1 a2 a3 a4 a5 a6 a7 : _) : Keeps q (State.roceMessage s a1 a2 a3 a4 a5 a6 a7) := by
  unfold State.roceMessage
  repeat' with_reducible first
    | assumption | (extract_lets +onlyGivenNames x; refine (fun (hx : Keeps q x) => ?_) ?_; clear_value x; rotate_left; subst x)
    | (extract_lets +onlyGivenNames x; clear_value x) | apply keeps_sendRoce | refine keeps_foldl ?_ (fun _ _ _ => ?_)

theorem keeps_sendRequest (h : Keeps q s) (a1 a2 a3 : _) : Keeps q (State.sendRequest s a1 a2 a3) := by
  unfold State.sendRequest
  repeat' with_reducible first
    | assumption | apply keeps_roceMessage | apply keeps_sendMessage | intro _ | split

theorem keeps_modNs (h : Keeps q s) (a1 a2 a3 : _) : Keeps q (State.modNs s a1 a2 a3) := h

theorem keeps_logError (h : Keeps q s) (a1 a2 a3 : _) : Keeps q (State.logError s a1 a2 a3) := by
  unfold State.logError
  repeat' with_reducible first
    | assumption | (extract_lets +onlyGivenNames x; refine (fun (hx : Keeps q x) => ?_) ?_; clear_value x; rotate_left; subst x)
    | (extract_lets +onlyGivenNames x; clear_value x) | apply keeps_modGuest | intro _ | split

theorem keeps_complete (h : Keeps q s) (a1 a2 a3 a4 : _) : Keeps q (State.complete s a1 a2 a3 a4) := by
  unfold State.complete
  repeat' with_reducible first
    | assumption | (extract_lets +onlyGivenNames x; refine (fun (hx : Keeps q x) => ?_) ?_; clear_value x; rotate_left; subst x)
    | apply keeps_logError | apply keeps_modCipher | apply keeps_disown | apply keeps_modPair

theorem keeps_modCmd (h : Keeps q s) (a1 a2 a3 : _) : Keeps q (State.modCmd s a1 a2 a3) := h

theorem keeps_cipherCmd (h : Keeps q s) (a1 a2 a3 a4 : _) : Keeps q (State.cipherCmd s a1 a2 a3 a4) := by
  unfold State.cipherCmd
  repeat' with_reducible first
    | assumption | (extract_lets +onlyGivenNames x; refine (fun (hx : Keeps q x) => ?_) ?_; clear_value x; rotate_left; subst x)
    | (extract_lets +onlyGivenNames x; clear_value x) | apply keeps_modCipher | apply keeps_modCmd | intro _ | split

theorem keeps_dataOut (h : Keeps q s) (a1 a2 a3 : _) : KeepsFst q (State.dataOut s a1 a2 a3) := by
  unfold State.dataOut
  refine keepsFst_mk ?_
  split
  · exact keepsFst_fst (keepsFst_foldl (keepsFst_mk h) fun _ _ k => keepsFst_mk (keeps_guestWrite (keepsFst_fst k) _ _ _))
  · exact h

theorem keeps_finishRead (h : Keeps q s) (a1 a2 : _) : Keeps q (State.finishRead s a1 a2) := by
  unfold State.finishRead
  repeat' with_reducible first
    | assumption | (extract_lets +onlyGivenNames x; refine (fun (hx : Keeps q x) => ?_) ?_; clear_value x; rotate_left; subst x)
    | (extract_lets +onlyGivenNames x; refine (fun (hx : KeepsFst q x) => ?_) ?_; clear_value x; rotate_left; subst x)
    | (extract_lets +onlyGivenNames x; clear_value x) | apply keeps_dataOut | apply keeps_complete | intro _ | split
    | apply keepsFst_fst

theorem keeps_checkParts (h : Keeps q s) (a1 a2 : _) : Keeps q (State.checkParts s a1 a2) := by
  unfold State.checkParts
  repeat' with_reducible first
    | assumption | (extract_lets +onlyGivenNames x; refine (fun (hx : Keeps q x) => ?_) ?_; clear_value x; rotate_left; subst x)
    | (extract_lets +onlyGivenNames x; clear_value x) | apply keeps_modNs | apply keeps_complete | apply keeps_modCmd
    | apply keeps_cipherCmd | apply keeps_finishRead | refine keeps_foldl ?_ (fun _ _ _ => ?_) | intro _ | split

theorem keeps_partEnds (h : Keeps q s) (a1 a2 a3 a4 a5 : _) : Keeps q (State.partEnds s a1 a2 a3 a4 a5) := by
  unfold State.partEnds
  repeat' with_reducible first
    | assumption | (extract_lets +onlyGivenNames x; refine (fun (hx : Keeps q x) => ?_) ?_; clear_value x; rotate_left; subst x)
    | (extract_lets +onlyGivenNames x; clear_value x) | apply keeps_checkParts | apply keeps_modCmd | intro _ | split

theorem keeps_dropParts (h : Keeps q s) (a1 a2 : _) : Keeps q (State.dropParts s a1 a2) := by
  unfold State.dropParts
  repeat' with_reducible first
    | assumption | apply keeps_partEnds | refine keeps_foldl ?_ (fun _ _ _ => ?_) | intro _ | split

theorem keeps_dropConnParts (h : Keeps q s) (a1 : _) : Keeps q (State.dropConnParts s a1) := by
  unfold State.dropConnParts
  repeat' with_reducible first
    | assumption | apply keeps_dropParts

theorem keeps_connError (h : Keeps q s) (a1 a2 : _) : Keeps q (State.connError s a1 a2) := by
  unfold State.connError
  repeat' with_reducible first
    | assumption | (extract_lets +onlyGivenNames x; refine (fun (hx : Keeps q x) => ?_) ?_; clear_value x; rotate_left; subst x)
    | (extract_lets +onlyGivenNames x; clear_value x) | apply keeps_dropConnParts | apply keeps_flushConn | apply keeps_modConn
    | apply keeps_netEvent

theorem keeps_transmit (h : Keeps q s) (a1 a2 : _) : Keeps q (State.transmit s a1 a2) := by
  unfold State.transmit
  repeat' with_reducible first
    | assumption | (extract_lets +onlyGivenNames x; refine (fun (hx : Keeps q x) => ?_) ?_; clear_value x; rotate_left; subst x)
    | (extract_lets +onlyGivenNames x; refine (fun (hx : KeepsFst q x) => ?_) ?_; clear_value x; rotate_left; subst x)
    | (extract_lets +onlyGivenNames x; refine (fun (hx : KeepsSnd q x) => ?_) ?_; clear_value x; rotate_left; subst x)
    | (extract_lets +onlyGivenNames x; clear_value x) | apply keeps_sendRequest | apply keeps_sendRoce | apply keeps_sendNative
    | apply keeps_endFlight | apply keeps_guestRead | apply keeps_connError | apply keeps_keyRead | intro _ | split
    | apply keepsFst_fst | refine keepsFst_of (by assumption) ?_ | apply keepsSnd_snd | refine keepsSnd_of (by assumption) ?_

theorem keeps_startRequest (h : Keeps q s) (a1 : _) : Keeps q (State.startRequest s a1) := by
  unfold State.startRequest
  repeat' with_reducible first
    | assumption | (extract_lets +onlyGivenNames x; refine (fun (hx : Keeps q x) => ?_) ?_; clear_value x; rotate_left; subst x)
    | (extract_lets +onlyGivenNames x; clear_value x) | apply keeps_endSend | apply keeps_modConn | apply keeps_transmit
    | intro _ | split

theorem keeps_settleClose (h : Keeps q s) (a1 : _) : Keeps q (State.settleClose s a1) := by
  unfold State.settleClose
  repeat' with_reducible first
    | assumption | (extract_lets +onlyGivenNames x; refine (fun (hx : Keeps q x) => ?_) ?_; clear_value x; rotate_left; subst x)
    | (extract_lets +onlyGivenNames x; clear_value x) | apply keeps_closed | intro _ | split

theorem keeps_closeConn (h : Keeps q s) (a1 a2 : _) : Keeps q (State.closeConn s a1 a2) := by
  unfold State.closeConn
  repeat' with_reducible first
    | assumption | (extract_lets +onlyGivenNames x; refine (fun (hx : Keeps q x) => ?_) ?_; clear_value x; rotate_left; subst x)
    | (extract_lets +onlyGivenNames x; clear_value x) | apply keeps_modConn | apply keeps_settleClose
    | apply keeps_dropConnParts | apply keeps_flushConn | intro _ | split

theorem keeps_courierCloseBlock : KeepsBlock q courierCloseBlock := by
  unfold courierCloseBlock
  repeat' with_reducible first
    | assumption | apply keeps_deferred | apply keeps_closeConn | refine keepsBlock_mk (fun _ _ _ => ?_) | intro _ | split

theorem keeps_rtoExpire (h : Keeps q s) (a1 a2 : _) : Keeps q (State.rtoExpire s a1 a2) := by
  unfold State.rtoExpire
  repeat' with_reducible first
    | assumption | (extract_lets +onlyGivenNames x; refine (fun (hx : Keeps q x) => ?_) ?_; clear_value x; rotate_left; subst x)
    | (extract_lets +onlyGivenNames x; clear_value x) | apply keeps_connError | apply keeps_endFlight | apply keeps_modConn
    | apply keeps_transmit | refine keeps_foldl ?_ (fun _ _ _ => ?_) | intro _ | split

theorem keeps_roceAck (h : Keeps q s) (a1 a2 a3 : _) : Keeps q (State.roceAck s a1 a2 a3) := by
  unfold State.roceAck
  repeat' with_reducible first
    | assumption | apply keeps_sendRoce

theorem keeps_courierNoBytes (h : Keeps q s) (a1 a2 : _) : Keeps q (State.courierNoBytes s a1 a2) := by
  unfold State.courierNoBytes
  repeat' with_reducible first
    | assumption | apply keeps_connError | apply keeps_roceAck | apply keeps_refuseMessage | intro _ | split

theorem keeps_wrFetch (h : Keeps q s) (a1 a2 : _) : Keeps q (State.wrFetch s a1 a2) := by
  unfold State.wrFetch
  repeat' with_reducible first
    | assumption | (extract_lets +onlyGivenNames x; refine (fun (hx : Keeps q x) => ?_) ?_; clear_value x; rotate_left; subst x)
    | (extract_lets +onlyGivenNames x; refine (fun (hx : KeepsFst q x) => ?_) ?_; clear_value x; rotate_left; subst x)
    | (extract_lets +onlyGivenNames x; clear_value x) | apply keeps_guestRead | apply keeps_closed | intro _ | split
    | apply keepsFst_fst

theorem keeps_courierOpenBlock : KeepsBlock q courierOpenBlock := by
  unfold courierOpenBlock
  repeat' with_reducible first
    | assumption | (extract_lets +onlyGivenNames x; refine (fun (hx : Keeps q x) => ?_) ?_; clear_value x; rotate_left; subst x)
    | (extract_lets +onlyGivenNames x; clear_value x) | apply keeps_modConn | refine keepsBlock_mk (fun _ _ _ => ?_) | intro _
    | split | apply keepsReply_mk

theorem keeps_wrArrives (h : Keeps q s) (a1 a2 a3 : _) : Keeps q (State.wrArrives s a1 a2 a3) := by
  unfold State.wrArrives
  repeat' with_reducible first
    | assumption | (extract_lets +onlyGivenNames x; refine (fun (hx : Keeps q x) => ?_) ?_; clear_value x; rotate_left; subst x)
    | (extract_lets +onlyGivenNames x; clear_value x) | apply keeps_modConn | apply keeps_settleClose | apply keeps_courierEntry
    | apply keeps_endSend | intro _ | split

theorem keeps_roceResponses (h : Keeps q s) (a1 a2 a3 : _) : Keeps q (State.roceResponses s a1 a2 a3) := by
  unfold State.roceResponses
  repeat' with_reducible first
    | assumption | (extract_lets +onlyGivenNames x; refine (fun (hx : Keeps q x) => ?_) ?_; clear_value x; rotate_left; subst x)
    | (extract_lets +onlyGivenNames x; clear_value x) | apply keeps_sendRoce | refine keeps_foldl ?_ (fun _ _ _ => ?_)

theorem keeps_courierBytes (h : Keeps q s) (a1 a2 a3 : _) : Keeps q (State.courierBytes s a1 a2 a3) := by
  unfold State.courierBytes
  repeat' with_reducible first
    | assumption | (extract_lets +onlyGivenNames x; refine (fun (hx : Keeps q x) => ?_) ?_; clear_value x; rotate_left; subst x)
    | (extract_lets +onlyGivenNames x; clear_value x) | apply keeps_sendRequest | apply keeps_modConn
    | apply keeps_roceResponses | apply keeps_sendMessage | intro _ | split

theorem keeps_sendCnp (h : Keeps q s) (a1 : _) : Keeps q (State.sendCnp s a1) := by
  unfold State.sendCnp
  repeat' with_reducible first
    | assumption | (extract_lets +onlyGivenNames x; refine (fun (hx : Keeps q x) => ?_) ?_; clear_value x; rotate_left; subst x)
    | (extract_lets +onlyGivenNames x; clear_value x) | apply keeps_sendRoce | apply keeps_modConn | intro _ | split

theorem keeps_goBack (h : Keeps q s) (a1 a2 : _) : Keeps q (State.goBack s a1 a2) := by
  unfold State.goBack
  repeat' with_reducible first
    | assumption | (extract_lets +onlyGivenNames x; refine (fun (hx : Keeps q x) => ?_) ?_; clear_value x; rotate_left; subst x)
    | (extract_lets +onlyGivenNames x; clear_value x) | apply keeps_modConn | apply keeps_transmit
    | refine keeps_foldl ?_ (fun _ _ _ => ?_)

theorem keeps_roceAcked (h : Keeps q s) (a1 a2 a3 : _) : Keeps q (State.roceAcked s a1 a2 a3) := by
  unfold State.roceAcked
  repeat' with_reducible first
    | assumption | (extract_lets +onlyGivenNames x; refine (fun (hx : Keeps q x) => ?_) ?_; clear_value x; rotate_left; subst x)
    | (extract_lets +onlyGivenNames x; clear_value x) | apply keeps_stopResend | apply keeps_endFlight | apply keeps_modConn
    | apply keeps_goBack | apply keeps_connError | refine keeps_foldl ?_ (fun _ _ _ => ?_) | intro _ | split

theorem keeps_roceReadData (h : Keeps q s) (a1 a2 : _) : Keeps q (State.roceReadData s a1 a2) := by
  unfold State.roceReadData
  repeat' with_reducible first
    | assumption | (extract_lets +onlyGivenNames x; refine (fun (hx : Keeps q x) => ?_) ?_; clear_value x; rotate_left; subst x)
    | (extract_lets +onlyGivenNames x; clear_value x) | apply keeps_endFlight | apply keeps_keyWrite | apply keeps_modConn
    | intro _ | split

theorem keeps_roceRefuse (h : Keeps q s) (a1 a2 a3 a4 : _) : Keeps q (State.roceRefuse s a1 a2 a3 a4) := by
  unfold State.roceRefuse
  repeat' with_reducible first
    | assumption | apply keeps_connError | apply keeps_roceAck

theorem keeps_psnOn (h : Keeps q s) (a1 a2 : _) : Keeps q (State.psnOn s a1 a2) := h

theorem keeps_roceRead (h : Keeps q s) (a1 a2 a3 : _) : Keeps q (State.roceRead s a1 a2 a3) := by
  unfold State.roceRead
  repeat' with_reducible first
    | assumption | (extract_lets +onlyGivenNames x; refine (fun (hx : Keeps q x) => ?_) ?_; clear_value x; rotate_left; subst x)
    | (extract_lets +onlyGivenNames x; refine (fun (hx : KeepsFst q x) => ?_) ?_; clear_value x; rotate_left; subst x)
    | (extract_lets +onlyGivenNames x; refine (fun (hx : KeepsSnd q x) => ?_) ?_; clear_value x; rotate_left; subst x)
    | (extract_lets +onlyGivenNames x; clear_value x) | apply keeps_modNet | apply keeps_roceRefuse | apply keeps_psnOn
    | apply keeps_modConn | apply keeps_guestRead | apply keeps_connError | apply keeps_roceAck | apply keeps_keyRead
    | apply keeps_roceResponses | intro _ | split | apply keepsFst_fst | refine keepsFst_of (by assumption) ?_
    | apply keepsSnd_snd | refine keepsSnd_of (by assumption) ?_

theorem keeps_roceTaken (h : Keeps q s) (a1 a2 a3 a4 a5 : _) : Keeps q (State.roceTaken s a1 a2 a3 a4 a5) := by
  unfold State.roceTaken
  repeat' with_reducible first
    | assumption | (extract_lets +onlyGivenNames x; refine (fun (hx : Keeps q x) => ?_) ?_; clear_value x; rotate_left; subst x)
    | (extract_lets +onlyGivenNames x; clear_value x) | apply keeps_psnOn | apply keeps_modConn | apply keeps_roceAck | intro _
    | split

theorem keeps_roceTally (h : Keeps q s) (a1 a2 a3 : _) : Keeps q (State.roceTally s a1 a2 a3) := by
  unfold State.roceTally
  repeat' with_reducible first
    | assumption | (extract_lets +onlyGivenNames x; refine (fun (hx : Keeps q x) => ?_) ?_; clear_value x; rotate_left; subst x)
    | apply keeps_placeTally | apply keeps_arrive | intro _ | split

theorem keeps_roceWrite (h : Keeps q s) (a1 a2 a3 a4 a5 a6 : _) : Keeps q (State.roceWrite s a1 a2 a3 a4 a5 a6) := by
  unfold State.roceWrite
  repeat' with_reducible first
    | assumption | (extract_lets +onlyGivenNames x; refine (fun (hx : Keeps q x) => ?_) ?_; clear_value x; rotate_left; subst x)
    | (extract_lets +onlyGivenNames x; clear_value x) | apply keeps_moduleAnchor | apply keeps_roceTaken
    | apply keeps_roceRefuse | apply keeps_modNet | apply keeps_roceTally | apply keeps_keyWrite | intro _ | split

theorem keeps_roceSend (h : Keeps q s) (a1 a2 a3 a4 a5 : _) : Keeps q (State.roceSend s a1 a2 a3 a4 a5) := by
  unfold State.roceSend
  repeat' with_reducible first
    | assumption | dsimp -zeta only
    | (extract_lets +onlyGivenNames x; refine (fun (hx : Keeps q x) => ?_) ?_; clear_value x; rotate_left; subst x)
    | (extract_lets +onlyGivenNames x; subst x) | apply keeps_roceAck | apply keeps_modConn | apply keeps_roceRefuse
    | apply keeps_courierEntry | apply keeps_keyWrite | apply keeps_roceTaken | intro _ | split

theorem keeps_roceData (h : Keeps q s) (a1 a2 a3 a4 a5 : _) : Keeps q (State.roceData s a1 a2 a3 a4 a5) := by
  unfold State.roceData
  repeat' with_reducible first
    | assumption | dsimp -zeta only
    | (extract_lets +onlyGivenNames x; refine (fun (hx : Keeps q x) => ?_) ?_; clear_value x; rotate_left; subst x)
    | (extract_lets +onlyGivenNames x; subst x) | apply keeps_roceRefuse | apply keeps_modNet | apply keeps_roceWrite
    | apply keeps_roceSend | intro _ | split

theorem keeps_roceArrives (h : Keeps q s) (a1 a2 a3 : _) : Keeps q (State.roceArrives s a1 a2 a3) := by
  unfold State.roceArrives
  repeat' with_reducible first
    | assumption | (extract_lets +onlyGivenNames x; refine (fun (hx : Keeps q x) => ?_) ?_; clear_value x; rotate_left; subst x)
    | (extract_lets +onlyGivenNames x; clear_value x) | apply keeps_modNet | apply keeps_sendCnp | apply keeps_modConn
    | apply keeps_roceAcked | apply keeps_roceReadData | apply keeps_roceAck | apply keeps_roceRead | apply keeps_roceData
    | apply keeps_roceRefuse | intro _ | split

theorem keeps_sendParts (h : Keeps q s) (a1 a2 : _) : Keeps q (State.sendParts s a1 a2) := by
  unfold State.sendParts
  repeat' with_reducible first
    | assumption | (extract_lets +onlyGivenNames x; refine (fun (hx : Keeps q x) => ?_) ?_; clear_value x; rotate_left; subst x)
    | (extract_lets +onlyGivenNames x; clear_value x) | apply keeps_modCmd | apply keeps_modNs | apply keeps_checkParts
    | intro _ | split

theorem keeps_blockResult (h : Keeps q s) (a1 a2 : _) : Keeps q (State.blockResult s a1 a2) := by
  unfold State.blockResult
  repeat' with_reducible first
    | assumption | (extract_lets +onlyGivenNames x; refine (fun (hx : Keeps q x) => ?_) ?_; clear_value x; rotate_left; subst x)
    | (extract_lets +onlyGivenNames x; clear_value x) | apply keeps_complete | apply keeps_modCmd | apply keeps_sendParts
    | apply keeps_finishRead | intro _ | split

theorem keeps_storageEvent (h : Keeps q s) (a1 a2 a3 a4 a5 a6 a7 a8 : _) : Keeps q (State.storageEvent s a1 a2 a3 a4 a5 a6 a7 a8) := h

theorem keeps_failPair (h : Keeps q s) (a1 a2 : _) : Keeps q (State.failPair s a1 a2) := by
  unfold State.failPair
  repeat' with_reducible first
    | assumption | (extract_lets +onlyGivenNames x; refine (fun (hx : Keeps q x) => ?_) ?_; clear_value x; rotate_left; subst x)
    | (extract_lets +onlyGivenNames x; clear_value x) | apply keeps_modPair | apply keeps_storageEvent | intro _ | split

theorem keeps_interruptStorage (h : Keeps q s) : Keeps q (State.interruptStorage s) := by
  unfold State.interruptStorage
  repeat' with_reducible first
    | assumption | (extract_lets +onlyGivenNames x; refine (fun (hx : Keeps q x) => ?_) ?_; clear_value x; rotate_left; subst x)
    | (extract_lets +onlyGivenNames x; clear_value x) | apply keeps_complete | refine keeps_foldl ?_ (fun _ _ _ => ?_) | intro _
    | apply keeps_mk | apply Keeps.pending | apply Keeps.cells

theorem keeps_holdPairs (h : Keeps q s) (a1 : _) : Keeps q (State.holdPairs s a1) := h

theorem keeps_dropDriveParts (h : Keeps q s) (a1 : _) : Keeps q (State.dropDriveParts s a1) := by
  unfold State.dropDriveParts
  repeat' with_reducible first
    | assumption | apply keeps_dropParts

theorem keeps_loseDrive (h : Keeps q s) (a1 : _) : Keeps q (State.loseDrive s a1) := by
  unfold State.loseDrive
  repeat' with_reducible first
    | assumption | (extract_lets +onlyGivenNames x; refine (fun (hx : Keeps q x) => ?_) ?_; clear_value x; rotate_left; subst x)
    | (extract_lets +onlyGivenNames x; clear_value x) | apply keeps_storageEvent | apply keeps_modNs
    | refine keeps_foldl ?_ (fun _ _ _ => ?_) | intro _ | split

theorem keeps_keyLoadBlock : KeepsBlock q keyLoadBlock := by
  unfold keyLoadBlock
  repeat' with_reducible first
    | assumption | (extract_lets +onlyGivenNames x; refine (fun (hx : Keeps q x) => ?_) ?_; clear_value x; rotate_left; subst x)
    | (extract_lets +onlyGivenNames x; clear_value x) | apply keeps_modCipher | refine keepsBlock_mk (fun _ _ _ => ?_) | intro _
    | split | apply keepsReply_mk

theorem keeps_cipherEvent (h : Keeps q s) (a1 a2 a3 a4 a5 a6 a7 : _) : Keeps q (State.cipherEvent s a1 a2 a3 a4 a5 a6 a7) := h

theorem keeps_freeUp (h : Keeps q s) (a1 : _) : Keeps q (State.freeUp s a1) := h

theorem keeps_endRun (h : Keeps q s) (a1 a2 a3 a4 : _) : Keeps q (State.endRun s a1 a2 a3 a4) := by
  unfold State.endRun
  repeat' with_reducible first
    | assumption | (extract_lets +onlyGivenNames x; refine (fun (hx : Keeps q x) => ?_) ?_; clear_value x; rotate_left; subst x)
    | (extract_lets +onlyGivenNames x; clear_value x) | apply keeps_modCipher | apply keeps_cipherEvent | apply keeps_freeUp
    | intro _ | split

theorem keeps_cutRun (h : Keeps q s) (a1 a2 a3 : _) : Keeps q (State.cutRun s a1 a2 a3) := by
  unfold State.cutRun
  repeat' with_reducible first
    | assumption | (extract_lets +onlyGivenNames x; refine (fun (hx : Keeps q x) => ?_) ?_; clear_value x; rotate_left; subst x)
    | (extract_lets +onlyGivenNames x; refine (fun (hx : KeepsSnd q x) => ?_) ?_; clear_value x; rotate_left; subst x)
    | (extract_lets +onlyGivenNames x; clear_value x) | apply keeps_freeBytes | apply keeps_memWrite | apply keeps_endRun
    | intro _ | split | apply keepsSnd_snd | refine keepsSnd_of (by assumption) ?_ | apply keeps_mk | apply Keeps.pending
    | apply Keeps.cells

theorem keeps_stopEngines (h : Keeps q s) : Keeps q (State.stopEngines s) := by
  unfold State.stopEngines
  repeat' with_reducible first
    | assumption | (extract_lets +onlyGivenNames x; refine (fun (hx : Keeps q x) => ?_) ?_; clear_value x; rotate_left; subst x)
    | (extract_lets +onlyGivenNames x; clear_value x) | apply keeps_cutRun | apply keeps_modCipher
    | refine keeps_foldl ?_ (fun _ _ _ => ?_) | intro _ | split

theorem keeps_kekInstallBlock : KeepsBlock q kekInstallBlock := by
  unfold kekInstallBlock
  repeat' with_reducible first
    | assumption | (extract_lets +onlyGivenNames x; refine (fun (hx : Keeps q x) => ?_) ?_; clear_value x; rotate_left; subst x)
    | (extract_lets +onlyGivenNames x; clear_value x) | apply keeps_modCipher | refine keepsBlock_mk (fun _ _ _ => ?_) | intro _
    | apply keepsReply_mk

theorem keeps_pumpFuel (h : Keeps q s) (a0 : _) : Keeps q (State.pumpFuel a0 s) := by
  induction a0 generalizing s  with
  | zero => exact h
  | succ f ih =>
    unfold State.pumpFuel
    repeat' with_reducible first
      | assumption | apply ih
      | (extract_lets +onlyGivenNames x; refine (fun (hx : Keeps q x) => ?_) ?_; clear_value x; rotate_left; subst x)
      | (extract_lets +onlyGivenNames x; clear_value x) | apply keeps_modCipher | apply keeps_modEngine | intro _ | split

theorem keeps_clearSlot (h : Keeps q s) (a1 : _) : Keeps q (State.clearSlot s a1) := by
  unfold State.clearSlot
  repeat' with_reducible first
    | assumption | (extract_lets +onlyGivenNames x; refine (fun (hx : Keeps q x) => ?_) ?_; clear_value x; rotate_left; subst x)
    | (extract_lets +onlyGivenNames x; clear_value x) | apply keeps_modCipher

theorem keeps_pump (h : Keeps q s) : Keeps q (State.pump s) := by
  unfold State.pump
  repeat' with_reducible first
    | assumption | apply keeps_pumpFuel

theorem keeps_runDone (h : Keeps q s) (a1 : _) : Keeps q (State.runDone s a1) := by
  unfold State.runDone
  repeat' with_reducible first
    | assumption | dsimp -zeta only
    | (extract_lets +onlyGivenNames x; refine (fun (hx : Keeps q x) => ?_) ?_; clear_value x; rotate_left; subst x)
    | (extract_lets +onlyGivenNames x; subst x) | apply keeps_memRead | apply keeps_guestFault | apply keeps_memWrite
    | apply keeps_pump | apply keeps_endRun | intro _ | split | apply keepsThird_snd

theorem keeps_cipherRunBlock : KeepsBlock q cipherRunBlock := by
  unfold cipherRunBlock
  repeat' with_reducible first
    | assumption | (extract_lets +onlyGivenNames x; refine (fun (hx : Keeps q x) => ?_) ?_; clear_value x; rotate_left; subst x)
    | (extract_lets +onlyGivenNames x; refine (fun (hx : KeepsReply q x) => ?_) ?_; clear_value x; rotate_left; subst x)
    | (extract_lets +onlyGivenNames x; clear_value x) | apply keeps_deferred | apply keeps_pump | apply keeps_modCipher
    | refine keepsBlock_mk (fun _ _ _ => ?_)

theorem keeps_blockDone (h : Keeps q s) (a1 : _) : Keeps q (State.blockDone s a1) := by
  unfold State.blockDone
  repeat' with_reducible first
    | assumption | (extract_lets +onlyGivenNames x; refine (fun (hx : Keeps q x) => ?_) ?_; clear_value x; rotate_left; subst x)
    | (extract_lets +onlyGivenNames x; clear_value x) | apply keeps_pump | apply keeps_blockResult | apply keeps_freeUp
    | intro _ | split

theorem keeps_zeroise (h : Keeps q s) : Keeps q (State.zeroise s) := by
  unfold State.zeroise
  repeat' with_reducible first
    | assumption | (extract_lets +onlyGivenNames x; refine (fun (hx : Keeps q x) => ?_) ?_; clear_value x; rotate_left; subst x)
    | (extract_lets +onlyGivenNames x; clear_value x) | apply keeps_modCipher | apply keeps_cutRun | apply keeps_blockResult
    | apply keeps_freeUp | apply keeps_pump | refine keeps_foldl ?_ (fun _ _ _ => ?_) | intro _ | split

theorem keeps_alarm (h : Keeps q s) (a1 : _) : Keeps q (State.alarm s a1) := by
  unfold State.alarm
  repeat' with_reducible first
    | assumption | (extract_lets +onlyGivenNames x; refine (fun (hx : Keeps q x) => ?_) ?_; clear_value x; rotate_left; subst x)
    | (extract_lets +onlyGivenNames x; clear_value x) | apply keeps_modCipher | apply keeps_cipherEvent | apply keeps_zeroise
    | apply keeps_fireAll | intro _ | split

theorem keeps_keyFetched (h : Keeps q s) (a1 : _) : Keeps q (State.keyFetched s a1) := by
  unfold State.keyFetched
  repeat' with_reducible first
    | assumption | (extract_lets +onlyGivenNames x; refine (fun (hx : Keeps q x) => ?_) ?_; clear_value x; rotate_left; subst x)
    | (extract_lets +onlyGivenNames x; clear_value x) | apply keeps_modEngine | apply keeps_pump | apply keeps_endRun
    | apply keeps_blockResult | apply keeps_freeUp | intro _ | split

theorem keeps_keyIdentityBlock : KeepsBlock q keyIdentityBlock := by
  unfold keyIdentityBlock
  repeat' with_reducible first
    | assumption | (extract_lets +onlyGivenNames x; refine (fun (hx : Keeps q x) => ?_) ?_; clear_value x; rotate_left; subst x)
    | (extract_lets +onlyGivenNames x; clear_value x) | refine keepsBlock_mk (fun _ _ _ => ?_) | intro _ | apply keepsReply_mk

theorem keeps_clearRoomSlots (h : Keeps q s) (a1 : _) : Keeps q (State.clearRoomSlots s a1) := by
  unfold State.clearRoomSlots
  repeat' with_reducible first
    | assumption | apply keeps_clearSlot | refine keeps_foldl ?_ (fun _ _ _ => ?_)

theorem keeps_keyClearBlock : KeepsBlock q keyClearBlock := by
  unfold keyClearBlock
  repeat' with_reducible first
    | assumption | (extract_lets +onlyGivenNames x; refine (fun (hx : Keeps q x) => ?_) ?_; clear_value x; rotate_left; subst x)
    | (extract_lets +onlyGivenNames x; clear_value x) | apply keeps_clearSlot | apply keeps_modCipher
    | refine keepsBlock_mk (fun _ _ _ => ?_) | intro _ | split | apply keepsReply_mk

theorem keeps_keyClearDone (h : Keeps q s) (a1 : _) : Keeps q (State.keyClearDone s a1) := by
  unfold State.keyClearDone
  repeat' with_reducible first
    | assumption | (extract_lets +onlyGivenNames x; refine (fun (hx : Keeps q x) => ?_) ?_; clear_value x; rotate_left; subst x)
    | (extract_lets +onlyGivenNames x; clear_value x) | apply keeps_modCipher | apply keeps_respond | apply keeps_finish
    | intro _ | split

theorem keeps_endWaiting (h : Keeps q s) : Keeps q (State.endWaiting s) := by
  unfold State.endWaiting
  repeat' with_reducible first
    | assumption | (extract_lets +onlyGivenNames x; refine (fun (hx : Keeps q x) => ?_) ?_; clear_value x; rotate_left; subst x)
    | (extract_lets +onlyGivenNames x; clear_value x) | apply keeps_modCipher | apply keeps_cipherEvent
    | refine keeps_foldl ?_ (fun _ _ _ => ?_)

theorem keeps_entryArrives (h : Keeps q s) (a1 a2 : _) : Keeps q (State.entryArrives s a1 a2) := by
  unfold State.entryArrives
  repeat' with_reducible first
    | assumption | dsimp -zeta only
    | (extract_lets +onlyGivenNames x; refine (fun (hx : Keeps q x) => ?_) ?_; clear_value x; rotate_left; subst x)
    | (extract_lets +onlyGivenNames x; subst x) | apply keeps_modPair | apply keeps_complete | intro _ | split

theorem keeps_command (h : Keeps q s) (a1 a2 a3 a4 a5 : _) (h5 : ∀ c s, Keeps q s → Keeps q (a5 c s)) : Keeps q (State.command s a1 a2 a3 a4 a5) := by
  unfold State.command
  repeat' with_reducible first
    | assumption | (extract_lets +onlyGivenNames x; refine (fun (hx : Keeps q x) => ?_) ?_; clear_value x; rotate_left; subst x)
    | (extract_lets +onlyGivenNames x; clear_value x) | apply keeps_pump | intro _ | split | apply h5

theorem keeps_writeData (h : Keeps q s) (a1 a2 a3 : _) : Keeps q (State.writeData s a1 a2 a3) := by
  unfold State.writeData
  repeat' with_reducible first
    | assumption | (extract_lets +onlyGivenNames x; refine (fun (hx : Keeps q x) => ?_) ?_; clear_value x; rotate_left; subst x)
    | (extract_lets +onlyGivenNames x; clear_value x) | apply keeps_modCmd | apply keeps_cipherCmd | apply keeps_sendParts
    | intro _ | split

theorem keeps_proceed (h : Keeps q s) (a1 a2 a3 : _) : Keeps q (State.proceed s a1 a2 a3) := by
  unfold State.proceed
  repeat' with_reducible first
    | assumption | (extract_lets +onlyGivenNames x; refine (fun (hx : Keeps q x) => ?_) ?_; clear_value x; rotate_left; subst x)
    | (extract_lets +onlyGivenNames x; refine (fun (hx : KeepsFst q x) => ?_) ?_; clear_value x; rotate_left; subst x)
    | (extract_lets +onlyGivenNames x; clear_value x) | apply keeps_dataOut | apply keeps_modGuest | apply keeps_complete
    | apply keeps_writeData | apply keeps_sendParts | apply keeps_modCmd | intro _ | split | apply keepsFst_fst

theorem keeps_pagesKnown (h : Keeps q s) (a1 a2 : _) : Keeps q (State.pagesKnown s a1 a2) := by
  unfold State.pagesKnown
  repeat' with_reducible first
    | assumption | (extract_lets +onlyGivenNames x; refine (fun (hx : Keeps q x) => ?_) ?_; clear_value x; rotate_left; subst x)
    | (extract_lets +onlyGivenNames x; refine (fun (hx : KeepsFst q x) => ?_) ?_; clear_value x; rotate_left; subst x)
    | (extract_lets +onlyGivenNames x; clear_value x) | apply keeps_complete | apply keeps_guestRead | apply keeps_proceed
    | refine keeps_foldl ?_ (fun _ _ _ => ?_) | intro _ | split | apply keepsFst_fst

theorem keeps_judged (h : Keeps q s) (a1 a2 : _) : Keeps q (State.judged s a1 a2) := by
  unfold State.judged
  repeat' with_reducible first
    | assumption | apply keeps_complete | apply keeps_pagesKnown | intro _ | split

theorem keeps_fetchList (h : Keeps q s) (a1 a2 a3 : _) : Keeps q (State.fetchList s a1 a2 a3) := by
  unfold State.fetchList
  repeat' with_reducible first
    | assumption | (extract_lets +onlyGivenNames x; refine (fun (hx : Keeps q x) => ?_) ?_; clear_value x; rotate_left; subst x)
    | (extract_lets +onlyGivenNames x; refine (fun (hx : KeepsFst q x) => ?_) ?_; clear_value x; rotate_left; subst x)
    | (extract_lets +onlyGivenNames x; clear_value x) | apply keeps_guestRead | apply keeps_complete | intro _ | split
    | apply keepsFst_fst | refine keepsFst_of (by assumption) ?_

theorem keeps_startCmd (h : Keeps q s) (a1 a2 : _) : Keeps q (State.startCmd s a1 a2) := by
  unfold State.startCmd
  repeat' with_reducible first
    | assumption | (extract_lets +onlyGivenNames x; refine (fun (hx : Keeps q x) => ?_) ?_; clear_value x; rotate_left; subst x)
    | (extract_lets +onlyGivenNames x; clear_value x) | apply keeps_complete | apply keeps_modCmd | apply keeps_judged
    | apply keeps_fetchList | intro _ | split

theorem keeps_drainPair (h : Keeps q s) (a1 a2 a3 : _) : Keeps q (State.drainPair s a1 a2 a3) := by
  unfold State.drainPair
  repeat' with_reducible first
    | assumption | (extract_lets +onlyGivenNames x; refine (fun (hx : Keeps q x) => ?_) ?_; clear_value x; rotate_left; subst x)
    | (extract_lets +onlyGivenNames x; clear_value x) | apply keeps_modPair | apply keeps_complete | apply keeps_disown
    | apply keeps_modGuest | refine keeps_foldl ?_ (fun _ _ _ => ?_) | intro _ | split

theorem keeps_queueDeleteBlock : KeepsBlock q queueDeleteBlock := by
  unfold queueDeleteBlock
  repeat' with_reducible first
    | assumption | apply keeps_deferred | apply keeps_drainPair | refine keepsBlock_mk (fun _ _ _ => ?_) | intro _ | split

theorem keeps_bar2 (h : Keeps q s) (a1 a2 a3 : _) (h3 : ∀ s, Keeps q s → Keeps q (a3 s)) : Keeps q (State.bar2 s a1 a2 a3) := by
  unfold State.bar2
  repeat' with_reducible first
    | assumption | apply keeps_unsupported | intro _ | split | apply h3

theorem keeps_pageFails (h : Keeps q s) (a1 a2 : _) : Keeps q (State.pageFails s a1 a2) := by
  unfold State.pageFails
  repeat' with_reducible first
    | assumption | apply keeps_complete | intro _ | split

theorem keeps_dropped (h : Keeps q s) (a1 : _) : Keeps q (State.dropped s a1) := h

theorem keeps_badDoorbell (h : Keeps q s) : Keeps q (State.badDoorbell s) := h

theorem keeps_sqTail (h : Keeps q s) (a1 a2 a3 : _) : Keeps q (State.sqTail s a1 a2 a3) := by
  unfold State.sqTail
  repeat' with_reducible first
    | assumption | apply keeps_dropped | apply keeps_modPair | apply keeps_badDoorbell | intro _ | split

theorem keeps_pageArrives (h : Keeps q s) (a1 a2 a3 a4 : _) : Keeps q (State.pageArrives s a1 a2 a3 a4) := by
  unfold State.pageArrives
  repeat' with_reducible first
    | assumption | (extract_lets +onlyGivenNames x; refine (fun (hx : Keeps q x) => ?_) ?_; clear_value x; rotate_left; subst x)
    | (extract_lets +onlyGivenNames x; clear_value x) | apply keeps_modCmd | apply keeps_pump | apply keeps_proceed | intro _
    | split

theorem keeps_nsDeleteDone (h : Keeps q s) (a1 a2 : _) : Keeps q (State.nsDeleteDone s a1 a2) := by
  unfold State.nsDeleteDone
  repeat' with_reducible first
    | assumption | (extract_lets +onlyGivenNames x; refine (fun (hx : Keeps q x) => ?_) ?_; clear_value x; rotate_left; subst x)
    | (extract_lets +onlyGivenNames x; clear_value x) | apply keeps_modStorage | apply keeps_modGuest | apply keeps_complete
    | apply keeps_storageEvent | intro _ | split

theorem keeps_nsDeleteBlock : KeepsBlock q nsDeleteBlock := by
  unfold nsDeleteBlock
  repeat' with_reducible first
    | assumption | apply keeps_deferred | apply keeps_modNs | refine keepsBlock_mk (fun _ _ _ => ?_)

theorem keeps_cqHead (h : Keeps q s) (a1 a2 a3 : _) : Keeps q (State.cqHead s a1 a2 a3) := by
  unfold State.cqHead
  repeat' with_reducible first
    | assumption | (extract_lets +onlyGivenNames x; refine (fun (hx : Keeps q x) => ?_) ?_; clear_value x; rotate_left; subst x)
    | (extract_lets +onlyGivenNames x; clear_value x) | apply keeps_dropped | apply keeps_modPair | apply keeps_badDoorbell
    | intro _ | split

theorem keeps_queueDeleteDone (h : Keeps q s) (a1 : _) : Keeps q (State.queueDeleteDone s a1) := by
  unfold State.queueDeleteDone
  repeat' with_reducible first
    | assumption | (extract_lets +onlyGivenNames x; refine (fun (hx : Keeps q x) => ?_) ?_; clear_value x; rotate_left; subst x)
    | (extract_lets +onlyGivenNames x; clear_value x) | apply keeps_modPair | apply keeps_modStorage | apply keeps_storageEvent
    | intro _ | split

theorem keeps_nsCreateBlock : KeepsBlock q nsCreateBlock := by
  unfold nsCreateBlock
  repeat' with_reducible first
    | assumption | (extract_lets +onlyGivenNames x; refine (fun (hx : Keeps q x) => ?_) ?_; clear_value x; rotate_left; subst x)
    | (extract_lets +onlyGivenNames x; clear_value x) | apply keeps_modStorage | refine keepsBlock_mk (fun _ _ _ => ?_)
    | intro _ | split | apply keepsReply_mk

theorem keeps_listFails (h : Keeps q s) (a1 a2 : _) : Keeps q (State.listFails s a1 a2) := by
  unfold State.listFails
  repeat' with_reducible first
    | assumption | apply keeps_complete | intro _ | split

theorem keeps_queueCreateBlock : KeepsBlock q queueCreateBlock := by
  unfold queueCreateBlock
  repeat' with_reducible first
    | assumption | apply keeps_modPair | refine keepsBlock_mk (fun _ _ _ => ?_) | intro _ | split | apply keepsReply_mk

theorem keeps_cqPost (h : Keeps q s) (a1 : _) : Keeps q (State.cqPost s a1) := by
  unfold State.cqPost
  repeat' with_reducible first
    | assumption | dsimp -zeta only
    | (extract_lets +onlyGivenNames x; refine (fun (hx : Keeps q x) => ?_) ?_; clear_value x; rotate_left; subst x)
    | (extract_lets +onlyGivenNames x; subst x) | apply keeps_failPair | apply keeps_guestWrite | apply keeps_modPair
    | apply keeps_raiseVector | intro _ | split

theorem keeps_listArrives (h : Keeps q s) (a1 a2 a3 : _) : Keeps q (State.listArrives s a1 a2 a3) := by
  unfold State.listArrives
  repeat' with_reducible first
    | assumption | (extract_lets +onlyGivenNames x; refine (fun (hx : Keeps q x) => ?_) ?_; clear_value x; rotate_left; subst x)
    | (extract_lets +onlyGivenNames x; clear_value x) | apply keeps_complete | apply keeps_modCmd | apply keeps_fetchList
    | apply keeps_judged | intro _ | split

theorem keeps_sqFetch (h : Keeps q s) : Keeps q (State.sqFetch s) := by
  unfold State.sqFetch
  repeat' with_reducible first
    | assumption | (extract_lets +onlyGivenNames x; refine (fun (hx : Keeps q x) => ?_) ?_; clear_value x; rotate_left; subst x)
    | (extract_lets +onlyGivenNames x; refine (fun (hx : KeepsFst q x) => ?_) ?_; clear_value x; rotate_left; subst x)
    | (extract_lets +onlyGivenNames x; clear_value x) | apply keeps_modStorage | apply keeps_modGuest | apply keeps_guestRead
    | apply keeps_modPair | apply keeps_failPair | intro _ | split | apply keepsFst_fst | refine keepsFst_of (by assumption) ?_

theorem keeps_ledgerExportBlock : KeepsBlock q ledgerExportBlock := by
  unfold ledgerExportBlock
  repeat' with_reducible first
    | assumption | (extract_lets +onlyGivenNames x; refine (fun (hx : Keeps q x) => ?_) ?_; clear_value x; rotate_left; subst x)
    | (extract_lets +onlyGivenNames x; refine (fun (hx : KeepsReply q x) => ?_) ?_; clear_value x; rotate_left; subst x)
    | (extract_lets +onlyGivenNames x; clear_value x) | apply keeps_deferred | apply keeps_modLedger
    | refine keepsBlock_mk (fun _ _ _ => ?_) | intro _ | split

theorem keeps_stepJob (h : Keeps q s) (a1 : _) : Keeps q (State.stepJob s a1) := by
  unfold State.stepJob
  repeat' with_reducible first
    | assumption | (extract_lets +onlyGivenNames x; refine (fun (hx : Keeps q x) => ?_) ?_; clear_value x; rotate_left; subst x)
    | (extract_lets +onlyGivenNames x; clear_value x) | apply keeps_modJob | apply keeps_modGuest | intro _ | split

theorem keeps_barrierComplete (h : Keeps q s) (a1 : _) : Keeps q (State.barrierComplete s a1) := by
  unfold State.barrierComplete
  repeat' with_reducible first
    | assumption | (extract_lets +onlyGivenNames x; refine (fun (hx : Keeps q x) => ?_) ?_; clear_value x; rotate_left; subst x)
    | (extract_lets +onlyGivenNames x; clear_value x) | apply keeps_advance | apply keeps_modGuest | apply keeps_stepJob
    | refine keeps_foldl ?_ (fun _ _ _ => ?_) | intro _ | split

theorem keeps_ledgerPoolBlock : KeepsBlock q ledgerPoolBlock := by
  unfold ledgerPoolBlock
  repeat' with_reducible first
    | assumption | (extract_lets +onlyGivenNames x; refine (fun (hx : Keeps q x) => ?_) ?_; clear_value x; rotate_left; subst x)
    | (extract_lets +onlyGivenNames x; clear_value x) | apply keeps_modGuest | refine keepsBlock_mk (fun _ _ _ => ?_) | intro _
    | split | apply keepsReply_mk

theorem keeps_freeLedger (h : Keeps q s) (a1 : _) : Keeps q (State.freeLedger s a1) := by
  unfold State.freeLedger
  repeat' with_reducible first
    | assumption | (extract_lets +onlyGivenNames x; refine (fun (hx : Keeps q x) => ?_) ?_; clear_value x; rotate_left; subst x)
    | (extract_lets +onlyGivenNames x; clear_value x) | apply keeps_giveRun | apply keeps_modGuest | apply keeps_modLedgers
    | apply keeps_unfull | refine keeps_foldl ?_ (fun _ _ _ => ?_) | intro _ | split | apply keeps_mk | apply Keeps.pending
    | apply Keeps.cells

theorem keeps_tryDelete (h : Keeps q s) (a1 : _) : Keeps q (State.tryDelete s a1) := by
  unfold State.tryDelete
  repeat' with_reducible first
    | assumption | (extract_lets +onlyGivenNames x; refine (fun (hx : Keeps q x) => ?_) ?_; clear_value x; rotate_left; subst x)
    | (extract_lets +onlyGivenNames x; clear_value x) | apply keeps_freeLedger | apply keeps_respond | apply keeps_finish
    | intro _ | split

theorem keeps_deleteLedgers (h : Keeps q s) (a1 : _) : Keeps q (State.deleteLedgers s a1) := by
  unfold State.deleteLedgers
  repeat' with_reducible first
    | assumption | apply keeps_tryDelete | apply keeps_modLedger | refine keeps_foldl ?_ (fun _ _ _ => ?_)

theorem keeps_makeLedger (h : Keeps q s) (a1 a2 a3 a4 : _) : KeepsOptSnd q (State.makeLedger s a1 a2 a3 a4) := by
  unfold State.makeLedger
  repeat' with_reducible first
    | assumption | (extract_lets +onlyGivenNames x; refine (fun (hx : Keeps q x) => ?_) ?_; clear_value x; rotate_left; subst x)
    | (extract_lets +onlyGivenNames x; clear_value x) | apply keeps_modGuest | apply keeps_modLedgers | apply keeps_memZero
    | apply keeps_setRun | apply keeps_clearTail | refine keeps_foldl ?_ (fun _ _ _ => ?_) | exact keepsOptSnd_none
    | apply keepsOptSnd_some | intro _ | split

theorem keeps_deliverHandle (h : Keeps q s) (a1 a2 a3 a4 : _) : Keeps q (State.deliverHandle s a1 a2 a3 a4) := h

theorem keeps_ledgerCreateBlock : KeepsBlock q ledgerCreateBlock := by
  unfold ledgerCreateBlock
  repeat' with_reducible first
    | assumption | apply keeps_makeLedger | apply keeps_deliverHandle | refine keepsBlock_mk (fun _ _ _ => ?_) | intro _ | split
    | apply keepsReply_mk | refine keepsOptSnd_of (by assumption) ?_

theorem keeps_engineDone (h : Keeps q s) (a1 a2 : _) : Keeps q (State.engineDone s a1 a2) := by
  unfold State.engineDone
  repeat' with_reducible first
    | assumption | (extract_lets +onlyGivenNames x; refine (fun (hx : Keeps q x) => ?_) ?_; clear_value x; rotate_left; subst x)
    | (extract_lets +onlyGivenNames x; clear_value x) | apply keeps_modTile | apply keeps_tryDelete | apply keeps_appendDone
    | apply keeps_streamDone | intro _ | split

theorem keeps_ledgerQueryBlock : KeepsBlock q ledgerQueryBlock := by
  unfold ledgerQueryBlock
  repeat' with_reducible first
    | assumption | (extract_lets +onlyGivenNames x; refine (fun (hx : Keeps q x) => ?_) ?_; clear_value x; rotate_left; subst x)
    | (extract_lets +onlyGivenNames x; clear_value x) | refine keepsBlock_mk (fun _ _ _ => ?_) | intro _ | split
    | apply keepsReply_mk

theorem keeps_barrierRelease (h : Keeps q s) (a1 : _) : Keeps q (State.barrierRelease s a1) := by
  unfold State.barrierRelease
  repeat' with_reducible first
    | assumption | (extract_lets +onlyGivenNames x; refine (fun (hx : Keeps q x) => ?_) ?_; clear_value x; rotate_left; subst x)
    | (extract_lets +onlyGivenNames x; clear_value x) | apply keeps_modCtx | apply keeps_modJob | apply keeps_breakJob
    | apply keeps_modGuest | refine keeps_foldl ?_ (fun _ _ _ => ?_) | intro _ | split

theorem keeps_ledgerDeleteBlock : KeepsBlock q ledgerDeleteBlock := by
  unfold ledgerDeleteBlock
  repeat' with_reducible first
    | assumption | apply keeps_freeLedger | apply keeps_modLedger | refine keepsBlock_mk (fun _ _ _ => ?_) | intro _ | split
    | apply keepsReply_mk

theorem keeps_ledgerIdleBlock : KeepsBlock q ledgerIdleBlock := by
  unfold ledgerIdleBlock
  repeat' with_reducible first
    | assumption | apply keeps_modGuest | refine keepsBlock_mk (fun _ _ _ => ?_) | intro _ | apply keepsReply_mk

theorem keeps_ledgerImportBlock : KeepsBlock q ledgerImportBlock := by
  unfold ledgerImportBlock
  repeat' with_reducible first
    | assumption | (extract_lets +onlyGivenNames x; refine (fun (hx : Keeps q x) => ?_) ?_; clear_value x; rotate_left; subst x)
    | (extract_lets +onlyGivenNames x; refine (fun (hx : KeepsReply q x) => ?_) ?_; clear_value x; rotate_left; subst x)
    | (extract_lets +onlyGivenNames x; clear_value x) | apply keeps_makeLedger | apply keeps_deferred | apply keeps_modGuest
    | apply keeps_memRead | refine keepsBlock_mk (fun _ _ _ => ?_) | intro _ | split | apply keepsReply_mk
    | refine keepsOptSnd_of (by assumption) ?_ | apply keepsThird_snd

theorem keeps_exportDone (h : Keeps q s) (a1 : _) : Keeps q (State.exportDone s a1) := by
  unfold State.exportDone
  repeat' with_reducible first
    | assumption | (extract_lets +onlyGivenNames x; refine (fun (hx : Keeps q x) => ?_) ?_; clear_value x; rotate_left; subst x)
    | (extract_lets +onlyGivenNames x; clear_value x) | apply keeps_memRead | apply keeps_memWrite | apply keeps_modLedger
    | apply keeps_ledgerEvent | refine keeps_foldl ?_ (fun _ _ _ => ?_) | intro _ | split | apply keepsFst_mk
    | apply keepsSnd_mk | apply keepsThird_mk | apply keepsThird_snd

theorem keeps_importDone (h : Keeps q s) (a1 : _) : Keeps q (State.importDone s a1) := by
  unfold State.importDone
  repeat' with_reducible first
    | assumption | dsimp -zeta only
    | (extract_lets +onlyGivenNames x; refine (fun (hx : Keeps q x) => ?_) ?_; clear_value x; rotate_left; subst x)
    | (extract_lets +onlyGivenNames x; subst x) | apply keeps_modGuest | apply keeps_memRead | apply keeps_ledgerEvent
    | apply keeps_makeLedger | apply keeps_memWrite | apply keeps_setRun | apply keeps_clearTail | apply keeps_takeRun
    | apply keeps_modLedger | apply keeps_deliverHandle | refine keeps_foldl ?_ (fun _ _ _ => ?_) | intro _ | split
    | apply keepsThird_snd | refine keepsThird_of (by assumption) ?_ | refine keepsOptSnd_of (by assumption) ?_

theorem keeps_ledgerMoveBlock : KeepsBlock q ledgerMoveBlock := by
  unfold ledgerMoveBlock
  repeat' with_reducible first
    | assumption | apply keeps_deferred | apply keeps_startMove | refine keepsBlock_mk (fun _ _ _ => ?_) | intro _ | split

theorem keeps_jobEndBlock : KeepsBlock q jobEndBlock := by
  unfold jobEndBlock
  repeat' with_reducible first
    | assumption | apply keeps_deferred | apply keeps_endAtRest | apply keeps_haltToEnd | refine keepsBlock_mk (fun _ _ _ => ?_)

theorem keeps_modDigest (h : Keeps q s) (a1 a2 a3 : _) : Keeps q (State.modDigest s a1 a2 a3) := by
  unfold State.modDigest
  repeat' with_reducible first
    | assumption | apply keeps_modGuest

theorem keeps_passportEvent (h : Keeps q s) (a1 a2 a3 a4 a5 a6 a7 : _) : Keeps q (State.passportEvent s a1 a2 a3 a4 a5 a6 a7) := h

theorem keeps_digestDone (h : Keeps q s) (a1 a2 : _) : Keeps q (State.digestDone s a1 a2) := by
  unfold State.digestDone
  repeat' with_reducible first
    | assumption | (extract_lets +onlyGivenNames x; refine (fun (hx : Keeps q x) => ?_) ?_; clear_value x; rotate_left; subst x)
    | (extract_lets +onlyGivenNames x; refine (fun (hx : KeepsSnd q x) => ?_) ?_; clear_value x; rotate_left; subst x)
    | (extract_lets +onlyGivenNames x; clear_value x) | apply keeps_engineRead | apply keeps_engineWrite | apply keeps_freeBytes
    | apply keeps_modDigest | apply keeps_passportEvent | refine keeps_foldl ?_ (fun _ _ _ => ?_) | intro _ | split
    | apply keepsFst_mk | apply keepsSnd_mk | apply keepsThird_mk | apply keepsSnd_snd

theorem keeps_lendRows (h : Keeps q s) (a1 a2 : _) : Keeps q (State.lendRows s a1 a2) := by
  unfold State.lendRows
  repeat' with_reducible first
    | assumption | (extract_lets +onlyGivenNames x; refine (fun (hx : Keeps q x) => ?_) ?_; clear_value x; rotate_left; subst x)
    | (extract_lets +onlyGivenNames x; clear_value x) | apply keeps_modMesh | apply keeps_breakAll | intro _ | split

theorem keeps_drawDone (h : Keeps q s) (a1 : _) : Keeps q (State.drawDone s a1) := by
  unfold State.drawDone
  repeat' with_reducible first
    | assumption | (extract_lets +onlyGivenNames x; refine (fun (hx : Keeps q x) => ?_) ?_; clear_value x; rotate_left; subst x)
    | (extract_lets +onlyGivenNames x; clear_value x) | apply keeps_modTile | apply keeps_arriveBytes | apply keeps_modLedgers
    | apply keeps_arrive | intro _ | split

theorem keeps_jobBegins (h : Keeps q s) (a1 : _) : Keeps q (State.jobBegins s a1) := by
  unfold State.jobBegins
  repeat' with_reducible first
    | assumption | (extract_lets +onlyGivenNames x; refine (fun (hx : Keeps q x) => ?_) ?_; clear_value x; rotate_left; subst x)
    | apply keeps_modJob | apply keeps_breakJob | intro _ | split

theorem keeps_armGroup (h : Keeps q s) (a1 a2 a3 : _) : Keeps q (State.armGroup s a1 a2 a3) := by
  unfold State.armGroup
  repeat' with_reducible first
    | assumption | (extract_lets +onlyGivenNames x; refine (fun (hx : Keeps q x) => ?_) ?_; clear_value x; rotate_left; subst x)
    | (extract_lets +onlyGivenNames x; clear_value x) | apply keeps_modConn | intro _ | split

theorem keeps_roomForJob (h : Keeps q s) : Keeps q (State.roomForJob s) := by
  unfold State.roomForJob
  repeat' with_reducible first
    | assumption | (extract_lets +onlyGivenNames x; refine (fun (hx : Keeps q x) => ?_) ?_; clear_value x; rotate_left; subst x)
    | (extract_lets +onlyGivenNames x; clear_value x) | refine keeps_foldl ?_ (fun _ _ _ => ?_) | intro _ | split
    | apply keepsFst_mk | apply keepsSnd_mk | apply keepsThird_mk | apply keeps_mk | apply Keeps.pending | apply Keeps.cells

theorem keeps_addJob (h : Keeps q s) (a1 : _) : KeepsSnd q (State.addJob s a1) := by
  unfold State.addJob
  repeat' with_reducible first
    | assumption | (extract_lets +onlyGivenNames x; refine (fun (hx : Keeps q x) => ?_) ?_; clear_value x; rotate_left; subst x)
    | (extract_lets +onlyGivenNames x; clear_value x) | apply keeps_roomForJob | apply keeps_modFirm | intro _
    | apply keepsFst_mk | apply keepsSnd_mk | apply keepsThird_mk | apply keeps_mk | apply Keeps.pending | apply Keeps.cells

theorem keeps_startJob (h : Keeps q s) (a1 : _) : Keeps q (State.startJob s a1) := by
  unfold State.startJob
  repeat' with_reducible first
    | assumption | (extract_lets +onlyGivenNames x; refine (fun (hx : Keeps q x) => ?_) ?_; clear_value x; rotate_left; subst x)
    | (extract_lets +onlyGivenNames x; clear_value x) | apply keeps_memRead | apply keeps_arriveBytes | apply keeps_modTile
    | apply keeps_armGroup | apply keeps_modJob | apply keeps_jobBegins | refine keeps_foldl ?_ (fun _ _ _ => ?_) | intro _
    | split | apply keepsThird_snd

theorem keeps_jobLaunchBlock : KeepsBlock q jobLaunchBlock := by
  unfold jobLaunchBlock
  repeat' with_reducible first
    | assumption | (extract_lets +onlyGivenNames x; refine (fun (hx : Keeps q x) => ?_) ?_; clear_value x; rotate_left; subst x)
    | (extract_lets +onlyGivenNames x; refine (fun (hx : KeepsSnd q x) => ?_) ?_; clear_value x; rotate_left; subst x)
    | (extract_lets +onlyGivenNames x; clear_value x) | apply keeps_lendRows | apply keeps_memRead | apply keeps_addJob
    | apply keeps_modGuest | apply keeps_startJob | refine keeps_foldl ?_ (fun _ _ _ => ?_)
    | refine keepsBlock_mk (fun _ _ _ => ?_) | intro _ | split | apply keepsReply_mk | apply keepsThird_snd
    | refine keepsThird_of (by assumption) ?_ | apply keepsSnd_snd | refine keepsSnd_of (by assumption) ?_

theorem keeps_passportSealBlock : KeepsBlock q passportSealBlock := by
  unfold passportSealBlock
  repeat' with_reducible first
    | assumption | (extract_lets +onlyGivenNames x; refine (fun (hx : Keeps q x) => ?_) ?_; clear_value x; rotate_left; subst x)
    | (extract_lets +onlyGivenNames x; refine (fun (hx : KeepsReply q x) => ?_) ?_; clear_value x; rotate_left; subst x)
    | (extract_lets +onlyGivenNames x; clear_value x) | apply keeps_deferred | apply keeps_modGuest
    | refine keepsBlock_mk (fun _ _ _ => ?_) | intro _ | split

theorem keeps_sealDone (h : Keeps q s) (a1 : _) : Keeps q (State.sealDone s a1) := by
  unfold State.sealDone
  repeat' with_reducible first
    | assumption | (extract_lets +onlyGivenNames x; refine (fun (hx : Keeps q x) => ?_) ?_; clear_value x; rotate_left; subst x)
    | (extract_lets +onlyGivenNames x; clear_value x) | apply keeps_modGuest | apply keeps_engineRead | apply keeps_engineWrite
    | apply keeps_passportEvent | intro _ | split

theorem keeps_passportDigestBlock : KeepsBlock q passportDigestBlock := by
  unfold passportDigestBlock
  repeat' with_reducible first
    | assumption | (extract_lets +onlyGivenNames x; refine (fun (hx : Keeps q x) => ?_) ?_; clear_value x; rotate_left; subst x)
    | (extract_lets +onlyGivenNames x; refine (fun (hx : KeepsReply q x) => ?_) ?_; clear_value x; rotate_left; subst x)
    | (extract_lets +onlyGivenNames x; clear_value x) | apply keeps_deferred | apply keeps_modDigest
    | refine keepsBlock_mk (fun _ _ _ => ?_)

theorem keeps_answerLaunch (h : Keeps q s) (a1 : _) : Keeps q (State.answerLaunch s a1) := by
  unfold State.answerLaunch
  repeat' with_reducible first
    | assumption | (extract_lets +onlyGivenNames x; refine (fun (hx : Keeps q x) => ?_) ?_; clear_value x; rotate_left; subst x)
    | (extract_lets +onlyGivenNames x; clear_value x) | apply keeps_modJob | apply keeps_respond | apply keeps_finish | intro _
    | split

theorem keeps_epochStart (h : Keeps q s) : Keeps q (State.epochStart s) := by
  unfold State.epochStart
  repeat' with_reducible first
    | assumption | (extract_lets +onlyGivenNames x; refine (fun (hx : Keeps q x) => ?_) ?_; clear_value x; rotate_left; subst x)
    | (extract_lets +onlyGivenNames x; clear_value x) | apply keeps_modMesh | apply keeps_answerLaunch | apply keeps_jobBegins
    | refine keeps_foldl ?_ (fun _ _ _ => ?_) | intro _ | split | apply keeps_mk | apply Keeps.pending | apply Keeps.cells

theorem keeps_fill (h : Keeps q s) (a1 : _) : KeepsSnd q (State.fill s a1) := by
  unfold State.fill
  repeat' with_reducible first
    | assumption | apply keeps_freeBytes | intro _ | split | apply keepsFst_mk | apply keepsSnd_mk | apply keepsThird_mk
    | apply keepsSnd_snd | refine keepsSnd_of (by assumption) ?_

theorem keeps_writeShard (h : Keeps q s) (a1 a2 : _) : Keeps q (State.writeShard s a1 a2) := by
  unfold State.writeShard
  repeat' with_reducible first
    | assumption | apply keeps_fill | apply keeps_memWrite | refine keeps_foldl ?_ (fun _ _ _ => ?_) | intro _ | split
    | apply keepsSnd_snd

theorem keeps_unhaltSave (h : Keeps q s) (a1 a2 : _) : Keeps q (State.unhaltSave s a1 a2) := by
  unfold State.unhaltSave
  repeat' with_reducible first
    | assumption | apply keeps_unhalt | refine keeps_foldl ?_ (fun _ _ _ => ?_)

theorem keeps_ckptEvent (h : Keeps q s) (a1 a2 a3 a4 a5 a6 a7 a8 a9 : _) : Keeps q (State.ckptEvent s a1 a2 a3 a4 a5 a6 a7 a8 a9) := h

theorem keeps_endSave (h : Keeps q s) (a1 a2 : _) : Keeps q (State.endSave s a1 a2) := by
  unfold State.endSave
  repeat' with_reducible first
    | assumption | (extract_lets +onlyGivenNames x; refine (fun (hx : Keeps q x) => ?_) ?_; clear_value x; rotate_left; subst x)
    | (extract_lets +onlyGivenNames x; clear_value x) | apply keeps_unhaltSave | apply keeps_settleWaits | apply keeps_modJob
    | apply keeps_modGuest | apply keeps_ckptEvent | intro _ | split | apply keeps_mk | apply Keeps.pending | apply Keeps.cells

theorem keeps_ckptQuietTimeout (h : Keeps q s) (a1 : _) : Keeps q (State.ckptQuietTimeout s a1) := by
  unfold State.ckptQuietTimeout
  repeat' with_reducible first
    | assumption | apply keeps_endSave | intro _ | split

theorem keeps_dropOpen (h : Keeps q s) (a1 : _) : Keeps q (State.dropOpen s a1) := by
  unfold State.dropOpen
  repeat' with_reducible first
    | assumption | (extract_lets +onlyGivenNames x; refine (fun (hx : Keeps q x) => ?_) ?_; clear_value x; rotate_left; subst x)
    | (extract_lets +onlyGivenNames x; clear_value x) | intro _ | apply keeps_mk | apply Keeps.pending | apply Keeps.cells

theorem keeps_clearEntries (h : Keeps q s) (a1 : _) : Keeps q (State.clearEntries s a1) := by
  unfold State.clearEntries
  repeat' with_reducible first
    | assumption | apply keeps_memWrite | refine keeps_foldl ?_ (fun _ _ _ => ?_)

theorem keeps_writeUnits (h : Keeps q s) (a1 a2 : _) : KeepsOpt q (State.writeUnits s a1 a2) := by
  unfold State.writeUnits
  repeat' with_reducible first
    | assumption | (extract_lets +onlyGivenNames x; refine (fun (hx : Keeps q x) => ?_) ?_; clear_value x; rotate_left; subst x)
    | (extract_lets +onlyGivenNames x; clear_value x) | apply keeps_clearEntries | apply keeps_memWrite
    | refine keeps_foldl ?_ (fun _ _ _ => ?_) | exact keepsOpt_none | apply keepsOpt_some | intro _ | split | apply keeps_mk
    | apply Keeps.pending | apply Keeps.cells

theorem keeps_porterSend (h : Keeps q s) (a1 a2 a3 a4 a5 a6 : _) : Keeps q (State.porterSend s a1 a2 a3 a4 a5 a6) := by
  unfold State.porterSend
  repeat' with_reducible first
    | assumption | (extract_lets +onlyGivenNames x; refine (fun (hx : Keeps q x) => ?_) ?_; clear_value x; rotate_left; subst x)
    | (extract_lets +onlyGivenNames x; clear_value x) | apply keeps_modConn | intro _ | split | apply keeps_mk
    | apply Keeps.pending | apply Keeps.cells

theorem keeps_packSave (h : Keeps q s) (a1 : _) : Keeps q (State.packSave s a1) := by
  unfold State.packSave
  repeat' with_reducible first
    | assumption | (extract_lets +onlyGivenNames x; refine (fun (hx : Keeps q x) => ?_) ?_; clear_value x; rotate_left; subst x)
    | (extract_lets +onlyGivenNames x; refine (fun (hx : KeepsSnd q x) => ?_) ?_; clear_value x; rotate_left; subst x)
    | (extract_lets +onlyGivenNames x; clear_value x) | apply keeps_freeBytes | apply keeps_dropOpen | apply keeps_writeUnits
    | apply keeps_modJob | apply keeps_endSave | apply keeps_porterSend | refine keeps_foldl ?_ (fun _ _ _ => ?_)
    | exact keepsOpt_none | apply keepsOpt_some | intro _ | split | apply keepsSnd_snd | refine keepsSnd_of (by assumption) ?_
    | refine keepsOpt_of (by assumption) ?_ | apply keeps_mk | apply Keeps.pending | apply Keeps.cells

theorem keeps_copyPage (h : Keeps q s) (a1 a2 : _) : Keeps q (State.copyPage s a1 a2) := by
  unfold State.copyPage
  repeat' with_reducible first
    | assumption | apply keeps_packSave | apply keeps_settleWaits | apply keeps_modJob | intro _ | split

theorem keeps_pageCopy (h : Keeps q s) (a1 : _) : Keeps q (State.pageCopy s a1) := by
  unfold State.pageCopy
  repeat' with_reducible first
    | assumption | apply keeps_copyPage | apply keeps_packSave | intro _ | split

theorem keeps_restoreImage (h : Keeps q s) (a1 a2 : _) : KeepsSnd q (State.restoreImage s a1 a2) := by
  unfold State.restoreImage
  repeat' with_reducible first
    | assumption | (extract_lets +onlyGivenNames x; refine (fun (hx : Keeps q x) => ?_) ?_; clear_value x; rotate_left; subst x)
    | (extract_lets +onlyGivenNames x; refine (fun (hx : KeepsSnd q x) => ?_) ?_; clear_value x; rotate_left; subst x)
    | (extract_lets +onlyGivenNames x; clear_value x) | apply keeps_addJob | apply keeps_setTile | apply keeps_modConn
    | apply keeps_modPair | apply keeps_modLedger | apply keeps_modLedgers | apply keeps_fill | apply keeps_memWrite
    | refine keeps_foldl ?_ (fun _ _ _ => ?_) | intro _ | split | apply keepsFst_mk | apply keepsSnd_mk | apply keepsThird_mk
    | apply keepsSnd_snd | refine keepsSnd_of (by assumption) ?_

theorem keeps_restoreDone (h : Keeps q s) (a1 : _) : Keeps q (State.restoreDone s a1) := by
  unfold State.restoreDone
  repeat' with_reducible first
    | assumption | (extract_lets +onlyGivenNames x; refine (fun (hx : Keeps q x) => ?_) ?_; clear_value x; rotate_left; subst x)
    | (extract_lets +onlyGivenNames x; refine (fun (hx : KeepsSnd q x) => ?_) ?_; clear_value x; rotate_left; subst x)
    | (extract_lets +onlyGivenNames x; clear_value x) | apply keeps_modGuest | apply keeps_ckptEvent | apply keeps_freeBytes
    | apply keeps_memWrite | apply keeps_writeShard | apply keeps_restoreImage | intro _ | split | apply keepsSnd_snd
    | refine keepsSnd_of (by assumption) ?_ | apply keeps_mk | apply Keeps.pending | apply Keeps.cells

theorem keeps_ckptRestoreBlock : KeepsBlock q ckptRestoreBlock := by
  unfold ckptRestoreBlock
  repeat' with_reducible first
    | assumption | (extract_lets +onlyGivenNames x; refine (fun (hx : Keeps q x) => ?_) ?_; clear_value x; rotate_left; subst x)
    | (extract_lets +onlyGivenNames x; refine (fun (hx : KeepsReply q x) => ?_) ?_; clear_value x; rotate_left; subst x)
    | (extract_lets +onlyGivenNames x; clear_value x) | apply keeps_deferred | apply keeps_modGuest
    | refine keepsBlock_mk (fun _ _ _ => ?_)

theorem keeps_ckptDrainBlock : KeepsBlock q ckptDrainBlock := by
  unfold ckptDrainBlock
  repeat' with_reducible first
    | assumption | (extract_lets +onlyGivenNames x; refine (fun (hx : Keeps q x) => ?_) ?_; clear_value x; rotate_left; subst x)
    | (extract_lets +onlyGivenNames x; refine (fun (hx : KeepsReply q x) => ?_) ?_; clear_value x; rotate_left; subst x)
    | (extract_lets +onlyGivenNames x; clear_value x) | apply keeps_deferred | apply keeps_modGuest
    | refine keepsBlock_mk (fun _ _ _ => ?_)

theorem keeps_ckptConfigBlock : KeepsBlock q ckptConfigBlock := by
  unfold ckptConfigBlock
  repeat' with_reducible first
    | assumption | (extract_lets +onlyGivenNames x; refine (fun (hx : Keeps q x) => ?_) ?_; clear_value x; rotate_left; subst x)
    | (extract_lets +onlyGivenNames x; clear_value x) | apply keeps_modJob | refine keepsBlock_mk (fun _ _ _ => ?_) | intro _
    | split | apply keepsReply_mk

theorem keeps_saveComplete (h : Keeps q s) (a1 : _) : Keeps q (State.saveComplete s a1) := by
  unfold State.saveComplete
  repeat' with_reducible first
    | assumption | (extract_lets +onlyGivenNames x; refine (fun (hx : Keeps q x) => ?_) ?_; clear_value x; rotate_left; subst x)
    | (extract_lets +onlyGivenNames x; clear_value x) | apply keeps_endSave | apply keeps_modJob | apply keeps_ckptEvent
    | apply keeps_endJob | intro _ | split | apply keeps_mk | apply Keeps.pending | apply Keeps.cells

theorem keeps_beginCapture (h : Keeps q s) (a1 : _) : Keeps q (State.beginCapture s a1) := by
  unfold State.beginCapture
  repeat' with_reducible first
    | assumption | (extract_lets +onlyGivenNames x; refine (fun (hx : Keeps q x) => ?_) ?_; clear_value x; rotate_left; subst x)
    | (extract_lets +onlyGivenNames x; clear_value x) | apply keeps_modJob | intro _ | split

end keeping

end Sys2Proof.Machine
end

