-- ==== Sys2Proof/Laws/KeepingUnits.lean ====
section
/-! SUPPORT. That the shared operations and the request blocks keep the queue and the memory's form, in the order they build on each other
(part 3 of 3). -/

namespace Sys2Proof.Machine

set_option linter.unusedTactic false
set_option linter.unreachableTactic false

section keeping
variable {q : List Instr} {s : State}

theorem keeps_lateCapture (h : Keeps q s) (a1 : _) : Keeps q (State.lateCapture s a1) := by
  unfold State.lateCapture
  repeat' with_reducible first
    | assumption | apply keeps_beginCapture | intro _ | split

theorem keeps_ckptCaptured (h : Keeps q s) (a1 : _) : Keeps q (State.ckptCaptured s a1) := by
  unfold State.ckptCaptured
  repeat' with_reducible first
    | assumption | (extract_lets +onlyGivenNames x; refine (fun (hx : Keeps q x) => ?_) ?_; clear_value x; rotate_left; subst x)
    | (extract_lets +onlyGivenNames x; refine (fun (hx : KeepsSnd q x) => ?_) ?_; clear_value x; rotate_left; subst x)
    | (extract_lets +onlyGivenNames x; clear_value x) | apply keeps_lateCapture | apply keeps_imageFinds | apply keeps_freeBytes
    | apply keeps_memWrite | apply keeps_dropOpen | apply keeps_modJob | apply keeps_unhaltSave | apply keeps_ckptEvent
    | refine keeps_foldl ?_ (fun _ _ _ => ?_) | intro _ | split | apply keepsSnd_snd | refine keepsSnd_of (by assumption) ?_
    | apply keeps_mk | apply Keeps.pending | apply Keeps.cells

theorem keeps_ckptQuiet (h : Keeps q s) (a1 : _) : Keeps q (State.ckptQuiet s a1) := by
  unfold State.ckptQuiet
  repeat' with_reducible first
    | assumption | (extract_lets +onlyGivenNames x; refine (fun (hx : Keeps q x) => ?_) ?_; clear_value x; rotate_left; subst x)
    | apply keeps_modJob | apply keeps_ckptEvent | apply keeps_beginCapture | intro _ | split

theorem keeps_resumeShard (h : Keeps q s) (a1 a2 a3 : _) : KeepsOpt q (State.resumeShard s a1 a2 a3) := by
  unfold State.resumeShard
  repeat' with_reducible first
    | assumption | (extract_lets +onlyGivenNames x; refine (fun (hx : Keeps q x) => ?_) ?_; clear_value x; rotate_left; subst x)
    | (extract_lets +onlyGivenNames x; clear_value x) | apply keeps_writeShard | apply keeps_releaseJob
    | apply keeps_settleWaits | apply keeps_modJob | apply keeps_startJob | exact keepsOpt_none | apply keepsOpt_some | intro _
    | split

theorem keeps_resumeSame (h : Keeps q s) (a1 : _) : Keeps q (State.resumeSame s a1) := by
  unfold State.resumeSame
  repeat' with_reducible first
    | assumption | apply keeps_resumeShard | apply keeps_endJob | exact keepsOpt_none | apply keepsOpt_some | intro _ | split
    | refine keepsOpt_of (by assumption) ?_

theorem keeps_ckptCaptureBlock : KeepsBlock q ckptCaptureBlock := by
  unfold ckptCaptureBlock
  repeat' with_reducible first
    | assumption | apply keeps_beginCapture | refine keepsBlock_mk (fun _ _ _ => ?_) | intro _ | split | apply keepsReply_mk

theorem keeps_serveAheads (h : Keeps q s) (a1 a2 : _) : Keeps q (State.serveAheads s a1 a2) := by
  unfold State.serveAheads
  repeat' with_reducible first
    | assumption | (extract_lets +onlyGivenNames x; refine (fun (hx : Keeps q x) => ?_) ?_; clear_value x; rotate_left; subst x)
    | (extract_lets +onlyGivenNames x; clear_value x) | apply keeps_copyPage | refine keeps_foldl ?_ (fun _ _ _ => ?_)

theorem keeps_drainDone (h : Keeps q s) (a1 : _) : Keeps q (State.drainDone s a1) := by
  unfold State.drainDone
  repeat' with_reducible first
    | assumption | (extract_lets +onlyGivenNames x; refine (fun (hx : Keeps q x) => ?_) ?_; clear_value x; rotate_left; subst x)
    | (extract_lets +onlyGivenNames x; clear_value x) | apply keeps_modGuest | apply keeps_ckptEvent | apply keeps_modNs
    | intro _ | split | apply keeps_mk | apply Keeps.pending | apply Keeps.cells

theorem keeps_reslice (h : Keeps q s) (a1 a2 : _) : Keeps q (State.reslice s a1 a2) := by
  unfold State.reslice
  repeat' with_reducible first
    | assumption | (extract_lets +onlyGivenNames x; refine (fun (hx : Keeps q x) => ?_) ?_; clear_value x; rotate_left; subst x)
    | (extract_lets +onlyGivenNames x; clear_value x) | apply keeps_resumeShard | apply keeps_endJob | apply keeps_ckptEvent
    | exact keepsOpt_none | apply keepsOpt_some | intro _ | split | refine keepsOpt_of (by assumption) ?_

theorem keeps_ckptStartBlock : KeepsBlock q ckptStartBlock := by
  unfold ckptStartBlock
  repeat' with_reducible first
    | assumption | (extract_lets +onlyGivenNames x; refine (fun (hx : Keeps q x) => ?_) ?_; clear_value x; rotate_left; subst x)
    | (extract_lets +onlyGivenNames x; refine (fun (hx : KeepsReply q x) => ?_) ?_; clear_value x; rotate_left; subst x)
    | (extract_lets +onlyGivenNames x; clear_value x) | apply keeps_deferred | apply keeps_breakAll | apply keeps_modJob
    | apply keeps_halt | refine keeps_foldl ?_ (fun _ _ _ => ?_) | refine keepsBlock_mk (fun _ _ _ => ?_) | intro _ | split

theorem keeps_guestEvent (h : Keeps q s) (a1 a2 a3 a4 a5 a6 a7 a8 : _) : Keeps q (State.guestEvent s a1 a2 a3 a4 a5 a6 a7 a8) := h

theorem keeps_revokeDone (h : Keeps q s) (a1 : _) : Keeps q (State.revokeDone s a1) := by
  unfold State.revokeDone
  repeat' with_reducible first
    | assumption | (extract_lets +onlyGivenNames x; refine (fun (hx : Keeps q x) => ?_) ?_; clear_value x; rotate_left; subst x)
    | apply keeps_serveAheads | apply keeps_askFill | apply keeps_memZero | apply keeps_modGuest | apply keeps_guestEvent
    | intro _ | split

theorem keeps_finishEmpty (h : Keeps q s) (a1 a2 : _) : Keeps q (State.finishEmpty s a1 a2) := by
  unfold State.finishEmpty
  repeat' with_reducible first
    | assumption | (extract_lets +onlyGivenNames x; refine (fun (hx : Keeps q x) => ?_) ?_; clear_value x; rotate_left; subst x)
    | (extract_lets +onlyGivenNames x; clear_value x) | apply keeps_modMesh | apply keeps_parlourVector | apply keeps_guestEvent
    | intro _ | split

theorem keeps_finishEmpties (h : Keeps q s) : Keeps q (State.finishEmpties s) := by
  unfold State.finishEmpties
  repeat' with_reducible first
    | assumption | apply keeps_finishEmpty | refine keeps_foldl ?_ (fun _ _ _ => ?_)

theorem keeps_guestDestroyBlock : KeepsBlock q guestDestroyBlock := by
  unfold guestDestroyBlock
  repeat' with_reducible first
    | assumption | (extract_lets +onlyGivenNames x; refine (fun (hx : Keeps q x) => ?_) ?_; clear_value x; rotate_left; subst x)
    | (extract_lets +onlyGivenNames x; refine (fun (hx : KeepsReply q x) => ?_) ?_; clear_value x; rotate_left; subst x)
    | (extract_lets +onlyGivenNames x; clear_value x) | apply keeps_modGuest | apply keeps_drainPair | apply keeps_closeConn
    | apply keeps_deleteLedgers | apply keeps_deferred | apply keeps_modStorage | refine keeps_foldl ?_ (fun _ _ _ => ?_)
    | refine keepsBlock_mk (fun _ _ _ => ?_)

theorem keeps_parlourAccess (h : Keeps q s) (a1 a2 a3 a4 a5 a6 : _) : Keeps q (State.parlourAccess s a1 a2 a3 a4 a5 a6) := by
  unfold State.parlourAccess
  repeat' with_reducible first
    | assumption | dsimp -zeta only
    | (extract_lets +onlyGivenNames x; refine (fun (hx : Keeps q x) => ?_) ?_; clear_value x; rotate_left; subst x)
    | (extract_lets +onlyGivenNames x; subst x) | apply keeps_unsupported | apply keeps_modLink | apply keeps_outsideData
    | apply keeps_memWrite | apply keeps_dropped | intro _ | split

theorem keeps_guestGrantBlock : KeepsBlock q guestGrantBlock := by
  unfold guestGrantBlock
  repeat' with_reducible first
    | assumption | (extract_lets +onlyGivenNames x; refine (fun (hx : Keeps q x) => ?_) ?_; clear_value x; rotate_left; subst x)
    | (extract_lets +onlyGivenNames x; clear_value x) | apply keeps_modGuest | refine keepsBlock_mk (fun _ _ _ => ?_) | intro _
    | apply keepsReply_mk

theorem keeps_fenceDone (h : Keeps q s) (a1 : _) : Keeps q (State.fenceDone s a1) := by
  unfold State.fenceDone
  repeat' with_reducible first
    | assumption | (extract_lets +onlyGivenNames x; refine (fun (hx : Keeps q x) => ?_) ?_; clear_value x; rotate_left; subst x)
    | (extract_lets +onlyGivenNames x; clear_value x) | apply keeps_modGuest | apply keeps_guestEvent | intro _ | split

theorem keeps_drainMap (h : Keeps q s) (a1 : _) : Keeps q (State.drainMap s a1) := by
  unfold State.drainMap
  repeat' with_reducible first
    | assumption | (extract_lets +onlyGivenNames x; refine (fun (hx : Keeps q x) => ?_) ?_; clear_value x; rotate_left; subst x)
    | (extract_lets +onlyGivenNames x; refine (fun (hx : KeepsFst q x) => ?_) ?_; clear_value x; rotate_left; subst x)
    | (extract_lets +onlyGivenNames x; clear_value x) | apply keeps_writeBackWord | apply keeps_mgrRead | apply keeps_modLog
    | refine keeps_foldl ?_ (fun _ _ _ => ?_) | intro _ | split | apply keepsFst_fst

theorem keeps_fenceRead (h : Keeps q s) (a1 a2 a3 : _) : Keeps q (State.fenceRead s a1 a2 a3) := by
  unfold State.fenceRead
  repeat' with_reducible first
    | assumption | (extract_lets +onlyGivenNames x; refine (fun (hx : Keeps q x) => ?_) ?_; clear_value x; rotate_left; subst x)
    | apply keeps_modLog | apply keeps_drainMap | intro _ | split

theorem keeps_startFence (h : Keeps q s) (a1 a2 a3 : _) : Keeps q (State.startFence s a1 a2 a3) := by
  unfold State.startFence
  repeat' with_reducible first
    | assumption | (extract_lets +onlyGivenNames x; refine (fun (hx : Keeps q x) => ?_) ?_; clear_value x; rotate_left; subst x)
    | (extract_lets +onlyGivenNames x; refine (fun (hx : KeepsFst q x) => ?_) ?_; clear_value x; rotate_left; subst x)
    | (extract_lets +onlyGivenNames x; clear_value x) | apply keeps_modLog | apply keeps_guestRead | apply keeps_fenceRead
    | intro _ | split | apply keepsFst_mk | apply keepsSnd_mk | apply keepsThird_mk | apply keepsFst_fst
    | refine keepsFst_of (by assumption) ?_

theorem keeps_fenceBlock (op stop : _) : KeepsBlock q (fenceBlock op stop) := by
  unfold fenceBlock
  repeat' with_reducible first
    | assumption | apply keeps_deferred | apply keeps_startFence | refine keepsBlock_mk (fun _ _ _ => ?_)

theorem keeps_logWordRead (h : Keeps q s) (a1 a2 a3 a4 : _) : Keeps q (State.logWordRead s a1 a2 a3 a4) := by
  unfold State.logWordRead
  repeat' with_reducible first
    | assumption | (extract_lets +onlyGivenNames x; refine (fun (hx : Keeps q x) => ?_) ?_; clear_value x; rotate_left; subst x)
    | apply keeps_modLog | apply keeps_drainMap

theorem keeps_parlourRing (h : Keeps q s) (a1 : _) : Keeps q (State.parlourRing s a1) := by
  unfold State.parlourRing
  repeat' with_reducible first
    | assumption | apply keeps_dropped | apply keeps_msix | apply keeps_modHosts | intro _ | split

theorem keeps_clearRoom (h : Keeps q s) (a1 a2 : _) : Keeps q (State.clearRoom s a1 a2) := by
  unfold State.clearRoom
  repeat' with_reducible first
    | assumption | (extract_lets +onlyGivenNames x; refine (fun (hx : Keeps q x) => ?_) ?_; clear_value x; rotate_left; subst x)
    | (extract_lets +onlyGivenNames x; clear_value x) | apply keeps_drainPair | apply keeps_closeConn | apply keeps_dropRoom
    | apply keeps_clearVectors | apply keeps_clearRoomSlots | apply keeps_memZero | refine keeps_foldl ?_ (fun _ _ _ => ?_)

theorem keeps_finishClose (h : Keeps q s) (a1 : _) : Keeps q (State.finishClose s a1) := by
  unfold State.finishClose
  repeat' with_reducible first
    | assumption | (extract_lets +onlyGivenNames x; refine (fun (hx : Keeps q x) => ?_) ?_; clear_value x; rotate_left; subst x)
    | (extract_lets +onlyGivenNames x; clear_value x) | apply keeps_modMesh | apply keeps_serveAheads | apply keeps_modGuest
    | apply keeps_memCopy | apply keeps_finishEmpty | apply keeps_clearRoom | intro _ | split

theorem keeps_courierDb (h : Keeps q s) (a1 a2 : _) : Keeps q (State.courierDb s a1 a2) := by
  unfold State.courierDb
  repeat' with_reducible first
    | assumption | (extract_lets +onlyGivenNames x; refine (fun (hx : Keeps q x) => ?_) ?_; clear_value x; rotate_left; subst x)
    | (extract_lets +onlyGivenNames x; clear_value x) | apply keeps_dropped | apply keeps_modConn | intro _ | split

theorem keeps_guestGone (h : Keeps q s) (a1 : _) : Keeps q (State.guestGone s a1) := by
  unfold State.guestGone
  repeat' with_reducible first
    | assumption | (extract_lets +onlyGivenNames x; refine (fun (hx : Keeps q x) => ?_) ?_; clear_value x; rotate_left; subst x)
    | (extract_lets +onlyGivenNames x; clear_value x) | apply keeps_askFill | apply keeps_clearRoom | apply keeps_serveAheads
    | apply keeps_memZero | apply keeps_guestEvent | apply keeps_modNet | refine keeps_foldl ?_ (fun _ _ _ => ?_) | intro _
    | split | apply keeps_mk | apply Keeps.pending | apply Keeps.cells

theorem keeps_finishCloses (h : Keeps q s) : Keeps q (State.finishCloses s) := by
  unfold State.finishCloses
  repeat' with_reducible first
    | assumption | apply keeps_finishClose | refine keeps_foldl ?_ (fun _ _ _ => ?_)

theorem keeps_logStartBlock : KeepsBlock q logStartBlock := by
  unfold logStartBlock
  repeat' with_reducible first
    | assumption | apply keeps_modGuest | refine keepsBlock_mk (fun _ _ _ => ?_) | intro _ | split | apply keepsReply_mk

theorem keeps_endLog (h : Keeps q s) (a1 : _) : Keeps q (State.endLog s a1) := by
  unfold State.endLog
  repeat' with_reducible first
    | assumption | (extract_lets +onlyGivenNames x; refine (fun (hx : Keeps q x) => ?_) ?_; clear_value x; rotate_left; subst x)
    | (extract_lets +onlyGivenNames x; clear_value x) | apply keeps_disown | apply keeps_modGuest | apply keeps_guestEvent
    | intro _ | split

theorem keeps_guestRevokeBlock : KeepsBlock q guestRevokeBlock := by
  unfold guestRevokeBlock
  repeat' with_reducible first
    | assumption | apply keeps_deferred | apply keeps_modGuest | refine keepsBlock_mk (fun _ _ _ => ?_)

theorem keeps_guestCreateBlock : KeepsBlock q guestCreateBlock := by
  unfold guestCreateBlock
  repeat' with_reducible first
    | assumption | (extract_lets +onlyGivenNames x; refine (fun (hx : Keeps q x) => ?_) ?_; clear_value x; rotate_left; subst x)
    | (extract_lets +onlyGivenNames x; clear_value x) | apply keeps_clearVectors | apply keeps_clearRoomSlots
    | refine keeps_foldl ?_ (fun _ _ _ => ?_) | refine keepsBlock_mk (fun _ _ _ => ?_) | intro _ | apply keepsReply_mk
    | apply keeps_mk | apply Keeps.pending | apply Keeps.cells

theorem keeps_closeRoom (h : Keeps q s) (a1 : _) : Keeps q (State.closeRoom s a1) := by
  unfold State.closeRoom
  repeat' with_reducible first
    | assumption | (extract_lets +onlyGivenNames x; refine (fun (hx : Keeps q x) => ?_) ?_; clear_value x; rotate_left; subst x)
    | (extract_lets +onlyGivenNames x; clear_value x) | apply keeps_modMesh | apply keeps_modFirm | apply keeps_stateEvent
    | apply keeps_endSave | apply keeps_haltToEnd | apply keeps_endAtRest | apply keeps_finishClose
    | refine keeps_foldl ?_ (fun _ _ _ => ?_) | intro _ | split

theorem keeps_endLogs (h : Keeps q s) : Keeps q (State.endLogs s) := by
  unfold State.endLogs
  repeat' with_reducible first
    | assumption | apply keeps_endLog | refine keeps_foldl ?_ (fun _ _ _ => ?_)

theorem keeps_hostRead (h : Keeps q s) (a1 a2 : _) : KeepsSnd q (State.hostRead s a1 a2) := by
  unfold State.hostRead
  repeat' with_reducible first
    | assumption | apply keeps_memRead | intro _ | split | apply keepsFst_mk | apply keepsSnd_mk | apply keepsThird_mk
    | apply keepsThird_snd | refine keepsThird_of (by assumption) ?_

theorem keeps_readDone (h : Keeps q s) (a1 a2 : _) : Keeps q (State.readDone s a1 a2) := by
  unfold State.readDone
  repeat' with_reducible first
    | assumption | apply keeps_entryArrives | apply keeps_failPair | apply keeps_pageArrives | apply keeps_pageFails
    | apply keeps_listArrives | apply keeps_listFails | apply keeps_finishEmpties | apply keeps_wrArrives | apply keeps_wrFails
    | apply keeps_txDescArrives | apply keeps_rxDescArrives | apply keeps_txFrameArrives | apply keeps_txDone
    | apply keeps_courierBytes | apply keeps_courierNoBytes | apply keeps_logWordRead | apply keeps_fenceRead | intro _ | split

theorem keeps_pieceDone (h : Keeps q s) (a1 a2 a3 a4 : _) : Keeps q (State.pieceDone s a1 a2 a3 a4) := by
  unfold State.pieceDone
  repeat' with_reducible first
    | assumption | (extract_lets +onlyGivenNames x; refine (fun (hx : Keeps q x) => ?_) ?_; clear_value x; rotate_left; subst x)
    | (extract_lets +onlyGivenNames x; clear_value x) | apply keeps_readDone | apply keeps_modLink | intro _ | split

theorem keeps_txDoneWith (h : Keeps q s) (a1 a2 a3 : _) : Keeps q (State.txDoneWith s a1 a2 a3) := by
  unfold State.txDoneWith
  repeat' with_reducible first
    | assumption | apply keeps_pieceDone | apply keeps_readDone | intro _ | split

theorem keeps_failOutstanding (h : Keeps q s) (a1 a2 : _) : Keeps q (State.failOutstanding s a1 a2) := by
  unfold State.failOutstanding
  repeat' with_reducible first
    | assumption | (extract_lets +onlyGivenNames x; refine (fun (hx : Keeps q x) => ?_) ?_; clear_value x; rotate_left; subst x)
    | (extract_lets +onlyGivenNames x; clear_value x) | apply keeps_modLink | apply keeps_txDoneWith
    | refine keeps_foldl ?_ (fun _ _ _ => ?_)

theorem keeps_failHeld (h : Keeps q s) (a1 a2 : _) : Keeps q (State.failHeld s a1 a2) := by
  unfold State.failHeld
  repeat' with_reducible first
    | assumption | apply keeps_txDoneWith | apply keeps_failPair | intro _ | split

theorem keeps_linkReset (h : Keeps q s) (a1 a2 : _) : Keeps q (State.linkReset s a1 a2) := by
  unfold State.linkReset
  repeat' with_reducible first
    | assumption | (extract_lets +onlyGivenNames x; refine (fun (hx : Keeps q x) => ?_) ?_; clear_value x; rotate_left; subst x)
    | (extract_lets +onlyGivenNames x; clear_value x) | apply keeps_modLink | apply keeps_endLogs | apply keeps_modIrq
    | apply keeps_failOutstanding | apply keeps_failHeld | refine keeps_foldl ?_ (fun _ _ _ => ?_) | intro _ | split

theorem keeps_timeout (h : Keeps q s) (a1 a2 : _) : Keeps q (State.timeout s a1 a2) := by
  unfold State.timeout
  repeat' with_reducible first
    | assumption | (extract_lets +onlyGivenNames x; refine (fun (hx : Keeps q x) => ?_) ?_; clear_value x; rotate_left; subst x)
    | apply keeps_modLink | apply keeps_txDoneWith | intro _ | split

theorem keeps_bar4 (h : Keeps q s) (a1 a2 a3 a4 a5 : _) : Keeps q (State.bar4 s a1 a2 a3 a4 a5) := by
  unfold State.bar4
  repeat' with_reducible first
    | assumption | (extract_lets +onlyGivenNames x; refine (fun (hx : Keeps q x) => ?_) ?_; clear_value x; rotate_left; subst x)
    | (extract_lets +onlyGivenNames x; refine (fun (hx : KeepsSnd q x) => ?_) ?_; clear_value x; rotate_left; subst x)
    | (extract_lets +onlyGivenNames x; clear_value x) | apply keeps_unsupported | apply keeps_outsideData | apply keeps_memWrite
    | apply keeps_hostRead | apply keeps_modLink | intro _ | split | apply keepsSnd_snd | refine keepsSnd_of (by assumption) ?_

theorem keeps_wakeLink (h : Keeps q s) (a1 : _) : Keeps q (State.wakeLink s a1) := by
  unfold State.wakeLink
  repeat' with_reducible first
    | assumption | apply keeps_sendExpired | apply keeps_modLink

theorem keeps_configWrite (h : Keeps q s) (a1 a2 a3 : _) : Keeps q (State.configWrite s a1 a2 a3) := by
  unfold State.configWrite
  repeat' with_reducible first
    | assumption | dsimp -zeta only
    | (extract_lets +onlyGivenNames x; refine (fun (hx : Keeps q x) => ?_) ?_; clear_value x; rotate_left; subst x)
    | (extract_lets +onlyGivenNames x; subst x) | apply keeps_modLink | apply keeps_wakeLink | apply keeps_linkReset | intro _
    | split

theorem keeps_configAccess (h : Keeps q s) (a1 a2 a3 a4 a5 : _) : Keeps q (State.configAccess s a1 a2 a3 a4 a5) := by
  unfold State.configAccess
  repeat' with_reducible first
    | assumption | (extract_lets +onlyGivenNames x; refine (fun (hx : Keeps q x) => ?_) ?_; clear_value x; rotate_left; subst x)
    | (extract_lets +onlyGivenNames x; clear_value x) | apply keeps_unsupported | apply keeps_modLink | apply keeps_configWrite
    | intro _ | split

theorem keeps_completion (h : Keeps q s) (a1 a2 a3 a4 : _) : Keeps q (State.completion s a1 a2 a3 a4) := by
  unfold State.completion
  repeat' with_reducible first
    | assumption | dsimp -zeta only
    | (extract_lets +onlyGivenNames x; refine (fun (hx : Keeps q x) => ?_) ?_; clear_value x; rotate_left; subst x)
    | (extract_lets +onlyGivenNames x; subst x) | apply keeps_modLink | apply keeps_txDoneWith | intro _ | split

theorem keeps_scrub (h : Keeps q s) (a1 a2 : _) : Keeps q (State.scrub s a1 a2) := by
  unfold State.scrub
  repeat' with_reducible first
    | assumption | (extract_lets +onlyGivenNames x; refine (fun (hx : Keeps q x) => ?_) ?_; clear_value x; rotate_left; subst x)
    | (extract_lets +onlyGivenNames x; clear_value x) | apply keeps_repairRow | apply keeps_modStack | apply keeps_modMem
    | apply keeps_memEvent | apply keeps_noteCorrected | apply Keeps.cells | intro _ | split

theorem keeps_scrubNext (h : Keeps q s) (a1 : _) : Keeps q (State.scrubNext s a1) := by
  unfold State.scrubNext
  repeat' with_reducible first
    | assumption | (extract_lets +onlyGivenNames x; refine (fun (hx : Keeps q x) => ?_) ?_; clear_value x; rotate_left; subst x)
    | (extract_lets +onlyGivenNames x; clear_value x) | apply keeps_repairRow | apply keeps_modStack | apply keeps_scrub
    | refine keeps_foldl ?_ (fun _ _ _ => ?_) | intro _ | split

theorem keeps_memRetirePcBlock : KeepsBlock q memRetirePcBlock := by
  unfold memRetirePcBlock
  repeat' with_reducible first
    | assumption | (extract_lets +onlyGivenNames x; refine (fun (hx : Keeps q x) => ?_) ?_; clear_value x; rotate_left; subst x)
    | (extract_lets +onlyGivenNames x; refine (fun (hx : KeepsReply q x) => ?_) ?_; clear_value x; rotate_left; subst x)
    | (extract_lets +onlyGivenNames x; clear_value x) | apply keeps_markFailing | apply keeps_deferred | apply keeps_modMem
    | apply Keeps.cells | refine keepsBlock_mk (fun _ _ _ => ?_) | intro _

theorem keeps_retirePc (h : Keeps q s) (a1 a2 : _) : Keeps q (State.retirePc s a1 a2) := by
  unfold State.retirePc
  repeat' with_reducible first
    | assumption | (extract_lets +onlyGivenNames x; refine (fun (hx : Keeps q x) => ?_) ?_; clear_value x; rotate_left; subst x)
    | (extract_lets +onlyGivenNames x; clear_value x) | apply keeps_writeBack | apply keeps_modMem | apply keeps_writeRecord
    | apply Keeps.cells | refine keeps_foldl ?_ (fun _ _ _ => ?_) | refine cells_foldl ?_ (fun _ _ _ => ?_)
    | apply cellsWf_cellsZero | intro _

theorem keeps_pcRetired (h : Keeps q s) : Keeps q (State.pcRetired s) := by
  unfold State.pcRetired
  repeat' with_reducible first
    | assumption | (extract_lets +onlyGivenNames x; refine (fun (hx : Keeps q x) => ?_) ?_; clear_value x; rotate_left; subst x)
    | (extract_lets +onlyGivenNames x; clear_value x) | apply keeps_retirePc | apply keeps_modMem | apply keeps_raise
    | apply keeps_degrade | apply Keeps.cells | intro _ | split

theorem keeps_beginEvac (h : Keeps q s) (a1 a2 a3 : _) : Keeps q (State.beginEvac s a1 a2 a3) := by
  unfold State.beginEvac
  repeat' with_reducible first
    | assumption | apply keeps_setRun | apply keeps_takeRun | intro _ | split

theorem keeps_modCellar (h : Keeps q s) (a1 a2 : _) : Keeps q (State.modCellar s a1 a2) := by
  unfold State.modCellar
  repeat' with_reducible first
    | assumption | apply keeps_modMem | apply Keeps.cells | intro _

theorem keeps_evacUnits (h : Keeps q s) (a1 a2 : _) : Keeps q (State.evacUnits s a1 a2) := by
  unfold State.evacUnits
  repeat' with_reducible first
    | assumption | (extract_lets +onlyGivenNames x; refine (fun (hx : Keeps q x) => ?_) ?_; clear_value x; rotate_left; subst x)
    | (extract_lets +onlyGivenNames x; clear_value x) | apply keeps_copyPlace | apply keeps_modCellar | apply keeps_modMem
    | intro _ | split | apply cellsWf_switchRegion

theorem keeps_portEvent (h : Keeps q s) (a1 a2 a3 a4 a5 : _) : Keeps q (State.portEvent s a1 a2 a3 a4 a5) := h

theorem keeps_evacuated (h : Keeps q s) (a1 : _) : Keeps q (State.evacuated s a1) := by
  unfold State.evacuated
  repeat' with_reducible first
    | assumption | (extract_lets +onlyGivenNames x; refine (fun (hx : Keeps q x) => ?_) ?_; clear_value x; rotate_left; subst x)
    | (extract_lets +onlyGivenNames x; clear_value x) | apply keeps_runMoveDone | apply keeps_beginEvac | apply keeps_evacUnits
    | apply keeps_modMem | apply keeps_modCellar | apply keeps_modPort | apply keeps_raise | apply keeps_portEvent
    | apply Keeps.cells | refine keeps_foldl ?_ (fun _ _ _ => ?_) | refine cells_foldl ?_ (fun _ _ _ => ?_) | intro _ | split

theorem keeps_cellarLost (h : Keeps q s) (a1 : _) : Keeps q (State.cellarLost s a1) := by
  unfold State.cellarLost
  repeat' with_reducible first
    | assumption | (extract_lets +onlyGivenNames x; refine (fun (hx : Keeps q x) => ?_) ?_; clear_value x; rotate_left; subst x)
    | (extract_lets +onlyGivenNames x; clear_value x) | apply keeps_modMem | apply keeps_modCellar | apply keeps_degrade
    | apply keeps_memEvent | apply Keeps.cells | intro _ | split

theorem keeps_cutRequests (h : Keeps q s) (a1 : _) : Keeps q (State.cutRequests s a1) := by
  unfold State.cutRequests
  repeat' with_reducible first
    | assumption | apply keeps_dropDriveParts | apply keeps_modPort

theorem keeps_slotOff (h : Keeps q s) (a1 a2 : _) : Keeps q (State.slotOff s a1 a2) := by
  unfold State.slotOff
  repeat' with_reducible first
    | assumption | (extract_lets +onlyGivenNames x; refine (fun (hx : Keeps q x) => ?_) ?_; clear_value x; rotate_left; subst x)
    | (extract_lets +onlyGivenNames x; clear_value x) | apply keeps_modPort | apply keeps_cellarLost | apply keeps_loseDrive
    | apply keeps_cutRequests | apply keeps_portLost | apply keeps_portBack | intro _ | split

theorem keeps_powerTimeout (h : Keeps q s) (a1 : _) : Keeps q (State.powerTimeout s a1) := by
  unfold State.powerTimeout
  repeat' with_reducible first
    | assumption | (extract_lets +onlyGivenNames x; refine (fun (hx : Keeps q x) => ?_) ?_; clear_value x; rotate_left; subst x)
    | (extract_lets +onlyGivenNames x; clear_value x) | apply keeps_portEvent | apply keeps_slotOff | apply keeps_modPort
    | intro _ | split

theorem keeps_cellarReleaseBlock : KeepsBlock q cellarReleaseBlock := by
  unfold cellarReleaseBlock
  repeat' with_reducible first
    | assumption | (extract_lets +onlyGivenNames x; refine (fun (hx : Keeps q x) => ?_) ?_; clear_value x; rotate_left; subst x)
    | (extract_lets +onlyGivenNames x; refine (fun (hx : KeepsReply q x) => ?_) ?_; clear_value x; rotate_left; subst x)
    | (extract_lets +onlyGivenNames x; clear_value x) | apply keeps_modMem | apply keeps_modCellar | apply keeps_deferred
    | apply keeps_modPort | apply Keeps.cells | refine keepsBlock_mk (fun _ _ _ => ?_) | intro _

theorem keeps_freeze (h : Keeps q s) (a1 a2 : _) : Keeps q (State.freeze s a1 a2) := by
  unfold State.freeze
  repeat' with_reducible first
    | assumption | dsimp -zeta only
    | (extract_lets +onlyGivenNames x; refine (fun (hx : Keeps q x) => ?_) ?_; clear_value x; rotate_left; subst x)
    | (extract_lets +onlyGivenNames x; subst x) | apply keeps_modPort | apply keeps_cutRequests | apply keeps_portLost
    | apply keeps_cellarLost | apply keeps_portEvent | apply keeps_slotOff | intro _ | split

theorem keeps_portTimeout (h : Keeps q s) (a1 a2 : _) : Keeps q (State.portTimeout s a1 a2) := by
  unfold State.portTimeout
  repeat' with_reducible first
    | assumption | apply keeps_freeze | apply keeps_modPort | intro _ | split

theorem keeps_overlayDone (h : Keeps q s) : Keeps q (State.overlayDone s) := by
  unfold State.overlayDone
  repeat' with_reducible first
    | assumption | (extract_lets +onlyGivenNames x; refine (fun (hx : Keeps q x) => ?_) ?_; clear_value x; rotate_left; subst x)
    | (extract_lets +onlyGivenNames x; clear_value x) | apply keeps_modFirm | apply keeps_raise | intro _ | split

theorem keeps_busRead (h : Keeps q s) (a1 a2 : _) : KeepsSnd q (State.busRead s a1 a2) := by
  unfold State.busRead
  repeat' with_reducible first
    | assumption | (extract_lets +onlyGivenNames x; refine (fun (hx : Keeps q x) => ?_) ?_; clear_value x; rotate_left; subst x)
    | (extract_lets +onlyGivenNames x; refine (fun (hx : KeepsSnd q x) => ?_) ?_; clear_value x; rotate_left; subst x)
    | (extract_lets +onlyGivenNames x; clear_value x) | apply keeps_readFinds | apply keeps_hostRead | intro _ | split
    | apply keepsFst_mk | apply keepsSnd_mk

theorem keeps_evacTick (h : Keeps q s) (a1 : _) : Keeps q (State.evacTick s a1) := by
  unfold State.evacTick
  repeat' with_reducible first
    | assumption | apply keeps_evacUnits | apply keeps_runMoveDone | apply keeps_beginEvac
    | refine keeps_foldl ?_ (fun _ _ _ => ?_) | intro _ | split

theorem keeps_busWrite (h : Keeps q s) (a1 a2 a3 : _) : Keeps q (State.busWrite s a1 a2 a3) := by
  unfold State.busWrite
  repeat' with_reducible first
    | assumption | apply keeps_breakTile | apply keeps_arriveBytes | apply keeps_outsideData | apply keeps_memWrite | intro _
    | split

theorem keeps_peerRequest (h : Keeps q s) (a1 a2 a3 a4 a5 : _) : Keeps q (State.peerRequest s a1 a2 a3 a4 a5) := by
  unfold State.peerRequest
  repeat' with_reducible first
    | assumption | dsimp -zeta only
    | (extract_lets +onlyGivenNames x; refine (fun (hx : Keeps q x) => ?_) ?_; clear_value x; rotate_left; subst x)
    | (extract_lets +onlyGivenNames x; refine (fun (hx : KeepsSnd q x) => ?_) ?_; clear_value x; rotate_left; subst x)
    | (extract_lets +onlyGivenNames x; subst x) | apply keeps_modPort | apply keeps_freeBytes | apply keeps_busWrite
    | apply keeps_busRead | intro _ | split | apply keepsSnd_snd | refine keepsSnd_of (by assumption) ?_

theorem keeps_presence (h : Keeps q s) (a1 a2 : _) : Keeps q (State.presence s a1 a2) := by
  unfold State.presence
  repeat' with_reducible first
    | assumption | (extract_lets +onlyGivenNames x; refine (fun (hx : Keeps q x) => ?_) ?_; clear_value x; rotate_left; subst x)
    | (extract_lets +onlyGivenNames x; clear_value x) | apply keeps_modPort | apply keeps_portEvent | apply keeps_slotOff
    | apply keeps_portBack | intro _ | split

theorem keeps_windowCommit (h : Keeps q s) (a1 : _) : Keeps q (State.windowCommit s a1) := by
  unfold State.windowCommit
  repeat' with_reducible first
    | assumption | (extract_lets +onlyGivenNames x; refine (fun (hx : Keeps q x) => ?_) ?_; clear_value x; rotate_left; subst x)
    | (extract_lets +onlyGivenNames x; clear_value x) | apply keeps_modPort | intro _ | split

theorem keeps_slotPowerOn (h : Keeps q s) (a1 a2 : _) : Keeps q (State.slotPowerOn s a1 a2) := h

theorem keeps_slotControlBlock : KeepsBlock q slotControlBlock := by
  unfold slotControlBlock
  repeat' with_reducible first
    | assumption | (extract_lets +onlyGivenNames x; refine (fun (hx : Keeps q x) => ?_) ?_; clear_value x; rotate_left; subst x)
    | (extract_lets +onlyGivenNames x; refine (fun (hx : KeepsReply q x) => ?_) ?_; clear_value x; rotate_left; subst x)
    | (extract_lets +onlyGivenNames x; clear_value x) | apply keeps_deferred | apply keeps_slotPowerOn | apply keeps_cutRequests
    | apply keeps_modPort | apply keeps_portEvent | refine keepsBlock_mk (fun _ _ _ => ?_) | intro _ | split
    | apply keepsReply_mk

theorem keeps_fillDone (h : Keeps q s) (a1 a2 : _) : Keeps q (State.fillDone s a1 a2) := by
  unfold State.fillDone
  repeat' with_reducible first
    | assumption | (extract_lets +onlyGivenNames x; refine (fun (hx : Keeps q x) => ?_) ?_; clear_value x; rotate_left; subst x)
    | (extract_lets +onlyGivenNames x; clear_value x) | apply keeps_storeRange | apply keeps_modMem | apply keeps_putData
    | apply keeps_memEvent | apply Keeps.cells | refine keeps_foldl ?_ (fun _ _ _ => ?_)
    | refine cells_foldl ?_ (fun _ _ _ => ?_) | intro _ | split

theorem keeps_cellarEnumerated (h : Keeps q s) (a1 a2 : _) : Keeps q (State.cellarEnumerated s a1 a2) := by
  unfold State.cellarEnumerated
  repeat' with_reducible first
    | assumption | (extract_lets +onlyGivenNames x; refine (fun (hx : Keeps q x) => ?_) ?_; clear_value x; rotate_left; subst x)
    | (extract_lets +onlyGivenNames x; clear_value x) | apply keeps_settle | apply keeps_modCellar | apply keeps_modMem
    | apply Keeps.cells | refine keeps_foldl ?_ (fun _ _ _ => ?_) | refine cells_foldl ?_ (fun _ _ _ => ?_) | intro _

theorem keeps_enumerated (h : Keeps q s) (a1 a2 : _) : Keeps q (State.enumerated s a1 a2) := by
  unfold State.enumerated
  repeat' with_reducible first
    | assumption | (extract_lets +onlyGivenNames x; refine (fun (hx : Keeps q x) => ?_) ?_; clear_value x; rotate_left; subst x)
    | (extract_lets +onlyGivenNames x; clear_value x) | apply keeps_modPort | apply keeps_portBack
    | apply keeps_cellarEnumerated | apply keeps_portEvent | intro _ | split

theorem keeps_overlaySetBlock : KeepsBlock q overlaySetBlock := by
  unfold overlaySetBlock
  repeat' with_reducible first
    | assumption | (extract_lets +onlyGivenNames x; refine (fun (hx : Keeps q x) => ?_) ?_; clear_value x; rotate_left; subst x)
    | (extract_lets +onlyGivenNames x; refine (fun (hx : KeepsReply q x) => ?_) ?_; clear_value x; rotate_left; subst x)
    | (extract_lets +onlyGivenNames x; clear_value x) | apply keeps_deferred | apply keeps_modFirm
    | refine keepsBlock_mk (fun _ _ _ => ?_)

theorem keeps_portReleaseBlock : KeepsBlock q portReleaseBlock := by
  unfold portReleaseBlock
  repeat' with_reducible first
    | assumption | apply keeps_deferred | apply keeps_modPort | refine keepsBlock_mk (fun _ _ _ => ?_)

theorem keeps_portConfigBlock : KeepsBlock q portConfigBlock := by
  unfold portConfigBlock
  repeat' with_reducible first
    | assumption | (extract_lets +onlyGivenNames x; refine (fun (hx : Keeps q x) => ?_) ?_; clear_value x; rotate_left; subst x)
    | (extract_lets +onlyGivenNames x; clear_value x) | apply keeps_writeRecord | apply keeps_modPort
    | refine keepsBlock_mk (fun _ _ _ => ?_) | intro _ | split | apply keepsReply_mk

theorem keeps_portCompletion (h : Keeps q s) (a1 a2 a3 a4 : _) : Keeps q (State.portCompletion s a1 a2 a3 a4) := by
  unfold State.portCompletion
  repeat' with_reducible first
    | assumption | dsimp -zeta only
    | (extract_lets +onlyGivenNames x; refine (fun (hx : Keeps q x) => ?_) ?_; clear_value x; rotate_left; subst x)
    | (extract_lets +onlyGivenNames x; subst x) | apply keeps_freeze | apply keeps_modPort | intro _ | split

theorem keeps_imsWrite (h : Keeps q s) (a1 a2 a3 a4 : _) : Keeps q (State.imsWrite s a1 a2 a3 a4) := by
  unfold State.imsWrite
  repeat' with_reducible first
    | assumption | (extract_lets +onlyGivenNames x; refine (fun (hx : Keeps q x) => ?_) ?_; clear_value x; rotate_left; subst x)
    | (extract_lets +onlyGivenNames x; clear_value x) | apply keeps_modVector | apply keeps_expireGroup | intro _ | split

theorem keeps_teleRecord (h : Keeps q s) (a1 a2 a3 : _) : Keeps q (State.teleRecord s a1 a2 a3) := by
  unfold State.teleRecord
  repeat' with_reducible first
    | assumption | (extract_lets +onlyGivenNames x; refine (fun (hx : Keeps q x) => ?_) ?_; clear_value x; rotate_left; subst x)
    | (extract_lets +onlyGivenNames x; clear_value x) | apply keeps_modIrq | apply keeps_mgrWrite | intro _ | split

theorem keeps_teleQueues (h : Keeps q s) (a1 : _) : Keeps q (State.teleQueues s a1) := by
  unfold State.teleQueues
  repeat' with_reducible first
    | assumption | apply keeps_teleRecord | refine keeps_foldl ?_ (fun _ _ _ => ?_)

theorem keeps_teleQueueBatch (h : Keeps q s) : Keeps q (State.teleQueueBatch s) := by
  unfold State.teleQueueBatch
  repeat' with_reducible first
    | assumption | (extract_lets +onlyGivenNames x; refine (fun (hx : Keeps q x) => ?_) ?_; clear_value x; rotate_left; subst x)
    | (extract_lets +onlyGivenNames x; clear_value x) | apply keeps_msix | apply keeps_teleQueues
    | refine keeps_foldl ?_ (fun _ _ _ => ?_) | intro _ | split

theorem keeps_teleHeadWrite (h : Keeps q s) (a1 : _) : Keeps q (State.teleHeadWrite s a1) := h

theorem keeps_teleRingBlock : KeepsBlock q teleRingBlock := by
  unfold teleRingBlock
  repeat' with_reducible first
    | assumption | (extract_lets +onlyGivenNames x; refine (fun (hx : Keeps q x) => ?_) ?_; clear_value x; rotate_left; subst x)
    | (extract_lets +onlyGivenNames x; clear_value x) | apply keeps_modIrq | refine keepsBlock_mk (fun _ _ _ => ?_) | intro _
    | split | apply keepsReply_mk

theorem keeps_teleSensorBatch (h : Keeps q s) : Keeps q (State.teleSensorBatch s) := by
  unfold State.teleSensorBatch
  repeat' with_reducible first
    | assumption | (extract_lets +onlyGivenNames x; refine (fun (hx : Keeps q x) => ?_) ?_; clear_value x; rotate_left; subst x)
    | (extract_lets +onlyGivenNames x; clear_value x) | apply keeps_teleRecord | apply keeps_msix
    | refine keeps_foldl ?_ (fun _ _ _ => ?_) | intro _ | split

theorem keeps_sensorSample (h : Keeps q s) (a1 a2 a3 a4 : _) : Keeps q (State.sensorSample s a1 a2 a3 a4) := by
  unfold State.sensorSample
  repeat' with_reducible first
    | assumption | (extract_lets +onlyGivenNames x; refine (fun (hx : Keeps q x) => ?_) ?_; clear_value x; rotate_left; subst x)
    | (extract_lets +onlyGivenNames x; clear_value x) | apply keeps_modIrq | apply keeps_modStack | apply keeps_breakAll
    | apply keeps_modPower | refine keeps_foldl ?_ (fun _ _ _ => ?_) | intro _ | split

theorem keeps_carry (h : Keeps q s) (a1 a2 : _) : Keeps q (State.carry s a1 a2) := by
  unfold State.carry
  repeat' with_reducible first
    | assumption | (extract_lets +onlyGivenNames x; refine (fun (hx : Keeps q x) => ?_) ?_; clear_value x; rotate_left; subst x)
    | (extract_lets +onlyGivenNames x; clear_value x) | apply keeps_setTile | apply keeps_modTile
    | refine keeps_foldl ?_ (fun _ _ _ => ?_)

theorem keeps_stretch (h : Keeps q s) (a1 a2 a3 : _) : Keeps q (State.stretch s a1 a2 a3) := by
  unfold State.stretch
  repeat' with_reducible first
    | assumption | (extract_lets +onlyGivenNames x; refine (fun (hx : Keeps q x) => ?_) ?_; clear_value x; rotate_left; subst x)
    | (extract_lets +onlyGivenNames x; clear_value x) | apply keeps_modCluster | apply keeps_breakAll | apply keeps_halt
    | refine keeps_foldl ?_ (fun _ _ _ => ?_)

theorem keeps_shiftRouters (h : Keeps q s) (a1 : _) : Keeps q (State.shiftRouters s a1) := by
  unfold State.shiftRouters
  repeat' with_reducible first
    | assumption | (extract_lets +onlyGivenNames x; refine (fun (hx : Keeps q x) => ?_) ?_; clear_value x; rotate_left; subst x)
    | (extract_lets +onlyGivenNames x; clear_value x) | refine keeps_foldl ?_ (fun _ _ _ => ?_) | intro _ | apply keeps_mk
    | apply Keeps.pending | apply Keeps.cells

theorem keeps_resumeLost (h : Keeps q s) (a1 : _) : Keeps q (State.resumeLost s a1) := by
  unfold State.resumeLost
  repeat' with_reducible first
    | assumption | apply keeps_resumeSame | refine keeps_foldl ?_ (fun _ _ _ => ?_)

theorem keeps_switch (h : Keeps q s) (a1 a2 : _) : Keeps q (State.switch s a1 a2) := by
  unfold State.switch
  repeat' with_reducible first
    | assumption | (extract_lets +onlyGivenNames x; refine (fun (hx : Keeps q x) => ?_) ?_; clear_value x; rotate_left; subst x)
    | (extract_lets +onlyGivenNames x; clear_value x) | apply keeps_carry | apply keeps_shiftRouters | apply keeps_deliver
    | apply keeps_closeRoom | apply keeps_unhalt | apply keeps_reslice | apply keeps_resumeLost | apply keeps_raise
    | apply keeps_breakAll | refine keeps_foldl ?_ (fun _ _ _ => ?_) | intro _ | split | apply keeps_mk | apply Keeps.pending
    | apply Keeps.cells

theorem keeps_writeMap (h : Keeps q s) (a1 a2 : _) : Keeps q (State.writeMap s a1 a2) := by
  unfold State.writeMap
  repeat' with_reducible first
    | assumption | (extract_lets +onlyGivenNames x; refine (fun (hx : Keeps q x) => ?_) ?_; clear_value x; rotate_left; subst x)
    | (extract_lets +onlyGivenNames x; clear_value x) | apply keeps_writeRecord | apply keeps_modCluster

theorem keeps_trySwitch (h : Keeps q s) (a1 : _) : Keeps q (State.trySwitch s a1) := by
  unfold State.trySwitch
  repeat' with_reducible first
    | assumption | (extract_lets +onlyGivenNames x; refine (fun (hx : Keeps q x) => ?_) ?_; clear_value x; rotate_left; subst x)
    | (extract_lets +onlyGivenNames x; clear_value x) | apply keeps_switch | apply keeps_writeMap | apply keeps_stretch
    | intro _ | split

theorem keeps_askRecord (h : Keeps q s) (a1 : _) : Keeps q (State.askRecord s a1) := by
  unfold State.askRecord
  repeat' with_reducible first
    | assumption | (extract_lets +onlyGivenNames x; refine (fun (hx : Keeps q x) => ?_) ?_; clear_value x; rotate_left; subst x)
    | (extract_lets +onlyGivenNames x; clear_value x) | apply keeps_stretch | apply keeps_trySwitch | apply keeps_writeMap
    | intro _ | split

theorem keeps_moveImage (h : Keeps q s) (a1 : _) : Keeps q (State.moveImage s a1) := by
  unfold State.moveImage
  repeat' with_reducible first
    | assumption | (extract_lets +onlyGivenNames x; refine (fun (hx : Keeps q x) => ?_) ?_; clear_value x; rotate_left; subst x)
    | (extract_lets +onlyGivenNames x; clear_value x) | apply keeps_imageFinds | apply keeps_modCluster | intro _ | split
    | apply keeps_mk | apply Keeps.pending | apply Keeps.cells

theorem keeps_completeMove (h : Keeps q s) (a1 : _) : Keeps q (State.completeMove s a1) := by
  unfold State.completeMove
  repeat' with_reducible first
    | assumption | (extract_lets +onlyGivenNames x; refine (fun (hx : Keeps q x) => ?_) ?_; clear_value x; rotate_left; subst x)
    | (extract_lets +onlyGivenNames x; clear_value x) | apply keeps_modTile | apply keeps_askRecord | apply keeps_trySwitch
    | apply keeps_moveImage | refine keeps_foldl ?_ (fun _ _ _ => ?_) | intro _ | split

theorem keeps_takeTrigger (h : Keeps q s) (a1 : _) : Keeps q (State.takeTrigger s a1) := by
  unfold State.takeTrigger
  repeat' with_reducible first
    | assumption | (extract_lets +onlyGivenNames x; refine (fun (hx : Keeps q x) => ?_) ?_; clear_value x; rotate_left; subst x)
    | (extract_lets +onlyGivenNames x; clear_value x) | apply keeps_modCluster | apply keeps_raise | apply keeps_askRecord
    | apply keeps_breakAll | apply keeps_halt | refine keeps_foldl ?_ (fun _ _ _ => ?_) | intro _ | split

theorem keeps_completeMoves (h : Keeps q s) : Keeps q (State.completeMoves s) := by
  unfold State.completeMoves
  repeat' with_reducible first
    | assumption | apply keeps_completeMove | apply keeps_takeTrigger | refine keeps_foldl ?_ (fun _ _ _ => ?_)

theorem keeps_serviceEvent (h : Keeps q s) (a1 a2 a3 a4 : _) : Keeps q (State.serviceEvent s a1 a2 a3 a4) := h

theorem keeps_modFlash (h : Keeps q s) (a1 a2 : _) : Keeps q (State.modFlash s a1 a2) := h

theorem keeps_finishRelease (h : Keeps q s) (a1 : _) : Keeps q (State.finishRelease s a1) := by
  unfold State.finishRelease
  repeat' with_reducible first
    | assumption | apply keeps_modFirm | apply keeps_serviceEvent | apply keeps_modFlash | intro _ | split

theorem keeps_beginRetirement (h : Keeps q s) (a1 : _) : Keeps q (State.beginRetirement s a1) := by
  unfold State.beginRetirement
  repeat' with_reducible first
    | assumption | apply keeps_takeTrigger | intro _ | split

theorem keeps_tileRetireBlock : KeepsBlock q tileRetireBlock := by
  unfold tileRetireBlock
  repeat' with_reducible first
    | assumption | (extract_lets +onlyGivenNames x; refine (fun (hx : Keeps q x) => ?_) ?_; clear_value x; rotate_left; subst x)
    | (extract_lets +onlyGivenNames x; refine (fun (hx : KeepsReply q x) => ?_) ?_; clear_value x; rotate_left; subst x)
    | (extract_lets +onlyGivenNames x; clear_value x) | apply keeps_deferred | apply keeps_queueRetirement
    | refine keepsBlock_mk (fun _ _ _ => ?_)

theorem keeps_restPoint (h : Keeps q s) : Keeps q (State.restPoint s) := by
  unfold State.restPoint
  repeat' with_reducible first
    | assumption | (extract_lets +onlyGivenNames x; refine (fun (hx : Keeps q x) => ?_) ?_; clear_value x; rotate_left; subst x)
    | (extract_lets +onlyGivenNames x; clear_value x) | apply keeps_endAtRest | apply keeps_askRecord | apply keeps_finishCloses
    | refine keeps_foldl ?_ (fun _ _ _ => ?_)

theorem keeps_popRecord (h : Keeps q s) : Keeps q (State.popRecord s) := by
  unfold State.popRecord
  repeat' with_reducible first
    | assumption | (extract_lets +onlyGivenNames x; refine (fun (hx : Keeps q x) => ?_) ?_; clear_value x; rotate_left; subst x)
    | apply keeps_modFirm | apply keeps_modFlash | apply keeps_finishRelease | intro _ | split

theorem keeps_safeHold (h : Keeps q s) (a1 a2 : _) : Keeps q (State.safeHold s a1 a2) := by
  unfold State.safeHold
  repeat' with_reducible first
    | assumption | (extract_lets +onlyGivenNames x; refine (fun (hx : Keeps q x) => ?_) ?_; clear_value x; rotate_left; subst x)
    | (extract_lets +onlyGivenNames x; clear_value x) | apply keeps_modFirm | apply keeps_haltAll | apply keeps_stateEvent

theorem keeps_clusterOut (h : Keeps q s) (a1 : _) : Keeps q (State.clusterOut s a1) := by
  unfold State.clusterOut
  repeat' with_reducible first
    | assumption | (extract_lets +onlyGivenNames x; refine (fun (hx : Keeps q x) => ?_) ?_; clear_value x; rotate_left; subst x)
    | (extract_lets +onlyGivenNames x; clear_value x) | apply keeps_unhalt | apply keeps_modMesh | apply keeps_modCluster
    | apply keeps_setTile | apply keeps_closeRoom | refine keeps_foldl ?_ (fun _ _ _ => ?_) | intro _ | split | apply keeps_mk
    | apply Keeps.pending | apply Keeps.cells

theorem keeps_fwEvent (h : Keeps q s) (a1 a2 a3 a4 a5 : _) : Keeps q (State.fwEvent s a1 a2 a3 a4 a5) := h

theorem keeps_tryComplete (h : Keeps q s) : Keeps q (State.tryComplete s) := by
  unfold State.tryComplete
  repeat' with_reducible first
    | assumption | (extract_lets +onlyGivenNames x; refine (fun (hx : Keeps q x) => ?_) ?_; clear_value x; rotate_left; subst x)
    | (extract_lets +onlyGivenNames x; clear_value x) | apply keeps_modFirm | apply keeps_fwEvent | intro _ | split

theorem keeps_markPreferred (h : Keeps q s) (a1 : _) : Keeps q (State.markPreferred s a1) := by
  unfold State.markPreferred
  repeat' with_reducible first
    | assumption | (extract_lets +onlyGivenNames x; refine (fun (hx : Keeps q x) => ?_) ?_; clear_value x; rotate_left; subst x)
    | (extract_lets +onlyGivenNames x; clear_value x) | apply keeps_writeRecord | apply keeps_modFirm

theorem keeps_decideDivisor (h : Keeps q s) : Keeps q (State.decideDivisor s) := by
  unfold State.decideDivisor
  repeat' with_reducible first
    | assumption | (extract_lets +onlyGivenNames x; refine (fun (hx : Keeps q x) => ?_) ?_; clear_value x; rotate_left; subst x)
    | (extract_lets +onlyGivenNames x; clear_value x) | apply keeps_modPower

theorem keeps_setClamp (h : Keeps q s) (a1 : _) : Keeps q (State.setClamp s a1) := by
  unfold State.setClamp
  repeat' with_reducible first
    | assumption | apply keeps_breakAll | apply keeps_decideDivisor | apply keeps_modPower

theorem keeps_startSwap (h : Keeps q s) (a1 a2 : _) : Keeps q (State.startSwap s a1 a2) := by
  unfold State.startSwap
  repeat' with_reducible first
    | assumption | (extract_lets +onlyGivenNames x; refine (fun (hx : Keeps q x) => ?_) ?_; clear_value x; rotate_left; subst x)
    | (extract_lets +onlyGivenNames x; clear_value x) | apply keeps_modCore | apply keeps_halt | apply keeps_setClamp
    | apply keeps_breakAll | refine keeps_foldl ?_ (fun _ _ _ => ?_) | intro _ | split | apply keeps_mk | apply Keeps.pending
    | apply Keeps.cells

theorem keeps_swapFuel (h : Keeps q s) (a0 : _) : Keeps q (State.swapFuel a0 s) := by
  induction a0 generalizing s  with
  | zero => exact h
  | succ f ih =>
    unfold State.swapFuel
    repeat' with_reducible first
      | assumption | apply ih
      | (extract_lets +onlyGivenNames x; refine (fun (hx : Keeps q x) => ?_) ?_; clear_value x; rotate_left; subst x)
      | (extract_lets +onlyGivenNames x; clear_value x) | apply keeps_tryComplete | apply keeps_markPreferred
      | apply keeps_modFirm | apply keeps_fwEvent | apply keeps_startSwap | intro _ | split

theorem keeps_beginSwap (h : Keeps q s) : Keeps q (State.beginSwap s) := by
  unfold State.beginSwap
  repeat' with_reducible first
    | assumption | apply keeps_swapFuel

theorem keeps_restartFailed (h : Keeps q s) (a1 : _) : Keeps q (State.restartFailed s a1) := by
  unfold State.restartFailed
  repeat' with_reducible first
    | assumption | (extract_lets +onlyGivenNames x; refine (fun (hx : Keeps q x) => ?_) ?_; clear_value x; rotate_left; subst x)
    | (extract_lets +onlyGivenNames x; clear_value x) | apply keeps_stateEvent | apply keeps_modCore | apply keeps_safeHold
    | apply keeps_alarm | apply keeps_clusterOut | apply keeps_tryComplete | apply keeps_beginSwap | apply keeps_degrade
    | intro _ | split

theorem keeps_loadCore (h : Keeps q s) (a1 a2 : _) : Keeps q (State.loadCore s a1 a2) := h

theorem keeps_innkeeperBack (h : Keeps q s) (a1 : _) : Keeps q (State.innkeeperBack s a1) := by
  unfold State.innkeeperBack
  repeat' with_reducible first
    | assumption | apply keeps_trySwitch | apply keeps_askRecord | intro _ | split

theorem keeps_restartDone (h : Keeps q s) (a1 : _) : Keeps q (State.restartDone s a1) := by
  unfold State.restartDone
  repeat' with_reducible first
    | assumption | (extract_lets +onlyGivenNames x; refine (fun (hx : Keeps q x) => ?_) ?_; clear_value x; rotate_left; subst x)
    | (extract_lets +onlyGivenNames x; clear_value x) | apply keeps_modCore | apply keeps_loadCore | apply keeps_stateEvent
    | apply keeps_breakAll | apply keeps_unhalt | apply keeps_breakTile | apply keeps_modPower | apply keeps_tryComplete
    | apply keeps_beginSwap | apply keeps_innkeeperBack | refine keeps_foldl ?_ (fun _ _ _ => ?_) | intro _ | split

theorem keeps_eraseImage (h : Keeps q s) (a1 : _) : Keeps q (State.eraseImage s a1) := by
  unfold State.eraseImage
  repeat' with_reducible first
    | assumption | (extract_lets +onlyGivenNames x; refine (fun (hx : Keeps q x) => ?_) ?_; clear_value x; rotate_left; subst x)
    | apply keeps_modFlash | apply keeps_degrade

theorem keeps_swapDone (h : Keeps q s) (a1 : _) : Keeps q (State.swapDone s a1) := by
  unfold State.swapDone
  repeat' with_reducible first
    | assumption | (extract_lets +onlyGivenNames x; refine (fun (hx : Keeps q x) => ?_) ?_; clear_value x; rotate_left; subst x)
    | (extract_lets +onlyGivenNames x; clear_value x) | apply keeps_modCore | apply keeps_fwEvent | apply keeps_modFirm
    | apply keeps_innkeeperBack | apply keeps_setClamp | apply keeps_tryComplete | apply keeps_markPreferred
    | apply keeps_beginSwap | intro _ | split

theorem keeps_handOver (h : Keeps q s) (a1 a2 : _) : Keeps q (State.handOver s a1 a2) := h

theorem keeps_revert (h : Keeps q s) (a1 : _) : Keeps q (State.revert s a1) := by
  unfold State.revert
  repeat' with_reducible first
    | assumption | (extract_lets +onlyGivenNames x; refine (fun (hx : Keeps q x) => ?_) ?_; clear_value x; rotate_left; subst x)
    | (extract_lets +onlyGivenNames x; clear_value x) | apply keeps_handOver | apply keeps_loadCore | apply keeps_modFirm
    | apply keeps_setClamp | apply keeps_breakAll | apply keeps_fwEvent | apply keeps_eraseImage | apply keeps_innkeeperBack
    | refine keeps_foldl ?_ (fun _ _ _ => ?_) | intro _ | split

theorem keeps_crash (h : Keeps q s) (a1 : _) : Keeps q (State.crash s a1) := by
  unfold State.crash
  repeat' with_reducible first
    | assumption | (extract_lets +onlyGivenNames x; refine (fun (hx : Keeps q x) => ?_) ?_; clear_value x; rotate_left; subst x)
    | (extract_lets +onlyGivenNames x; clear_value x) | apply keeps_modCore | apply keeps_dropRequests | apply keeps_stateEvent
    | apply keeps_breakAll | apply keeps_halt | apply keeps_setClamp | apply keeps_revert
    | refine keeps_foldl ?_ (fun _ _ _ => ?_) | intro _ | split

theorem keeps_wipe (h : Keeps q s) (a1 : _) : Keeps q (State.wipe s a1) := by
  unfold State.wipe
  repeat' first
    | with_reducible assumption
    | (extract_lets +onlyGivenNames x; refine (fun (hx : Keeps q x) => ?_) ?_; clear_value x; rotate_left; subst x)
    | (extract_lets +onlyGivenNames x; clear_value x)
    | with_reducible apply Keeps.cells
    | with_reducible intro _
    | split
    | with_reducible apply keepsFst_mk
    | with_reducible apply keepsSnd_mk
    | with_reducible apply keepsThird_mk
    | exact rfl
    | with_reducible apply keeps_mk
    | with_reducible apply Keeps.pending

theorem keeps_enterShedding (h : Keeps q s) (a1 : _) : Keeps q (State.enterShedding s a1) := by
  unfold State.enterShedding
  repeat' with_reducible first
    | assumption | (extract_lets +onlyGivenNames x; refine (fun (hx : Keeps q x) => ?_) ?_; clear_value x; rotate_left; subst x)
    | (extract_lets +onlyGivenNames x; clear_value x) | apply keeps_stateEvent | apply keeps_modFirm | intro _ | split

theorem keeps_completeStart (h : Keeps q s) : Keeps q (State.completeStart s) := by
  unfold State.completeStart
  repeat' with_reducible first
    | assumption | (extract_lets +onlyGivenNames x; refine (fun (hx : Keeps q x) => ?_) ?_; clear_value x; rotate_left; subst x)
    | (extract_lets +onlyGivenNames x; clear_value x) | apply keeps_modFirm | apply keeps_resumeMoves
    | apply keeps_enterShedding | apply keeps_unhaltAll | apply keeps_stateEvent

theorem keeps_nextStep (h : Keeps q s) : Keeps q (State.nextStep s) := by
  unfold State.nextStep
  repeat' with_reducible first
    | assumption | (extract_lets +onlyGivenNames x; refine (fun (hx : Keeps q x) => ?_) ?_; clear_value x; rotate_left; subst x)
    | (extract_lets +onlyGivenNames x; clear_value x) | apply keeps_modFirm | apply keeps_completeMoves | apply keeps_modPower
    | apply keeps_completeStart | intro _ | split

theorem keeps_resumeStart (h : Keeps q s) : Keeps q (State.resumeStart s) := by
  unfold State.resumeStart
  repeat' with_reducible first
    | assumption | apply keeps_nextStep | intro _ | split

theorem keeps_saveTraining (h : Keeps q s) : Keeps q (State.saveTraining s) := h

theorem keeps_train (h : Keeps q s) (a1 : _) : Keeps q (State.train s a1) := by
  unfold State.train
  repeat' with_reducible first
    | assumption | apply keeps_modStack | intro _ | apply keeps_mk | apply Keeps.pending | apply Keeps.cells

theorem keeps_retrain (h : Keeps q s) (a1 : _) : Keeps q (State.retrain s a1) := by
  unfold State.retrain
  repeat' with_reducible first
    | assumption | (extract_lets +onlyGivenNames x; refine (fun (hx : Keeps q x) => ?_) ?_; clear_value x; rotate_left; subst x)
    | (extract_lets +onlyGivenNames x; clear_value x) | apply keeps_modStack | apply keeps_saveTraining | apply keeps_train
    | refine keeps_foldl ?_ (fun _ _ _ => ?_) | intro _ | split

theorem keeps_warmPorts (h : Keeps q s) (a1 : _) : Keeps q (State.warmPorts s a1) := by
  unfold State.warmPorts
  repeat' with_reducible first
    | assumption | (extract_lets +onlyGivenNames x; refine (fun (hx : Keeps q x) => ?_) ?_; clear_value x; rotate_left; subst x)
    | (extract_lets +onlyGivenNames x; clear_value x) | apply keeps_netLink | apply keeps_modPort | apply keeps_cellarLost
    | apply keeps_loseDrive | apply keeps_cutRequests | apply keeps_slotOff | apply keeps_modFirm
    | refine keeps_foldl ?_ (fun _ _ _ => ?_) | intro _ | split

theorem keeps_failStaging (h : Keeps q s) : Keeps q (State.failStaging s) := by
  unfold State.failStaging
  repeat' with_reducible first
    | assumption | (extract_lets +onlyGivenNames x; refine (fun (hx : Keeps q x) => ?_) ?_; clear_value x; rotate_left; subst x)
    | (extract_lets +onlyGivenNames x; clear_value x) | apply keeps_modFirm | apply keeps_fwEvent | apply keeps_eraseImage
    | intro _ | split

theorem keeps_mainOff (h : Keeps q s) : Keeps q (State.mainOff s) := by
  unfold State.mainOff
  repeat' with_reducible first
    | assumption | apply keeps_wipe

theorem keeps_stopHashes (h : Keeps q s) : Keeps q (State.stopHashes s) := by
  unfold State.stopHashes
  repeat' with_reducible first
    | assumption | (extract_lets +onlyGivenNames x; refine (fun (hx : Keeps q x) => ?_) ?_; clear_value x; rotate_left; subst x)
    | (extract_lets +onlyGivenNames x; clear_value x) | apply keeps_passportEvent | apply keeps_modDigest
    | apply keeps_ledgerEvent | apply keeps_modGuest | apply keeps_modLedger | refine keeps_foldl ?_ (fun _ _ _ => ?_) | intro _
    | split

theorem keeps_coldVerify (h : Keeps q s) : Keeps q (State.coldVerify s) := by
  unfold State.coldVerify
  repeat' with_reducible first
    | assumption | dsimp -zeta only
    | (extract_lets +onlyGivenNames x; refine (fun (hx : Keeps q x) => ?_) ?_; clear_value x; rotate_left; subst x)
    | (extract_lets +onlyGivenNames x; subst x) | apply keeps_modFlash | apply keeps_modLink | apply keeps_safeHold
    | apply keeps_nextStep | apply keeps_modFirm | intro _ | split

theorem keeps_loadAll (h : Keeps q s) : Keeps q (State.loadAll s) := by
  unfold State.loadAll
  repeat' with_reducible first
    | assumption | apply keeps_loadCore | refine keeps_foldl ?_ (fun _ _ _ => ?_) | intro _ | split

theorem keeps_startPcs (h : Keeps q s) (a1 : _) : Keeps q (State.startPcs s a1) := by
  unfold State.startPcs
  repeat' with_reducible first
    | assumption | apply keeps_retirePc | apply keeps_memEvent | apply keeps_modMem | apply Keeps.cells
    | refine keeps_foldl ?_ (fun _ _ _ => ?_) | refine cells_foldl ?_ (fun _ _ _ => ?_) | intro _ | split

theorem keeps_trainAll (h : Keeps q s) : Keeps q (State.trainAll s) := by
  unfold State.trainAll
  repeat' with_reducible first
    | assumption | apply keeps_saveTraining | apply keeps_train | refine keeps_foldl ?_ (fun _ _ _ => ?_)

theorem keeps_buildMesh (h : Keeps q s) (a1 : _) : Keeps q (State.buildMesh s a1) := by
  unfold State.buildMesh
  repeat' with_reducible first
    | assumption | (extract_lets +onlyGivenNames x; refine (fun (hx : Keeps q x) => ?_) ?_; clear_value x; rotate_left; subst x)
    | (extract_lets +onlyGivenNames x; clear_value x) | apply keeps_writeRecord | apply keeps_modFirm

theorem keeps_coldPorts (h : Keeps q s) (a1 : _) : Keeps q (State.coldPorts s a1) := by
  unfold State.coldPorts
  repeat' with_reducible first
    | assumption | (extract_lets +onlyGivenNames x; refine (fun (hx : Keeps q x) => ?_) ?_; clear_value x; rotate_left; subst x)
    | (extract_lets +onlyGivenNames x; clear_value x) | apply keeps_modFirm | apply keeps_modPort | apply keeps_slotPowerOn
    | refine keeps_foldl ?_ (fun _ _ _ => ?_) | intro _ | split

theorem keeps_coldStep (h : Keeps q s) (a1 : _) : Keeps q (State.coldStep s a1) := by
  unfold State.coldStep
  repeat' with_reducible first
    | assumption | (extract_lets +onlyGivenNames x; refine (fun (hx : Keeps q x) => ?_) ?_; clear_value x; rotate_left; subst x)
    | (extract_lets +onlyGivenNames x; clear_value x) | apply keeps_coldVerify | apply keeps_nextStep | apply keeps_loadAll
    | apply keeps_safeHold | apply keeps_startPcs | apply keeps_trainAll | apply keeps_buildMesh | apply keeps_modMesh
    | apply keeps_modPower | apply keeps_coldPorts | intro _ | split

theorem keeps_coldStart (h : Keeps q s) : Keeps q (State.coldStart s) := by
  unfold State.coldStart
  repeat' with_reducible first
    | assumption | (extract_lets +onlyGivenNames x; refine (fun (hx : Keeps q x) => ?_) ?_; clear_value x; rotate_left; subst x)
    | (extract_lets +onlyGivenNames x; clear_value x) | apply keeps_wipe | apply keeps_modFirm | apply keeps_modCore
    | apply keeps_modPort | apply keeps_stateEvent | refine keeps_foldl ?_ (fun _ _ _ => ?_)

theorem keeps_warmStep (h : Keeps q s) (a1 : _) : Keeps q (State.warmStep s a1) := by
  unfold State.warmStep
  repeat' with_reducible first
    | assumption | apply keeps_nextStep | apply keeps_loadAll | apply keeps_coldStart | apply keeps_retrain
    | apply keeps_startPcs | apply keeps_warmPorts | intro _ | split | apply keeps_mk | apply Keeps.pending | apply Keeps.cells

theorem keeps_warmValues (h : Keeps q s) : Keeps q (State.warmValues s) := by
  unfold State.warmValues
  repeat' with_reducible first
    | assumption | (extract_lets +onlyGivenNames x; refine (fun (hx : Keeps q x) => ?_) ?_; clear_value x; rotate_left; subst x)
    | (extract_lets +onlyGivenNames x; clear_value x) | apply keeps_modFirm | apply keeps_modNet | apply keeps_modHosts
    | apply keeps_flushWaits | apply keeps_modCipher | apply keeps_modPower | intro _ | split | apply keepsFst_mk
    | apply keepsSnd_mk | apply keepsThird_mk | apply keeps_mk | apply Keeps.pending | apply Keeps.cells

theorem keeps_failWarm (h : Keeps q s) : Keeps q (State.failWarm s) := by
  unfold State.failWarm
  repeat' with_reducible first
    | assumption | (extract_lets +onlyGivenNames x; refine (fun (hx : Keeps q x) => ?_) ?_; clear_value x; rotate_left; subst x)
    | (extract_lets +onlyGivenNames x; clear_value x) | apply keeps_disown | apply keeps_modStorage
    | apply keeps_failOutstanding

theorem keeps_interruptCourier (h : Keeps q s) : Keeps q (State.interruptCourier s) := by
  unfold State.interruptCourier
  repeat' with_reducible first
    | assumption | (extract_lets +onlyGivenNames x; refine (fun (hx : Keeps q x) => ?_) ?_; clear_value x; rotate_left; subst x)
    | (extract_lets +onlyGivenNames x; clear_value x) | apply keeps_modConn | apply keeps_flushConn
    | refine keeps_foldl ?_ (fun _ _ _ => ?_) | intro _ | split

theorem keeps_warmStart (h : Keeps q s) (a1 : _) : Keeps q (State.warmStart s a1) := by
  unfold State.warmStart
  repeat' with_reducible first
    | assumption | (extract_lets +onlyGivenNames x; refine (fun (hx : Keeps q x) => ?_) ?_; clear_value x; rotate_left; subst x)
    | (extract_lets +onlyGivenNames x; clear_value x) | apply keeps_failStaging | apply keeps_dropRequests
    | apply keeps_warmValues | apply keeps_stopHashes | apply keeps_endWaiting | apply keeps_stopEngines | apply keeps_endLogs
    | apply keeps_failWarm | apply keeps_interruptCourier | apply keeps_interruptStorage | apply keeps_modFirm
    | apply keeps_stateEvent | apply keeps_breakAll | apply keeps_haltAll | refine keeps_foldl ?_ (fun _ _ _ => ?_)

theorem keeps_adoptMesh (h : Keeps q s) : Keeps q (State.adoptMesh s) := by
  unfold State.adoptMesh
  repeat' with_reducible first
    | assumption | apply keeps_modFirm | apply keeps_modMesh | intro _ | split

theorem keeps_recordsMoved (h : Keeps q s) : Keeps q (State.recordsMoved s) := by
  unfold State.recordsMoved
  repeat' with_reducible first
    | assumption | (extract_lets +onlyGivenNames x; refine (fun (hx : Keeps q x) => ?_) ?_; clear_value x; rotate_left; subst x)
    | (extract_lets +onlyGivenNames x; clear_value x) | apply keeps_trySwitch | apply keeps_tryComplete | apply keeps_adoptMesh
    | apply keeps_completeMoves | apply keeps_resumeStart | refine keeps_foldl ?_ (fun _ _ _ => ?_) | intro _ | split

theorem keeps_enterS4 (h : Keeps q s) : Keeps q (State.enterS4 s) := by
  unfold State.enterS4
  repeat' with_reducible first
    | assumption | (extract_lets +onlyGivenNames x; refine (fun (hx : Keeps q x) => ?_) ?_; clear_value x; rotate_left; subst x)
    | (extract_lets +onlyGivenNames x; clear_value x) | apply keeps_modPower | apply keeps_flushMerges | apply keeps_netLink
    | apply keeps_modHosts | apply keeps_interruptCourier | apply keeps_interruptStorage | apply keeps_stopEngines
    | apply keeps_dropRequests | refine keeps_foldl ?_ (fun _ _ _ => ?_) | intro _ | split

theorem keeps_stageChanged (h : Keeps q s) (a1 a2 : _) : Keeps q (State.stageChanged s a1 a2) := by
  unfold State.stageChanged
  repeat' with_reducible first
    | assumption | (extract_lets +onlyGivenNames x; refine (fun (hx : Keeps q x) => ?_) ?_; clear_value x; rotate_left; subst x)
    | (extract_lets +onlyGivenNames x; clear_value x) | apply keeps_decideDivisor | apply keeps_modPower | apply keeps_breakAll
    | apply keeps_fireAll | apply keeps_setClamp | apply keeps_holdPairs | apply keeps_haltAll | apply keeps_enterS4
    | apply keeps_modHosts | apply keeps_unhaltAll | apply keeps_pump | apply keeps_enterShedding | apply keeps_warmStart
    | apply keeps_modFirm | apply keeps_resumeMoves | apply keeps_stateEvent | apply keeps_resumeStart | intro _ | split

theorem keeps_thermal (h : Keeps q s) (a1 : _) : Keeps q (State.thermal s a1) := by
  unfold State.thermal
  repeat' with_reducible first
    | assumption | (extract_lets +onlyGivenNames x; refine (fun (hx : Keeps q x) => ?_) ?_; clear_value x; rotate_left; subst x)
    | (extract_lets +onlyGivenNames x; clear_value x) | apply keeps_stageChanged | apply keeps_modPower | intro _ | split

theorem keeps_mainRises (h : Keeps q s) : Keeps q (State.mainRises s) := by
  unfold State.mainRises
  repeat' with_reducible first
    | assumption | (extract_lets +onlyGivenNames x; refine (fun (hx : Keeps q x) => ?_) ?_; clear_value x; rotate_left; subst x)
    | (extract_lets +onlyGivenNames x; clear_value x) | apply keeps_modPower | apply keeps_coldStart | intro _ | split

theorem keeps_shedLeave (h : Keeps q s) (a1 : _) : Keeps q (State.shedLeave s a1) := by
  unfold State.shedLeave
  repeat' with_reducible first
    | assumption | (extract_lets +onlyGivenNames x; refine (fun (hx : Keeps q x) => ?_) ?_; clear_value x; rotate_left; subst x)
    | (extract_lets +onlyGivenNames x; clear_value x) | apply keeps_stageChanged | apply keeps_modPower | intro _ | split

theorem keeps_powerProfileBlock : KeepsBlock q powerProfileBlock := by
  unfold powerProfileBlock
  repeat' with_reducible first
    | assumption | apply keeps_modPower | refine keepsBlock_mk (fun _ _ _ => ?_) | intro _ | apply keepsReply_mk

theorem keeps_hearthLoop (h : Keeps q s) (a1 : _) : Keeps q (State.hearthLoop s a1) := by
  unfold State.hearthLoop
  repeat' with_reducible first
    | assumption | (extract_lets +onlyGivenNames x; refine (fun (hx : Keeps q x) => ?_) ?_; clear_value x; rotate_left; subst x)
    | apply keeps_modPower | apply keeps_setClamp | apply keeps_decideDivisor | intro _ | split

theorem keeps_thermalClear (h : Keeps q s) (a1 : _) : Keeps q (State.thermalClear s a1) := by
  unfold State.thermalClear
  repeat' with_reducible first
    | assumption | (extract_lets +onlyGivenNames x; refine (fun (hx : Keeps q x) => ?_) ?_; clear_value x; rotate_left; subst x)
    | (extract_lets +onlyGivenNames x; clear_value x) | apply keeps_stageChanged | apply keeps_modPower

theorem keeps_shedEnter (h : Keeps q s) (a1 : _) : Keeps q (State.shedEnter s a1) := by
  unfold State.shedEnter
  repeat' with_reducible first
    | assumption | (extract_lets +onlyGivenNames x; refine (fun (hx : Keeps q x) => ?_) ?_; clear_value x; rotate_left; subst x)
    | (extract_lets +onlyGivenNames x; clear_value x) | apply keeps_modPower | apply keeps_mainOff | apply keeps_stageChanged
    | intro _ | split

theorem keeps_moduleRestartBlock : KeepsBlock q moduleRestartBlock := by
  unfold moduleRestartBlock
  repeat' with_reducible first
    | assumption | apply keeps_modFirm | refine keepsBlock_mk (fun _ _ _ => ?_) | intro _ | apply keepsReply_mk

theorem keeps_fwStageBlock : KeepsBlock q fwStageBlock := by
  unfold fwStageBlock
  repeat' with_reducible first
    | assumption | (extract_lets +onlyGivenNames x; refine (fun (hx : Keeps q x) => ?_) ?_; clear_value x; rotate_left; subst x)
    | (extract_lets +onlyGivenNames x; refine (fun (hx : KeepsReply q x) => ?_) ?_; clear_value x; rotate_left; subst x)
    | (extract_lets +onlyGivenNames x; clear_value x) | apply keeps_deferred | apply keeps_modFirm
    | refine keepsBlock_mk (fun _ _ _ => ?_)

theorem keeps_featuresBlock : KeepsBlock q featuresBlock := by
  unfold featuresBlock
  repeat' with_reducible first
    | assumption | (extract_lets +onlyGivenNames x; refine (fun (hx : Keeps q x) => ?_) ?_; clear_value x; rotate_left; subst x)
    | (extract_lets +onlyGivenNames x; clear_value x) | apply keeps_modFirm | refine keepsBlock_mk (fun _ _ _ => ?_) | intro _
    | apply keepsReply_mk

theorem keeps_moduleStatusBlock : KeepsBlock q moduleStatusBlock := by
  unfold moduleStatusBlock
  repeat' with_reducible first
    | assumption | refine keepsBlock_mk (fun _ _ _ => ?_) | intro _ | split | apply keepsReply_mk

theorem keeps_fwActivateBlock : KeepsBlock q fwActivateBlock := by
  unfold fwActivateBlock
  repeat' with_reducible first
    | assumption | (extract_lets +onlyGivenNames x; refine (fun (hx : Keeps q x) => ?_) ?_; clear_value x; rotate_left; subst x)
    | (extract_lets +onlyGivenNames x; refine (fun (hx : KeepsReply q x) => ?_) ?_; clear_value x; rotate_left; subst x)
    | (extract_lets +onlyGivenNames x; clear_value x) | apply keeps_modFirm | apply keeps_deferred | apply keeps_beginSwap
    | apply keeps_fwEvent | refine keepsBlock_mk (fun _ _ _ => ?_) | intro _ | split

theorem keeps_helloBlock : KeepsBlock q helloBlock := by
  unfold helloBlock
  repeat' with_reducible first
    | assumption | apply keeps_modFirm | refine keepsBlock_mk (fun _ _ _ => ?_) | intro _ | apply keepsReply_mk

theorem keeps_stageDone (h : Keeps q s) : Keeps q (State.stageDone s) := by
  unfold State.stageDone
  repeat' with_reducible first
    | assumption | (extract_lets +onlyGivenNames x; refine (fun (hx : Keeps q x) => ?_) ?_; clear_value x; rotate_left; subst x)
    | (extract_lets +onlyGivenNames x; clear_value x) | apply keeps_memRead | apply keeps_modFirm | apply keeps_modFlash
    | apply keeps_fwEvent | apply keeps_failStaging | intro _ | split | apply keepsThird_snd

theorem keeps_modCoreCtx (h : Keeps q s) (a1 a2 : _) : Keeps q (State.modCoreCtx s a1 a2) := h

theorem keeps_coreStore (h : Keeps q s) (a1 a2 a3 : _) : Keeps q (State.coreStore s a1 a2 a3) := by
  unfold State.coreStore
  repeat' with_reducible first
    | assumption | apply keeps_modCore | intro _ | split

theorem keeps_coreEffect (h : Keeps q s) (a1 a2 : _) : Keeps q (State.coreEffect s a1 a2) := by
  unfold State.coreEffect
  repeat' with_reducible first
    | assumption | (extract_lets +onlyGivenNames x; refine (fun (hx : Keeps q x) => ?_) ?_; clear_value x; rotate_left; subst x)
    | (extract_lets +onlyGivenNames x; clear_value x) | apply keeps_coreStore | refine keeps_foldl ?_ (fun _ _ _ => ?_)
    | intro _ | split

theorem keeps_coreApply (h : Keeps q s) (a1 a2 : _) : Keeps q (State.coreApply s a1 a2) := by
  unfold State.coreApply
  repeat' with_reducible first
    | assumption | apply keeps_coreEffect | apply keeps_modCoreCtx

theorem keeps_coreCommit (h : Keeps q s) (a0 a2 : _) : Keeps q (State.coreCommit a0 s a2) := by
  induction a0 generalizing s a2 with
  | zero => exact h
  | succ f ih =>
    unfold State.coreCommit
    repeat' with_reducible first
      | assumption | apply ih
      | (extract_lets +onlyGivenNames x; refine (fun (hx : Keeps q x) => ?_) ?_; clear_value x; rotate_left; subst x)
      | (extract_lets +onlyGivenNames x; clear_value x) | apply keeps_coreApply | apply keeps_modCoreCtx | intro _ | split

theorem keeps_coreRun (h : Keeps q s) (a1 a2 a3 : _) : Keeps q (State.coreRun s a1 a2 a3) := by
  unfold State.coreRun
  repeat' with_reducible first
    | assumption | (extract_lets +onlyGivenNames x; refine (fun (hx : Keeps q x) => ?_) ?_; clear_value x; rotate_left; subst x)
    | (extract_lets +onlyGivenNames x; clear_value x) | apply keeps_modCore | apply keeps_modCoreCtx | apply keeps_coreApply
    | apply keeps_coreCommit | apply keeps_crash | refine keeps_foldl ?_ (fun _ _ _ => ?_) | intro _ | split | apply keeps_mk
    | apply Keeps.pending | apply Keeps.cells

theorem keeps_coreNext (h : Keeps q s) (a1 : _) : Keeps q (State.coreNext s a1) := by
  unfold State.coreNext
  repeat' with_reducible first
    | assumption | (extract_lets +onlyGivenNames x; refine (fun (hx : Keeps q x) => ?_) ?_; clear_value x; rotate_left; subst x)
    | (extract_lets +onlyGivenNames x; clear_value x) | apply keeps_crash | apply keeps_coreRun | intro _ | split

theorem keeps_coreCommand (h : Keeps q s) (a0 a1 : _) : Keeps q (coreCommand a0 a1 s) := by
  unfold coreCommand
  repeat' with_reducible first
    | assumption | (extract_lets +onlyGivenNames x; refine (fun (hx : Keeps q x) => ?_) ?_; clear_value x; rotate_left; subst x)
    | (extract_lets +onlyGivenNames x; clear_value x) | apply keeps_coreNext | intro _ | split

theorem keeps_issueAt (h : Keeps q s) (a0 a1 : _) : Keeps q (issueAt a0 a1 s) := by
  unfold issueAt
  repeat' with_reducible first
    | assumption | apply keeps_tileCommand | apply keeps_coreCommand | intro _ | split

theorem keeps_unstage (h : Keeps q s) (a1 : _) : Keeps q (State.unstage s a1) := by
  unfold State.unstage
  repeat' with_reducible first
    | assumption | apply keeps_modFirm | intro _ | split

theorem keeps_dropWrites (h : Keeps q s) (a1 a2 : _) : Keeps q (State.dropWrites s a1 a2) := by
  unfold State.dropWrites
  repeat' with_reducible first
    | assumption | (extract_lets +onlyGivenNames x; refine (fun (hx : Keeps q x) => ?_) ?_; clear_value x; rotate_left; subst x)
    | (extract_lets +onlyGivenNames x; clear_value x) | apply keeps_recordsMoved | apply keeps_modFirm

theorem keeps_releaseFlash (h : Keeps q s) (a1 a2 : _) : Keeps q (State.releaseFlash s a1 a2) := by
  unfold State.releaseFlash
  repeat' with_reducible first
    | assumption | (extract_lets +onlyGivenNames x; refine (fun (hx : Keeps q x) => ?_) ?_; clear_value x; rotate_left; subst x)
    | (extract_lets +onlyGivenNames x; clear_value x) | apply keeps_unstage | apply keeps_dropWrites | apply keeps_modFirm
    | apply keeps_modFlash | apply keeps_serviceEvent | intro _ | split

theorem keeps_flashReleaseBlock : KeepsBlock q flashReleaseBlock := by
  unfold flashReleaseBlock
  repeat' with_reducible first
    | assumption | (extract_lets +onlyGivenNames x; refine (fun (hx : Keeps q x) => ?_) ?_; clear_value x; rotate_left; subst x)
    | (extract_lets +onlyGivenNames x; refine (fun (hx : KeepsReply q x) => ?_) ?_; clear_value x; rotate_left; subst x)
    | (extract_lets +onlyGivenNames x; clear_value x) | apply keeps_deferred | apply keeps_releaseFlash
    | refine keepsBlock_mk (fun _ _ _ => ?_)

theorem keeps_serviceLocateBlock : KeepsBlock q serviceLocateBlock := by
  unfold serviceLocateBlock
  repeat' with_reducible first
    | assumption | (extract_lets +onlyGivenNames x; refine (fun (hx : Keeps q x) => ?_) ?_; clear_value x; rotate_left; subst x)
    | (extract_lets +onlyGivenNames x; clear_value x) | refine keepsBlock_mk (fun _ _ _ => ?_) | intro _ | apply keepsReply_mk
    | apply keeps_mk | apply Keeps.pending | apply Keeps.cells

theorem keeps_moduleWrite (h : Keeps q s) (a1 : _) : Keeps q (State.moduleWrite s a1) := by
  unfold State.moduleWrite
  repeat' with_reducible first
    | assumption | apply keeps_coldStart | intro _ | split

theorem keeps_holeWrite (h : Keeps q s) (a1 a2 a3 : _) : Keeps q (State.holeWrite s a1 a2 a3) := by
  unfold State.holeWrite
  repeat' with_reducible first
    | assumption | (extract_lets +onlyGivenNames x; refine (fun (hx : Keeps q x) => ?_) ?_; clear_value x; rotate_left; subst x)
    | (extract_lets +onlyGivenNames x; clear_value x) | apply keeps_modHole | apply keeps_go | intro _ | split

theorem keeps_portWrite (h : Keeps q s) (a1 a2 : _) : Keeps q (State.portWrite s a1 a2) := by
  unfold State.portWrite
  repeat' with_reducible first
    | assumption | (extract_lets +onlyGivenNames x; refine (fun (hx : Keeps q x) => ?_) ?_; clear_value x; rotate_left; subst x)
    | (extract_lets +onlyGivenNames x; clear_value x) | apply keeps_modLink | apply keeps_modHosts | apply keeps_modPort
    | apply keeps_windowCommit | intro _ | split

theorem keeps_netWrite (h : Keeps q s) (a1 a2 : _) : Keeps q (State.netWrite s a1 a2) := by
  unfold State.netWrite
  repeat' with_reducible first
    | assumption | (extract_lets +onlyGivenNames x; refine (fun (hx : Keeps q x) => ?_) ?_; clear_value x; rotate_left; subst x)
    | (extract_lets +onlyGivenNames x; clear_value x) | apply keeps_modNet | apply keeps_ruleCommit | apply keeps_rxTail
    | apply keeps_txTail | intro _ | split

theorem keeps_trafficWrite (h : Keeps q s) (a1 a2 : _) : Keeps q (State.trafficWrite s a1 a2) := by
  unfold State.trafficWrite
  repeat' with_reducible first
    | assumption | apply keeps_modEgress | intro _ | split

theorem keeps_irqWrite (h : Keeps q s) (a1 a2 : _) : Keeps q (State.irqWrite s a1 a2) := by
  unfold State.irqWrite
  repeat' with_reducible first
    | assumption | apply keeps_modIrq | apply keeps_teleHeadWrite | intro _ | split

theorem keeps_blockWrite (h : Keeps q s) (a1 a2 a3 : _) : Keeps q (State.blockWrite s a1 a2 a3) := by
  unfold State.blockWrite
  repeat' with_reducible first
    | assumption | (extract_lets +onlyGivenNames x; refine (fun (hx : Keeps q x) => ?_) ?_; clear_value x; rotate_left; subst x)
    | (extract_lets +onlyGivenNames x; clear_value x) | apply keeps_modMesh | apply keeps_modCluster | apply keeps_modLedgers
    | apply keeps_modMem | apply keeps_portWrite | apply keeps_modHosts | apply keeps_parlourVector | apply keeps_netWrite
    | apply keeps_trafficWrite | apply keeps_modCipher | apply keeps_irqWrite | apply Keeps.cells | intro _ | split

theorem keeps_regWrite (h : Keeps q s) (a1 a2 a3 : _) : Keeps q (State.regWrite s a1 a2 a3) := by
  unfold State.regWrite
  repeat' with_reducible first
    | assumption | apply keeps_moduleWrite | apply keeps_holeWrite | apply keeps_modLink | apply keeps_blockWrite | intro _
    | split

theorem keeps_slotWrite (h : Keeps q s) (a1 a2 a3 : _) : Keeps q (State.slotWrite s a1 a2 a3) := h

theorem keeps_bar0Write (h : Keeps q s) (a1 a2 a3 a4 : _) : Keeps q (State.bar0Write s a1 a2 a3 a4) := by
  unfold State.bar0Write
  repeat' with_reducible first
    | assumption | (extract_lets +onlyGivenNames x; refine (fun (hx : Keeps q x) => ?_) ?_; clear_value x; rotate_left; subst x)
    | apply keeps_unsupported | apply keeps_imsWrite | apply keeps_slotWrite | apply keeps_holeWrite | apply keeps_regWrite
    | intro _ | split

theorem keeps_clockTick (h : Keeps q s) : Keeps q (State.clockTick s) := by
  unfold State.clockTick
  repeat' with_reducible first
    | assumption | (extract_lets +onlyGivenNames x; refine (fun (hx : Keeps q x) => ?_) ?_; clear_value x; rotate_left; subst x)
    | apply keeps_aonCycle | apply keeps_reposition | intro _ | split

theorem keeps_linkUpset (h : Keeps q s) (a1 a2 a3 : _) : Keeps q (State.linkUpset s a1 a2 a3) := by
  unfold State.linkUpset
  repeat' with_reducible first
    | assumption | (extract_lets +onlyGivenNames x; refine (fun (hx : Keeps q x) => ?_) ?_; clear_value x; rotate_left; subst x)
    | (extract_lets +onlyGivenNames x; clear_value x) | apply keeps_modLink | apply keeps_modPort | intro _ | split

theorem keeps_upset (h : Keeps q s) (a1 : _) : Keeps q (State.upset s a1) := by
  unfold State.upset
  repeat' with_reducible first
    | assumption | (extract_lets +onlyGivenNames x; refine (fun (hx : Keeps q x) => ?_) ?_; clear_value x; rotate_left; subst x)
    | (extract_lets +onlyGivenNames x; clear_value x) | apply keeps_modTile | apply keeps_queueRetirement | apply keeps_modMem
    | apply keeps_linkUpset | apply Keeps.cells | intro _ | split | apply keepsFst_mk | apply keepsSnd_mk | apply keepsThird_mk
    | apply cellsWf_memUpset | apply keeps_mk | apply Keeps.pending

theorem keeps_idle (h : Keeps q s) : Keeps q (State.idle s) := by
  unfold State.idle
  repeat' with_reducible first
    | assumption | (extract_lets +onlyGivenNames x; refine (fun (hx : Keeps q x) => ?_) ?_; clear_value x; rotate_left; subst x)
    | (extract_lets +onlyGivenNames x; clear_value x) | apply keeps_evacTick | apply keeps_clockTick | apply keeps_upset
    | refine keeps_foldl ?_ (fun _ _ _ => ?_) | intro _ | split

end keeping

end Sys2Proof.Machine
end

