-- ==== Sys2Proof/Laws/KeepingRows.lean ====
section
/-! SUPPORT. That every command keeps the queue it is handed and the memory's form, one lemma for each. -/

namespace Sys2Proof.Machine

set_option linter.unusedTactic false
set_option linter.unreachableTactic false

section keeping
variable {q : List Instr} {s : State}

theorem keeps_execTmaxDownArrive (h : Keeps q s) (a0 : _) : KeepsOut q (execTmaxDownArrive a0 s) := by
  unfold execTmaxDownArrive
  repeat' with_reducible first
    | assumption | apply keeps_done | apply keeps_tclk | apply keeps_arrival | apply keepsOut_done | intro _

theorem keeps_execGetReplyArrive (h : Keeps q s) (a0 : _) : KeepsOut q (execGetReplyArrive a0 s) := by
  unfold execGetReplyArrive
  repeat' with_reducible first
    | assumption | apply keeps_done | apply keeps_tclk | apply keeps_arrival | apply keepsOut_done | intro _

theorem keeps_execPutArrive (h : Keeps q s) (a0 : _) : KeepsOut q (execPutArrive a0 s) := by
  unfold execPutArrive
  repeat' with_reducible first
    | assumption | apply keeps_done | apply keeps_tclk | apply keeps_arrival | apply keepsOut_done | intro _

theorem keeps_execTmaxUpArrive (h : Keeps q s) (a0 : _) : KeepsOut q (execTmaxUpArrive a0 s) := by
  unfold execTmaxUpArrive
  repeat' with_reducible first
    | assumption | apply keeps_done | apply keeps_tclk | apply keeps_arrival | apply keepsOut_done | intro _

theorem keeps_execFndWrArrive (h : Keeps q s) (a0 : _) : KeepsOut q (execFndWrArrive a0 s) := by
  unfold execFndWrArrive
  repeat' with_reducible first
    | assumption | (extract_lets +onlyGivenNames x; refine (fun (hx : Keeps q x) => ?_) ?_; clear_value x; rotate_left; subst x)
    | (extract_lets +onlyGivenNames x; clear_value x) | apply keeps_takeCrossing | apply keeps_done | apply keeps_arriveBytes
    | apply keeps_fixedWords | apply keeps_memWrite | apply keeps_fndBreaks | apply keeps_guestFault | apply keepsOut_done
    | intro _ | split

theorem keeps_execFlitCrcFail (h : Keeps q s) (a0 a1 a2 : _) : KeepsOut q (execFlitCrcFail a0 a1 a2 s) := by
  unfold execFlitCrcFail
  repeat' with_reducible first
    | assumption | apply keeps_done | apply keeps_flitFail | apply keepsOut_done | intro _ | split

theorem keeps_execGetReqArrive (h : Keeps q s) (a0 : _) : KeepsOut q (execGetReqArrive a0 s) := by
  unfold execGetReqArrive
  repeat' with_reducible first
    | assumption | apply keeps_done | apply keeps_tclk | apply keeps_arrival | apply keepsOut_done | intro _

theorem keeps_execAckTimerExpire (h : Keeps q s) (a0 a1 : _) : KeepsOut q (execAckTimerExpire a0 a1 s) := by
  unfold execAckTimerExpire
  repeat' with_reducible first
    | assumption | apply keeps_done | apply keeps_tclk | apply keeps_sendAck | apply keepsOut_done | intro _

theorem keeps_execPacketHop (h : Keeps q s) (a0 a1 : _) : KeepsOut q (execPacketHop a0 a1 s) := by
  unfold execPacketHop
  repeat' with_reducible first
    | assumption | apply keeps_done | apply keeps_tclk | apply keeps_inject | apply keeps_hop | apply keepsOut_done | intro _
    | split

theorem keeps_execFndRdArrive (h : Keeps q s) (a0 : _) : KeepsOut q (execFndRdArrive a0 s) := by
  unfold execFndRdArrive
  repeat' with_reducible first
    | assumption | (extract_lets +onlyGivenNames x; refine (fun (hx : Keeps q x) => ?_) ?_; clear_value x; rotate_left; subst x)
    | (extract_lets +onlyGivenNames x; refine (fun (hx : KeepsSnd q x) => ?_) ?_; clear_value x; rotate_left; subst x)
    | (extract_lets +onlyGivenNames x; clear_value x) | apply keeps_fndRead | apply keeps_fndBreaks | apply keeps_guestFault
    | apply keeps_done | apply keeps_modRouter | apply keeps_takeCrossing | apply keepsOut_done | intro _ | split
    | apply keepsFst_mk | apply keepsSnd_mk | apply keepsThird_mk | apply keepsSnd_snd | refine keepsSnd_of (by assumption) ?_

theorem keeps_execCtrlArrive (h : Keeps q s) (a0 : _) : KeepsOut q (execCtrlArrive a0 s) := by
  unfold execCtrlArrive
  repeat' with_reducible first
    | assumption | apply keeps_done | apply keeps_tclk | apply keeps_arrival | apply keepsOut_done | intro _

theorem keeps_execFndReplyArrive (h : Keeps q s) (a0 : _) : KeepsOut q (execFndReplyArrive a0 s) := by
  unfold execFndReplyArrive
  repeat' with_reducible first
    | assumption | apply keeps_done | apply keeps_tclk | apply keeps_arrival | apply keepsOut_done | intro _

theorem keeps_execAgeTick (h : Keeps q s) : KeepsOut q (execAgeTick s) := by
  unfold execAgeTick
  repeat' with_reducible first
    | assumption | (extract_lets +onlyGivenNames x; refine (fun (hx : Keeps q x) => ?_) ?_; clear_value x; rotate_left; subst x)
    | (extract_lets +onlyGivenNames x; clear_value x) | apply keeps_modMesh | apply keeps_done | apply keeps_tclk
    | apply keepsOut_done | intro _ | split | apply keeps_mk | apply Keeps.pending | apply Keeps.cells

theorem keeps_execImageArrive (h : Keeps q s) (a0 : _) : KeepsOut q (execImageArrive a0 s) := by
  unfold execImageArrive
  repeat' with_reducible first
    | assumption | apply keeps_done | apply keeps_tclk | apply keeps_arrival | apply keepsOut_done | intro _

theorem keeps_execAckArrive (h : Keeps q s) (a0 : _) : KeepsOut q (execAckArrive a0 s) := by
  unfold execAckArrive
  repeat' with_reducible first
    | assumption | apply keeps_done | apply keeps_tclk | apply keeps_arrival | apply keepsOut_done | intro _

theorem keeps_execPhDoneClear (h : Keeps q s) (a0 : _) : KeepsOut q (execPhDoneClear a0 s) := by
  unfold execPhDoneClear
  repeat' with_reducible first
    | assumption | apply keeps_done | apply keeps_modHole | apply keepsOut_done | intro _ | split

theorem keeps_execPhGo (h : Keeps q s) (a0 : _) : KeepsOut q (execPhGo a0 s) := by
  unfold execPhGo
  repeat' with_reducible first
    | assumption | apply keeps_done | apply keeps_go | apply keepsOut_done

theorem keeps_execRequestBegin (h : Keeps q s) (a0 : _) : KeepsOut q (execRequestBegin a0 s) := by
  unfold execRequestBegin
  repeat' with_reducible first
    | assumption | (extract_lets +onlyGivenNames x; refine (fun (hx : Keeps q x) => ?_) ?_; clear_value x; rotate_left; subst x)
    | (extract_lets +onlyGivenNames x; clear_value x) | apply keeps_done | apply keeps_modCore | apply keepsOut_done | intro _
    | split

theorem keeps_execEventPost (h : Keeps q s) (a0 : _) : KeepsOut q (execEventPost a0 s) := by
  unfold execEventPost
  repeat' with_reducible first
    | assumption | (extract_lets +onlyGivenNames x; refine (fun (hx : Keeps q x) => ?_) ?_; clear_value x; rotate_left; subst x)
    | (extract_lets +onlyGivenNames x; clear_value x) | apply keeps_done | apply keeps_modFirm | apply keeps_holeDone
    | apply keeps_modHole | apply keepsOut_done | intro _ | split

theorem keeps_execQueueSample (h : Keeps q s) : KeepsOut q (execQueueSample s) := by
  unfold execQueueSample
  repeat' with_reducible first
    | assumption | (extract_lets +onlyGivenNames x; refine (fun (hx : Keeps q x) => ?_) ?_; clear_value x; rotate_left; subst x)
    | (extract_lets +onlyGivenNames x; clear_value x) | apply keeps_done | apply keeps_modEgress | apply keepsOut_done
    | refine keeps_foldl ?_ (fun _ _ _ => ?_)

theorem keeps_execTrafficTimetable (h : Keeps q s) (a0 : _) : KeepsOut q (execTrafficTimetable a0 s) :=
  keepsOut_done (keeps_serve h keeps_trafficTimetableBlock _)

theorem keeps_execTimetableSlotStart (h : Keeps q s) (a0 : _) : KeepsOut q (execTimetableSlotStart a0 s) := by
  unfold execTimetableSlotStart
  repeat' with_reducible first
    | assumption | (extract_lets +onlyGivenNames x; refine (fun (hx : Keeps q x) => ?_) ?_; clear_value x; rotate_left; subst x)
    | (extract_lets +onlyGivenNames x; clear_value x) | apply keeps_done | apply keeps_modEgress | apply keepsOut_done | intro _
    | split

theorem keeps_execTokenUpdate (h : Keeps q s) : KeepsOut q (execTokenUpdate s) := by
  unfold execTokenUpdate
  repeat' with_reducible first
    | assumption | (extract_lets +onlyGivenNames x; refine (fun (hx : Keeps q x) => ?_) ?_; clear_value x; rotate_left; subst x)
    | (extract_lets +onlyGivenNames x; clear_value x) | apply keeps_modNet | apply keeps_done | apply keeps_modEgress
    | apply keepsOut_done | refine keeps_foldl ?_ (fun _ _ _ => ?_)

theorem keeps_execSchedulerDecide (h : Keeps q s) (a0 : _) : KeepsOut q (execSchedulerDecide a0 s) := by
  unfold execSchedulerDecide
  repeat' with_reducible first
    | assumption | (extract_lets +onlyGivenNames x; refine (fun (hx : Keeps q x) => ?_) ?_; clear_value x; rotate_left; subst x)
    | (extract_lets +onlyGivenNames x; clear_value x) | apply keeps_modEgress | apply keeps_done | apply keeps_modNet
    | apply keepsOut_done | intro _ | split

theorem keeps_execTrafficPort (h : Keeps q s) (a0 : _) : KeepsOut q (execTrafficPort a0 s) :=
  keepsOut_done (keeps_serve h keeps_trafficPortBlock _)

theorem keeps_execTrafficGates (h : Keeps q s) (a0 : _) : KeepsOut q (execTrafficGates a0 s) :=
  keepsOut_done (keeps_serve h keeps_trafficGatesBlock _)

theorem keeps_execTrafficQueue (h : Keeps q s) (a0 : _) : KeepsOut q (execTrafficQueue a0 s) :=
  keepsOut_done (keeps_serve h keeps_trafficQueueBlock _)

theorem keeps_execScheduleSwitch (h : Keeps q s) (a0 a1 : _) : KeepsOut q (execScheduleSwitch a0 a1 s) := by
  unfold execScheduleSwitch
  repeat' with_reducible first
    | assumption | (extract_lets +onlyGivenNames x; refine (fun (hx : Keeps q x) => ?_) ?_; clear_value x; rotate_left; subst x)
    | (extract_lets +onlyGivenNames x; clear_value x) | apply keeps_done | apply keeps_trafficEvent | apply keeps_modEgress
    | apply keepsOut_done | intro _ | split

theorem keeps_execGateEntryAdvance (h : Keeps q s) (a0 : _) : KeepsOut q (execGateEntryAdvance a0 s) := by
  unfold execGateEntryAdvance
  repeat' with_reducible first
    | assumption | (extract_lets +onlyGivenNames x; refine (fun (hx : Keeps q x) => ?_) ?_; clear_value x; rotate_left; subst x)
    | (extract_lets +onlyGivenNames x; clear_value x) | apply keeps_done | apply keeps_modEgress | apply keepsOut_done | intro _
    | split

theorem keeps_execRuleCommit (h : Keeps q s) (a0 : _) : KeepsOut q (execRuleCommit a0 s) := by
  unfold execRuleCommit
  repeat' with_reducible first
    | assumption | apply keeps_done | apply keeps_ruleCommit | apply keepsOut_done

theorem keeps_execNetConfig (h : Keeps q s) (a0 : _) : KeepsOut q (execNetConfig a0 s) :=
  keepsOut_done (keeps_serve h keeps_netConfigBlock _)

theorem keeps_execNetPortSet (h : Keeps q s) (a0 : _) : KeepsOut q (execNetPortSet a0 s) :=
  keepsOut_done (keeps_serve h keeps_netPortSetBlock _)

theorem keeps_execEgressEnqueue (h : Keeps q s) (a0 a1 : _) : KeepsOut q (execEgressEnqueue a0 a1 s) := by
  unfold execEgressEnqueue
  repeat' with_reducible first
    | assumption | dsimp -zeta only
    | (extract_lets +onlyGivenNames x; refine (fun (hx : Keeps q x) => ?_) ?_; clear_value x; rotate_left; subst x)
    | (extract_lets +onlyGivenNames x; subst x) | apply keeps_done | apply keeps_modEgress | apply keeps_txDone
    | apply keeps_countDrops | apply keepsOut_done | intro _ | split

theorem keeps_execNetProfile (h : Keeps q s) (a0 : _) : KeepsOut q (execNetProfile a0 s) :=
  keepsOut_done (keeps_serve h keeps_netProfileBlock _)

theorem keeps_execNetTime (h : Keeps q s) (a0 : _) : KeepsOut q (execNetTime a0 s) :=
  keepsOut_done (keeps_serve h keeps_netTimeBlock _)

theorem keeps_execFrameTxTail (h : Keeps q s) (a0 a1 : _) : KeepsOut q (execFrameTxTail a0 a1 s) := by
  unfold execFrameTxTail
  repeat' with_reducible first
    | assumption | apply keeps_done | apply keeps_txTail | apply keepsOut_done | intro _ | split

theorem keeps_execNetRing (h : Keeps q s) (a0 : _) : KeepsOut q (execNetRing a0 s) :=
  keepsOut_done (keeps_serve h keeps_netRingBlock _)

theorem keeps_execFrameRxTail (h : Keeps q s) (a0 a1 : _) : KeepsOut q (execFrameRxTail a0 a1 s) := by
  unfold execFrameRxTail
  repeat' with_reducible first
    | assumption | apply keeps_done | apply keeps_rxTail | apply keepsOut_done | intro _ | split

theorem keeps_execNetLinkChange (h : Keeps q s) (a0 a1 : _) : KeepsOut q (execNetLinkChange a0 a1 s) := by
  unfold execNetLinkChange
  repeat' with_reducible first
    | assumption | (extract_lets +onlyGivenNames x; refine (fun (hx : Keeps q x) => ?_) ?_; clear_value x; rotate_left; subst x)
    | (extract_lets +onlyGivenNames x; clear_value x) | apply keeps_done | apply keeps_netLink | apply keeps_portBack
    | apply keeps_portLost | apply keepsOut_done | intro _ | split

theorem keeps_execCourierKey (h : Keeps q s) (a0 : _) : KeepsOut q (execCourierKey a0 s) :=
  keepsOut_done (keeps_serve h keeps_courierKeyBlock _)

theorem keeps_execCourierRequestStart (h : Keeps q s) (a0 : _) : KeepsOut q (execCourierRequestStart a0 s) := by
  unfold execCourierRequestStart
  repeat' with_reducible first
    | assumption | apply keeps_done | apply keeps_startRequest | apply keepsOut_done

theorem keeps_execCourierClose (h : Keeps q s) (a0 : _) : KeepsOut q (execCourierClose a0 s) :=
  keepsOut_done (keeps_serve h keeps_courierCloseBlock _)

theorem keeps_execCourierRtoExpire (h : Keeps q s) (a0 a1 : _) : KeepsOut q (execCourierRtoExpire a0 a1 s) := by
  unfold execCourierRtoExpire
  repeat' with_reducible first
    | assumption | apply keeps_done | apply keeps_rtoExpire | apply keepsOut_done

theorem keeps_execCourierPacketReceive (h : Keeps q s) (a0 a1 a2 a3 : _) : KeepsOut q (execCourierPacketReceive a0 a1 a2 a3 s) := by
  unfold execCourierPacketReceive
  repeat' with_reducible first
    | assumption | apply keeps_done | apply keeps_nativeArrives | apply keepsOut_done | intro _ | split

theorem keeps_execCourierOpen (h : Keeps q s) (a0 : _) : KeepsOut q (execCourierOpen a0 s) :=
  keepsOut_done (keeps_serve h keeps_courierOpenBlock _)

theorem keeps_execCourierNackReceive (h : Keeps q s) (a0 a1 a2 a3 : _) : KeepsOut q (execCourierNackReceive a0 a1 a2 a3 s) := by
  unfold execCourierNackReceive
  repeat' with_reducible first
    | assumption | apply keeps_done | apply keeps_nativeArrives | apply keepsOut_done | intro _ | split

theorem keeps_execCourierAckReceive (h : Keeps q s) (a0 a1 a2 a3 : _) : KeepsOut q (execCourierAckReceive a0 a1 a2 a3 s) := by
  unfold execCourierAckReceive
  repeat' with_reducible first
    | assumption | apply keeps_done | apply keeps_nativeArrives | apply keepsOut_done | intro _ | split

theorem keeps_execFrameReceive (h : Keeps q s) (a0 a1 a2 : _) : KeepsOut q (execFrameReceive a0 a1 a2 s) := by
  unfold execFrameReceive
  repeat' with_reducible first
    | assumption | (extract_lets +onlyGivenNames x; refine (fun (hx : Keeps q x) => ?_) ?_; clear_value x; rotate_left; subst x)
    | (extract_lets +onlyGivenNames x; clear_value x) | apply keeps_done | apply keeps_modNetPort | apply keeps_classify
    | apply keeps_roceArrives | apply keeps_nativeArrives | apply keepsOut_done | intro _ | split

theorem keeps_execKeyLoad (h : Keeps q s) (a0 : _) : KeepsOut q (execKeyLoad a0 s) :=
  keepsOut_done (keeps_serve h keeps_keyLoadBlock _)

theorem keeps_execAlarmRezeroise (h : Keeps q s) (a0 : _) : KeepsOut q (execAlarmRezeroise a0 s) := by
  unfold execAlarmRezeroise
  repeat' with_reducible first
    | assumption | apply keeps_done | apply keeps_zeroise | apply keepsOut_done | intro _ | split

theorem keeps_execAlarm (h : Keeps q s) (a0 : _) : KeepsOut q (execAlarm a0 s) := by
  unfold execAlarm
  repeat' with_reducible first
    | assumption | apply keeps_done | apply keeps_alarm | apply keepsOut_done

theorem keeps_execCipherBlockDone (h : Keeps q s) (a0 : _) : KeepsOut q (execCipherBlockDone a0 s) := by
  unfold execCipherBlockDone
  repeat' with_reducible first
    | assumption | apply keeps_done | apply keeps_blockDone | apply keepsOut_done | intro _ | split

theorem keeps_execKekInstall (h : Keeps q s) (a0 : _) : KeepsOut q (execKekInstall a0 s) :=
  keepsOut_done (keeps_serve h keeps_kekInstallBlock _)

theorem keeps_execKeyIdentity (h : Keeps q s) (a0 : _) : KeepsOut q (execKeyIdentity a0 s) :=
  keepsOut_done (keeps_serve h keeps_keyIdentityBlock _)

theorem keeps_execAlarmCauseClear (h : Keeps q s) (a0 : _) : KeepsOut q (execAlarmCauseClear a0 s) := by
  unfold execAlarmCauseClear
  repeat' with_reducible first
    | assumption | apply keeps_done | apply keeps_modCipher | apply keepsOut_done

theorem keeps_execCipherRunDone (h : Keeps q s) (a0 : _) : KeepsOut q (execCipherRunDone a0 s) := by
  unfold execCipherRunDone
  repeat' with_reducible first
    | assumption | apply keeps_done | apply keeps_runDone | apply keepsOut_done | intro _ | split

theorem keeps_execCipherRun (h : Keeps q s) (a0 : _) : KeepsOut q (execCipherRun a0 s) :=
  keepsOut_done (keeps_serve h keeps_cipherRunBlock _)

theorem keeps_execKeyClear (h : Keeps q s) (a0 : _) : KeepsOut q (execKeyClear a0 s) :=
  keepsOut_done (keeps_serve h keeps_keyClearBlock _)

theorem keeps_execKeyClearDone (h : Keeps q s) (a0 : _) : KeepsOut q (execKeyClearDone a0 s) := by
  unfold execKeyClearDone
  repeat' with_reducible first
    | assumption | apply keeps_done | apply keeps_keyClearDone | apply keepsOut_done

theorem keeps_execKeyFetchDone (h : Keeps q s) (a0 : _) : KeepsOut q (execKeyFetchDone a0 s) := by
  unfold execKeyFetchDone
  repeat' with_reducible first
    | assumption | apply keeps_done | apply keeps_keyFetched | apply keepsOut_done | intro _ | split

theorem keeps_execRead (h : Keeps q s) (a0 a1 : _) : KeepsOut q (execRead a0 a1 s) := by
  unfold execRead
  repeat' with_reducible first
    | assumption | apply keeps_done | apply keeps_command | apply keeps_startCmd | apply keepsOut_done | intro _

theorem keeps_execStorageQueueDelete (h : Keeps q s) (a0 : _) : KeepsOut q (execStorageQueueDelete a0 s) :=
  keepsOut_done (keeps_serve h keeps_queueDeleteBlock _)

theorem keeps_execSqTail (h : Keeps q s) (a0 a1 a2 : _) : KeepsOut q (execSqTail a0 a1 a2 s) := by
  unfold execSqTail
  repeat' with_reducible first
    | assumption | apply keeps_done | apply keeps_bar2 | apply keeps_sqTail | apply keepsOut_done | intro _ | split

theorem keeps_execNsDeleteDone (h : Keeps q s) (a0 a1 : _) : KeepsOut q (execNsDeleteDone a0 a1 s) := by
  unfold execNsDeleteDone
  repeat' with_reducible first
    | assumption | apply keeps_done | apply keeps_nsDeleteDone | apply keepsOut_done

theorem keeps_execCqHead (h : Keeps q s) (a0 a1 a2 : _) : KeepsOut q (execCqHead a0 a1 a2 s) := by
  unfold execCqHead
  repeat' with_reducible first
    | assumption | apply keeps_done | apply keeps_bar2 | apply keeps_cqHead | apply keepsOut_done | intro _ | split

theorem keeps_execBackingComplete (h : Keeps q s) (a0 a1 a2 a3 a4 a5 a6 : _) : KeepsOut q (execBackingComplete a0 a1 a2 a3 a4 a5 a6 s) := by
  unfold execBackingComplete
  repeat' with_reducible first
    | assumption | (extract_lets +onlyGivenNames x; refine (fun (hx : Keeps q x) => ?_) ?_; clear_value x; rotate_left; subst x)
    | (extract_lets +onlyGivenNames x; clear_value x) | apply keeps_done | apply keeps_pump | apply keeps_partEnds
    | apply keepsOut_done

theorem keeps_execWrite (h : Keeps q s) (a0 a1 : _) : KeepsOut q (execWrite a0 a1 s) := by
  unfold execWrite
  repeat' with_reducible first
    | assumption | apply keeps_done | apply keeps_command | apply keeps_startCmd | apply keepsOut_done | intro _

theorem keeps_execSetFeatures (h : Keeps q s) (a0 a1 : _) : KeepsOut q (execSetFeatures a0 a1 s) := by
  unfold execSetFeatures
  repeat' with_reducible first
    | assumption | apply keeps_done | apply keeps_command | apply keeps_complete | apply keeps_modGuest | apply keepsOut_done
    | intro _ | split

theorem keeps_execAbort (h : Keeps q s) (a0 a1 : _) : KeepsOut q (execAbort a0 a1 s) := by
  unfold execAbort
  repeat' with_reducible first
    | assumption | apply keeps_done | apply keeps_command | apply keeps_complete | apply keepsOut_done | intro _

theorem keeps_execGetFeatures (h : Keeps q s) (a0 a1 : _) : KeepsOut q (execGetFeatures a0 a1 s) := by
  unfold execGetFeatures
  repeat' with_reducible first
    | assumption | (extract_lets +onlyGivenNames x; refine (fun (hx : Keeps q x) => ?_) ?_; clear_value x; rotate_left; subst x)
    | (extract_lets +onlyGivenNames x; clear_value x) | apply keeps_done | apply keeps_command | apply keeps_complete
    | apply keepsOut_done | intro _ | split

theorem keeps_execDatasetManagement (h : Keeps q s) (a0 a1 : _) : KeepsOut q (execDatasetManagement a0 a1 s) := by
  unfold execDatasetManagement
  repeat' with_reducible first
    | assumption | apply keeps_done | apply keeps_command | apply keeps_startCmd | apply keepsOut_done | intro _

theorem keeps_execIdentify (h : Keeps q s) (a0 a1 : _) : KeepsOut q (execIdentify a0 a1 s) := by
  unfold execIdentify
  repeat' with_reducible first
    | assumption | apply keeps_done | apply keeps_command | apply keeps_startCmd | apply keepsOut_done | intro _

theorem keeps_execAsynchronousEventRequest (h : Keeps q s) (a0 a1 : _) : KeepsOut q (execAsynchronousEventRequest a0 a1 s) := by
  unfold execAsynchronousEventRequest
  repeat' with_reducible first
    | assumption | (extract_lets +onlyGivenNames x; refine (fun (hx : Keeps q x) => ?_) ?_; clear_value x; rotate_left; subst x)
    | (extract_lets +onlyGivenNames x; clear_value x) | apply keeps_done | apply keeps_command | apply keeps_complete
    | apply keeps_modGuest | apply keeps_modCmd | apply keepsOut_done | intro _ | split

theorem keeps_execStorageNsCreate (h : Keeps q s) (a0 : _) : KeepsOut q (execStorageNsCreate a0 s) :=
  keepsOut_done (keeps_serve h keeps_nsCreateBlock _)

theorem keeps_execGetLogPage (h : Keeps q s) (a0 a1 : _) : KeepsOut q (execGetLogPage a0 a1 s) := by
  unfold execGetLogPage
  repeat' with_reducible first
    | assumption | apply keeps_done | apply keeps_command | apply keeps_startCmd | apply keepsOut_done | intro _

theorem keeps_execCqPost (h : Keeps q s) (a0 : _) : KeepsOut q (execCqPost a0 s) := by
  unfold execCqPost
  repeat' with_reducible first
    | assumption | apply keeps_done | apply keeps_cqPost | apply keepsOut_done

theorem keeps_execBackingTimeout (h : Keeps q s) (a0 a1 a2 : _) : KeepsOut q (execBackingTimeout a0 a1 a2 s) := by
  unfold execBackingTimeout
  repeat' with_reducible first
    | assumption | apply keeps_done | apply keeps_partEnds | apply keeps_modStorage | apply keepsOut_done | intro _ | split

theorem keeps_execStorageNsDelete (h : Keeps q s) (a0 : _) : KeepsOut q (execStorageNsDelete a0 s) :=
  keepsOut_done (keeps_serve h keeps_nsDeleteBlock _)

theorem keeps_execSqFetch (h : Keeps q s) : KeepsOut q (execSqFetch s) := by
  unfold execSqFetch
  repeat' with_reducible first
    | assumption | apply keeps_done | apply keeps_sqFetch | apply keepsOut_done

theorem keeps_execStorageQueueCreate (h : Keeps q s) (a0 : _) : KeepsOut q (execStorageQueueCreate a0 s) :=
  keepsOut_done (keeps_serve h keeps_queueCreateBlock _)

theorem keeps_execFlush (h : Keeps q s) (a0 a1 : _) : KeepsOut q (execFlush a0 a1 s) := by
  unfold execFlush
  repeat' with_reducible first
    | assumption | apply keeps_done | apply keeps_command | apply keeps_startCmd | apply keepsOut_done | intro _

theorem keeps_execWriteZeroes (h : Keeps q s) (a0 a1 : _) : KeepsOut q (execWriteZeroes a0 a1 s) := by
  unfold execWriteZeroes
  repeat' with_reducible first
    | assumption | apply keeps_done | apply keeps_command | apply keeps_startCmd | apply keepsOut_done | intro _

theorem keeps_execLedgerPool (h : Keeps q s) (a0 : _) : KeepsOut q (execLedgerPool a0 s) :=
  keepsOut_done (keeps_serve h keeps_ledgerPoolBlock _)

theorem keeps_execLedgerCreate (h : Keeps q s) (a0 : _) : KeepsOut q (execLedgerCreate a0 s) :=
  keepsOut_done (keeps_serve h keeps_ledgerCreateBlock _)

theorem keeps_execAstreamStreamDone (h : Keeps q s) (a0 : _) : KeepsOut q (execAstreamStreamDone a0 s) := by
  unfold execAstreamStreamDone
  repeat' with_reducible first
    | assumption | apply keeps_done | apply keeps_engineDone | apply keepsOut_done

theorem keeps_execLedgerDelete (h : Keeps q s) (a0 : _) : KeepsOut q (execLedgerDelete a0 s) :=
  keepsOut_done (keeps_serve h keeps_ledgerDeleteBlock _)

theorem keeps_execLedgerIdle (h : Keeps q s) (a0 : _) : KeepsOut q (execLedgerIdle a0 s) :=
  keepsOut_done (keeps_serve h keeps_ledgerIdleBlock _)

theorem keeps_execLedgerImport (h : Keeps q s) (a0 : _) : KeepsOut q (execLedgerImport a0 s) :=
  keepsOut_done (keeps_serve h keeps_ledgerImportBlock _)

theorem keeps_execLedgerMove (h : Keeps q s) (a0 : _) : KeepsOut q (execLedgerMove a0 s) :=
  keepsOut_done (keeps_serve h keeps_ledgerMoveBlock _)

theorem keeps_execStepBarrierComplete (h : Keeps q s) (a0 : _) : KeepsOut q (execStepBarrierComplete a0 s) := by
  unfold execStepBarrierComplete
  repeat' with_reducible first
    | assumption | apply keeps_done | apply keeps_barrierComplete | apply keepsOut_done

theorem keeps_execRunMoveDone (h : Keeps q s) (a0 a1 : _) : KeepsOut q (execRunMoveDone a0 a1 s) := by
  unfold execRunMoveDone
  repeat' with_reducible first
    | assumption | apply keeps_done | apply keeps_unfull | apply keeps_runMoveDone | apply keepsOut_done | intro _ | split

theorem keeps_execLedgerImportDone (h : Keeps q s) (a0 : _) : KeepsOut q (execLedgerImportDone a0 s) := by
  unfold execLedgerImportDone
  repeat' with_reducible first
    | assumption | apply keeps_done | apply keeps_importDone | apply keepsOut_done

theorem keeps_execLedgerExportDone (h : Keeps q s) (a0 : _) : KeepsOut q (execLedgerExportDone a0 s) := by
  unfold execLedgerExportDone
  repeat' with_reducible first
    | assumption | apply keeps_done | apply keeps_exportDone | apply keepsOut_done

theorem keeps_execAstreamAppendDone (h : Keeps q s) (a0 : _) : KeepsOut q (execAstreamAppendDone a0 s) := by
  unfold execAstreamAppendDone
  repeat' with_reducible first
    | assumption | apply keeps_done | apply keeps_engineDone | apply keepsOut_done

theorem keeps_execLedgerQuery (h : Keeps q s) (a0 : _) : KeepsOut q (execLedgerQuery a0 s) :=
  keepsOut_done (keeps_serve h keeps_ledgerQueryBlock _)

theorem keeps_execBarrierRelease (h : Keeps q s) (a0 : _) : KeepsOut q (execBarrierRelease a0 s) := by
  unfold execBarrierRelease
  repeat' with_reducible first
    | assumption | apply keeps_done | apply keeps_barrierRelease | apply keepsOut_done

theorem keeps_execLedgerExport (h : Keeps q s) (a0 : _) : KeepsOut q (execLedgerExport a0 s) :=
  keepsOut_done (keeps_serve h keeps_ledgerExportBlock _)

theorem keeps_execJobEnd (h : Keeps q s) (a0 : _) : KeepsOut q (execJobEnd a0 s) :=
  keepsOut_done (keeps_serve h keeps_jobEndBlock _)

theorem keeps_execDigestDone (h : Keeps q s) (a0 a1 : _) : KeepsOut q (execDigestDone a0 a1 s) := by
  unfold execDigestDone
  repeat' with_reducible first
    | assumption | apply keeps_done | apply keeps_digestDone | apply keepsOut_done

theorem keeps_execResultProduced (h : Keeps q s) (a0 : _) : KeepsOut q (execResultProduced a0 s) := by
  unfold execResultProduced
  repeat' with_reducible first
    | assumption | apply keeps_done | apply keeps_tclk | apply keeps_produce | apply keepsOut_done | intro _

theorem keeps_execSealDone (h : Keeps q s) (a0 : _) : KeepsOut q (execSealDone a0 s) := by
  unfold execSealDone
  repeat' with_reducible first
    | assumption | apply keeps_done | apply keeps_sealDone | apply keepsOut_done

theorem keeps_execDrawDone (h : Keeps q s) (a0 : _) : KeepsOut q (execDrawDone a0 s) := by
  unfold execDrawDone
  repeat' with_reducible first
    | assumption | apply keeps_done | apply keeps_drawDone | apply keepsOut_done

theorem keeps_execJobLaunch (h : Keeps q s) (a0 : _) : KeepsOut q (execJobLaunch a0 s) :=
  keepsOut_done (keeps_serve h keeps_jobLaunchBlock _)

theorem keeps_execPassportDigest (h : Keeps q s) (a0 : _) : KeepsOut q (execPassportDigest a0 s) :=
  keepsOut_done (keeps_serve h keeps_passportDigestBlock _)

theorem keeps_execPassportSeal (h : Keeps q s) (a0 : _) : KeepsOut q (execPassportSeal a0 s) :=
  keepsOut_done (keeps_serve h keeps_passportSealBlock _)

theorem keeps_execRtmLimitExpire (h : Keeps q s) (a0 : _) : KeepsOut q (execRtmLimitExpire a0 s) := by
  unfold execRtmLimitExpire
  repeat' with_reducible first
    | assumption | apply keeps_done | apply keeps_modJob | apply keepsOut_done | intro _ | split

theorem keeps_execEpochJobStart (h : Keeps q s) : KeepsOut q (execEpochJobStart s) := by
  unfold execEpochJobStart
  repeat' with_reducible first
    | assumption | apply keeps_done | apply keeps_epochStart | apply keepsOut_done

theorem keeps_execCkptRestoreDone (h : Keeps q s) (a0 : _) : KeepsOut q (execCkptRestoreDone a0 s) := by
  unfold execCkptRestoreDone
  repeat' with_reducible first
    | assumption | apply keeps_done | apply keeps_restoreDone | apply keepsOut_done

theorem keeps_execCkptRestore (h : Keeps q s) (a0 : _) : KeepsOut q (execCkptRestore a0 s) :=
  keepsOut_done (keeps_serve h keeps_ckptRestoreBlock _)

theorem keeps_execCkptConfig (h : Keeps q s) (a0 : _) : KeepsOut q (execCkptConfig a0 s) :=
  keepsOut_done (keeps_serve h keeps_ckptConfigBlock _)

theorem keeps_execCkptSaveComplete (h : Keeps q s) (a0 : _) : KeepsOut q (execCkptSaveComplete a0 s) := by
  unfold execCkptSaveComplete
  repeat' with_reducible first
    | assumption | apply keeps_done | apply keeps_saveComplete | apply keepsOut_done

theorem keeps_execCkptQuiet (h : Keeps q s) (a0 : _) : KeepsOut q (execCkptQuiet a0 s) := by
  unfold execCkptQuiet
  repeat' with_reducible first
    | assumption | apply keeps_done | apply keeps_ckptQuiet | apply keepsOut_done

theorem keeps_execCopyAhead (h : Keeps q s) (a0 a1 : _) : KeepsOut q (execCopyAhead a0 a1 s) := by
  unfold execCopyAhead
  repeat' with_reducible first
    | assumption | apply keeps_done | apply keeps_copyPage | apply keepsOut_done | intro _ | split

theorem keeps_execCkptCapture (h : Keeps q s) (a0 : _) : KeepsOut q (execCkptCapture a0 s) :=
  keepsOut_done (keeps_serve h keeps_ckptCaptureBlock _)

theorem keeps_execCkptPageCopy (h : Keeps q s) (a0 : _) : KeepsOut q (execCkptPageCopy a0 s) := by
  unfold execCkptPageCopy
  repeat' with_reducible first
    | assumption | apply keeps_done | apply keeps_pageCopy | apply keepsOut_done

theorem keeps_execCkptQuietTimeout (h : Keeps q s) (a0 : _) : KeepsOut q (execCkptQuietTimeout a0 s) := by
  unfold execCkptQuietTimeout
  repeat' with_reducible first
    | assumption | apply keeps_done | apply keeps_ckptQuietTimeout | apply keepsOut_done

theorem keeps_execCkptStart (h : Keeps q s) (a0 : _) : KeepsOut q (execCkptStart a0 s) :=
  keepsOut_done (keeps_serve h keeps_ckptStartBlock _)

theorem keeps_execCkptDrainDone (h : Keeps q s) (a0 : _) : KeepsOut q (execCkptDrainDone a0 s) := by
  unfold execCkptDrainDone
  repeat' with_reducible first
    | assumption | apply keeps_done | apply keeps_drainDone | apply keepsOut_done

theorem keeps_execCkptCaptured (h : Keeps q s) (a0 : _) : KeepsOut q (execCkptCaptured a0 s) := by
  unfold execCkptCaptured
  repeat' with_reducible first
    | assumption | apply keeps_done | apply keeps_ckptCaptured | apply keepsOut_done

theorem keeps_execCkptDrain (h : Keeps q s) (a0 : _) : KeepsOut q (execCkptDrain a0 s) :=
  keepsOut_done (keeps_serve h keeps_ckptDrainBlock _)

theorem keeps_execWrFetch (h : Keeps q s) (a0 a1 : _) : KeepsOut q (execWrFetch a0 a1 s) := by
  unfold execWrFetch
  repeat' with_reducible first
    | assumption | apply keeps_done | apply keeps_finishEmpties | apply keeps_wrFetch | apply keepsOut_done

theorem keeps_execGuestGrant (h : Keeps q s) (a0 : _) : KeepsOut q (execGuestGrant a0 s) :=
  keepsOut_done (keeps_serve h keeps_guestGrantBlock _)

theorem keeps_execLogFenceDone (h : Keeps q s) (a0 : _) : KeepsOut q (execLogFenceDone a0 s) := by
  unfold execLogFenceDone
  repeat' with_reducible first
    | assumption | apply keeps_done | apply keeps_fenceDone | apply keepsOut_done

theorem keeps_execLogStop (h : Keeps q s) (a0 : _) : KeepsOut q (execLogStop a0 s) := by
  unfold execLogStop
  repeat' with_reducible first
    | assumption | apply keeps_done | apply keeps_serve | apply keeps_fenceBlock | apply keepsOut_done

theorem keeps_execParlourRing (h : Keeps q s) (a0 : _) : KeepsOut q (execParlourRing a0 s) := by
  unfold execParlourRing
  repeat' with_reducible first
    | assumption | apply keeps_done | apply keeps_bar2 | apply keeps_parlourRing | apply keepsOut_done | intro _

theorem keeps_execCourierDb (h : Keeps q s) (a0 a1 : _) : KeepsOut q (execCourierDb a0 a1 s) := by
  unfold execCourierDb
  repeat' with_reducible first
    | assumption | apply keeps_done | apply keeps_bar2 | apply keeps_courierDb | apply keepsOut_done | intro _

theorem keeps_execGuestRing (h : Keeps q s) (a0 : _) : KeepsOut q (execGuestRing a0 s) := by
  unfold execGuestRing
  repeat' with_reducible first
    | assumption | (extract_lets +onlyGivenNames x; refine (fun (hx : Keeps q x) => ?_) ?_; clear_value x; rotate_left; subst x)
    | (extract_lets +onlyGivenNames x; clear_value x) | apply keeps_modHosts | apply keeps_done | apply keeps_parlourVector
    | apply keepsOut_done | intro _ | split

theorem keeps_execGuestDestroyDone (h : Keeps q s) (a0 : _) : KeepsOut q (execGuestDestroyDone a0 s) := by
  unfold execGuestDestroyDone
  repeat' with_reducible first
    | assumption | apply keeps_done | apply keeps_guestGone | apply keepsOut_done

theorem keeps_execQueueDeleteDone (h : Keeps q s) (a0 : _) : KeepsOut q (execQueueDeleteDone a0 s) := by
  unfold execQueueDeleteDone
  repeat' with_reducible first
    | assumption | apply keeps_done | apply keeps_finishEmpties | apply keeps_queueDeleteDone | apply keepsOut_done

theorem keeps_execGuestRevokeDone (h : Keeps q s) (a0 : _) : KeepsOut q (execGuestRevokeDone a0 s) := by
  unfold execGuestRevokeDone
  repeat' with_reducible first
    | assumption | apply keeps_done | apply keeps_revokeDone | apply keepsOut_done

theorem keeps_execLogStart (h : Keeps q s) (a0 : _) : KeepsOut q (execLogStart a0 s) :=
  keepsOut_done (keeps_serve h keeps_logStartBlock _)

theorem keeps_execParlourWindowAccess (h : Keeps q s) (a0 a1 a2 a3 a4 : _) : KeepsOut q (execParlourWindowAccess a0 a1 a2 a3 a4 s) := by
  unfold execParlourWindowAccess
  repeat' with_reducible first
    | assumption | apply keeps_done | apply keeps_bar2 | apply keeps_parlourAccess | apply keepsOut_done | intro _

theorem keeps_execGuestRevoke (h : Keeps q s) (a0 : _) : KeepsOut q (execGuestRevoke a0 s) :=
  keepsOut_done (keeps_serve h keeps_guestRevokeBlock _)

theorem keeps_execLogFence (h : Keeps q s) (a0 : _) : KeepsOut q (execLogFence a0 s) := by
  unfold execLogFence
  repeat' with_reducible first
    | assumption | apply keeps_done | apply keeps_serve | apply keeps_fenceBlock | apply keepsOut_done

theorem keeps_execGuestCreate (h : Keeps q s) (a0 : _) : KeepsOut q (execGuestCreate a0 s) :=
  keepsOut_done (keeps_serve h keeps_guestCreateBlock _)

theorem keeps_execGuestDestroy (h : Keeps q s) (a0 : _) : KeepsOut q (execGuestDestroy a0 s) :=
  keepsOut_done (keeps_serve h keeps_guestDestroyBlock _)

theorem keeps_execLinkReset (h : Keeps q s) (a0 a1 : _) : KeepsOut q (execLinkReset a0 a1 s) := by
  unfold execLinkReset
  repeat' with_reducible first
    | assumption | apply keeps_done | apply keeps_linkReset | apply keepsOut_done | intro _ | split

theorem keeps_execPmeRepeat (h : Keeps q s) (a0 : _) : KeepsOut q (execPmeRepeat a0 s) := by
  unfold execPmeRepeat
  repeat' with_reducible first
    | assumption | (extract_lets +onlyGivenNames x; refine (fun (hx : Keeps q x) => ?_) ?_; clear_value x; rotate_left; subst x)
    | (extract_lets +onlyGivenNames x; clear_value x) | apply keeps_done | apply keeps_modLink | apply keepsOut_done | intro _
    | split

theorem keeps_execUpstreamLinkUp (h : Keeps q s) (a0 a1 a2 : _) : KeepsOut q (execUpstreamLinkUp a0 a1 a2 s) := by
  unfold execUpstreamLinkUp
  repeat' with_reducible first
    | assumption | apply keeps_done | apply keeps_modLink | apply keepsOut_done | intro _ | split

theorem keeps_execL1ExitDone (h : Keeps q s) (a0 : _) : KeepsOut q (execL1ExitDone a0 s) := by
  unfold execL1ExitDone
  repeat' with_reducible first
    | assumption | apply keeps_done | apply keeps_wakeLink | apply keeps_modLink | apply keepsOut_done | intro _ | split

theorem keeps_execConfigAccess (h : Keeps q s) (a0 a1 a2 a3 a4 : _) : KeepsOut q (execConfigAccess a0 a1 a2 a3 a4 s) := by
  unfold execConfigAccess
  repeat' with_reducible first
    | assumption | apply keeps_done | apply keeps_configAccess | apply keepsOut_done | intro _ | split

theorem keeps_execUnsupportedHostRequest (h : Keeps q s) (a0 a1 : _) : KeepsOut q (execUnsupportedHostRequest a0 a1 s) := by
  unfold execUnsupportedHostRequest
  repeat' with_reducible first
    | assumption | apply keeps_done | apply keeps_unsupported | apply keepsOut_done | intro _ | split

theorem keeps_execAspmL1Entry (h : Keeps q s) (a0 : _) : KeepsOut q (execAspmL1Entry a0 s) := by
  unfold execAspmL1Entry
  repeat' with_reducible first
    | assumption | (extract_lets +onlyGivenNames x; refine (fun (hx : Keeps q x) => ?_) ?_; clear_value x; rotate_left; subst x)
    | (extract_lets +onlyGivenNames x; clear_value x) | apply keeps_done | apply keeps_modLink | apply keepsOut_done | intro _
    | split

theorem keeps_execBar4Access (h : Keeps q s) (a0 a1 a2 a3 a4 : _) : KeepsOut q (execBar4Access a0 a1 a2 a3 a4 s) := by
  unfold execBar4Access
  repeat' with_reducible first
    | assumption | apply keeps_done | apply keeps_bar4 | apply keepsOut_done | intro _ | split

theorem keeps_execScrubLine (h : Keeps q s) (a0 : _) : KeepsOut q (execScrubLine a0 s) := by
  unfold execScrubLine
  repeat' with_reducible first
    | assumption | apply keeps_done | apply keeps_scrubNext | apply keepsOut_done | intro _ | split

theorem keeps_execMergeTimeout (h : Keeps q s) (a0 a1 : _) : KeepsOut q (execMergeTimeout a0 a1 s) := by
  unfold execMergeTimeout
  repeat' with_reducible first
    | assumption | apply keeps_done | apply keeps_writeBack | apply keepsOut_done | intro _ | split

theorem keeps_execPcRetireDone (h : Keeps q s) : KeepsOut q (execPcRetireDone s) := by
  unfold execPcRetireDone
  repeat' with_reducible first
    | assumption | apply keeps_done | apply keeps_pcRetired | apply keepsOut_done

theorem keeps_execMemRetirePc (h : Keeps q s) (a0 : _) : KeepsOut q (execMemRetirePc a0 s) :=
  keepsOut_done (keeps_serve h keeps_memRetirePcBlock _)

theorem keeps_execRefresh (h : Keeps q s) (a0 a1 : _) : KeepsOut q (execRefresh a0 a1 s) := by
  unfold execRefresh
  repeat' with_reducible first
    | assumption | apply keeps_done | apply keeps_modStack | apply keepsOut_done | intro _ | split

theorem keeps_execEvacuationDone (h : Keeps q s) (a0 : _) : KeepsOut q (execEvacuationDone a0 s) := by
  unfold execEvacuationDone
  repeat' with_reducible first
    | assumption | apply keeps_done | apply keeps_evacuated | apply keepsOut_done

theorem keeps_execSlotPowerTimeout (h : Keeps q s) (a0 : _) : KeepsOut q (execSlotPowerTimeout a0 s) := by
  unfold execSlotPowerTimeout
  repeat' with_reducible first
    | assumption | apply keeps_done | apply keeps_powerTimeout | apply keepsOut_done | intro _ | split

theorem keeps_execSlotButtonPress (h : Keeps q s) (a0 : _) : KeepsOut q (execSlotButtonPress a0 s) := by
  unfold execSlotButtonPress
  repeat' with_reducible first
    | assumption | (extract_lets +onlyGivenNames x; refine (fun (hx : Keeps q x) => ?_) ?_; clear_value x; rotate_left; subst x)
    | (extract_lets +onlyGivenNames x; clear_value x) | apply keeps_done | apply keeps_modPort | apply keeps_portEvent
    | apply keepsOut_done | intro _ | split

theorem keeps_execOverlayWriteDone (h : Keeps q s) : KeepsOut q (execOverlayWriteDone s) := by
  unfold execOverlayWriteDone
  repeat' with_reducible first
    | assumption | apply keeps_done | apply keeps_overlayDone | apply keepsOut_done

theorem keeps_execWindowCommit (h : Keeps q s) (a0 : _) : KeepsOut q (execWindowCommit a0 s) := by
  unfold execWindowCommit
  repeat' with_reducible first
    | assumption | apply keeps_done | apply keeps_windowCommit | apply keepsOut_done | intro _ | split

theorem keeps_execCompletionTimeout (h : Keeps q s) (a0 a1 : _) : KeepsOut q (execCompletionTimeout a0 a1 s) := by
  unfold execCompletionTimeout
  repeat' with_reducible first
    | assumption | apply keeps_done | apply keeps_timeout | apply keeps_portTimeout | apply keepsOut_done | intro _ | split

theorem keeps_execSlotControl (h : Keeps q s) (a0 : _) : KeepsOut q (execSlotControl a0 s) :=
  keepsOut_done (keeps_serve h keeps_slotControlBlock _)

theorem keeps_execCellarMediaEvent (h : Keeps q s) (a0 a1 : _) : KeepsOut q (execCellarMediaEvent a0 a1 s) := by
  unfold execCellarMediaEvent
  repeat' with_reducible first
    | assumption | apply keeps_done | apply keeps_memEvent | apply keepsOut_done | intro _ | split

theorem keeps_execCellarFillDone (h : Keeps q s) (a0 a1 : _) : KeepsOut q (execCellarFillDone a0 a1 s) := by
  unfold execCellarFillDone
  repeat' with_reducible first
    | assumption | apply keeps_done | apply keeps_fillDone | apply keepsOut_done

theorem keeps_execSlotPowerFault (h : Keeps q s) (a0 : _) : KeepsOut q (execSlotPowerFault a0 s) := by
  unfold execSlotPowerFault
  repeat' with_reducible first
    | assumption | (extract_lets +onlyGivenNames x; refine (fun (hx : Keeps q x) => ?_) ?_; clear_value x; rotate_left; subst x)
    | (extract_lets +onlyGivenNames x; clear_value x) | apply keeps_done | apply keeps_portEvent | apply keeps_slotOff
    | apply keepsOut_done | intro _ | split

theorem keeps_execWindowSwap (h : Keeps q s) (a0 : _) : KeepsOut q (execWindowSwap a0 s) := by
  unfold execWindowSwap
  repeat' with_reducible first
    | assumption | (extract_lets +onlyGivenNames x; refine (fun (hx : Keeps q x) => ?_) ?_; clear_value x; rotate_left; subst x)
    | (extract_lets +onlyGivenNames x; clear_value x) | apply keeps_done | apply keeps_modPort | apply keepsOut_done | intro _
    | split

theorem keeps_execPeerRequest (h : Keeps q s) (a0 a1 a2 a3 a4 : _) : KeepsOut q (execPeerRequest a0 a1 a2 a3 a4 s) := by
  unfold execPeerRequest
  repeat' with_reducible first
    | assumption | apply keeps_done | apply keeps_peerRequest | apply keepsOut_done | intro _ | split

theorem keeps_execSlotButtonTimeout (h : Keeps q s) (a0 : _) : KeepsOut q (execSlotButtonTimeout a0 s) := by
  unfold execSlotButtonTimeout
  repeat' with_reducible first
    | assumption | (extract_lets +onlyGivenNames x; refine (fun (hx : Keeps q x) => ?_) ?_; clear_value x; rotate_left; subst x)
    | (extract_lets +onlyGivenNames x; clear_value x) | apply keeps_done | apply keeps_portEvent | apply keeps_modPort
    | apply keeps_slotPowerOn | apply keepsOut_done | intro _ | split

theorem keeps_execSlotLinkUp (h : Keeps q s) (a0 a1 a2 : _) : KeepsOut q (execSlotLinkUp a0 a1 a2 s) := by
  unfold execSlotLinkUp
  repeat' with_reducible first
    | assumption | (extract_lets +onlyGivenNames x; refine (fun (hx : Keeps q x) => ?_) ?_; clear_value x; rotate_left; subst x)
    | (extract_lets +onlyGivenNames x; clear_value x) | apply keeps_done | apply keeps_modPort | apply keepsOut_done | intro _
    | split

theorem keeps_execFreezeTrigger (h : Keeps q s) (a0 a1 : _) : KeepsOut q (execFreezeTrigger a0 a1 s) := by
  unfold execFreezeTrigger
  repeat' with_reducible first
    | assumption | apply keeps_done | apply keeps_freeze | apply keepsOut_done | intro _ | split

theorem keeps_execSlotPowerGood (h : Keeps q s) (a0 : _) : KeepsOut q (execSlotPowerGood a0 s) := by
  unfold execSlotPowerGood
  repeat' with_reducible first
    | assumption | apply keeps_done | apply keeps_modPort | apply keepsOut_done | intro _ | split

theorem keeps_execPortRelease (h : Keeps q s) (a0 : _) : KeepsOut q (execPortRelease a0 s) :=
  keepsOut_done (keeps_serve h keeps_portReleaseBlock _)

theorem keeps_execOverlaySet (h : Keeps q s) (a0 : _) : KeepsOut q (execOverlaySet a0 s) :=
  keepsOut_done (keeps_serve h keeps_overlaySetBlock _)

theorem keeps_execPortConfig (h : Keeps q s) (a0 : _) : KeepsOut q (execPortConfig a0 s) :=
  keepsOut_done (keeps_serve h keeps_portConfigBlock _)

theorem keeps_execSlotPresenceChange (h : Keeps q s) (a0 a1 : _) : KeepsOut q (execSlotPresenceChange a0 a1 s) := by
  unfold execSlotPresenceChange
  repeat' with_reducible first
    | assumption | apply keeps_done | apply keeps_presence | apply keepsOut_done | intro _ | split

theorem keeps_execSlotPerstRelease (h : Keeps q s) (a0 : _) : KeepsOut q (execSlotPerstRelease a0 s) := by
  unfold execSlotPerstRelease
  repeat' with_reducible first
    | assumption | (extract_lets +onlyGivenNames x; refine (fun (hx : Keeps q x) => ?_) ?_; clear_value x; rotate_left; subst x)
    | (extract_lets +onlyGivenNames x; clear_value x) | apply keeps_done | apply keeps_modPort | apply keepsOut_done | intro _
    | split

theorem keeps_execQuarantineExpire (h : Keeps q s) (a0 a1 : _) : KeepsOut q (execQuarantineExpire a0 a1 s) := by
  unfold execQuarantineExpire
  repeat' with_reducible first
    | assumption | apply keeps_done | apply keeps_modLink | apply keeps_modPort | apply keepsOut_done | intro _ | split

theorem keeps_execCellarRelease (h : Keeps q s) (a0 : _) : KeepsOut q (execCellarRelease a0 s) :=
  keepsOut_done (keeps_serve h keeps_cellarReleaseBlock _)

theorem keeps_execSlotEnumerated (h : Keeps q s) (a0 a1 : _) : KeepsOut q (execSlotEnumerated a0 a1 s) := by
  unfold execSlotEnumerated
  repeat' with_reducible first
    | assumption | apply keeps_done | apply keeps_enumerated | apply keepsOut_done | intro _ | split

theorem keeps_execCompletionArrive (h : Keeps q s) (a0 a1 a2 a3 : _) : KeepsOut q (execCompletionArrive a0 a1 a2 a3 s) := by
  unfold execCompletionArrive
  repeat' with_reducible first
    | assumption | apply keeps_done | apply keeps_completion | apply keeps_portCompletion | apply keepsOut_done | intro _
    | split

theorem keeps_execImsWrite (h : Keeps q s) (a0 a1 a2 a3 : _) : KeepsOut q (execImsWrite a0 a1 a2 a3 s) := by
  unfold execImsWrite
  repeat' with_reducible first
    | assumption | apply keeps_done | apply keeps_imsWrite | apply keepsOut_done

theorem keeps_execFicInterruptTake (h : Keeps q s) (a0 : _) : KeepsOut q (execFicInterruptTake a0 s) := by
  unfold execFicInterruptTake
  repeat' with_reducible first
    | assumption | apply keeps_done | apply keeps_modCore | apply keepsOut_done | intro _ | split

theorem keeps_execTeleQueueBatch (h : Keeps q s) : KeepsOut q (execTeleQueueBatch s) := by
  unfold execTeleQueueBatch
  repeat' with_reducible first
    | assumption | apply keeps_done | apply keeps_teleQueueBatch | apply keepsOut_done

theorem keeps_execFicSourceFire (h : Keeps q s) (a0 a1 : _) : KeepsOut q (execFicSourceFire a0 a1 s) := by
  unfold execFicSourceFire
  repeat' with_reducible first
    | assumption | apply keeps_done | apply keeps_fire | apply keepsOut_done | intro _ | split

theorem keeps_execTeleRing (h : Keeps q s) (a0 : _) : KeepsOut q (execTeleRing a0 s) :=
  keepsOut_done (keeps_serve h keeps_teleRingBlock _)

theorem keeps_execHoldoffExpire (h : Keeps q s) (a0 : _) : KeepsOut q (execHoldoffExpire a0 s) := by
  unfold execHoldoffExpire
  repeat' with_reducible first
    | assumption | apply keeps_done | apply keeps_expireGroup | apply keeps_modIrq | apply keepsOut_done | intro _ | split

theorem keeps_execFicComplete (h : Keeps q s) (a0 a1 : _) : KeepsOut q (execFicComplete a0 a1 s) := by
  unfold execFicComplete
  repeat' with_reducible first
    | assumption | apply keeps_done | apply keeps_modCore | apply keepsOut_done | intro _ | split

theorem keeps_execTeleSensorBatch (h : Keeps q s) : KeepsOut q (execTeleSensorBatch s) := by
  unfold execTeleSensorBatch
  repeat' with_reducible first
    | assumption | apply keeps_done | apply keeps_teleSensorBatch | apply keepsOut_done

theorem keeps_execSensorSample (h : Keeps q s) (a0 a1 a2 a3 : _) : KeepsOut q (execSensorSample a0 a1 a2 a3 s) := by
  unfold execSensorSample
  repeat' with_reducible first
    | assumption | apply keeps_done | apply keeps_sensorSample | apply keepsOut_done | intro _ | split

theorem keeps_execFicTick (h : Keeps q s) : KeepsOut q (execFicTick s) := by
  unfold execFicTick
  repeat' with_reducible first
    | assumption | apply keeps_done | apply keeps_fireAll | apply keepsOut_done

theorem keeps_execFicClaim (h : Keeps q s) (a0 : _) : KeepsOut q (execFicClaim a0 s) := by
  unfold execFicClaim
  repeat' with_reducible first
    | assumption | apply keeps_done | apply keeps_modCore | apply keepsOut_done | intro _ | split

theorem keeps_execRetirementBegin (h : Keeps q s) (a0 : _) : KeepsOut q (execRetirementBegin a0 s) := by
  unfold execRetirementBegin
  repeat' with_reducible first
    | assumption | apply keeps_done | apply keeps_beginRetirement | apply keepsOut_done | intro _ | split

theorem keeps_execTileRetire (h : Keeps q s) (a0 : _) : KeepsOut q (execTileRetire a0 s) :=
  keepsOut_done (keeps_serve h keeps_tileRetireBlock _)

theorem keeps_execImageMoveDone (h : Keeps q s) (a0 : _) : KeepsOut q (execImageMoveDone a0 s) := by
  unfold execImageMoveDone
  repeat' with_reducible first
    | assumption | apply keeps_done | apply keeps_trySwitch | apply keeps_moveImage | apply keepsOut_done | intro _ | split

theorem keeps_execRestPointReached (h : Keeps q s) (a0 : _) : KeepsOut q (execRestPointReached a0 s) := by
  unfold execRestPointReached
  repeat' with_reducible first
    | assumption | apply keeps_done | apply keeps_restPoint | apply keeps_modTile | apply keepsOut_done | intro _ | split

theorem keeps_execCoreRestartTimeout (h : Keeps q s) (a0 : _) : KeepsOut q (execCoreRestartTimeout a0 s) := by
  unfold execCoreRestartTimeout
  repeat' with_reducible first
    | assumption | apply keeps_done | apply keeps_restartFailed | apply keepsOut_done | intro _ | split

theorem keeps_execCoreSwapDone (h : Keeps q s) (a0 : _) : KeepsOut q (execCoreSwapDone a0 s) := by
  unfold execCoreSwapDone
  repeat' with_reducible first
    | assumption | apply keeps_done | apply keeps_swapDone | apply keepsOut_done | intro _ | split

theorem keeps_execHearthSwapStart (h : Keeps q s) : KeepsOut q (execHearthSwapStart s) := by
  unfold execHearthSwapStart
  repeat' with_reducible first
    | assumption | apply keeps_done | apply keeps_beginSwap | apply keepsOut_done | intro _ | split

theorem keeps_execCoreRestartDone (h : Keeps q s) (a0 : _) : KeepsOut q (execCoreRestartDone a0 s) := by
  unfold execCoreRestartDone
  repeat' with_reducible first
    | assumption | apply keeps_done | apply keeps_restartDone | apply keepsOut_done | intro _ | split

theorem keeps_execWatchdogExpire (h : Keeps q s) (a0 : _) : KeepsOut q (execWatchdogExpire a0 s) := by
  unfold execWatchdogExpire
  repeat' with_reducible first
    | assumption | apply keeps_done | apply keeps_crash | apply keepsOut_done | intro _ | split

theorem keeps_execSwapTimeout (h : Keeps q s) (a0 : _) : KeepsOut q (execSwapTimeout a0 s) := by
  unfold execSwapTimeout
  repeat' with_reducible first
    | assumption | apply keeps_done | apply keeps_revert | apply keepsOut_done | intro _ | split

theorem keeps_execWarmStartHoldEnd (h : Keeps q s) : KeepsOut q (execWarmStartHoldEnd s) := by
  unfold execWarmStartHoldEnd
  repeat' with_reducible first
    | assumption | apply keeps_done | apply keeps_resumeStart | apply keeps_modFirm | apply keepsOut_done | intro _ | split

theorem keeps_execStartStepDone (h : Keeps q s) (a0 : _) : KeepsOut q (execStartStepDone a0 s) := by
  unfold execStartStepDone
  repeat' with_reducible first
    | assumption | apply keeps_done | apply keeps_coldStep | apply keeps_warmStep | apply keepsOut_done | intro _ | split

theorem keeps_execColdRestart (h : Keeps q s) (a0 : _) : KeepsOut q (execColdRestart a0 s) := by
  unfold execColdRestart
  repeat' with_reducible first
    | assumption | apply keeps_done | apply keeps_coldStart | apply keepsOut_done | intro _ | split

theorem keeps_execRecordWriteDone (h : Keeps q s) : KeepsOut q (execRecordWriteDone s) := by
  unfold execRecordWriteDone
  repeat' with_reducible first
    | assumption | apply keeps_done | apply keeps_recordsMoved | apply keeps_popRecord | apply keepsOut_done | intro _ | split

theorem keeps_execMainOvervoltage (h : Keeps q s) : KeepsOut q (execMainOvervoltage s) := by
  unfold execMainOvervoltage
  repeat' with_reducible first
    | assumption | (extract_lets +onlyGivenNames x; refine (fun (hx : Keeps q x) => ?_) ?_; clear_value x; rotate_left; subst x)
    | (extract_lets +onlyGivenNames x; clear_value x) | apply keeps_modPower | apply keeps_done | apply keeps_mainOff
    | apply keepsOut_done | intro _ | split

theorem keeps_execCrossingFallback (h : Keeps q s) (a0 : _) : KeepsOut q (execCrossingFallback a0 s) := by
  unfold execCrossingFallback
  repeat' with_reducible first
    | assumption | apply keeps_done | apply keeps_modPower | apply keepsOut_done | intro _ | split

theorem keeps_execPllLockTimeout (h : Keeps q s) : KeepsOut q (execPllLockTimeout s) := by
  unfold execPllLockTimeout
  repeat' with_reducible first
    | assumption | apply keeps_done | apply keeps_mainOff | apply keeps_modPower | apply keepsOut_done | intro _ | split

theorem keeps_execAonReturn (h : Keeps q s) : KeepsOut q (execAonReturn s) := by
  unfold execAonReturn
  repeat' with_reducible first
    | assumption | apply keeps_done | apply keeps_modPower | apply keepsOut_done

theorem keeps_execThermalThrottle (h : Keeps q s) (a0 : _) : KeepsOut q (execThermalThrottle a0 s) := by
  unfold execThermalThrottle
  repeat' with_reducible first
    | assumption | apply keeps_done | apply keeps_thermal | apply keepsOut_done | intro _ | split

theorem keeps_execMain48vRise (h : Keeps q s) : KeepsOut q (execMain48vRise s) := by
  unfold execMain48vRise
  repeat' with_reducible first
    | assumption | apply keeps_done | apply keeps_mainRises | apply keepsOut_done | intro _ | split

theorem keeps_execRefclkFail (h : Keeps q s) (a0 : _) : KeepsOut q (execRefclkFail a0 s) := by
  unfold execRefclkFail
  repeat' with_reducible first
    | assumption | (extract_lets +onlyGivenNames x; refine (fun (hx : Keeps q x) => ?_) ?_; clear_value x; rotate_left; subst x)
    | (extract_lets +onlyGivenNames x; clear_value x) | apply keeps_modPower | apply keeps_done | apply keeps_alarm
    | apply keepsOut_done | intro _ | split

theorem keeps_execMainHighChange (h : Keeps q s) (a0 : _) : KeepsOut q (execMainHighChange a0 s) := by
  unfold execMainHighChange
  repeat' with_reducible first
    | assumption | apply keeps_done | apply keeps_modPower | apply keepsOut_done

theorem keeps_execPowerProfile (h : Keeps q s) (a0 : _) : KeepsOut q (execPowerProfile a0 s) :=
  keepsOut_done (keeps_serve h keeps_powerProfileBlock _)

theorem keeps_execShedStageLeave (h : Keeps q s) (a0 : _) : KeepsOut q (execShedStageLeave a0 s) := by
  unfold execShedStageLeave
  repeat' with_reducible first
    | assumption | apply keeps_done | apply keeps_shedLeave | apply keepsOut_done

theorem keeps_execPllLockHeld (h : Keeps q s) : KeepsOut q (execPllLockHeld s) := by
  unfold execPllLockHeld
  repeat' with_reducible first
    | assumption | (extract_lets +onlyGivenNames x; refine (fun (hx : Keeps q x) => ?_) ?_; clear_value x; rotate_left; subst x)
    | (extract_lets +onlyGivenNames x; clear_value x) | apply keeps_modPower | apply keeps_done | apply keeps_mainRises
    | apply keepsOut_done | intro _ | split

theorem keeps_execMainRecover (h : Keeps q s) : KeepsOut q (execMainRecover s) := by
  unfold execMainRecover
  repeat' with_reducible first
    | assumption | apply keeps_done | apply keeps_mainRises | apply keeps_modPower | apply keepsOut_done | intro _ | split

theorem keeps_execAuxApply (h : Keeps q s) : KeepsOut q (execAuxApply s) := by
  unfold execAuxApply
  repeat' with_reducible first
    | assumption | (extract_lets +onlyGivenNames x; refine (fun (hx : Keeps q x) => ?_) ?_; clear_value x; rotate_left; subst x)
    | (extract_lets +onlyGivenNames x; clear_value x) | apply keeps_done | apply keeps_modMesh | apply keeps_modFirm
    | apply keeps_modPower | apply keeps_mainRises | apply keepsOut_done | intro _ | split

theorem keeps_execThermalClear (h : Keeps q s) (a0 : _) : KeepsOut q (execThermalClear a0 s) := by
  unfold execThermalClear
  repeat' with_reducible first
    | assumption | apply keeps_done | apply keeps_thermalClear | apply keepsOut_done

theorem keeps_execShedStageEnter (h : Keeps q s) (a0 : _) : KeepsOut q (execShedStageEnter a0 s) := by
  unfold execShedStageEnter
  repeat' with_reducible first
    | assumption | apply keeps_done | apply keeps_shedEnter | apply keepsOut_done

theorem keeps_execCrossingResync (h : Keeps q s) (a0 : _) : KeepsOut q (execCrossingResync a0 s) := by
  unfold execCrossingResync
  repeat' with_reducible first
    | assumption | apply keeps_done | apply keeps_modPower | apply keepsOut_done

theorem keeps_execAuxLoss (h : Keeps q s) : KeepsOut q (execAuxLoss s) := by
  unfold execAuxLoss
  repeat' with_reducible first
    | assumption | (extract_lets +onlyGivenNames x; refine (fun (hx : Keeps q x) => ?_) ?_; clear_value x; rotate_left; subst x)
    | (extract_lets +onlyGivenNames x; clear_value x) | apply keeps_mainOff | apply keeps_modFirm | apply keeps_done
    | apply keeps_modPower | apply keepsOut_done | intro _ | split | apply keeps_mk | apply Keeps.pending | apply Keeps.cells

theorem keeps_execPllLockAcquired (h : Keeps q s) : KeepsOut q (execPllLockAcquired s) := by
  unfold execPllLockAcquired
  repeat' with_reducible first
    | assumption | apply keeps_done | apply keeps_modPower | apply keepsOut_done

theorem keeps_execHearthLoop (h : Keeps q s) (a0 : _) : KeepsOut q (execHearthLoop a0 s) := by
  unfold execHearthLoop
  repeat' with_reducible first
    | assumption | apply keeps_done | apply keeps_hearthLoop | apply keepsOut_done

theorem keeps_execDivisorChange (h : Keeps q s) : KeepsOut q (execDivisorChange s) := by
  unfold execDivisorChange
  repeat' with_reducible first
    | assumption | apply keeps_done | apply keeps_breakAll | apply keeps_modPower | apply keepsOut_done | intro _ | split

theorem keeps_execThermalTrip (h : Keeps q s) (a0 : _) : KeepsOut q (execThermalTrip a0 s) := by
  unfold execThermalTrip
  repeat' with_reducible first
    | assumption | apply keeps_done | apply keeps_thermal | apply keepsOut_done | intro _ | split

theorem keeps_execRestartDelayExpire (h : Keeps q s) : KeepsOut q (execRestartDelayExpire s) := by
  unfold execRestartDelayExpire
  repeat' with_reducible first
    | assumption | (extract_lets +onlyGivenNames x; refine (fun (hx : Keeps q x) => ?_) ?_; clear_value x; rotate_left; subst x)
    | (extract_lets +onlyGivenNames x; clear_value x) | apply keeps_done | apply keeps_modFirm | apply keeps_warmStart
    | apply keeps_coldStart | apply keepsOut_done | intro _ | split

theorem keeps_execActivationStart (h : Keeps q s) : KeepsOut q (execActivationStart s) := by
  unfold execActivationStart
  repeat' with_reducible first
    | assumption | apply keeps_done | apply keeps_beginSwap | apply keeps_fwEvent | apply keeps_modFirm | apply keepsOut_done
    | intro _ | split

theorem keeps_execModuleStatus (h : Keeps q s) (a0 : _) : KeepsOut q (execModuleStatus a0 s) :=
  keepsOut_done (keeps_serve h keeps_moduleStatusBlock _)

theorem keeps_execFwStage (h : Keeps q s) (a0 : _) : KeepsOut q (execFwStage a0 s) :=
  keepsOut_done (keeps_serve h keeps_fwStageBlock _)

theorem keeps_execFwActivate (h : Keeps q s) (a0 : _) : KeepsOut q (execFwActivate a0 s) :=
  keepsOut_done (keeps_serve h keeps_fwActivateBlock _)

theorem keeps_execModuleRestart (h : Keeps q s) (a0 : _) : KeepsOut q (execModuleRestart a0 s) :=
  keepsOut_done (keeps_serve h keeps_moduleRestartBlock _)

theorem keeps_execHello (h : Keeps q s) (a0 : _) : KeepsOut q (execHello a0 s) :=
  keepsOut_done (keeps_serve h keeps_helloBlock _)

theorem keeps_execFeatures (h : Keeps q s) (a0 : _) : KeepsOut q (execFeatures a0 s) :=
  keepsOut_done (keeps_serve h keeps_featuresBlock _)

theorem keeps_execFwStageDone (h : Keeps q s) : KeepsOut q (execFwStageDone s) := by
  unfold execFwStageDone
  repeat' with_reducible first
    | assumption | apply keeps_done | apply keeps_stageDone | apply keepsOut_done

theorem keeps_execItof (h : Keeps q s) (a0 a1 a2 : _) : KeepsOut q (execItof a0 a1 a2 s) :=
  keepsOut_done (keeps_issueAt h _ _)

theorem keeps_execAndOp (h : Keeps q s) (a0 a1 a2 a3 : _) : KeepsOut q (execAndOp a0 a1 a2 a3 s) :=
  keepsOut_done (keeps_issueAt h _ _)

theorem keeps_execAdd (h : Keeps q s) (a0 a1 a2 a3 : _) : KeepsOut q (execAdd a0 a1 a2 a3 s) :=
  keepsOut_done (keeps_issueAt h _ _)

theorem keeps_execDget (h : Keeps q s) (a0 a1 a2 a3 : _) : KeepsOut q (execDget a0 a1 a2 a3 s) :=
  keepsOut_done (keeps_issueAt h _ _)

theorem keeps_execRte (h : Keeps q s) (a0 : _) : KeepsOut q (execRte a0 s) :=
  keepsOut_done (keeps_issueAt h _ _)

theorem keeps_execDput (h : Keeps q s) (a0 a1 a2 a3 : _) : KeepsOut q (execDput a0 a1 a2 a3 s) :=
  keepsOut_done (keeps_issueAt h _ _)

theorem keeps_execDld (h : Keeps q s) (a0 a1 a2 a3 : _) : KeepsOut q (execDld a0 a1 a2 a3 s) :=
  keepsOut_done (keeps_issueAt h _ _)

theorem keeps_execSld4 (h : Keeps q s) (a0 a1 a2 a3 : _) : KeepsOut q (execSld4 a0 a1 a2 a3 s) :=
  keepsOut_done (keeps_issueAt h _ _)

theorem keeps_execMin (h : Keeps q s) (a0 a1 a2 a3 : _) : KeepsOut q (execMin a0 a1 a2 a3 s) :=
  keepsOut_done (keeps_issueAt h _ _)

theorem keeps_execBz (h : Keeps q s) (a0 a1 a2 : _) : KeepsOut q (execBz a0 a1 a2 s) :=
  keepsOut_done (keeps_issueAt h _ _)

theorem keeps_execFmin (h : Keeps q s) (a0 a1 a2 a3 : _) : KeepsOut q (execFmin a0 a1 a2 a3 s) :=
  keepsOut_done (keeps_issueAt h _ _)

theorem keeps_execAddi (h : Keeps q s) (a0 a1 a2 a3 : _) : KeepsOut q (execAddi a0 a1 a2 a3 s) :=
  keepsOut_done (keeps_issueAt h _ _)

theorem keeps_execJmp (h : Keeps q s) (a0 a1 : _) : KeepsOut q (execJmp a0 a1 s) :=
  keepsOut_done (keeps_issueAt h _ _)

theorem keeps_execCmplt (h : Keeps q s) (a0 a1 a2 a3 : _) : KeepsOut q (execCmplt a0 a1 a2 a3 s) :=
  keepsOut_done (keeps_issueAt h _ _)

theorem keeps_execSeth (h : Keeps q s) (a0 a1 : _) : KeepsOut q (execSeth a0 a1 s) :=
  keepsOut_done (keeps_issueAt h _ _)

theorem keeps_execFmul (h : Keeps q s) (a0 a1 a2 a3 : _) : KeepsOut q (execFmul a0 a1 a2 a3 s) :=
  keepsOut_done (keeps_issueAt h _ _)

theorem keeps_execOrOp (h : Keeps q s) (a0 a1 a2 a3 : _) : KeepsOut q (execOrOp a0 a1 a2 a3 s) :=
  keepsOut_done (keeps_issueAt h _ _)

theorem keeps_execRdt (h : Keeps q s) (a0 a1 a2 : _) : KeepsOut q (execRdt a0 a1 a2 s) :=
  keepsOut_done (keeps_issueAt h _ _)

theorem keeps_execMarkp (h : Keeps q s) (a0 a1 a2 : _) : KeepsOut q (execMarkp a0 a1 a2 s) :=
  keepsOut_done (keeps_issueAt h _ _)

theorem keeps_execSld (h : Keeps q s) (a0 a1 a2 a3 : _) : KeepsOut q (execSld a0 a1 a2 a3 s) :=
  keepsOut_done (keeps_issueAt h _ _)

theorem keeps_execFfma (h : Keeps q s) (a0 a1 a2 a3 : _) : KeepsOut q (execFfma a0 a1 a2 a3 s) :=
  keepsOut_done (keeps_issueAt h _ _)

theorem keeps_execBr (h : Keeps q s) (a0 a1 : _) : KeepsOut q (execBr a0 a1 s) :=
  keepsOut_done (keeps_issueAt h _ _)

theorem keeps_execDiv (h : Keeps q s) (a0 a1 a2 a3 : _) : KeepsOut q (execDiv a0 a1 a2 a3 s) :=
  keepsOut_done (keeps_issueAt h _ _)

theorem keeps_execShr (h : Keeps q s) (a0 a1 a2 a3 : _) : KeepsOut q (execShr a0 a1 a2 a3 s) :=
  keepsOut_done (keeps_issueAt h _ _)

theorem keeps_execFsub (h : Keeps q s) (a0 a1 a2 a3 : _) : KeepsOut q (execFsub a0 a1 a2 a3 s) :=
  keepsOut_done (keeps_issueAt h _ _)

theorem keeps_execMul (h : Keeps q s) (a0 a1 a2 a3 : _) : KeepsOut q (execMul a0 a1 a2 a3 s) :=
  keepsOut_done (keeps_issueAt h _ _)

theorem keeps_execFtoi (h : Keeps q s) (a0 a1 a2 : _) : KeepsOut q (execFtoi a0 a1 a2 s) :=
  keepsOut_done (keeps_issueAt h _ _)

theorem keeps_execPget (h : Keeps q s) (a0 a1 a2 : _) : KeepsOut q (execPget a0 a1 a2 s) :=
  keepsOut_done (keeps_issueAt h _ _)

theorem keeps_execBnz (h : Keeps q s) (a0 a1 a2 : _) : KeepsOut q (execBnz a0 a1 a2 s) :=
  keepsOut_done (keeps_issueAt h _ _)

theorem keeps_execCmpeq (h : Keeps q s) (a0 a1 a2 a3 : _) : KeepsOut q (execCmpeq a0 a1 a2 a3 s) :=
  keepsOut_done (keeps_issueAt h _ _)

theorem keeps_execCall (h : Keeps q s) (a0 a1 a2 : _) : KeepsOut q (execCall a0 a1 a2 s) :=
  keepsOut_done (keeps_issueAt h _ _)

theorem keeps_execWfi (h : Keeps q s) (a0 : _) : KeepsOut q (execWfi a0 s) :=
  keepsOut_done (keeps_issueAt h _ _)

theorem keeps_execFadd (h : Keeps q s) (a0 a1 a2 a3 : _) : KeepsOut q (execFadd a0 a1 a2 a3 s) :=
  keepsOut_done (keeps_issueAt h _ _)

theorem keeps_execStep (h : Keeps q s) (a0 : _) : KeepsOut q (execStep a0 s) :=
  keepsOut_done (keeps_issueAt h _ _)

theorem keeps_execRepx (h : Keeps q s) (a0 a1 : _) : KeepsOut q (execRepx a0 a1 s) :=
  keepsOut_done (keeps_issueAt h _ _)

theorem keeps_execSst4 (h : Keeps q s) (a0 a1 a2 a3 : _) : KeepsOut q (execSst4 a0 a1 a2 a3 s) :=
  keepsOut_done (keeps_issueAt h _ _)

theorem keeps_execMax (h : Keeps q s) (a0 a1 a2 a3 : _) : KeepsOut q (execMax a0 a1 a2 a3 s) :=
  keepsOut_done (keeps_issueAt h _ _)

theorem keeps_execWait (h : Keeps q s) (a0 a1 a2 : _) : KeepsOut q (execWait a0 a1 a2 s) :=
  keepsOut_done (keeps_issueAt h _ _)

theorem keeps_execRem (h : Keeps q s) (a0 a1 a2 a3 : _) : KeepsOut q (execRem a0 a1 a2 a3 s) :=
  keepsOut_done (keeps_issueAt h _ _)

theorem keeps_execLdi (h : Keeps q s) (a0 a1 a2 a3 : _) : KeepsOut q (execLdi a0 a1 a2 a3 s) :=
  keepsOut_done (keeps_issueAt h _ _)

theorem keeps_execShl (h : Keeps q s) (a0 a1 a2 a3 : _) : KeepsOut q (execShl a0 a1 a2 a3 s) :=
  keepsOut_done (keeps_issueAt h _ _)

theorem keeps_execSst (h : Keeps q s) (a0 a1 a2 a3 : _) : KeepsOut q (execSst a0 a1 a2 a3 s) :=
  keepsOut_done (keeps_issueAt h _ _)

theorem keeps_execXor (h : Keeps q s) (a0 a1 a2 a3 : _) : KeepsOut q (execXor a0 a1 a2 a3 s) :=
  keepsOut_done (keeps_issueAt h _ _)

theorem keeps_execEndOp (h : Keeps q s) (a0 : _) : KeepsOut q (execEndOp a0 s) :=
  keepsOut_done (keeps_issueAt h _ _)

theorem keeps_execBrk (h : Keeps q s) (a0 a1 : _) : KeepsOut q (execBrk a0 a1 s) :=
  keepsOut_done (keeps_issueAt h _ _)

theorem keeps_execFmax (h : Keeps q s) (a0 a1 a2 a3 : _) : KeepsOut q (execFmax a0 a1 a2 a3 s) :=
  keepsOut_done (keeps_issueAt h _ _)

theorem keeps_execRetag (h : Keeps q s) (a0 a1 a2 a3 : _) : KeepsOut q (execRetag a0 a1 a2 a3 s) :=
  keepsOut_done (keeps_issueAt h _ _)

theorem keeps_execSar (h : Keeps q s) (a0 a1 a2 a3 : _) : KeepsOut q (execSar a0 a1 a2 a3 s) :=
  keepsOut_done (keeps_issueAt h _ _)

theorem keeps_execMov (h : Keeps q s) (a0 a1 a2 : _) : KeepsOut q (execMov a0 a1 a2 s) :=
  keepsOut_done (keeps_issueAt h _ _)

theorem keeps_execDst (h : Keeps q s) (a0 a1 a2 a3 : _) : KeepsOut q (execDst a0 a1 a2 a3 s) :=
  keepsOut_done (keeps_issueAt h _ _)

theorem keeps_execRepi (h : Keeps q s) (a0 a1 : _) : KeepsOut q (execRepi a0 a1 s) :=
  keepsOut_done (keeps_issueAt h _ _)

theorem keeps_execPput (h : Keeps q s) (a0 a1 a2 : _) : KeepsOut q (execPput a0 a1 a2 s) :=
  keepsOut_done (keeps_issueAt h _ _)

theorem keeps_execSub (h : Keeps q s) (a0 a1 a2 a3 : _) : KeepsOut q (execSub a0 a1 a2 a3 s) :=
  keepsOut_done (keeps_issueAt h _ _)

theorem keeps_execTagof (h : Keeps q s) (a0 a1 a2 : _) : KeepsOut q (execTagof a0 a1 a2 s) :=
  keepsOut_done (keeps_issueAt h _ _)

theorem keeps_execVsub (h : Keeps q s) (a0 a1 a2 a3 a4 a5 : _) : KeepsOut q (execVsub a0 a1 a2 a3 a4 a5 s) :=
  keepsOut_done (keeps_issueAt h _ _)

theorem keeps_execVfma (h : Keeps q s) (a0 a1 a2 a3 a4 a5 a6 : _) : KeepsOut q (execVfma a0 a1 a2 a3 a4 a5 a6 s) :=
  keepsOut_done (keeps_issueAt h _ _)

theorem keeps_execVrsum32 (h : Keeps q s) (a0 a1 a2 a3 a4 : _) : KeepsOut q (execVrsum32 a0 a1 a2 a3 a4 s) :=
  keepsOut_done (keeps_issueAt h _ _)

theorem keeps_execVcmpeq (h : Keeps q s) (a0 a1 a2 a3 a4 : _) : KeepsOut q (execVcmpeq a0 a1 a2 a3 a4 s) :=
  keepsOut_done (keeps_issueAt h _ _)

theorem keeps_execVmul (h : Keeps q s) (a0 a1 a2 a3 a4 a5 : _) : KeepsOut q (execVmul a0 a1 a2 a3 a4 a5 s) :=
  keepsOut_done (keeps_issueAt h _ _)

theorem keeps_execVadds (h : Keeps q s) (a0 a1 a2 a3 a4 a5 : _) : KeepsOut q (execVadds a0 a1 a2 a3 a4 a5 s) :=
  keepsOut_done (keeps_issueAt h _ _)

theorem keeps_execVmuls (h : Keeps q s) (a0 a1 a2 a3 a4 a5 : _) : KeepsOut q (execVmuls a0 a1 a2 a3 a4 a5 s) :=
  keepsOut_done (keeps_issueAt h _ _)

theorem keeps_execVfn (h : Keeps q s) (a0 a1 a2 a3 a4 a5 : _) : KeepsOut q (execVfn a0 a1 a2 a3 a4 a5 s) :=
  keepsOut_done (keeps_issueAt h _ _)

theorem keeps_execVcmplt (h : Keeps q s) (a0 a1 a2 a3 a4 : _) : KeepsOut q (execVcmplt a0 a1 a2 a3 a4 s) :=
  keepsOut_done (keeps_issueAt h _ _)

theorem keeps_execVbcast (h : Keeps q s) (a0 a1 a2 a3 a4 : _) : KeepsOut q (execVbcast a0 a1 a2 a3 a4 s) :=
  keepsOut_done (keeps_issueAt h _ _)

theorem keeps_execVrmax32 (h : Keeps q s) (a0 a1 a2 a3 a4 : _) : KeepsOut q (execVrmax32 a0 a1 a2 a3 a4 s) :=
  keepsOut_done (keeps_issueAt h _ _)

theorem keeps_execVsel (h : Keeps q s) (a0 a1 a2 a3 a4 : _) : KeepsOut q (execVsel a0 a1 a2 a3 a4 s) :=
  keepsOut_done (keeps_issueAt h _ _)

theorem keeps_execVadd (h : Keeps q s) (a0 a1 a2 a3 a4 a5 : _) : KeepsOut q (execVadd a0 a1 a2 a3 a4 a5 s) :=
  keepsOut_done (keeps_issueAt h _ _)

theorem keeps_execVmin (h : Keeps q s) (a0 a1 a2 a3 a4 a5 : _) : KeepsOut q (execVmin a0 a1 a2 a3 a4 a5 s) :=
  keepsOut_done (keeps_issueAt h _ _)

theorem keeps_execVmax (h : Keeps q s) (a0 a1 a2 a3 a4 a5 : _) : KeepsOut q (execVmax a0 a1 a2 a3 a4 a5 s) :=
  keepsOut_done (keeps_issueAt h _ _)

theorem keeps_execMma (h : Keeps q s) (a0 a1 a2 : _) : KeepsOut q (execMma a0 a1 a2 s) :=
  keepsOut_done (keeps_issueAt h _ _)

theorem keeps_execMmacR (h : Keeps q s) (a0 a1 a2 a3 : _) : KeepsOut q (execMmacR a0 a1 a2 a3 s) :=
  keepsOut_done (keeps_issueAt h _ _)

theorem keeps_execTget (h : Keeps q s) (a0 a1 a2 : _) : KeepsOut q (execTget a0 a1 a2 s) :=
  keepsOut_done (keeps_issueAt h _ _)

theorem keeps_execMmacA (h : Keeps q s) (a0 a1 a2 : _) : KeepsOut q (execMmacA a0 a1 a2 s) :=
  keepsOut_done (keeps_issueAt h _ _)

theorem keeps_execTclr (h : Keeps q s) (a0 a1 : _) : KeepsOut q (execTclr a0 a1 s) :=
  keepsOut_done (keeps_issueAt h _ _)

theorem keeps_execMmacI (h : Keeps q s) (a0 a1 a2 a3 : _) : KeepsOut q (execMmacI a0 a1 a2 a3 s) :=
  keepsOut_done (keeps_issueAt h _ _)

theorem keeps_execTput (h : Keeps q s) (a0 a1 a2 : _) : KeepsOut q (execTput a0 a1 a2 s) :=
  keepsOut_done (keeps_issueAt h _ _)

theorem keeps_execVst (h : Keeps q s) (a0 a1 a2 : _) : KeepsOut q (execVst a0 a1 a2 s) :=
  keepsOut_done (keeps_issueAt h _ _)

theorem keeps_execTxmx (h : Keeps q s) (a0 a1 a2 : _) : KeepsOut q (execTxmx a0 a1 a2 s) :=
  keepsOut_done (keeps_issueAt h _ _)

theorem keeps_execVld (h : Keeps q s) (a0 a1 a2 : _) : KeepsOut q (execVld a0 a1 a2 s) :=
  keepsOut_done (keeps_issueAt h _ _)

theorem keeps_execGet (h : Keeps q s) (a0 a1 a2 a3 : _) : KeepsOut q (execGet a0 a1 a2 a3 s) :=
  keepsOut_done (keeps_issueAt h _ _)

theorem keeps_execPut (h : Keeps q s) (a0 a1 a2 a3 : _) : KeepsOut q (execPut a0 a1 a2 a3 s) :=
  keepsOut_done (keeps_issueAt h _ _)

theorem keeps_execTrd (h : Keeps q s) (a0 a1 a2 a3 a4 : _) : KeepsOut q (execTrd a0 a1 a2 a3 a4 s) :=
  keepsOut_done (keeps_issueAt h _ _)

theorem keeps_execAstream (h : Keeps q s) (a0 a1 a2 : _) : KeepsOut q (execAstream a0 a1 a2 s) :=
  keepsOut_done (keeps_issueAt h _ _)

theorem keeps_execVstmx (h : Keeps q s) (a0 a1 a2 a3 : _) : KeepsOut q (execVstmx a0 a1 a2 a3 s) :=
  keepsOut_done (keeps_issueAt h _ _)

theorem keeps_execFlashRelease (h : Keeps q s) (a0 : _) : KeepsOut q (execFlashRelease a0 s) :=
  keepsOut_done (keeps_serve h keeps_flashReleaseBlock _)

theorem keeps_execFlashFillDone (h : Keeps q s) (a0 a1 : _) : KeepsOut q (execFlashFillDone a0 a1 s) := by
  unfold execFlashFillDone
  repeat' with_reducible first
    | assumption | (extract_lets +onlyGivenNames x; refine (fun (hx : Keeps q x) => ?_) ?_; clear_value x; rotate_left; subst x)
    | (extract_lets +onlyGivenNames x; clear_value x) | apply keeps_done | apply keeps_settle | apply keeps_serviceEvent
    | apply keeps_modFlash | apply keepsOut_done | intro _ | split

theorem keeps_execModuleButtonPress (h : Keeps q s) : KeepsOut q (execModuleButtonPress s) := by
  unfold execModuleButtonPress
  repeat' with_reducible first
    | assumption | dsimp -zeta only
    | (extract_lets +onlyGivenNames x; refine (fun (hx : Keeps q x) => ?_) ?_; clear_value x; rotate_left; subst x)
    | (extract_lets +onlyGivenNames x; subst x) | apply keeps_done | apply keeps_releaseFlash | apply keeps_serviceEvent
    | apply keepsOut_done | intro _ | split | apply keeps_mk | apply Keeps.pending | apply Keeps.cells

theorem keeps_execFlashRemoved (h : Keeps q s) (a0 : _) : KeepsOut q (execFlashRemoved a0 s) := by
  unfold execFlashRemoved
  repeat' with_reducible first
    | assumption | (extract_lets +onlyGivenNames x; refine (fun (hx : Keeps q x) => ?_) ?_; clear_value x; rotate_left; subst x)
    | (extract_lets +onlyGivenNames x; clear_value x) | apply keeps_done | apply keeps_unstage | apply keeps_degrade
    | apply keeps_modFlash | apply keeps_failStaging | apply keeps_dropWrites | apply keeps_serviceEvent | apply keepsOut_done
    | intro _ | split

theorem keeps_execFlashPresence (h : Keeps q s) (a0 : _) : KeepsOut q (execFlashPresence a0 s) := by
  unfold execFlashPresence
  repeat' with_reducible first
    | assumption | (extract_lets +onlyGivenNames x; refine (fun (hx : Keeps q x) => ?_) ?_; clear_value x; rotate_left; subst x)
    | (extract_lets +onlyGivenNames x; clear_value x) | apply keeps_done | apply keeps_degrade | apply keeps_modFirm
    | apply keeps_modFlash | apply keepsOut_done | intro _ | split

theorem keeps_execLocateBlinkExpire (h : Keeps q s) : KeepsOut q (execLocateBlinkExpire s) := by
  unfold execLocateBlinkExpire
  repeat' with_reducible first
    | assumption | (extract_lets +onlyGivenNames x; refine (fun (hx : Keeps q x) => ?_) ?_; clear_value x; rotate_left; subst x)
    | (extract_lets +onlyGivenNames x; clear_value x) | apply keeps_done | apply keepsOut_done | intro _ | apply keeps_mk
    | apply Keeps.pending | apply Keeps.cells

theorem keeps_execServiceLocate (h : Keeps q s) (a0 : _) : KeepsOut q (execServiceLocate a0 s) :=
  keepsOut_done (keeps_serve h keeps_serviceLocateBlock _)

theorem keeps_execRegisterWrite (h : Keeps q s) (a0 a1 a2 a3 : _) : KeepsOut q (execRegisterWrite a0 a1 a2 a3 s) := by
  unfold execRegisterWrite
  repeat' with_reducible first
    | assumption | apply keeps_done | apply keeps_bar0Write | apply keepsOut_done

end keeping

end Sys2Proof.Machine
end

