-- ==== Sys2Proof/Laws/Ops.lean ====
section
/-! SUPPORT. What shared operations can do, for proofs that cite them instead of unfolding them. -/

namespace Sys2Proof.Machine

/-! ## Writes that wait for a page (R512, R513) -/

/-- A write by a requester of whom nothing waits, to pages that no save has marked, is made at once. -/
theorem State.putData_now (s : State) (a : Nat) (d : WriteData) (who : Writer) (hw : ∀ w ∈ s.porter.waits, w.who ≠ who)
    (hm : ∀ p ∈ pagesOf a d.length, s.marked p = false) : s.putData a d who = s.writeNow a d := by
  have hp : (pagesOf a d.length).filter s.marked = [] := List.filter_eq_nil_iff.mpr fun p h => by simp [hm p h]
  have hh : s.porter.waits.any (·.who == who) = false := by
    simp only [List.any_eq_false, beq_iff_eq]
    exact hw
  simp [State.putData, hp, hh]

/-- Of a requester of whom a write waits, the next waits behind it. -/
theorem State.putData_behind (s : State) (a : Nat) (d : WriteData) (who : Writer) {w : Waiting} (hw : w ∈ s.porter.waits)
    (h : w.who = who) : s.putData a d who = { s with porter := { s.porter with waits := s.porter.waits ++ [{ who, addr := a, data := d }] } } := by
  have hh : s.porter.waits.any (·.who == who) = true := List.any_eq_true.mpr ⟨w, hw, by simp [h]⟩
  simp [State.putData, hh]

/-- A module none of whose jobs is being saved has no marked page. -/
theorem State.marked_unsaved (s : State) (h : ∀ e ∈ s.jobs, e.2.save = none) (p : Nat) : s.marked p = false := by
  simp only [State.marked, List.any_eq_false]
  intro e he
  simp [h e he]

/-! ## Stand-ins (R21, R23) -/

/-- Coordinates that working tiles serve need no stand-in. -/
theorem Mesh.fit_settled (m : Mesh) (f : Nat) (busy : List Nat) (cs : List (Nat × Nat))
    (h : ∀ c ∈ cs, m.inService c.2 = true → m.isRetired (m.physicalOf c.1 c.2) = false) : m.fit (f + 1) busy cs = (m, [], []) := by
  have hn : m.needy cs = [] := by
    unfold Mesh.needy
    rw [List.filter_eq_nil_iff.mpr fun c hc => by
      cases hs : m.inService c.2 <;> simp [hs, h c hc]]
    exact List.mergeSort_nil
  simp [Mesh.fit, hn]

/-- Stand-ins are found by taking lent rows back, never by lending more. -/
theorem Mesh.fit_lentRows_le (f : Nat) (busy : List Nat) (cs : List (Nat × Nat)) : ∀ m : Mesh, (m.fit f busy cs).1.lentRows ≤ m.lentRows := by
  induction f with
  | zero => exact fun m => Nat.le_refl _
  | succ f ih =>
    intro m
    unfold Mesh.fit
    dsimp only
    split
    · exact (ih _).trans (Nat.min_le_left _ _)
    · exact Nat.le_refl _

/-- A read that meets a stack line without errors counts nothing. -/
theorem State.noteLine_clean (s : State) (a n l x o : Nat) (hr : s.mem.reach (64 * l) = .served x) (hx : mapAddr x = .stack o)
    (h2 : s.mem.twoSymbol.contains (x / 64) = false) (hp : s.mem.poison.contains (x / 64) = false)
    (h1 : s.mem.oneSymbol.contains (x / 64) = false) : s.noteLine a n l = s := by
  unfold State.noteLine
  rw [hr]
  simp only [hx]
  unfold State.noteStack
  simp only [h2, hp, h1, Bool.false_and, Bool.false_eq_true, if_false]

end Sys2Proof.Machine
end

