-- ==== Sys2Proof/WellFormed.lean ====
section
/-! DEFINITION. Which commands name objects that the module has: every number that names a tile, a core, a port, a guest
and so on lies in the range that the spec gives that kind of object. -/

namespace Sys2Proof

/-- A place that can issue: a logical coordinate of the 64 by 68 logical mesh (R16) and one of its eight contexts, or one of
the nineteen firmware cores (R34). -/
def Place.wf : Place → Bool
  | .tile x y ctx => decide (x < 64) && decide (y < 68) && decide (ctx < 8)
  | .core n => decide (n < 19)

/-- The coordinates of a place with their numbers of values. -/
def Place.named : Place → List (Nat × Nat)
  | .tile x y ctx => [(x, 64), (y, 68), (ctx, 8)]
  | .core n => [(n, 19)]

/-- The command names objects that exist. -/
def Instr.wf : Instr → Bool
  | .registerWrite link _ _ _ => decide (link < 2)
  | .main48vRise => true
  | .startStepDone _ => true
  | .warmStartHoldEnd => true
  | .phGo slot => decide (slot < 32)
  | .requestBegin core => decide (core < 19)
  | .phDoneClear slot => decide (slot < 32)
  | .eventPost slot => decide (slot < 32)
  | .hello slot => decide (slot < 32)
  | .features slot => decide (slot < 32)
  | .moduleStatus slot => decide (slot < 32)
  | .moduleRestart slot => decide (slot < 32)
  | .restartDelayExpire => true
  | .coldRestart _ => true
  | .fwStage slot => decide (slot < 32)
  | .fwStageDone => true
  | .fwActivate slot => decide (slot < 32)
  | .activationStart => true
  | .coreSwapDone core => decide (core < 19)
  | .hearthSwapStart => true
  | .swapTimeout core => decide (core < 19)
  | .watchdogExpire core => decide (core < 19)
  | .coreRestartDone core => decide (core < 19)
  | .coreRestartTimeout core => decide (core < 19)
  | .recordWriteDone => true
  | .resultProduced tile => decide (tile < 4608)
  | .restPointReached tile => decide (tile < 4608)
  | .retirementBegin cluster => decide (cluster < 16)
  | .imageMoveDone cluster => decide (cluster < 16)
  | .tileRetire slot => decide (slot < 32)
  | .jobLaunch slot => decide (slot < 32)
  | .epochJobStart => true
  | .jobEnd slot => decide (slot < 32)
  | .add p _ _ _ => p.wf
  | .addi p _ _ _ => p.wf
  | .sub p _ _ _ => p.wf
  | .andOp p _ _ _ => p.wf
  | .orOp p _ _ _ => p.wf
  | .xor p _ _ _ => p.wf
  | .shl p _ _ _ => p.wf
  | .shr p _ _ _ => p.wf
  | .sar p _ _ _ => p.wf
  | .cmplt p _ _ _ => p.wf
  | .cmpeq p _ _ _ => p.wf
  | .min p _ _ _ => p.wf
  | .max p _ _ _ => p.wf
  | .mul p _ _ _ => p.wf
  | .div p _ _ _ => p.wf
  | .rem p _ _ _ => p.wf
  | .fadd p _ _ _ => p.wf
  | .fsub p _ _ _ => p.wf
  | .fmul p _ _ _ => p.wf
  | .ffma p _ _ _ => p.wf
  | .fmax p _ _ _ => p.wf
  | .fmin p _ _ _ => p.wf
  | .itof p _ _ => p.wf
  | .ftoi p _ _ => p.wf
  | .mov p _ _ => p.wf
  | .tagof p _ _ => p.wf
  | .retag p _ _ _ => p.wf
  | .sld p _ _ _ => p.wf
  | .sst p _ _ _ => p.wf
  | .markp p _ _ => p.wf
  | .wait p _ _ => p.wf
  | .br p _ => p.wf
  | .bz p _ _ => p.wf
  | .bnz p _ _ => p.wf
  | .call p _ _ => p.wf
  | .jmp p _ => p.wf
  | .repi p _ => p.wf
  | .repx p _ => p.wf
  | .step p => p.wf
  | .endOp p => p.wf
  | .seth p _ => p.wf
  | .rte p => p.wf
  | .brk p _ => p.wf
  | .rdt p _ _ => p.wf
  | .ldi p _ _ _ => p.wf
  | .dget p _ _ _ => p.wf
  | .dput p _ _ _ => p.wf
  | .dld p _ _ _ => p.wf
  | .dst p _ _ _ => p.wf
  | .pget p _ _ => p.wf
  | .pput p _ _ => p.wf
  | .sld4 p _ _ _ => p.wf
  | .sst4 p _ _ _ => p.wf
  | .wfi p => p.wf
  | .vadd p _ _ _ _ _ => p.wf
  | .vsub p _ _ _ _ _ => p.wf
  | .vmul p _ _ _ _ _ => p.wf
  | .vfma p _ _ _ _ _ _ => p.wf
  | .vmax p _ _ _ _ _ => p.wf
  | .vmin p _ _ _ _ _ => p.wf
  | .vsel p _ _ _ _ => p.wf
  | .vadds p _ _ _ _ _ => p.wf
  | .vmuls p _ _ _ _ _ => p.wf
  | .vbcast p _ _ _ _ => p.wf
  | .vcmplt p _ _ _ _ => p.wf
  | .vcmpeq p _ _ _ _ => p.wf
  | .vrmax32 p _ _ _ _ => p.wf
  | .vrsum32 p _ _ _ _ => p.wf
  | .vfn p _ _ _ _ _ => p.wf
  | .mma p _ _ => p.wf
  | .mmacI p _ _ _ => p.wf
  | .mmacR p _ _ _ => p.wf
  | .mmacA p _ _ => p.wf
  | .tclr p _ => p.wf
  | .tget p _ _ => p.wf
  | .vld p _ _ => p.wf
  | .vst p _ _ => p.wf
  | .vstmx p _ _ _ => p.wf
  | .trd p _ _ _ _ => p.wf
  | .tput p _ _ => p.wf
  | .txmx p _ _ => p.wf
  | .put p _ _ _ => p.wf
  | .get p _ _ _ => p.wf
  | .astream p _ _ => p.wf
  | .packetHop tile _ => decide (tile < 4608)
  | .putArrive tile => decide (tile < 4608)
  | .getReqArrive tile => decide (tile < 4608)
  | .getReplyArrive tile => decide (tile < 4608)
  | .ackArrive tile => decide (tile < 4608)
  | .ackTimerExpire tile source => decide (tile < 4608) && decide (source < 4608)
  | .tmaxUpArrive tile => decide (tile < 4608)
  | .tmaxDownArrive tile => decide (tile < 4608)
  | .fndRdArrive _ => true
  | .fndWrArrive _ => true
  | .fndReplyArrive tile => decide (tile < 4608)
  | .imageArrive tile => decide (tile < 4608)
  | .ctrlArrive tile => decide (tile < 4608)
  | .flitCrcFail tile _ _ => decide (tile < 4608)
  | .ageTick => true
  | .astreamStreamDone tile => decide (tile < 4608)
  | .astreamAppendDone tile => decide (tile < 4608)
  | .stepBarrierComplete guest => decide (guest < 1024)
  | .barrierRelease guest => decide (guest < 1024)
  | .runMoveDone _ _ => true
  | .ledgerPool slot => decide (slot < 32)
  | .ledgerCreate slot => decide (slot < 32)
  | .ledgerDelete slot => decide (slot < 32)
  | .ledgerMove slot => decide (slot < 32)
  | .ledgerQuery slot => decide (slot < 32)
  | .ledgerIdle slot => decide (slot < 32)
  | .ledgerExport slot => decide (slot < 32)
  | .ledgerExportDone _ => true
  | .ledgerImport slot => decide (slot < 32)
  | .ledgerImportDone guest => decide (guest < 1024)
  | .drawDone tile => decide (tile < 4608)
  | .passportDigest slot => decide (slot < 32)
  | .digestDone guest digestSlot => decide (guest < 1024) && decide (digestSlot < 16)
  | .passportSeal slot => decide (slot < 32)
  | .sealDone guest => decide (guest < 1024)
  | .rtmLimitExpire _ => true
  | .refresh stack pc => decide (stack < 16) && decide (pc < 64)
  | .scrubLine stack => decide (stack < 16)
  | .mergeTimeout stack _ => decide (stack < 16)
  | .memRetirePc slot => decide (slot < 32)
  | .pcRetireDone => true
  | .cellarFillDone port _ => decide (port < 8)
  | .cellarRelease slot => decide (slot < 32)
  | .evacuationDone port => decide (port < 8)
  | .cellarMediaEvent port _ => decide (port < 8)
  | .configAccess link _ _ _ _ => decide (link < 2)
  | .bar4Access link _ _ _ _ => decide (link < 2)
  | .completionArrive link _ _ _ => decide (link < 2)
  | .completionTimeout link _ => decide (link < 2)
  | .quarantineExpire link _ => decide (link < 2)
  | .linkReset link _ => decide (link < 2)
  | .slotPresenceChange port _ => decide (port < 8)
  | .slotButtonPress port => decide (port < 8)
  | .slotButtonTimeout port => decide (port < 8)
  | .slotPowerGood port => decide (port < 8)
  | .slotPerstRelease port => decide (port < 8)
  | .slotLinkUp port _ _ => decide (port < 8)
  | .slotEnumerated port _ => decide (port < 8)
  | .slotPowerTimeout port => decide (port < 8)
  | .slotPowerFault port => decide (port < 8)
  | .freezeTrigger port cause => decide (port < 8) && decide (cause < 16)
  | .peerRequest port _ _ _ _ => decide (port < 8)
  | .windowCommit port => decide (port < 8)
  | .windowSwap port => decide (port < 8)
  | .portConfig slot => decide (slot < 32)
  | .slotControl slot => decide (slot < 32)
  | .portRelease slot => decide (slot < 32)
  | .overlaySet slot => decide (slot < 32)
  | .overlayWriteDone => true
  | .guestCreate slot => decide (slot < 32)
  | .guestDestroy slot => decide (slot < 32)
  | .guestDestroyDone guest => decide (guest < 1024)
  | .guestGrant slot => decide (slot < 32)
  | .guestRevoke slot => decide (slot < 32)
  | .guestRevokeDone guest => decide (guest < 1024)
  | .sqTail page queue _ => decide (page.link < 2) && decide (page.guest < 1024) && decide (queue < 65536)
  | .cqHead page queue _ => decide (page.link < 2) && decide (page.guest < 1024) && decide (queue < 65536)
  | .courierDb page _ => decide (page.link < 2) && decide (page.guest < 1024)
  | .parlourRing page => decide (page.link < 2) && decide (page.guest < 1024)
  | .parlourWindowAccess page _ _ _ _ => decide (page.link < 2) && decide (page.guest < 1024)
  | .guestRing guest => decide (guest < 1024)
  | .logStart slot => decide (slot < 32)
  | .logFence slot => decide (slot < 32)
  | .logStop slot => decide (slot < 32)
  | .logFenceDone guest => decide (guest < 1024)
  | .sqFetch => true
  | .cqPost pair => decide (pair < 5120)
  | .getLogPage pair cid => decide (pair < 5120) && decide (cid < 65536)
  | .identify pair cid => decide (pair < 5120) && decide (cid < 65536)
  | .abort pair cid => decide (pair < 5120) && decide (cid < 65536)
  | .setFeatures pair cid => decide (pair < 5120) && decide (cid < 65536)
  | .getFeatures pair cid => decide (pair < 5120) && decide (cid < 65536)
  | .asynchronousEventRequest pair cid => decide (pair < 5120) && decide (cid < 65536)
  | .flush pair cid => decide (pair < 5120) && decide (cid < 65536)
  | .write pair cid => decide (pair < 5120) && decide (cid < 65536)
  | .read pair cid => decide (pair < 5120) && decide (cid < 65536)
  | .writeZeroes pair cid => decide (pair < 5120) && decide (cid < 65536)
  | .datasetManagement pair cid => decide (pair < 5120) && decide (cid < 65536)
  | .backingComplete pair cid _ _ _ _ _ => decide (pair < 5120) && decide (cid < 65536)
  | .backingTimeout pair cid _ => decide (pair < 5120) && decide (cid < 65536)
  | .storageNsCreate slot => decide (slot < 32)
  | .storageNsDelete slot => decide (slot < 32)
  | .nsDeleteDone guest _ => decide (guest < 1024)
  | .storageQueueCreate slot => decide (slot < 32)
  | .storageQueueDelete slot => decide (slot < 32)
  | .queueDeleteDone pair => decide (pair < 5120)
  | .frameReceive port _ _ => decide (port < 64)
  | .courierPacketReceive port _ _ _ => decide (port < 64)
  | .courierAckReceive port _ _ _ => decide (port < 64)
  | .courierNackReceive port _ _ _ => decide (port < 64)
  | .courierRtoExpire conn _ => decide (conn < 65536)
  | .wrFetch conn _ => decide (conn < 65536)
  | .courierRequestStart conn => decide (conn < 65536)
  | .frameRxTail ring _ => decide (ring < 64)
  | .frameTxTail ring _ => decide (ring < 64)
  | .ruleCommit _ => true
  | .netConfig slot => decide (slot < 32)
  | .netPortSet slot => decide (slot < 32)
  | .netProfile slot => decide (slot < 32)
  | .netRing slot => decide (slot < 32)
  | .netTime slot => decide (slot < 32)
  | .netLinkChange port _ => decide (port < 64)
  | .courierKey slot => decide (slot < 32)
  | .courierOpen slot => decide (slot < 32)
  | .courierClose slot => decide (slot < 32)
  | .egressEnqueue port _ => decide (port < 64)
  | .schedulerDecide port => decide (port < 64)
  | .tokenUpdate => true
  | .gateEntryAdvance port => decide (port < 64)
  | .timetableSlotStart port => decide (port < 64)
  | .scheduleSwitch port _ => decide (port < 64)
  | .queueSample => true
  | .trafficQueue slot => decide (slot < 32)
  | .trafficPort slot => decide (slot < 32)
  | .trafficTimetable slot => decide (slot < 32)
  | .trafficGates slot => decide (slot < 32)
  | .keyIdentity slot => decide (slot < 32)
  | .kekInstall slot => decide (slot < 32)
  | .keyLoad slot => decide (slot < 32)
  | .keyClear slot => decide (slot < 32)
  | .keyClearDone slot => decide (slot < 32)
  | .keyFetchDone engine => decide (engine < 32)
  | .cipherRun slot => decide (slot < 32)
  | .cipherRunDone engine => decide (engine < 32)
  | .cipherBlockDone engine => decide (engine < 32)
  | .alarm cause => decide (cause < 5)
  | .alarmRezeroise cause => decide (cause < 5)
  | .ckptConfig slot => decide (slot < 32)
  | .ckptStart slot => decide (slot < 32)
  | .ckptQuiet _ => true
  | .ckptQuietTimeout _ => true
  | .ckptCapture slot => decide (slot < 32)
  | .ckptCaptured _ => true
  | .ckptPageCopy _ => true
  | .copyAhead _ _ => true
  | .ckptSaveComplete _ => true
  | .ckptRestore slot => decide (slot < 32)
  | .ckptRestoreDone guest => decide (guest < 1024)
  | .ckptDrain slot => decide (slot < 32)
  | .ckptDrainDone guest => decide (guest < 1024)
  | .shedStageEnter stage => decide (stage < 6)
  | .shedStageLeave stage => decide (stage < 6)
  | .mainOvervoltage => true
  | .mainRecover => true
  | .auxLoss => true
  | .auxApply => true
  | .hearthLoop _ => true
  | .thermalThrottle _ => true
  | .thermalTrip _ => true
  | .thermalClear _ => true
  | .divisorChange => true
  | .refclkFail _ => true
  | .pllLockTimeout => true
  | .pllLockHeld => true
  | .aonReturn => true
  | .crossingFallback _ => true
  | .crossingResync _ => true
  | .powerProfile slot => decide (slot < 32)
  | .ficSourceFire core source => decide (core < 19) && decide (source < 64)
  | .ficTick => true
  | .ficClaim core => decide (core < 19)
  | .ficComplete core source => decide (core < 19) && decide (source < 64)
  | .ficInterruptTake core => decide (core < 19)
  | .imsWrite vector _ _ _ => decide (vector < 8192)
  | .holdoffExpire group => decide (group < 1024)
  | .l1ExitDone link => decide (link < 2)
  | .pmeRepeat link => decide (link < 2)
  | .sensorSample _ _ _ _ => true
  | .teleQueueBatch => true
  | .teleSensorBatch => true
  | .teleRing slot => decide (slot < 32)
  | .moduleButtonPress => true
  | .locateBlinkExpire => true
  | .flashRelease slot => decide (slot < 32)
  | .flashPresence device => decide (device < 2)
  | .flashFillDone device _ => decide (device < 2)
  | .flashRemoved device => decide (device < 2)
  | .serviceLocate slot => decide (slot < 32)
  | .unsupportedHostRequest link _ => decide (link < 2)
  | .upstreamLinkUp link _ _ => decide (link < 2)
  | .aspmL1Entry link => decide (link < 2)
  | .alarmCauseClear cause => decide (cause < 5)
  | .mainHighChange _ => true
  | .pllLockAcquired => true

/-- The numbers by which a command names objects, each with how many such objects there are. -/
def Instr.named : Instr → List (Nat × Nat)
  | .registerWrite link _ _ _ => [(link, 2)]
  | .main48vRise => []
  | .startStepDone _ => []
  | .warmStartHoldEnd => []
  | .phGo slot => [(slot, 32)]
  | .requestBegin core => [(core, 19)]
  | .phDoneClear slot => [(slot, 32)]
  | .eventPost slot => [(slot, 32)]
  | .hello slot => [(slot, 32)]
  | .features slot => [(slot, 32)]
  | .moduleStatus slot => [(slot, 32)]
  | .moduleRestart slot => [(slot, 32)]
  | .restartDelayExpire => []
  | .coldRestart _ => []
  | .fwStage slot => [(slot, 32)]
  | .fwStageDone => []
  | .fwActivate slot => [(slot, 32)]
  | .activationStart => []
  | .coreSwapDone core => [(core, 19)]
  | .hearthSwapStart => []
  | .swapTimeout core => [(core, 19)]
  | .watchdogExpire core => [(core, 19)]
  | .coreRestartDone core => [(core, 19)]
  | .coreRestartTimeout core => [(core, 19)]
  | .recordWriteDone => []
  | .resultProduced tile => [(tile, 4608)]
  | .restPointReached tile => [(tile, 4608)]
  | .retirementBegin cluster => [(cluster, 16)]
  | .imageMoveDone cluster => [(cluster, 16)]
  | .tileRetire slot => [(slot, 32)]
  | .jobLaunch slot => [(slot, 32)]
  | .epochJobStart => []
  | .jobEnd slot => [(slot, 32)]
  | .add p _ _ _ => p.named
  | .addi p _ _ _ => p.named
  | .sub p _ _ _ => p.named
  | .andOp p _ _ _ => p.named
  | .orOp p _ _ _ => p.named
  | .xor p _ _ _ => p.named
  | .shl p _ _ _ => p.named
  | .shr p _ _ _ => p.named
  | .sar p _ _ _ => p.named
  | .cmplt p _ _ _ => p.named
  | .cmpeq p _ _ _ => p.named
  | .min p _ _ _ => p.named
  | .max p _ _ _ => p.named
  | .mul p _ _ _ => p.named
  | .div p _ _ _ => p.named
  | .rem p _ _ _ => p.named
  | .fadd p _ _ _ => p.named
  | .fsub p _ _ _ => p.named
  | .fmul p _ _ _ => p.named
  | .ffma p _ _ _ => p.named
  | .fmax p _ _ _ => p.named
  | .fmin p _ _ _ => p.named
  | .itof p _ _ => p.named
  | .ftoi p _ _ => p.named
  | .mov p _ _ => p.named
  | .tagof p _ _ => p.named
  | .retag p _ _ _ => p.named
  | .sld p _ _ _ => p.named
  | .sst p _ _ _ => p.named
  | .markp p _ _ => p.named
  | .wait p _ _ => p.named
  | .br p _ => p.named
  | .bz p _ _ => p.named
  | .bnz p _ _ => p.named
  | .call p _ _ => p.named
  | .jmp p _ => p.named
  | .repi p _ => p.named
  | .repx p _ => p.named
  | .step p => p.named
  | .endOp p => p.named
  | .seth p _ => p.named
  | .rte p => p.named
  | .brk p _ => p.named
  | .rdt p _ _ => p.named
  | .ldi p _ _ _ => p.named
  | .dget p _ _ _ => p.named
  | .dput p _ _ _ => p.named
  | .dld p _ _ _ => p.named
  | .dst p _ _ _ => p.named
  | .pget p _ _ => p.named
  | .pput p _ _ => p.named
  | .sld4 p _ _ _ => p.named
  | .sst4 p _ _ _ => p.named
  | .wfi p => p.named
  | .vadd p _ _ _ _ _ => p.named
  | .vsub p _ _ _ _ _ => p.named
  | .vmul p _ _ _ _ _ => p.named
  | .vfma p _ _ _ _ _ _ => p.named
  | .vmax p _ _ _ _ _ => p.named
  | .vmin p _ _ _ _ _ => p.named
  | .vsel p _ _ _ _ => p.named
  | .vadds p _ _ _ _ _ => p.named
  | .vmuls p _ _ _ _ _ => p.named
  | .vbcast p _ _ _ _ => p.named
  | .vcmplt p _ _ _ _ => p.named
  | .vcmpeq p _ _ _ _ => p.named
  | .vrmax32 p _ _ _ _ => p.named
  | .vrsum32 p _ _ _ _ => p.named
  | .vfn p _ _ _ _ _ => p.named
  | .mma p _ _ => p.named
  | .mmacI p _ _ _ => p.named
  | .mmacR p _ _ _ => p.named
  | .mmacA p _ _ => p.named
  | .tclr p _ => p.named
  | .tget p _ _ => p.named
  | .vld p _ _ => p.named
  | .vst p _ _ => p.named
  | .vstmx p _ _ _ => p.named
  | .trd p _ _ _ _ => p.named
  | .tput p _ _ => p.named
  | .txmx p _ _ => p.named
  | .put p _ _ _ => p.named
  | .get p _ _ _ => p.named
  | .astream p _ _ => p.named
  | .packetHop tile _ => [(tile, 4608)]
  | .putArrive tile => [(tile, 4608)]
  | .getReqArrive tile => [(tile, 4608)]
  | .getReplyArrive tile => [(tile, 4608)]
  | .ackArrive tile => [(tile, 4608)]
  | .ackTimerExpire tile source => [(tile, 4608)] ++ [(source, 4608)]
  | .tmaxUpArrive tile => [(tile, 4608)]
  | .tmaxDownArrive tile => [(tile, 4608)]
  | .fndRdArrive _ => []
  | .fndWrArrive _ => []
  | .fndReplyArrive tile => [(tile, 4608)]
  | .imageArrive tile => [(tile, 4608)]
  | .ctrlArrive tile => [(tile, 4608)]
  | .flitCrcFail tile _ _ => [(tile, 4608)]
  | .ageTick => []
  | .astreamStreamDone tile => [(tile, 4608)]
  | .astreamAppendDone tile => [(tile, 4608)]
  | .stepBarrierComplete guest => [(guest, 1024)]
  | .barrierRelease guest => [(guest, 1024)]
  | .runMoveDone _ _ => []
  | .ledgerPool slot => [(slot, 32)]
  | .ledgerCreate slot => [(slot, 32)]
  | .ledgerDelete slot => [(slot, 32)]
  | .ledgerMove slot => [(slot, 32)]
  | .ledgerQuery slot => [(slot, 32)]
  | .ledgerIdle slot => [(slot, 32)]
  | .ledgerExport slot => [(slot, 32)]
  | .ledgerExportDone _ => []
  | .ledgerImport slot => [(slot, 32)]
  | .ledgerImportDone guest => [(guest, 1024)]
  | .drawDone tile => [(tile, 4608)]
  | .passportDigest slot => [(slot, 32)]
  | .digestDone guest digestSlot => [(guest, 1024)] ++ [(digestSlot, 16)]
  | .passportSeal slot => [(slot, 32)]
  | .sealDone guest => [(guest, 1024)]
  | .rtmLimitExpire _ => []
  | .refresh stack pc => [(stack, 16)] ++ [(pc, 64)]
  | .scrubLine stack => [(stack, 16)]
  | .mergeTimeout stack _ => [(stack, 16)]
  | .memRetirePc slot => [(slot, 32)]
  | .pcRetireDone => []
  | .cellarFillDone port _ => [(port, 8)]
  | .cellarRelease slot => [(slot, 32)]
  | .evacuationDone port => [(port, 8)]
  | .cellarMediaEvent port _ => [(port, 8)]
  | .configAccess link _ _ _ _ => [(link, 2)]
  | .bar4Access link _ _ _ _ => [(link, 2)]
  | .completionArrive link _ _ _ => [(link, 2)]
  | .completionTimeout link _ => [(link, 2)]
  | .quarantineExpire link _ => [(link, 2)]
  | .linkReset link _ => [(link, 2)]
  | .slotPresenceChange port _ => [(port, 8)]
  | .slotButtonPress port => [(port, 8)]
  | .slotButtonTimeout port => [(port, 8)]
  | .slotPowerGood port => [(port, 8)]
  | .slotPerstRelease port => [(port, 8)]
  | .slotLinkUp port _ _ => [(port, 8)]
  | .slotEnumerated port _ => [(port, 8)]
  | .slotPowerTimeout port => [(port, 8)]
  | .slotPowerFault port => [(port, 8)]
  | .freezeTrigger port cause => [(port, 8)] ++ [(cause, 16)]
  | .peerRequest port _ _ _ _ => [(port, 8)]
  | .windowCommit port => [(port, 8)]
  | .windowSwap port => [(port, 8)]
  | .portConfig slot => [(slot, 32)]
  | .slotControl slot => [(slot, 32)]
  | .portRelease slot => [(slot, 32)]
  | .overlaySet slot => [(slot, 32)]
  | .overlayWriteDone => []
  | .guestCreate slot => [(slot, 32)]
  | .guestDestroy slot => [(slot, 32)]
  | .guestDestroyDone guest => [(guest, 1024)]
  | .guestGrant slot => [(slot, 32)]
  | .guestRevoke slot => [(slot, 32)]
  | .guestRevokeDone guest => [(guest, 1024)]
  | .sqTail page queue _ => [(page.link, 2)] ++ [(page.guest, 1024)] ++ [(queue, 65536)]
  | .cqHead page queue _ => [(page.link, 2)] ++ [(page.guest, 1024)] ++ [(queue, 65536)]
  | .courierDb page _ => [(page.link, 2)] ++ [(page.guest, 1024)]
  | .parlourRing page => [(page.link, 2)] ++ [(page.guest, 1024)]
  | .parlourWindowAccess page _ _ _ _ => [(page.link, 2)] ++ [(page.guest, 1024)]
  | .guestRing guest => [(guest, 1024)]
  | .logStart slot => [(slot, 32)]
  | .logFence slot => [(slot, 32)]
  | .logStop slot => [(slot, 32)]
  | .logFenceDone guest => [(guest, 1024)]
  | .sqFetch => []
  | .cqPost pair => [(pair, 5120)]
  | .getLogPage pair cid => [(pair, 5120)] ++ [(cid, 65536)]
  | .identify pair cid => [(pair, 5120)] ++ [(cid, 65536)]
  | .abort pair cid => [(pair, 5120)] ++ [(cid, 65536)]
  | .setFeatures pair cid => [(pair, 5120)] ++ [(cid, 65536)]
  | .getFeatures pair cid => [(pair, 5120)] ++ [(cid, 65536)]
  | .asynchronousEventRequest pair cid => [(pair, 5120)] ++ [(cid, 65536)]
  | .flush pair cid => [(pair, 5120)] ++ [(cid, 65536)]
  | .write pair cid => [(pair, 5120)] ++ [(cid, 65536)]
  | .read pair cid => [(pair, 5120)] ++ [(cid, 65536)]
  | .writeZeroes pair cid => [(pair, 5120)] ++ [(cid, 65536)]
  | .datasetManagement pair cid => [(pair, 5120)] ++ [(cid, 65536)]
  | .backingComplete pair cid _ _ _ _ _ => [(pair, 5120)] ++ [(cid, 65536)]
  | .backingTimeout pair cid _ => [(pair, 5120)] ++ [(cid, 65536)]
  | .storageNsCreate slot => [(slot, 32)]
  | .storageNsDelete slot => [(slot, 32)]
  | .nsDeleteDone guest _ => [(guest, 1024)]
  | .storageQueueCreate slot => [(slot, 32)]
  | .storageQueueDelete slot => [(slot, 32)]
  | .queueDeleteDone pair => [(pair, 5120)]
  | .frameReceive port _ _ => [(port, 64)]
  | .courierPacketReceive port _ _ _ => [(port, 64)]
  | .courierAckReceive port _ _ _ => [(port, 64)]
  | .courierNackReceive port _ _ _ => [(port, 64)]
  | .courierRtoExpire conn _ => [(conn, 65536)]
  | .wrFetch conn _ => [(conn, 65536)]
  | .courierRequestStart conn => [(conn, 65536)]
  | .frameRxTail ring _ => [(ring, 64)]
  | .frameTxTail ring _ => [(ring, 64)]
  | .ruleCommit _ => []
  | .netConfig slot => [(slot, 32)]
  | .netPortSet slot => [(slot, 32)]
  | .netProfile slot => [(slot, 32)]
  | .netRing slot => [(slot, 32)]
  | .netTime slot => [(slot, 32)]
  | .netLinkChange port _ => [(port, 64)]
  | .courierKey slot => [(slot, 32)]
  | .courierOpen slot => [(slot, 32)]
  | .courierClose slot => [(slot, 32)]
  | .egressEnqueue port _ => [(port, 64)]
  | .schedulerDecide port => [(port, 64)]
  | .tokenUpdate => []
  | .gateEntryAdvance port => [(port, 64)]
  | .timetableSlotStart port => [(port, 64)]
  | .scheduleSwitch port _ => [(port, 64)]
  | .queueSample => []
  | .trafficQueue slot => [(slot, 32)]
  | .trafficPort slot => [(slot, 32)]
  | .trafficTimetable slot => [(slot, 32)]
  | .trafficGates slot => [(slot, 32)]
  | .keyIdentity slot => [(slot, 32)]
  | .kekInstall slot => [(slot, 32)]
  | .keyLoad slot => [(slot, 32)]
  | .keyClear slot => [(slot, 32)]
  | .keyClearDone slot => [(slot, 32)]
  | .keyFetchDone engine => [(engine, 32)]
  | .cipherRun slot => [(slot, 32)]
  | .cipherRunDone engine => [(engine, 32)]
  | .cipherBlockDone engine => [(engine, 32)]
  | .alarm cause => [(cause, 5)]
  | .alarmRezeroise cause => [(cause, 5)]
  | .ckptConfig slot => [(slot, 32)]
  | .ckptStart slot => [(slot, 32)]
  | .ckptQuiet _ => []
  | .ckptQuietTimeout _ => []
  | .ckptCapture slot => [(slot, 32)]
  | .ckptCaptured _ => []
  | .ckptPageCopy _ => []
  | .copyAhead _ _ => []
  | .ckptSaveComplete _ => []
  | .ckptRestore slot => [(slot, 32)]
  | .ckptRestoreDone guest => [(guest, 1024)]
  | .ckptDrain slot => [(slot, 32)]
  | .ckptDrainDone guest => [(guest, 1024)]
  | .shedStageEnter stage => [(stage, 6)]
  | .shedStageLeave stage => [(stage, 6)]
  | .mainOvervoltage => []
  | .mainRecover => []
  | .auxLoss => []
  | .auxApply => []
  | .hearthLoop _ => []
  | .thermalThrottle _ => []
  | .thermalTrip _ => []
  | .thermalClear _ => []
  | .divisorChange => []
  | .refclkFail _ => []
  | .pllLockTimeout => []
  | .pllLockHeld => []
  | .aonReturn => []
  | .crossingFallback _ => []
  | .crossingResync _ => []
  | .powerProfile slot => [(slot, 32)]
  | .ficSourceFire core source => [(core, 19)] ++ [(source, 64)]
  | .ficTick => []
  | .ficClaim core => [(core, 19)]
  | .ficComplete core source => [(core, 19)] ++ [(source, 64)]
  | .ficInterruptTake core => [(core, 19)]
  | .imsWrite vector _ _ _ => [(vector, 8192)]
  | .holdoffExpire group => [(group, 1024)]
  | .l1ExitDone link => [(link, 2)]
  | .pmeRepeat link => [(link, 2)]
  | .sensorSample _ _ _ _ => []
  | .teleQueueBatch => []
  | .teleSensorBatch => []
  | .teleRing slot => [(slot, 32)]
  | .moduleButtonPress => []
  | .locateBlinkExpire => []
  | .flashRelease slot => [(slot, 32)]
  | .flashPresence device => [(device, 2)]
  | .flashFillDone device _ => [(device, 2)]
  | .flashRemoved device => [(device, 2)]
  | .serviceLocate slot => [(slot, 32)]
  | .unsupportedHostRequest link _ => [(link, 2)]
  | .upstreamLinkUp link _ _ => [(link, 2)]
  | .aspmL1Entry link => [(link, 2)]
  | .alarmCauseClear cause => [(cause, 5)]
  | .mainHighChange _ => []
  | .pllLockAcquired => []

end Sys2Proof
end

