-- ==== Sys2Proof/Laws/PerInstr.lean ====
section
/-! SUPPORT. One lemma for each command: it is well-formed exactly when each number it names an object by is below the
number of such objects. -/

namespace Sys2Proof.Laws.RangesChecked

/-- Well-formedness of a command is that every number it names an object by is in range. -/
def Statement (i : Instr) : Prop := i.wf = true ↔ ∀ q ∈ i.named, q.1 < q.2

theorem place_wf (p : Place) : p.wf = true ↔ ∀ q ∈ p.named, q.1 < q.2 := by
  cases p <;> simp [Place.wf, Place.named, and_assoc]

/-- Every command, by cases on it. -/
theorem all (i : Instr) : Statement i := by
  cases i <;>
    first
    | exact place_wf _
    | simp [Statement, Instr.wf, Instr.named, and_assoc]

theorem registerWrite (link : Nat) (offset : Nat) (size : Nat) (value : BitVec 64) : Statement (.registerWrite link offset size value) := all _
theorem main48vRise : Statement (.main48vRise) := all _
theorem startStepDone (failing : List Nat) : Statement (.startStepDone failing) := all _
theorem warmStartHoldEnd : Statement (.warmStartHoldEnd) := all _
theorem phGo (slot : Nat) : Statement (.phGo slot) := all _
theorem requestBegin (core : Nat) : Statement (.requestBegin core) := all _
theorem phDoneClear (slot : Nat) : Statement (.phDoneClear slot) := all _
theorem eventPost (slot : Nat) : Statement (.eventPost slot) := all _
theorem hello (slot : Nat) : Statement (.hello slot) := all _
theorem features (slot : Nat) : Statement (.features slot) := all _
theorem moduleStatus (slot : Nat) : Statement (.moduleStatus slot) := all _
theorem moduleRestart (slot : Nat) : Statement (.moduleRestart slot) := all _
theorem restartDelayExpire : Statement (.restartDelayExpire) := all _
theorem coldRestart (value : BitVec 32) : Statement (.coldRestart value) := all _
theorem fwStage (slot : Nat) : Statement (.fwStage slot) := all _
theorem fwStageDone : Statement (.fwStageDone) := all _
theorem fwActivate (slot : Nat) : Statement (.fwActivate slot) := all _
theorem activationStart : Statement (.activationStart) := all _
theorem coreSwapDone (core : Nat) : Statement (.coreSwapDone core) := all _
theorem hearthSwapStart : Statement (.hearthSwapStart) := all _
theorem swapTimeout (core : Nat) : Statement (.swapTimeout core) := all _
theorem watchdogExpire (core : Nat) : Statement (.watchdogExpire core) := all _
theorem coreRestartDone (core : Nat) : Statement (.coreRestartDone core) := all _
theorem coreRestartTimeout (core : Nat) : Statement (.coreRestartTimeout core) := all _
theorem recordWriteDone : Statement (.recordWriteDone) := all _
theorem resultProduced (tile : Nat) : Statement (.resultProduced tile) := all _
theorem restPointReached (tile : Nat) : Statement (.restPointReached tile) := all _
theorem retirementBegin (cluster : Nat) : Statement (.retirementBegin cluster) := all _
theorem imageMoveDone (cluster : Nat) : Statement (.imageMoveDone cluster) := all _
theorem tileRetire (slot : Nat) : Statement (.tileRetire slot) := all _
theorem jobLaunch (slot : Nat) : Statement (.jobLaunch slot) := all _
theorem epochJobStart : Statement (.epochJobStart) := all _
theorem jobEnd (slot : Nat) : Statement (.jobEnd slot) := all _
theorem add (p : Place) (rd : BitVec 6) (ra : BitVec 6) (rb : BitVec 6) : Statement (.add p rd ra rb) := all _
theorem addi (p : Place) (rd : BitVec 6) (ra : BitVec 6) (imm : BitVec 14) : Statement (.addi p rd ra imm) := all _
theorem sub (p : Place) (rd : BitVec 6) (ra : BitVec 6) (rb : BitVec 6) : Statement (.sub p rd ra rb) := all _
theorem andOp (p : Place) (rd : BitVec 6) (ra : BitVec 6) (rb : BitVec 6) : Statement (.andOp p rd ra rb) := all _
theorem orOp (p : Place) (rd : BitVec 6) (ra : BitVec 6) (rb : BitVec 6) : Statement (.orOp p rd ra rb) := all _
theorem xor (p : Place) (rd : BitVec 6) (ra : BitVec 6) (rb : BitVec 6) : Statement (.xor p rd ra rb) := all _
theorem shl (p : Place) (rd : BitVec 6) (ra : BitVec 6) (imm : BitVec 14) : Statement (.shl p rd ra imm) := all _
theorem shr (p : Place) (rd : BitVec 6) (ra : BitVec 6) (imm : BitVec 14) : Statement (.shr p rd ra imm) := all _
theorem sar (p : Place) (rd : BitVec 6) (ra : BitVec 6) (imm : BitVec 14) : Statement (.sar p rd ra imm) := all _
theorem cmplt (p : Place) (rd : BitVec 6) (ra : BitVec 6) (rb : BitVec 6) : Statement (.cmplt p rd ra rb) := all _
theorem cmpeq (p : Place) (rd : BitVec 6) (ra : BitVec 6) (rb : BitVec 6) : Statement (.cmpeq p rd ra rb) := all _
theorem min (p : Place) (rd : BitVec 6) (ra : BitVec 6) (rb : BitVec 6) : Statement (.min p rd ra rb) := all _
theorem max (p : Place) (rd : BitVec 6) (ra : BitVec 6) (rb : BitVec 6) : Statement (.max p rd ra rb) := all _
theorem mul (p : Place) (rd : BitVec 6) (ra : BitVec 6) (rb : BitVec 6) : Statement (.mul p rd ra rb) := all _
theorem div (p : Place) (rd : BitVec 6) (ra : BitVec 6) (rb : BitVec 6) : Statement (.div p rd ra rb) := all _
theorem rem (p : Place) (rd : BitVec 6) (ra : BitVec 6) (rb : BitVec 6) : Statement (.rem p rd ra rb) := all _
theorem fadd (p : Place) (rd : BitVec 6) (ra : BitVec 6) (rb : BitVec 6) : Statement (.fadd p rd ra rb) := all _
theorem fsub (p : Place) (rd : BitVec 6) (ra : BitVec 6) (rb : BitVec 6) : Statement (.fsub p rd ra rb) := all _
theorem fmul (p : Place) (rd : BitVec 6) (ra : BitVec 6) (rb : BitVec 6) : Statement (.fmul p rd ra rb) := all _
theorem ffma (p : Place) (rd : BitVec 6) (ra : BitVec 6) (rb : BitVec 6) : Statement (.ffma p rd ra rb) := all _
theorem fmax (p : Place) (rd : BitVec 6) (ra : BitVec 6) (rb : BitVec 6) : Statement (.fmax p rd ra rb) := all _
theorem fmin (p : Place) (rd : BitVec 6) (ra : BitVec 6) (rb : BitVec 6) : Statement (.fmin p rd ra rb) := all _
theorem itof (p : Place) (rd : BitVec 6) (ra : BitVec 6) : Statement (.itof p rd ra) := all _
theorem ftoi (p : Place) (rd : BitVec 6) (ra : BitVec 6) : Statement (.ftoi p rd ra) := all _
theorem mov (p : Place) (rd : BitVec 6) (ra : BitVec 6) : Statement (.mov p rd ra) := all _
theorem tagof (p : Place) (rd : BitVec 6) (ra : BitVec 6) : Statement (.tagof p rd ra) := all _
theorem retag (p : Place) (rd : BitVec 6) (ra : BitVec 6) (imm : BitVec 14) : Statement (.retag p rd ra imm) := all _
theorem sld (p : Place) (rd : BitVec 6) (ra : BitVec 6) (imm : BitVec 14) : Statement (.sld p rd ra imm) := all _
theorem sst (p : Place) (ra : BitVec 6) (rb : BitVec 6) (imm : BitVec 14) : Statement (.sst p ra rb imm) := all _
theorem markp (p : Place) (ra : BitVec 6) (imm : BitVec 14) : Statement (.markp p ra imm) := all _
theorem wait (p : Place) (ra : BitVec 6) (imm : BitVec 14) : Statement (.wait p ra imm) := all _
theorem br (p : Place) (imm : BitVec 14) : Statement (.br p imm) := all _
theorem bz (p : Place) (ra : BitVec 6) (imm : BitVec 14) : Statement (.bz p ra imm) := all _
theorem bnz (p : Place) (ra : BitVec 6) (imm : BitVec 14) : Statement (.bnz p ra imm) := all _
theorem call (p : Place) (rd : BitVec 6) (imm : BitVec 14) : Statement (.call p rd imm) := all _
theorem jmp (p : Place) (ra : BitVec 6) : Statement (.jmp p ra) := all _
theorem repi (p : Place) (ra : BitVec 6) : Statement (.repi p ra) := all _
theorem repx (p : Place) (imm : BitVec 14) : Statement (.repx p imm) := all _
theorem step (p : Place) : Statement (.step p) := all _
theorem endOp (p : Place) : Statement (.endOp p) := all _
theorem seth (p : Place) (ra : BitVec 6) : Statement (.seth p ra) := all _
theorem rte (p : Place) : Statement (.rte p) := all _
theorem brk (p : Place) (imm : BitVec 14) : Statement (.brk p imm) := all _
theorem rdt (p : Place) (rd : BitVec 6) (imm : BitVec 14) : Statement (.rdt p rd imm) := all _
theorem ldi (p : Place) (rd : BitVec 6) (tag : BitVec 4) (value : BitVec 64) : Statement (.ldi p rd tag value) := all _
theorem dget (p : Place) (rd : BitVec 6) (dk : BitVec 4) (w : BitVec 2) : Statement (.dget p rd dk w) := all _
theorem dput (p : Place) (dk : BitVec 4) (w : BitVec 2) (rb : BitVec 6) : Statement (.dput p dk w rb) := all _
theorem dld (p : Place) (dk : BitVec 4) (ra : BitVec 6) (imm : BitVec 14) : Statement (.dld p dk ra imm) := all _
theorem dst (p : Place) (dk : BitVec 4) (ra : BitVec 6) (imm : BitVec 14) : Statement (.dst p dk ra imm) := all _
theorem pget (p : Place) (rd : BitVec 6) (pk : BitVec 3) : Statement (.pget p rd pk) := all _
theorem pput (p : Place) (pk : BitVec 3) (ra : BitVec 6) : Statement (.pput p pk ra) := all _
theorem sld4 (p : Place) (rd : BitVec 6) (ra : BitVec 6) (imm : BitVec 14) : Statement (.sld4 p rd ra imm) := all _
theorem sst4 (p : Place) (ra : BitVec 6) (rb : BitVec 6) (imm : BitVec 14) : Statement (.sst4 p ra rb imm) := all _
theorem wfi (p : Place) : Statement (.wfi p) := all _
theorem vadd (p : Place) (vd : BitVec 5) (va : BitVec 5) (vb : BitVec 5) (pr : BitVec 3) (pz : Bool) : Statement (.vadd p vd va vb pr pz) := all _
theorem vsub (p : Place) (vd : BitVec 5) (va : BitVec 5) (vb : BitVec 5) (pr : BitVec 3) (pz : Bool) : Statement (.vsub p vd va vb pr pz) := all _
theorem vmul (p : Place) (vd : BitVec 5) (va : BitVec 5) (vb : BitVec 5) (pr : BitVec 3) (pz : Bool) : Statement (.vmul p vd va vb pr pz) := all _
theorem vfma (p : Place) (vd : BitVec 5) (va : BitVec 5) (vb : BitVec 5) (vc : BitVec 5) (pr : BitVec 3) (pz : Bool) : Statement (.vfma p vd va vb vc pr pz) := all _
theorem vmax (p : Place) (vd : BitVec 5) (va : BitVec 5) (vb : BitVec 5) (pr : BitVec 3) (pz : Bool) : Statement (.vmax p vd va vb pr pz) := all _
theorem vmin (p : Place) (vd : BitVec 5) (va : BitVec 5) (vb : BitVec 5) (pr : BitVec 3) (pz : Bool) : Statement (.vmin p vd va vb pr pz) := all _
theorem vsel (p : Place) (vd : BitVec 5) (va : BitVec 5) (vb : BitVec 5) (pr : BitVec 3) : Statement (.vsel p vd va vb pr) := all _
theorem vadds (p : Place) (vd : BitVec 5) (va : BitVec 5) (sb : BitVec 6) (pr : BitVec 3) (pz : Bool) : Statement (.vadds p vd va sb pr pz) := all _
theorem vmuls (p : Place) (vd : BitVec 5) (va : BitVec 5) (sb : BitVec 6) (pr : BitVec 3) (pz : Bool) : Statement (.vmuls p vd va sb pr pz) := all _
theorem vbcast (p : Place) (vd : BitVec 5) (sb : BitVec 6) (pr : BitVec 3) (pz : Bool) : Statement (.vbcast p vd sb pr pz) := all _
theorem vcmplt (p : Place) (pd : BitVec 3) (va : BitVec 5) (vb : BitVec 5) (pr : BitVec 3) : Statement (.vcmplt p pd va vb pr) := all _
theorem vcmpeq (p : Place) (pd : BitVec 3) (va : BitVec 5) (vb : BitVec 5) (pr : BitVec 3) : Statement (.vcmpeq p pd va vb pr) := all _
theorem vrmax32 (p : Place) (vd : BitVec 5) (va : BitVec 5) (pr : BitVec 3) (pz : Bool) : Statement (.vrmax32 p vd va pr pz) := all _
theorem vrsum32 (p : Place) (vd : BitVec 5) (va : BitVec 5) (pr : BitVec 3) (pz : Bool) : Statement (.vrsum32 p vd va pr pz) := all _
theorem vfn (p : Place) (vd : BitVec 5) (va : BitVec 5) (fn : BitVec 5) (pr : BitVec 3) (pz : Bool) : Statement (.vfn p vd va fn pr pz) := all _
theorem mma (p : Place) (da : BitVec 4) (db : BitVec 4) : Statement (.mma p da db) := all _
theorem mmacI (p : Place) (da : BitVec 4) (db : BitVec 4) (anchor : BitVec 11) : Statement (.mmacI p da db anchor) := all _
theorem mmacR (p : Place) (da : BitVec 4) (db : BitVec 4) (sr : BitVec 6) : Statement (.mmacR p da db sr) := all _
theorem mmacA (p : Place) (da : BitVec 4) (db : BitVec 4) : Statement (.mmacA p da db) := all _
theorem tclr (p : Place) (anchor : BitVec 11) : Statement (.tclr p anchor) := all _
theorem tget (p : Place) (da : BitVec 4) (t : BitVec 6) : Statement (.tget p da t) := all _
theorem vld (p : Place) (vr : BitVec 5) (dk : BitVec 4) : Statement (.vld p vr dk) := all _
theorem vst (p : Place) (vr : BitVec 5) (dk : BitVec 4) : Statement (.vst p vr dk) := all _
theorem vstmx (p : Place) (vr : BitVec 5) (dk : BitVec 4) (n : BitVec 8) : Statement (.vstmx p vr dk n) := all _
theorem trd (p : Place) (g : BitVec 3) (bf16 : Bool) (vr : BitVec 5) (lb : BitVec 3) : Statement (.trd p g bf16 vr lb) := all _
theorem tput (p : Place) (t : BitVec 6) (dk : BitVec 4) : Statement (.tput p t dk) := all _
theorem txmx (p : Place) (dk : BitVec 4) (h : BitVec 1) : Statement (.txmx p dk h) := all _
theorem put (p : Place) (dk : BitVec 4) (sr : BitVec 6) (n : BitVec 8) : Statement (.put p dk sr n) := all _
theorem get (p : Place) (dk : BitVec 4) (sr : BitVec 6) (n : BitVec 8) : Statement (.get p dk sr n) := all _
theorem astream (p : Place) (dk : BitVec 4) (sr : BitVec 6) : Statement (.astream p dk sr) := all _
theorem packetHop (tile : Nat) (port : Dir) : Statement (.packetHop tile port) := all _
theorem putArrive (tile : Nat) : Statement (.putArrive tile) := all _
theorem getReqArrive (tile : Nat) : Statement (.getReqArrive tile) := all _
theorem getReplyArrive (tile : Nat) : Statement (.getReplyArrive tile) := all _
theorem ackArrive (tile : Nat) : Statement (.ackArrive tile) := all _
theorem ackTimerExpire (tile : Nat) (source : Nat) : Statement (.ackTimerExpire tile source) := all _
theorem tmaxUpArrive (tile : Nat) : Statement (.tmaxUpArrive tile) := all _
theorem tmaxDownArrive (tile : Nat) : Statement (.tmaxDownArrive tile) := all _
theorem fndRdArrive (pkt : Packet) : Statement (.fndRdArrive pkt) := all _
theorem fndWrArrive (pkt : Packet) : Statement (.fndWrArrive pkt) := all _
theorem fndReplyArrive (tile : Nat) : Statement (.fndReplyArrive tile) := all _
theorem imageArrive (tile : Nat) : Statement (.imageArrive tile) := all _
theorem ctrlArrive (tile : Nat) : Statement (.ctrlArrive tile) := all _
theorem flitCrcFail (tile : Nat) (side : Dir) (flit : Nat) : Statement (.flitCrcFail tile side flit) := all _
theorem ageTick : Statement (.ageTick) := all _
theorem astreamStreamDone (tile : Nat) : Statement (.astreamStreamDone tile) := all _
theorem astreamAppendDone (tile : Nat) : Statement (.astreamAppendDone tile) := all _
theorem stepBarrierComplete (guest : Nat) : Statement (.stepBarrierComplete guest) := all _
theorem barrierRelease (guest : Nat) : Statement (.barrierRelease guest) := all _
theorem runMoveDone (ledger : Nat) (span : Nat) : Statement (.runMoveDone ledger span) := all _
theorem ledgerPool (slot : Nat) : Statement (.ledgerPool slot) := all _
theorem ledgerCreate (slot : Nat) : Statement (.ledgerCreate slot) := all _
theorem ledgerDelete (slot : Nat) : Statement (.ledgerDelete slot) := all _
theorem ledgerMove (slot : Nat) : Statement (.ledgerMove slot) := all _
theorem ledgerQuery (slot : Nat) : Statement (.ledgerQuery slot) := all _
theorem ledgerIdle (slot : Nat) : Statement (.ledgerIdle slot) := all _
theorem ledgerExport (slot : Nat) : Statement (.ledgerExport slot) := all _
theorem ledgerExportDone (ledger : Nat) : Statement (.ledgerExportDone ledger) := all _
theorem ledgerImport (slot : Nat) : Statement (.ledgerImport slot) := all _
theorem ledgerImportDone (guest : Nat) : Statement (.ledgerImportDone guest) := all _
theorem drawDone (tile : Nat) : Statement (.drawDone tile) := all _
theorem passportDigest (slot : Nat) : Statement (.passportDigest slot) := all _
theorem digestDone (guest : Nat) (digestSlot : Nat) : Statement (.digestDone guest digestSlot) := all _
theorem passportSeal (slot : Nat) : Statement (.passportSeal slot) := all _
theorem sealDone (guest : Nat) : Statement (.sealDone guest) := all _
theorem rtmLimitExpire (job : Nat) : Statement (.rtmLimitExpire job) := all _
theorem refresh (stack : Nat) (pc : Nat) : Statement (.refresh stack pc) := all _
theorem scrubLine (stack : Nat) : Statement (.scrubLine stack) := all _
theorem mergeTimeout (stack : Nat) (line : Nat) : Statement (.mergeTimeout stack line) := all _
theorem memRetirePc (slot : Nat) : Statement (.memRetirePc slot) := all _
theorem pcRetireDone : Statement (.pcRetireDone) := all _
theorem cellarFillDone (port : Nat) (region : Nat) : Statement (.cellarFillDone port region) := all _
theorem cellarRelease (slot : Nat) : Statement (.cellarRelease slot) := all _
theorem evacuationDone (port : Nat) : Statement (.evacuationDone port) := all _
theorem cellarMediaEvent (port : Nat) (address : Nat) : Statement (.cellarMediaEvent port address) := all _
theorem configAccess (link : Nat) (write : Bool) (offset : Nat) (size : Nat) (value : BitVec 32) : Statement (.configAccess link write offset size value) := all _
theorem bar4Access (link : Nat) (write : Bool) (offset : Nat) (length : Nat) (bytes : List Byte) : Statement (.bar4Access link write offset length bytes) := all _
theorem completionArrive (link : Nat) (tag : Nat) (status : CplStatus) (bytes : List Byte) : Statement (.completionArrive link tag status bytes) := all _
theorem completionTimeout (link : Nat) (tag : Nat) : Statement (.completionTimeout link tag) := all _
theorem quarantineExpire (link : Nat) (tag : Nat) : Statement (.quarantineExpire link tag) := all _
theorem linkReset (link : Nat) (down : Bool) : Statement (.linkReset link down) := all _
theorem slotPresenceChange (port : Nat) (present : Bool) : Statement (.slotPresenceChange port present) := all _
theorem slotButtonPress (port : Nat) : Statement (.slotButtonPress port) := all _
theorem slotButtonTimeout (port : Nat) : Statement (.slotButtonTimeout port) := all _
theorem slotPowerGood (port : Nat) : Statement (.slotPowerGood port) := all _
theorem slotPerstRelease (port : Nat) : Statement (.slotPerstRelease port) := all _
theorem slotLinkUp (port : Nat) (speed : Nat) (width : Nat) : Statement (.slotLinkUp port speed width) := all _
theorem slotEnumerated (port : Nat) (capacity : Nat) : Statement (.slotEnumerated port capacity) := all _
theorem slotPowerTimeout (port : Nat) : Statement (.slotPowerTimeout port) := all _
theorem slotPowerFault (port : Nat) : Statement (.slotPowerFault port) := all _
theorem freezeTrigger (port : Nat) (cause : Nat) : Statement (.freezeTrigger port cause) := all _
theorem peerRequest (port : Nat) (write : Bool) (address : Nat) (length : Nat) (bytes : List Byte) : Statement (.peerRequest port write address length bytes) := all _
theorem windowCommit (port : Nat) : Statement (.windowCommit port) := all _
theorem windowSwap (port : Nat) : Statement (.windowSwap port) := all _
theorem portConfig (slot : Nat) : Statement (.portConfig slot) := all _
theorem slotControl (slot : Nat) : Statement (.slotControl slot) := all _
theorem portRelease (slot : Nat) : Statement (.portRelease slot) := all _
theorem overlaySet (slot : Nat) : Statement (.overlaySet slot) := all _
theorem overlayWriteDone : Statement (.overlayWriteDone) := all _
theorem guestCreate (slot : Nat) : Statement (.guestCreate slot) := all _
theorem guestDestroy (slot : Nat) : Statement (.guestDestroy slot) := all _
theorem guestDestroyDone (guest : Nat) : Statement (.guestDestroyDone guest) := all _
theorem guestGrant (slot : Nat) : Statement (.guestGrant slot) := all _
theorem guestRevoke (slot : Nat) : Statement (.guestRevoke slot) := all _
theorem guestRevokeDone (guest : Nat) : Statement (.guestRevokeDone guest) := all _
theorem sqTail (page : Page) (queue : Nat) (value : BitVec 32) : Statement (.sqTail page queue value) := all _
theorem cqHead (page : Page) (queue : Nat) (value : BitVec 32) : Statement (.cqHead page queue value) := all _
theorem courierDb (page : Page) (value : BitVec 64) : Statement (.courierDb page value) := all _
theorem parlourRing (page : Page) : Statement (.parlourRing page) := all _
theorem parlourWindowAccess (page : Page) (write : Bool) (offset : Nat) (length : Nat) (bytes : List Byte) : Statement (.parlourWindowAccess page write offset length bytes) := all _
theorem guestRing (guest : Nat) : Statement (.guestRing guest) := all _
theorem logStart (slot : Nat) : Statement (.logStart slot) := all _
theorem logFence (slot : Nat) : Statement (.logFence slot) := all _
theorem logStop (slot : Nat) : Statement (.logStop slot) := all _
theorem logFenceDone (guest : Nat) : Statement (.logFenceDone guest) := all _
theorem sqFetch : Statement (.sqFetch) := all _
theorem cqPost (pair : Nat) : Statement (.cqPost pair) := all _
theorem getLogPage (pair : Nat) (cid : Nat) : Statement (.getLogPage pair cid) := all _
theorem identify (pair : Nat) (cid : Nat) : Statement (.identify pair cid) := all _
theorem abort (pair : Nat) (cid : Nat) : Statement (.abort pair cid) := all _
theorem setFeatures (pair : Nat) (cid : Nat) : Statement (.setFeatures pair cid) := all _
theorem getFeatures (pair : Nat) (cid : Nat) : Statement (.getFeatures pair cid) := all _
theorem asynchronousEventRequest (pair : Nat) (cid : Nat) : Statement (.asynchronousEventRequest pair cid) := all _
theorem flush (pair : Nat) (cid : Nat) : Statement (.flush pair cid) := all _
theorem write (pair : Nat) (cid : Nat) : Statement (.write pair cid) := all _
theorem read (pair : Nat) (cid : Nat) : Statement (.read pair cid) := all _
theorem writeZeroes (pair : Nat) (cid : Nat) : Statement (.writeZeroes pair cid) := all _
theorem datasetManagement (pair : Nat) (cid : Nat) : Statement (.datasetManagement pair cid) := all _
theorem backingComplete (pair : Nat) (cid : Nat) (part : Nat) (sct : Nat) (sc : Nat) (dnr : Bool) (bytes : List Byte) : Statement (.backingComplete pair cid part sct sc dnr bytes) := all _
theorem backingTimeout (pair : Nat) (cid : Nat) (part : Nat) : Statement (.backingTimeout pair cid part) := all _
theorem storageNsCreate (slot : Nat) : Statement (.storageNsCreate slot) := all _
theorem storageNsDelete (slot : Nat) : Statement (.storageNsDelete slot) := all _
theorem nsDeleteDone (guest : Nat) (nsid : Nat) : Statement (.nsDeleteDone guest nsid) := all _
theorem storageQueueCreate (slot : Nat) : Statement (.storageQueueCreate slot) := all _
theorem storageQueueDelete (slot : Nat) : Statement (.storageQueueDelete slot) := all _
theorem queueDeleteDone (pair : Nat) : Statement (.queueDeleteDone pair) := all _
theorem frameReceive (port : Nat) (fcsOk : Bool) (frame : List Byte) : Statement (.frameReceive port fcsOk frame) := all _
theorem courierPacketReceive (port : Nat) (sumOk : Bool) (ce : Bool) (packet : List Byte) : Statement (.courierPacketReceive port sumOk ce packet) := all _
theorem courierAckReceive (port : Nat) (sumOk : Bool) (ce : Bool) (packet : List Byte) : Statement (.courierAckReceive port sumOk ce packet) := all _
theorem courierNackReceive (port : Nat) (sumOk : Bool) (ce : Bool) (packet : List Byte) : Statement (.courierNackReceive port sumOk ce packet) := all _
theorem courierRtoExpire (conn : Nat) (msn : Nat) : Statement (.courierRtoExpire conn msn) := all _
theorem wrFetch (conn : Nat) (recv : Bool) : Statement (.wrFetch conn recv) := all _
theorem courierRequestStart (conn : Nat) : Statement (.courierRequestStart conn) := all _
theorem frameRxTail (ring : Nat) (value : BitVec 32) : Statement (.frameRxTail ring value) := all _
theorem frameTxTail (ring : Nat) (value : BitVec 32) : Statement (.frameTxTail ring value) := all _
theorem ruleCommit (value : BitVec 32) : Statement (.ruleCommit value) := all _
theorem netConfig (slot : Nat) : Statement (.netConfig slot) := all _
theorem netPortSet (slot : Nat) : Statement (.netPortSet slot) := all _
theorem netProfile (slot : Nat) : Statement (.netProfile slot) := all _
theorem netRing (slot : Nat) : Statement (.netRing slot) := all _
theorem netTime (slot : Nat) : Statement (.netTime slot) := all _
theorem netLinkChange (port : Nat) (up : Bool) : Statement (.netLinkChange port up) := all _
theorem courierKey (slot : Nat) : Statement (.courierKey slot) := all _
theorem courierOpen (slot : Nat) : Statement (.courierOpen slot) := all _
theorem courierClose (slot : Nat) : Statement (.courierClose slot) := all _
theorem egressEnqueue (port : Nat) (index : Nat) : Statement (.egressEnqueue port index) := all _
theorem schedulerDecide (port : Nat) : Statement (.schedulerDecide port) := all _
theorem tokenUpdate : Statement (.tokenUpdate) := all _
theorem gateEntryAdvance (port : Nat) : Statement (.gateEntryAdvance port) := all _
theorem timetableSlotStart (port : Nat) : Statement (.timetableSlotStart port) := all _
theorem scheduleSwitch (port : Nat) (gates : Bool) : Statement (.scheduleSwitch port gates) := all _
theorem queueSample : Statement (.queueSample) := all _
theorem trafficQueue (slot : Nat) : Statement (.trafficQueue slot) := all _
theorem trafficPort (slot : Nat) : Statement (.trafficPort slot) := all _
theorem trafficTimetable (slot : Nat) : Statement (.trafficTimetable slot) := all _
theorem trafficGates (slot : Nat) : Statement (.trafficGates slot) := all _
theorem keyIdentity (slot : Nat) : Statement (.keyIdentity slot) := all _
theorem kekInstall (slot : Nat) : Statement (.kekInstall slot) := all _
theorem keyLoad (slot : Nat) : Statement (.keyLoad slot) := all _
theorem keyClear (slot : Nat) : Statement (.keyClear slot) := all _
theorem keyClearDone (slot : Nat) : Statement (.keyClearDone slot) := all _
theorem keyFetchDone (engine : Nat) : Statement (.keyFetchDone engine) := all _
theorem cipherRun (slot : Nat) : Statement (.cipherRun slot) := all _
theorem cipherRunDone (engine : Nat) : Statement (.cipherRunDone engine) := all _
theorem cipherBlockDone (engine : Nat) : Statement (.cipherBlockDone engine) := all _
theorem alarm (cause : Nat) : Statement (.alarm cause) := all _
theorem alarmRezeroise (cause : Nat) : Statement (.alarmRezeroise cause) := all _
theorem ckptConfig (slot : Nat) : Statement (.ckptConfig slot) := all _
theorem ckptStart (slot : Nat) : Statement (.ckptStart slot) := all _
theorem ckptQuiet (job : Nat) : Statement (.ckptQuiet job) := all _
theorem ckptQuietTimeout (job : Nat) : Statement (.ckptQuietTimeout job) := all _
theorem ckptCapture (slot : Nat) : Statement (.ckptCapture slot) := all _
theorem ckptCaptured (job : Nat) : Statement (.ckptCaptured job) := all _
theorem ckptPageCopy (job : Nat) : Statement (.ckptPageCopy job) := all _
theorem copyAhead (job : Nat) (page : Nat) : Statement (.copyAhead job page) := all _
theorem ckptSaveComplete (job : Nat) : Statement (.ckptSaveComplete job) := all _
theorem ckptRestore (slot : Nat) : Statement (.ckptRestore slot) := all _
theorem ckptRestoreDone (guest : Nat) : Statement (.ckptRestoreDone guest) := all _
theorem ckptDrain (slot : Nat) : Statement (.ckptDrain slot) := all _
theorem ckptDrainDone (guest : Nat) : Statement (.ckptDrainDone guest) := all _
theorem shedStageEnter (stage : Nat) : Statement (.shedStageEnter stage) := all _
theorem shedStageLeave (stage : Nat) : Statement (.shedStageLeave stage) := all _
theorem mainOvervoltage : Statement (.mainOvervoltage) := all _
theorem mainRecover : Statement (.mainRecover) := all _
theorem auxLoss : Statement (.auxLoss) := all _
theorem auxApply : Statement (.auxApply) := all _
theorem hearthLoop (averageWatts : Nat) : Statement (.hearthLoop averageWatts) := all _
theorem thermalThrottle (sensor : Nat) : Statement (.thermalThrottle sensor) := all _
theorem thermalTrip (sensor : Nat) : Statement (.thermalTrip sensor) := all _
theorem thermalClear (trip : Bool) : Statement (.thermalClear trip) := all _
theorem divisorChange : Statement (.divisorChange) := all _
theorem refclkFail (stopped : Bool) : Statement (.refclkFail stopped) := all _
theorem pllLockTimeout : Statement (.pllLockTimeout) := all _
theorem pllLockHeld : Statement (.pllLockHeld) := all _
theorem aonReturn : Statement (.aonReturn) := all _
theorem crossingFallback (crossing : Nat) : Statement (.crossingFallback crossing) := all _
theorem crossingResync (crossing : Nat) : Statement (.crossingResync crossing) := all _
theorem powerProfile (slot : Nat) : Statement (.powerProfile slot) := all _
theorem ficSourceFire (core : Nat) (source : Nat) : Statement (.ficSourceFire core source) := all _
theorem ficTick : Statement (.ficTick) := all _
theorem ficClaim (core : Nat) : Statement (.ficClaim core) := all _
theorem ficComplete (core : Nat) (source : Nat) : Statement (.ficComplete core source) := all _
theorem ficInterruptTake (core : Nat) : Statement (.ficInterruptTake core) := all _
theorem imsWrite (vector : Nat) (offset : Nat) (size : Nat) (value : BitVec 64) : Statement (.imsWrite vector offset size value) := all _
theorem holdoffExpire (group : Nat) : Statement (.holdoffExpire group) := all _
theorem l1ExitDone (link : Nat) : Statement (.l1ExitDone link) := all _
theorem pmeRepeat (link : Nat) : Statement (.pmeRepeat link) := all _
theorem sensorSample (mainTenMv : BitVec 16) (auxMv : BitVec 16) (watts : BitVec 16) (temps : List (BitVec 16)) : Statement (.sensorSample mainTenMv auxMv watts temps) := all _
theorem teleQueueBatch : Statement (.teleQueueBatch) := all _
theorem teleSensorBatch : Statement (.teleSensorBatch) := all _
theorem teleRing (slot : Nat) : Statement (.teleRing slot) := all _
theorem moduleButtonPress : Statement (.moduleButtonPress) := all _
theorem locateBlinkExpire : Statement (.locateBlinkExpire) := all _
theorem flashRelease (slot : Nat) : Statement (.flashRelease slot) := all _
theorem flashPresence (device : Nat) : Statement (.flashPresence device) := all _
theorem flashFillDone (device : Nat) (copied : Bool) : Statement (.flashFillDone device copied) := all _
theorem flashRemoved (device : Nat) : Statement (.flashRemoved device) := all _
theorem serviceLocate (slot : Nat) : Statement (.serviceLocate slot) := all _
theorem unsupportedHostRequest (link : Nat) (request : BadRequest) : Statement (.unsupportedHostRequest link request) := all _
theorem upstreamLinkUp (link : Nat) (speed : Nat) (width : Nat) : Statement (.upstreamLinkUp link speed width) := all _
theorem aspmL1Entry (link : Nat) : Statement (.aspmL1Entry link) := all _
theorem alarmCauseClear (cause : Nat) : Statement (.alarmCauseClear cause) := all _
theorem mainHighChange (high : Bool) : Statement (.mainHighChange high) := all _
theorem pllLockAcquired : Statement (.pllLockAcquired) := all _

end Sys2Proof.Laws.RangesChecked
end

