-- ==== Sys2Proof/Tests/Slice0.lean ====
section
/-! SUPPORT. Tests of single steps on small states: the ill-formed terms that WellFormed refuses, and for each statement states and
operands that meet its hypotheses. -/

namespace Sys2Proof.Tests
open Sys2Proof Sys2Proof.Machine Sys2Proof.Claims

/-! ## Small states -/

/-- A scalar slot, a vector slot, a matrix slot and a move slot from their fields (R170, R172, R176, R177), and a bundle from its slots (R159). -/
def sWord (op : Nat) (rd ra rb : Nat := 0) (imm : Nat := 0) : Nat := op + rd * 2 ^ 8 + ra * 2 ^ 14 + rb * 2 ^ 20 + imm * 2 ^ 26
def vWord (op : Nat) (vd va b : Nat := 0) (vc pr : Nat := 0) : Nat := op + vd * 2 ^ 6 + va * 2 ^ 11 + b * 2 ^ 16 + vc * 2 ^ 22 + pr * 2 ^ 27
def mWord (op : Nat) (da db arg : Nat := 0) : Nat := op + da * 2 ^ 5 + db * 2 ^ 9 + arg * 2 ^ 13
def xWord (op : Nat) (dk vr sr n : Nat := 0) : Nat := op + dk * 2 ^ 5 + vr * 2 ^ 9 + sr * 2 ^ 14 + n * 2 ^ 20
def bWord (s : Nat) (v m x : Nat := 0) : Nat := s * 2 ^ 4 + v * 2 ^ 44 + m * 2 ^ 76 + x * 2 ^ 100
/-- The two words of a bundle at offset 0. -/
def bundleAt0 (w : Nat) : FMap TWord := [(0, { tag := .pack, data := BitVec.ofNat 64 w }), (1, { tag := .pack, data := BitVec.ofNat 64 (w / 2 ^ 64) })]
/-- Context 0 of logical tile (0, 0), about to issue a bundle at offset 0 of its store. -/
def onTile (w : Nat) (c : Ctx := {}) (words : FMap TWord := []) : State :=
  { State.reset with tiles := [(0, { words := bundleAt0 w ++ words, ctxs := [(0, { c with assigned := true, ready := true })] })] }
/-- Core 0, about to issue a bundle at offset 0 of its SRAM. -/
def onCore (w : Nat) (c : Ctx := {}) (words : FMap TWord := []) : State :=
  { State.reset with firm := { State.reset.firm with cores := [(0, { sram := bundleAt0 w ++ words, ctx := { c with assigned := true, ready := true } })] } }
def intW (n : Nat) : TWord := { tag := .int, data := BitVec.ofNat 64 n }
def addrW (n : Nat) : TWord := { tag := .addr, data := BitVec.ofNat 64 n }

/-! ## Ill-formed terms, one for each check of WellFormed -/

set_option maxRecDepth 20000 in
theorem test_ill_formed_1 : ([
    .add (.tile 0 68 0) 0 0 0, .add (.tile 0 0 8) 0 0 0, .add (.core 19) 0 0 0, .registerWrite 2 0 0 0,
    .phGo 32, .requestBegin 19, .phDoneClear 32, .eventPost 32,
    .hello 32, .features 32, .moduleStatus 32, .moduleRestart 32,
    .fwStage 32, .fwActivate 32, .coreSwapDone 19, .swapTimeout 19,
    .watchdogExpire 19, .coreRestartDone 19, .coreRestartTimeout 19, .resultProduced 4608,
    .restPointReached 4608, .retirementBegin 16, .imageMoveDone 16, .tileRetire 32] : List Instr).all (fun i => !i.wf) = true := by decide

set_option maxRecDepth 20000 in
theorem test_ill_formed_2 : ([
    .jobLaunch 32, .jobEnd 32, .add (.tile 64 0 0) 0 0 0, .addi (.tile 64 0 0) 0 0 0,
    .sub (.tile 64 0 0) 0 0 0, .andOp (.tile 64 0 0) 0 0 0, .orOp (.tile 64 0 0) 0 0 0, .xor (.tile 64 0 0) 0 0 0,
    .shl (.tile 64 0 0) 0 0 0, .shr (.tile 64 0 0) 0 0 0, .sar (.tile 64 0 0) 0 0 0, .cmplt (.tile 64 0 0) 0 0 0,
    .cmpeq (.tile 64 0 0) 0 0 0, .min (.tile 64 0 0) 0 0 0, .max (.tile 64 0 0) 0 0 0, .mul (.tile 64 0 0) 0 0 0,
    .div (.tile 64 0 0) 0 0 0, .rem (.tile 64 0 0) 0 0 0, .fadd (.tile 64 0 0) 0 0 0, .fsub (.tile 64 0 0) 0 0 0,
    .fmul (.tile 64 0 0) 0 0 0, .ffma (.tile 64 0 0) 0 0 0, .fmax (.tile 64 0 0) 0 0 0, .fmin (.tile 64 0 0) 0 0 0] : List Instr).all (fun i => !i.wf) = true := by decide

set_option maxRecDepth 20000 in
theorem test_ill_formed_3 : ([
    .itof (.tile 64 0 0) 0 0, .ftoi (.tile 64 0 0) 0 0, .mov (.tile 64 0 0) 0 0, .tagof (.tile 64 0 0) 0 0,
    .retag (.tile 64 0 0) 0 0 0, .sld (.tile 64 0 0) 0 0 0, .sst (.tile 64 0 0) 0 0 0, .markp (.tile 64 0 0) 0 0,
    .wait (.tile 64 0 0) 0 0, .br (.tile 64 0 0) 0, .bz (.tile 64 0 0) 0 0, .bnz (.tile 64 0 0) 0 0,
    .call (.tile 64 0 0) 0 0, .jmp (.tile 64 0 0) 0, .repi (.tile 64 0 0) 0, .repx (.tile 64 0 0) 0,
    .step (.tile 64 0 0), .endOp (.tile 64 0 0), .seth (.tile 64 0 0) 0, .rte (.tile 64 0 0),
    .brk (.tile 64 0 0) 0, .rdt (.tile 64 0 0) 0 0, .ldi (.tile 64 0 0) 0 0 0, .dget (.tile 64 0 0) 0 0 0] : List Instr).all (fun i => !i.wf) = true := by decide

set_option maxRecDepth 20000 in
theorem test_ill_formed_4 : ([
    .dput (.tile 64 0 0) 0 0 0, .dld (.tile 64 0 0) 0 0 0, .dst (.tile 64 0 0) 0 0 0, .pget (.tile 64 0 0) 0 0,
    .pput (.tile 64 0 0) 0 0, .sld4 (.tile 64 0 0) 0 0 0, .sst4 (.tile 64 0 0) 0 0 0, .wfi (.tile 64 0 0),
    .vadd (.tile 64 0 0) 0 0 0 0 false, .vsub (.tile 64 0 0) 0 0 0 0 false, .vmul (.tile 64 0 0) 0 0 0 0 false, .vfma (.tile 64 0 0) 0 0 0 0 0 false,
    .vmax (.tile 64 0 0) 0 0 0 0 false, .vmin (.tile 64 0 0) 0 0 0 0 false, .vsel (.tile 64 0 0) 0 0 0 0, .vadds (.tile 64 0 0) 0 0 0 0 false,
    .vmuls (.tile 64 0 0) 0 0 0 0 false, .vbcast (.tile 64 0 0) 0 0 0 false, .vcmplt (.tile 64 0 0) 0 0 0 0, .vcmpeq (.tile 64 0 0) 0 0 0 0,
    .vrmax32 (.tile 64 0 0) 0 0 0 false, .vrsum32 (.tile 64 0 0) 0 0 0 false, .vfn (.tile 64 0 0) 0 0 0 0 false, .mma (.tile 64 0 0) 0 0] : List Instr).all (fun i => !i.wf) = true := by decide

set_option maxRecDepth 20000 in
theorem test_ill_formed_5 : ([
    .mmacI (.tile 64 0 0) 0 0 0, .mmacR (.tile 64 0 0) 0 0 0, .mmacA (.tile 64 0 0) 0 0, .tclr (.tile 64 0 0) 0,
    .tget (.tile 64 0 0) 0 0, .vld (.tile 64 0 0) 0 0, .vst (.tile 64 0 0) 0 0, .vstmx (.tile 64 0 0) 0 0 0,
    .trd (.tile 64 0 0) 0 false 0 0, .tput (.tile 64 0 0) 0 0, .txmx (.tile 64 0 0) 0 0, .put (.tile 64 0 0) 0 0 0,
    .get (.tile 64 0 0) 0 0 0, .astream (.tile 64 0 0) 0 0, .packetHop 4608 .loc, .putArrive 4608,
    .getReqArrive 4608, .getReplyArrive 4608, .ackArrive 4608, .ackTimerExpire 4608 0,
    .ackTimerExpire 0 4608, .tmaxUpArrive 4608, .tmaxDownArrive 4608, .fndReplyArrive 4608] : List Instr).all (fun i => !i.wf) = true := by decide

set_option maxRecDepth 20000 in
theorem test_ill_formed_6 : ([
    .imageArrive 4608, .ctrlArrive 4608, .flitCrcFail 4608 .loc 0, .astreamStreamDone 4608,
    .astreamAppendDone 4608, .stepBarrierComplete 1024, .barrierRelease 1024, .ledgerPool 32,
    .ledgerCreate 32, .ledgerDelete 32, .ledgerMove 32, .ledgerQuery 32,
    .ledgerIdle 32, .ledgerExport 32, .ledgerImport 32, .ledgerImportDone 1024,
    .drawDone 4608, .passportDigest 32, .digestDone 1024 0, .digestDone 0 16,
    .passportSeal 32, .sealDone 1024, .refresh 16 0, .refresh 0 64] : List Instr).all (fun i => !i.wf) = true := by decide

set_option maxRecDepth 20000 in
theorem test_ill_formed_7 : ([
    .scrubLine 16, .mergeTimeout 16 0, .memRetirePc 32, .cellarFillDone 8 0,
    .cellarRelease 32, .evacuationDone 8, .cellarMediaEvent 8 0, .configAccess 2 false 0 0 0,
    .bar4Access 2 false 0 0 [], .completionArrive 2 0 .success [], .completionTimeout 2 0, .quarantineExpire 2 0,
    .linkReset 2 false, .slotPresenceChange 8 false, .slotButtonPress 8, .slotButtonTimeout 8,
    .slotPowerGood 8, .slotPerstRelease 8, .slotLinkUp 8 0 0, .slotEnumerated 8 0,
    .slotPowerTimeout 8, .slotPowerFault 8, .freezeTrigger 8 0, .freezeTrigger 0 16] : List Instr).all (fun i => !i.wf) = true := by decide

set_option maxRecDepth 20000 in
theorem test_ill_formed_8 : ([
    .peerRequest 8 false 0 0 [], .windowCommit 8, .windowSwap 8, .portConfig 32,
    .slotControl 32, .portRelease 32, .overlaySet 32, .guestCreate 32,
    .guestDestroy 32, .guestDestroyDone 1024, .guestGrant 32, .guestRevoke 32,
    .guestRevokeDone 1024, .sqTail ⟨2, 0⟩ 0 0, .sqTail ⟨0, 1024⟩ 0 0, .sqTail ⟨0, 0⟩ 65536 0, .cqHead ⟨2, 0⟩ 0 0, .cqHead ⟨0, 1024⟩ 0 0,
    .cqHead ⟨0, 0⟩ 65536 0, .courierDb ⟨2, 0⟩ 0, .courierDb ⟨0, 1024⟩ 0, .parlourRing ⟨2, 0⟩, .parlourRing ⟨0, 1024⟩, .parlourWindowAccess ⟨2, 0⟩ false 0 0 [],
    .parlourWindowAccess ⟨0, 1024⟩ false 0 0 [],
    .guestRing 1024, .logStart 32, .logFence 32, .logStop 32] : List Instr).all (fun i => !i.wf) = true := by decide

set_option maxRecDepth 20000 in
theorem test_ill_formed_9 : ([
    .logFenceDone 1024, .cqPost 5120, .getLogPage 5120 0, .getLogPage 0 65536,
    .identify 5120 0, .identify 0 65536, .abort 5120 0, .abort 0 65536,
    .setFeatures 5120 0, .setFeatures 0 65536, .getFeatures 5120 0, .getFeatures 0 65536,
    .asynchronousEventRequest 5120 0, .asynchronousEventRequest 0 65536, .flush 5120 0, .flush 0 65536,
    .write 5120 0, .write 0 65536, .read 5120 0, .read 0 65536,
    .writeZeroes 5120 0, .writeZeroes 0 65536, .datasetManagement 5120 0, .datasetManagement 0 65536] : List Instr).all (fun i => !i.wf) = true := by decide

set_option maxRecDepth 20000 in
theorem test_ill_formed_10 : ([
    .backingComplete 5120 0 0 0 0 false [], .backingComplete 0 65536 0 0 0 false [], .backingTimeout 5120 0 0, .backingTimeout 0 65536 0,
    .storageNsCreate 32, .storageNsDelete 32, .nsDeleteDone 1024 0, .storageQueueCreate 32,
    .storageQueueDelete 32, .queueDeleteDone 5120, .frameReceive 64 false [], .courierPacketReceive 64 false false [],
    .courierAckReceive 64 false false [], .courierNackReceive 64 false false [], .courierRtoExpire 65536 0, .wrFetch 65536 false,
    .courierRequestStart 65536, .frameRxTail 64 0, .frameTxTail 64 0, .netConfig 32,
    .netPortSet 32, .netProfile 32, .netRing 32, .netTime 32] : List Instr).all (fun i => !i.wf) = true := by decide

set_option maxRecDepth 20000 in
theorem test_ill_formed_11 : ([
    .netLinkChange 64 false, .courierKey 32, .courierOpen 32, .courierClose 32,
    .egressEnqueue 64 0, .schedulerDecide 64, .gateEntryAdvance 64, .timetableSlotStart 64,
    .scheduleSwitch 64 false, .trafficQueue 32, .trafficPort 32, .trafficTimetable 32,
    .trafficGates 32, .keyIdentity 32, .kekInstall 32, .keyLoad 32,
    .keyClear 32, .keyClearDone 32, .keyFetchDone 32, .cipherRun 32,
    .cipherRunDone 32, .cipherBlockDone 32, .alarm 5, .alarmRezeroise 5] : List Instr).all (fun i => !i.wf) = true := by decide

set_option maxRecDepth 20000 in
theorem test_ill_formed_12 : ([
    .ckptConfig 32, .ckptStart 32, .ckptCapture 32, .ckptRestore 32,
    .ckptRestoreDone 1024, .ckptDrain 32, .ckptDrainDone 1024, .shedStageEnter 6,
    .shedStageLeave 6, .powerProfile 32, .ficSourceFire 19 0, .ficSourceFire 0 64,
    .ficClaim 19, .ficComplete 19 0, .ficComplete 0 64, .ficInterruptTake 19,
    .imsWrite 8192 0 0 0, .holdoffExpire 1024, .l1ExitDone 2, .pmeRepeat 2,
    .teleRing 32, .flashRelease 32, .flashPresence 2, .flashFillDone 2 false] : List Instr).all (fun i => !i.wf) = true := by decide

set_option maxRecDepth 20000 in
theorem test_ill_formed_13 : ([
    .flashRemoved 2, .serviceLocate 32, .unsupportedHostRequest 2 .ioRead, .upstreamLinkUp 2 0 0,
    .aspmL1Entry 2, .alarmCauseClear 5] : List Instr).all (fun i => !i.wf) = true := by decide

theorem test_idle_queue_is_empty_at_reset : State.reset.pending = [] ∧ State.reset.Sound ∧ ∀ d, d < 8 → (State.reset.cellar d).releasing = false :=
  ⟨rfl, rfl, by decide⟩

theorem test_sound_state_with_a_command : ({ State.reset with pending := [.ficTick] } : State).Sound := rfl

theorem test_reset_is_sound : State.reset.Sound := rfl

/-! ## Witnesses: instructions at a tile and at a core -/

/-- The hypotheses of the result statements, a scalar operation of distance 0 and one of distance 2. -/
theorem test_add_issues : ∃ b outs, Issues (onTile (bWord (sWord 0x01 2 0 1)) { s := [(0, intW 7), (1, intW 5)] }) 0 0 0
      (.s { op := .add, rd := 2, ra := 0, rb := 1 }) b outs
    ∧ scalarResult ((onTile (bWord (sWord 0x01 2 0 1)) { s := [(0, intW 7), (1, intW 5)] }).ctx 0 0) (fun _ => {}) (.add (.tile 0 0 0) 2 0 1)
      = some (.tile 0 0 0, .s { op := .add, rd := 2, ra := 0, rb := 1 }, 0, 2, intW 12) := ⟨_, _, ⟨rfl, rfl, rfl, rfl, rfl, rfl⟩, rfl⟩
theorem test_mul_issues : ∃ b outs, Issues (onTile (bWord (sWord 0x10 2 0 1)) { s := [(0, intW 7), (1, intW 5)] }) 0 0 0
      (.s { op := .mul, rd := 2, ra := 0, rb := 1 }) b outs
    ∧ scalarResult ((onTile (bWord (sWord 0x10 2 0 1)) { s := [(0, intW 7), (1, intW 5)] }).ctx 0 0) (fun _ => {}) (.mul (.tile 0 0 0) 2 0 1)
      = some (.tile 0 0 0, .s { op := .mul, rd := 2, ra := 0, rb := 1 }, 2, 2, intW 35) := ⟨_, _, ⟨rfl, rfl, rfl, rfl, rfl, rfl⟩, rfl⟩
theorem test_bundle_issues : slotOf (.add (.tile 0 0 0) 2 0 1) = some (.tile 0 0 0, .s { op := .add, rd := 2, ra := 0, rb := 1 })
    ∧ ∃ b outs, Issues (onTile (bWord (sWord 0x01 2 0 1)) { s := [(0, intW 7), (1, intW 5)] }) 0 0 0
      (.s { op := .add, rd := 2, ra := 0, rb := 1 }) b outs ∧ (outs.map (·.ctl)).head? ≠ some .finish ∧ (outs.map (·.ctl)).head? ≠ some .brk :=
  ⟨rfl, _, _, ⟨rfl, rfl, rfl, rfl, rfl, rfl⟩, by decide, by decide⟩
theorem test_vsel_issues : ∃ b outs f, Issues (onTile (bWord 0 (vWord 0x07 1 2 3 0 4))) 0 0 0 (.v { op := .vsel, vd := 1, va := 2, b := 3, pr := 4 }) b outs
    ∧ vectorResult ((onTile (bWord 0 (vWord 0x07 1 2 3 0 4))).ctx 0 0) (.vsel (.tile 0 0 0) 1 2 3 4)
      = some (.tile 0 0 0, .v { op := .vsel, vd := 1, va := 2, b := 3, pr := 4 }, 3, true, 1, 0, false, f)
    ∧ (outs.map (·.ctl)).head? ≠ some .finish ∧ (outs.map (·.ctl)).head? ≠ some .brk :=
  ⟨_, _, _, ⟨rfl, rfl, rfl, rfl, rfl, rfl⟩, rfl, by decide, by decide⟩
theorem test_vcmpeq_issues : ∃ b outs f, Issues (onTile (bWord 0 (vWord 0x0C 1 2 3 0 0))) 0 0 0 (.v { op := .vcmpeq, vd := 1, va := 2, b := 3, pr := 0 }) b outs
    ∧ vectorCompare ((onTile (bWord 0 (vWord 0x0C 1 2 3 0 0))).ctx 0 0) (.vcmpeq (.tile 0 0 0) 1 2 3 0)
      = some (.tile 0 0 0, .v { op := .vcmpeq, vd := 1, va := 2, b := 3, pr := 0 }, 1, 0, f)
    ∧ (outs.map (·.ctl)).head? ≠ some .finish ∧ (outs.map (·.ctl)).head? ≠ some .brk :=
  ⟨_, _, _, ⟨rfl, rfl, rfl, rfl, rfl, rfl⟩, rfl, by decide, by decide⟩
/-- A step of raw FP32 descriptors: one step, all streams at one place. -/
def fpDesc : Desc := { w0 := BitVec.ofNat 64 (1024 + 7 * 2 ^ 24), w1 := BitVec.ofNat 64 (1 * 2 ^ 32), w2 := 0, w3 := 0 }
def fpState (m : Nat) : State := onTile (bWord 0 0 m) { d := [(0, fpDesc), (1, fpDesc)], s := [(5, intW 3)] } [(128, { tag := .pack, data := 0x3F800000 })]
theorem test_mma_issues : ∃ b outs, Issues (fpState (mWord 0x01 0 1)) 0 0 0 (.m { op := .mma, da := 0, db := 1 }) b outs
    ∧ (outs.map (·.ctl)).head? ≠ some .finish ∧ (outs.map (·.ctl)).head? ≠ some .brk
    ∧ elemOf (((fpState (mWord 0x01 0 1)).ctx 0 0).desc 0).fmt = some .fp32 ∧ pairShape .fp32 .fp32 = some (1, 2) ∧ descFree ((fpState (mWord 0x01 0 1)).ctx 0 0) 0 :=
  ⟨_, _, ⟨rfl, rfl, rfl, rfl, rfl, rfl⟩, by decide, by decide, rfl, rfl, fun q h => nomatch (show q ∈ ([] : List Commit) from h)⟩
theorem test_tclr_issues : ∃ b outs, Issues (fpState (mWord 0x08 0 0 9)) 0 0 0 (.m { op := .tclr, arg := 9 }) b outs
    ∧ (outs.map (·.ctl)).head? ≠ some .finish ∧ (outs.map (·.ctl)).head? ≠ some .brk := ⟨_, _, ⟨rfl, rfl, rfl, rfl, rfl, rfl⟩, by decide, by decide⟩
def tgetState : State := onTile (bWord 0 0 (mWord 0x09 0 0 3)) { d := [(0, { w0 := 1024, w1 := BitVec.ofNat 64 (1 * 2 ^ 32), w2 := 0, w3 := 0 })] }
  ((List.range 7).map fun k => (128 + k, { tag := .tally, data := 0 }))
theorem test_tget_issues : ∃ b outs, Issues tgetState 0 0 0 (.m { op := .tget, da := 0, arg := 3 }) b outs
    ∧ (outs.map (·.ctl)).head? ≠ some .finish ∧ (outs.map (·.ctl)).head? ≠ some .brk ∧ descFree (tgetState.ctx 0 0) 0 :=
  ⟨_, _, ⟨rfl, rfl, rfl, rfl, rfl, rfl⟩, by decide, by decide, fun q h => nomatch (show q ∈ ([] : List Commit) from h)⟩
theorem test_sst_issues : ∃ b outs eff, Issues (onTile (bWord (sWord 0x29 0 1 2 1)) { s := [(1, addrW 0x400), (2, intW 5)] }) 0 0 0
      (.s { op := .sst, ra := 1, rb := 2, imm := 1 }) b outs ∧ (outs.map (·.ctl)).head? ≠ some .finish ∧ (outs.map (·.ctl)).head? ≠ some .brk
    ∧ queuedEffect ((onTile (bWord (sWord 0x29 0 1 2 1)) { s := [(1, addrW 0x400), (2, intW 5)] }).ctx 0 0)
        ((onTile (bWord (sWord 0x29 0 1 2 1)) { s := [(1, addrW 0x400), (2, intW 5)] }).env 0 0) (.sst (.tile 0 0 0) 1 2 1)
      = some (.tile 0 0 0, .s { op := .sst, ra := 1, rb := 2, imm := 1 }, 1, eff, none) :=
  ⟨_, _, _, ⟨rfl, rfl, rfl, rfl, rfl, rfl⟩, by decide, by decide, rfl⟩
theorem test_pput_issues : ∃ b outs eff, Issues (onTile (bWord (sWord 0x45 3 1)) { s := [(1, intW 9)] }) 0 0 0 (.s { op := .pput, rd := 3, ra := 1 }) b outs
    ∧ (outs.map (·.ctl)).head? ≠ some .finish ∧ (outs.map (·.ctl)).head? ≠ some .brk
    ∧ queuedEffect ((onTile (bWord (sWord 0x45 3 1)) { s := [(1, intW 9)] }).ctx 0 0) ((onTile (bWord (sWord 0x45 3 1)) { s := [(1, intW 9)] }).env 0 0)
        (.pput (.tile 0 0 0) 3 1) = some (.tile 0 0 0, .s { op := .pput, rd := 3, ra := 1 }, 0, eff, none)
    ∧ ∀ q ∈ ((onTile (bWord (sWord 0x45 3 1)) { s := [(1, intW 9)] }).ctx 0 0).queue, q.due ≤ 0 → q.produced = true :=
  ⟨_, _, _, ⟨rfl, rfl, rfl, rfl, rfl, rfl⟩, by decide, by decide, rfl, fun q h => nomatch (show q ∈ ([] : List Commit) from h)⟩
/-- A descriptor of the local store at 0x400 with one step, and one of MXINT8 with scales at 0x800. -/
def rawDesc : Desc := { w0 := BitVec.ofNat 64 (0x400 + 8 * 2 ^ 24), w1 := BitVec.ofNat 64 (1 * 2 ^ 32), w2 := 0, w3 := 0 }
def mxDesc : Desc := { w0 := BitVec.ofNat 64 (0x400 + 5 * 2 ^ 24 + 0x800 * 2 ^ 32), w1 := BitVec.ofNat 64 (32 + 1 * 2 ^ 32), w2 := 1, w3 := 0 }
theorem test_vst_issues : ∃ b outs eff, Issues (onTile (bWord 0 0 0 (xWord 0x02 0 1)) { d := [(0, rawDesc)] }) 0 0 0 (.x { op := .vst, vr := 1, dk := 0 }) b outs
    ∧ (outs.map (·.ctl)).head? ≠ some .finish ∧ (outs.map (·.ctl)).head? ≠ some .brk
    ∧ queuedEffect ((onTile (bWord 0 0 0 (xWord 0x02 0 1)) { d := [(0, rawDesc)] }).ctx 0 0) ((onTile (bWord 0 0 0 (xWord 0x02 0 1)) { d := [(0, rawDesc)] }).env 0 0)
        (.vst (.tile 0 0 0) 1 0) = some (.tile 0 0 0, .x { op := .vst, vr := 1, dk := 0 }, 1, eff, some 0)
    ∧ descFree ((onTile (bWord 0 0 0 (xWord 0x02 0 1)) { d := [(0, rawDesc)] }).ctx 0 0) 0 :=
  ⟨_, _, _, ⟨rfl, rfl, rfl, rfl, rfl, rfl⟩, by decide, by decide, rfl, fun q h => nomatch (show q ∈ ([] : List Commit) from h)⟩
theorem test_vstmx_issues : ∃ b outs ws, Issues (onTile (bWord 0 0 0 (xWord 0x03 0 1 0 2)) { d := [(0, mxDesc)] }) 0 0 0 (.x { op := .vstmx, vr := 1, dk := 0, n := 2 }) b outs
    ∧ (outs.map (·.ctl)).head? ≠ some .finish ∧ (outs.map (·.ctl)).head? ≠ some .brk
    ∧ blockEffect ((onTile (bWord 0 0 0 (xWord 0x03 0 1 0 2)) { d := [(0, mxDesc)] }).ctx 0 0) .int8 (.vstmx (.tile 0 0 0) 1 0 2)
      = some (.tile 0 0 0, .x { op := .vstmx, vr := 1, dk := 0, n := 2 }, 0, ws, false)
    ∧ elemOf mxDesc.fmt = some .int8 ∧ ∀ a ∈ outs.flatMap (·.adv), a.1 ≠ 0 ∨ false = true :=
  ⟨_, _, _, ⟨rfl, rfl, rfl, rfl, rfl, rfl⟩, by decide, by decide, rfl, rfl, by decide⟩
theorem test_br_issues : ∃ b outs, Issues (onTile (bWord (sWord 0x30 0 0 0 2))) 0 0 0 (.s { op := .br, imm := 2 }) b outs
    ∧ (outs.map (·.ctl)).head? ≠ some .finish ∧ (outs.map (·.ctl)).head? ≠ some .brk
    ∧ controlOf ((onTile (bWord (sWord 0x30 0 0 0 2))).ctx 0 0) (.br (.tile 0 0 0) 2) = some (.tile 0 0 0, .s { op := .br, imm := 2 }, .branch (some 32)) :=
  ⟨_, _, ⟨rfl, rfl, rfl, rfl, rfl, rfl⟩, by decide, by decide, rfl⟩
theorem test_repx_issues : ∃ b outs, Issues (onTile (bWord (sWord 0x36 0 0 0 4))) 0 0 0 (.s { op := .repx, imm := 4 }) b outs
    ∧ controlOf ((onTile (bWord (sWord 0x36 0 0 0 4))).ctx 0 0) (.repx (.tile 0 0 0) 4) = some (.tile 0 0 0, .s { op := .repx, imm := 4 }, .rep 5 true) :=
  ⟨_, _, ⟨rfl, rfl, rfl, rfl, rfl, rfl⟩, rfl⟩
theorem test_wait_issues : ∃ b outs, Issues (onTile (bWord (sWord 0x2B 0 1 0 0)) { s := [(1, addrW 0x400)] }) 0 0 0 (.s { op := .wait, ra := 1, imm := 0 }) b outs
    ∧ controlOf ((onTile (bWord (sWord 0x2B 0 1 0 0)) { s := [(1, addrW 0x400)] }).ctx 0 0) (.wait (.tile 0 0 0) 1 0)
      = some (.tile 0 0 0, .s { op := .wait, ra := 1, imm := 0 }, .wait 0x400) := ⟨_, _, ⟨rfl, rfl, rfl, rfl, rfl, rfl⟩, rfl⟩
theorem test_step_issues : ∃ b outs, Issues (onTile (bWord (sWord 0x38))) 0 0 0 (.s { op := .step }) b outs := ⟨_, _, rfl, rfl, rfl, rfl, rfl, rfl⟩
theorem test_rte_issues : ∃ b outs, Issues (onTile (bWord (sWord 0x3B)) { inHandler := true }) 0 0 0 (.s { op := .rte }) b outs :=
  ⟨_, _, rfl, rfl, rfl, rfl, rfl, rfl⟩
/-- A context with a handler whose bundle traps, and one without, beside a second context of the job. -/
def trapState (h : Option Nat) : State :=
  let s := onTile (bWord (sWord 0x01 2 0 1)) { handler := h }
  s.modCtx 0 1 fun _ => { assigned := true }
theorem test_add_traps : ∃ k tc, (trapState (some 64)).chosen 0 = some 0 ∧ (trapState (some 64)).mesh.serves 0 = some (0, 0)
    ∧ evalBundle ((trapState (some 64)).env 0 0) ((trapState (some 64)).ctx 0 0) = .trap k tc
    ∧ ((trapState (some 64)).env 0 0).fetch.holds (.s { op := .add, rd := 2, ra := 0, rb := 1 }) = true ∧ ((trapState (some 64)).ctx 0 0).handler = some 64 :=
  ⟨_, _, rfl, rfl, rfl, rfl, rfl⟩
theorem test_add_stops : ∃ k tc, (trapState none).chosen 0 = some 0 ∧ (trapState none).mesh.serves 0 = some (0, 0)
    ∧ evalBundle ((trapState none).env 0 0) ((trapState none).ctx 0 0) = .trap k tc
    ∧ ((trapState none).env 0 0).fetch.holds (.s { op := .add, rd := 2, ra := 0, rb := 1 }) = true
    ∧ ((trapState none).ctx 0 0).handler = none ∧ othersRun (trapState none) 0 0 0 := ⟨_, _, rfl, rfl, rfl, rfl, rfl, rfl⟩
theorem test_end_issues : ∃ b outs, Issues (onTile (bWord (sWord 0x39))) 0 0 0 (.s { op := .endOp }) b outs ∧ b.isVfn = false
    ∧ ¬ othersRun (onTile (bWord (sWord 0x39))) 0 0 0 :=
  ⟨_, _, ⟨rfl, rfl, rfl, rfl, rfl, rfl⟩, rfl, by unfold othersRun; decide⟩
theorem test_end_issues_beside_another : ∃ b outs, Issues ((onTile (bWord (sWord 0x39))).modCtx 0 1 fun _ => { assigned := true }) 0 0 0 (.s { op := .endOp }) b outs
    ∧ b.isVfn = false ∧ othersRun ((onTile (bWord (sWord 0x39))).modCtx 0 1 fun _ => { assigned := true }) 0 0 0 :=
  ⟨_, _, ⟨rfl, rfl, rfl, rfl, rfl, rfl⟩, rfl, rfl⟩
theorem test_end_with_vfn_issues : ∃ b outs, Issues (onTile (bWord (sWord 0x39) (vWord 0x18 1 2 0 0 0))) 0 0 0 (.s { op := .endOp }) b outs ∧ b.isVfn = true :=
  ⟨_, _, ⟨rfl, rfl, rfl, rfl, rfl, rfl⟩, rfl⟩
theorem test_brk_issues : ∃ b outs, Issues (onTile (bWord (sWord 0x3C)) { handler := some 64 }) 0 0 0 (.s { op := .brk, imm := 0 }) b outs :=
  ⟨_, _, rfl, rfl, rfl, rfl, rfl, rfl⟩
theorem test_brk_issues_without_handler : ∃ b outs, Issues ((onTile (bWord (sWord 0x3C))).modCtx 0 1 fun _ => { assigned := true }) 0 0 0 (.s { op := .brk, imm := 0 }) b outs
    ∧ othersRun ((onTile (bWord (sWord 0x3C))).modCtx 0 1 fun _ => { assigned := true }) 0 0 0 := ⟨_, _, ⟨rfl, rfl, rfl, rfl, rfl, rfl⟩, rfl⟩
/-- A tile of guest 3's job 1, with a remote descriptor to its own logical tile. -/
def ownState (x : Nat) : State :=
  { onTile (bWord 0 0 0 x) { d := [(0, { w0 := 0x400, w1 := BitVec.ofNat 64 (1 * 2 ^ 32), w2 := BitVec.ofNat 64 (2 ^ 45), w3 := 0 })], s := [(1, addrW 0x800)], job := 1 } with
    guests := [(3, { rooms := [0] })], jobs := [(1, { guest := 3 })] }
theorem test_put_issues : ∃ b outs, Issues (ownState (xWord 0x10 0 0 1 2)) 0 0 0 (.x { op := .put, dk := 0, sr := 1, n := 2 }) b outs
    ∧ (outs.map (·.ctl)).head? ≠ some .finish ∧ (outs.map (·.ctl)).head? ≠ some .brk := ⟨_, _, ⟨rfl, rfl, rfl, rfl, rfl, rfl⟩, by decide, by decide⟩
theorem test_get_issues : ∃ b outs, Issues (ownState (xWord 0x11 0 0 1 2)) 0 0 0 (.x { op := .get, dk := 0, sr := 1, n := 2 }) b outs
    ∧ (outs.map (·.ctl)).head? ≠ some .finish ∧ (outs.map (·.ctl)).head? ≠ some .brk := ⟨_, _, ⟨rfl, rfl, rfl, rfl, rfl, rfl⟩, by decide, by decide⟩
theorem test_core_add_issues : ∃ b outs, CoreIssues (onCore (bWord (sWord 0x01 2 0 1)) { s := [(0, intW 7), (1, intW 5)] }) 0
    (.s { op := .add, rd := 2, ra := 0, rb := 1 }) b outs := ⟨_, _, rfl, rfl, rfl, fun o h => by cases h; rfl⟩
theorem test_core_sld4_issues : ∃ b outs, CoreIssues (onCore (bWord (sWord 0x48 2 1 0 1)) { s := [(1, addrW 0x400)] } [(128, intW (2 ^ 40))]) 0
    (.s { op := .sld4, rd := 2, ra := 1, imm := 1 }) b outs := ⟨_, _, rfl, rfl, rfl, fun o h => by cases h; rfl⟩
theorem test_core_sst4_issues : ∃ b outs, CoreIssues (onCore (bWord (sWord 0x49 0 1 2 1)) { s := [(1, addrW 0x400), (2, intW 3)] }) 0
    (.s { op := .sst4, ra := 1, rb := 2, imm := 1 }) b outs := ⟨_, _, rfl, rfl, rfl, fun o h => by cases h; rfl⟩
theorem test_core_sst_issues : ∃ b outs, CoreIssues (onCore (bWord (sWord 0x29 0 1 2 1)) { s := [(1, addrW 0x400), (2, intW 3)] }) 0
    (.s { op := .sst, ra := 1, rb := 2, imm := 1 }) b outs := ⟨_, _, rfl, rfl, rfl, fun o h => by cases h; rfl⟩
theorem test_core_wfi_issues : ∃ b outs, CoreIssues (onCore (bWord (sWord 0x4A))) 0 (.s { op := .wfi }) b outs := ⟨_, _, rfl, rfl, rfl, fun o h => by cases h; rfl⟩
theorem test_core_rte_issues : ∃ b outs, CoreIssues (onCore (bWord (sWord 0x3B))) 0 (.s { op := .rte }) b outs := ⟨_, _, rfl, rfl, rfl, fun o h => by cases h; rfl⟩
theorem test_core_end_issues : ∃ b outs, CoreIssues (onCore (bWord (sWord 0x39))) 0 (.s { op := .endOp }) b outs := ⟨_, _, rfl, rfl, rfl, fun o h => by cases h; rfl⟩
theorem test_core_traps : ∃ j tc, (onCore (bWord (sWord 0x01 2 0 1))).coreReady 0 = true
    ∧ evalBundle ((onCore (bWord (sWord 0x01 2 0 1))).coreEnv 0) { ((onCore (bWord (sWord 0x01 2 0 1))).core 0).ctx with inHandler := true } = .trap j tc
    ∧ ((onCore (bWord (sWord 0x01 2 0 1))).coreEnv 0).fetch.holds (.s { op := .add, rd := 2, ra := 0, rb := 1 }) = true
    ∧ ((onCore (bWord (sWord 0x01 2 0 1))).core 0).run = .running ∧ (onCore (bWord (sWord 0x01 2 0 1))).firm.mstate ≠ .auxOnly := ⟨_, _, rfl, rfl, rfl, rfl, by decide⟩
/-- The same tile with ledger 5 of guest 3 and a staging descriptor. -/
def streamState : State :=
  { onTile (bWord 0 0 0 (xWord 0x12 0 0 1)) { d := [(0, { w0 := 0x800, w1 := BitVec.ofNat 64 (1 * 2 ^ 32), w2 := 0, w3 := 0 })], s := [(1, { tag := .seq, data := BitVec.ofNat 64 (5 + 3 * 2 ^ 32) })], job := 1 } with
    guests := [(3, { rooms := [0] })], jobs := [(1, { guest := 3 })],
    ledgers := { live := [((5 : Nat), { guest := 3, pool := 0, dir := 0, layers := 1, heads := 1, width := 32, fmt := 0 })] } }
theorem test_astream_issues : ∃ b outs, Issues streamState 0 0 0 (.x { op := .astream, dk := 0, sr := 1 }) b outs
    ∧ (outs.map (·.ctl)).head? ≠ some .finish ∧ (outs.map (·.ctl)).head? ≠ some .brk := ⟨_, _, ⟨rfl, rfl, rfl, rfl, rfl, rfl⟩, by decide, by decide⟩

/-! ## Witnesses: the mesh -/

def putPkt : Packet := { dstX := 1, kind := 0, cls := 2, units := 1, addr := 0x400, payload := [intW 1, intW 2, intW 3, intW 4] }
def localState : State := { State.reset with tiles := [(0, { outq := [putPkt] })] }
theorem test_packet_may_leave : localState.power.tclkStopped = false ∧ (localState.tile 0).outq = [] ++ putPkt :: [] ∧ (localState.tile 0).flying = []
    ∧ ¬ ((pktAcked putPkt = true ∧ 32 ≤ fgetD 0 (localState.tile 0).unacked putPkt.cls)
      ∨ (localState.router 0).hasRoom (bufKey .loc putPkt.cls (pktReply putPkt)) putPkt = false) := ⟨rfl, rfl, rfl, by decide⟩
def hopState : State := { State.reset with routers := [(0, { bufs := [(bufKey .loc 2 false, [putPkt])] })] }
/-- A router with one contender for a port, of class 2, serves it. -/
theorem serves_of_only (s : State) (p x y : Nat) (port : Dir) (h : s.contenders p x y port 2 ≠ []) (h0 : s.contenders p x y port 0 = [])
    (h1 : s.contenders p x y port 1 = []) (hu : fgetD 0 (s.router p).used (dirIndex port * 4 + 2) < guarantee 2) : Serves s p x y port 2 := by
  refine ⟨by decide, h, fun _ c hc hn => ?_, fun h => absurd hu h⟩
  match c, hc with
  | 0, _ => exact absurd h0 hn
  | 1, _ => exact absurd h1 hn
theorem sends_only {limit ptr : Nat} {c : Contender} (h : c.pkt.age < limit) : Sends limit ptr [c] c false :=
  ⟨List.mem_singleton.mpr rfl, fun x => absurd x (by decide), fun _ d hd => by rw [List.mem_singleton.mp hd]; exact ⟨h, Nat.le_refl _⟩⟩
theorem test_port_serves : Serves hopState 0 0 0 .east 2
    ∧ Sends hopState.mesh.ageLimit.toNat (fgetD 0 (hopState.router 0).rr 6) (hopState.contenders 0 0 0 .east 2) { index := 9, key := bufKey .loc 2 false, pkt := putPkt } false
    ∧ hopState.mesh.baseLogical 0 = some (0, 0) ∧ hopState.movingCluster 1 0 = none ∧ neighbour 0 0 .east = some (1, 0) ∧ hopState.mesh.basePhys 1 0 ≠ 0 :=
  ⟨serves_of_only _ _ _ _ _ (fun h => absurd (congrArg List.length h) (by decide)) rfl rfl (by decide), sends_only (by decide), rfl, rfl, rfl, by decide⟩
def arriving (kind cls : Nat) (reply : Bool) : State :=
  { State.reset with routers := [(1, { bufs := [(bufKey .west cls reply, [{ putPkt with kind := kind, cls := cls, fw := true }])] })] }
theorem test_put_arrives : Arrives (arriving 0 2 false) 1 0 2 { index := 7, key := bufKey .west 2 false, pkt := { putPkt with fw := true } } false
    ∧ (arriving 0 2 false).mesh.serves 1 = some (1, 0) ∧ (arriving 0 2 false).isolated 1 { putPkt with fw := true } = false :=
  ⟨⟨rfl, rfl, 1, 0, rfl, serves_of_only _ _ _ _ _ (fun h => absurd (congrArg List.length h) (by decide)) rfl rfl (by decide), sends_only (by decide)⟩, rfl, rfl⟩
theorem test_get_arrives : Arrives (arriving 1 2 false) 1 1 2 { index := 7, key := bufKey .west 2 false, pkt := { putPkt with kind := 1, fw := true } } false
    ∧ (∀ j, j < 4 * 1 → ((arriving 1 2 false).tile 1).bad (0x400 + 8 * j) = false ∧ (0x400 + 8 * j) / 8 ∉ ((arriving 1 2 false).tile 1).soft) :=
  ⟨⟨rfl, rfl, 1, 0, rfl, serves_of_only _ _ _ _ _ (fun h => absurd (congrArg List.length h) (by decide)) rfl rfl (by decide), sends_only (by decide)⟩,
    fun _ _ => ⟨rfl, fun h => nomatch h⟩⟩
def isolatedState : State := { State.reset with routers := [(1, { bufs := [(bufKey .west 2 false, [{ putPkt with guest := 3 }])] })] }
theorem test_isolated : Arrives isolatedState 1 0 2 { index := 7, key := bufKey .west 2 false, pkt := { putPkt with guest := 3 } } false
    ∧ isolatedState.isolated 1 { putPkt with guest := 3 } = true :=
  ⟨⟨rfl, rfl, 1, 0, rfl, serves_of_only _ _ _ _ _ (fun h => absurd (congrArg List.length h) (by decide)) rfl rfl (by decide), sends_only (by decide)⟩, by decide⟩
def parkingState : State := { arriving 0 2 false with clusters := [(0, { moving := some { what := { tile := 1, cause := 0 }, action := 1, coords := [(1, 0)] } })] }
theorem test_parks : Arrives parkingState 1 0 2 { index := 7, key := bufKey .west 2 false, pkt := { putPkt with fw := true } } false
    ∧ parkingState.movingCluster 1 0 = some 0 :=
  ⟨⟨rfl, rfl, 1, 0, rfl, serves_of_only _ _ _ _ _ (fun h => absurd (congrArg List.length h) (by decide)) rfl rfl (by decide), sends_only (by decide)⟩, rfl⟩
/-- A group of two tiles of one row, whose second tile's anchor is the last to arrive at the root. -/
def groupState (started : Bool) : State :=
  { State.reset with
    jobs := [(7, { guest := 0, groups := [{ x0 := 0, y0 := 0, x1 := 1, y1 := 0, ctx := 0 }] })],
    tiles := [(0, { ctxs := [(0, { job := 7, exch := { started := started, own := some 3 } })] })] }
theorem test_anchor_exchange : (groupState true).groupOf 0 0 0 7 = some { x0 := 0, y0 := 0, x1 := 1, y1 := 0, ctx := 0 }
    ∧ (({ x0 := 0, y0 := 0, x1 := 1, y1 := 0, ctx := 0 } : Group).children 0 0) = [(1, 0)]
    ∧ ((groupState true).modCtx 0 0 fun c => { c with exch := { c.exch with combined := some 5 } }).chosen 0 ≠ some 0 := ⟨rfl, rfl, by decide⟩
def ackState : State := { State.reset with tiles := [(1, { toAck := [(0, [0, 3, 0])] })] }
theorem test_ack_due : ackState.mesh.serves 1 = some (1, 0) ∧ fget (ackState.tile 1).toAck 0 = some [0, 3, 0] ∧ [0, 3, 0].sum ≠ 0 := ⟨rfl, rfl, by decide⟩
theorem test_link_exists : State.reset.power.tclkStopped = false ∧ State.reset.mesh.baseLogical 0 = some (0, 0) ∧ neighbour 0 0 .east = some (1, 0) := ⟨rfl, rfl, rfl⟩

/-! ## Witnesses: retirement -/

def unitState : State :=
  { State.reset with tiles := [(0, { fnQueue := [(0, 3)], ctxs := [(0, { pos := 5, queue := [{ due := 4, issued := 3, produced := false, eff := .sreg 2 (intW 9) }] })] })] }
def endingState : State := { unitState with tiles := [(0, { (unitState.tile 0) with ctxs := [(0, { unitState.ctx 0 0 with ending := true })] })] }
theorem test_end_waits_for_the_unit : endingState.power.tclkStopped = false ∧ (endingState.tile 0).fnQueue = (0, 3) :: [] ∧ (endingState.ctx 0 0).ending = true
    ∧ ∀ e ∈ (endingState.ctx 0 0).queue.map (fun q => if q.issued = 3 then { q with produced := true } else q), e.produced = true :=
  ⟨rfl, rfl, rfl, by decide⟩
theorem test_unit_queue : unitState.power.tclkStopped = false ∧ (unitState.tile 0).fnQueue = (0, 3) :: [] ∧ (unitState.ctx 0 0).ending = false := ⟨rfl, rfl, rfl⟩
def planned : Moving := { what := { tile := 0, cause := 2 }, action := 1, shift := true, halted := [0], coords := [(0, 0)], moves := [(0, 64)] }
def restingState : State :=
  { State.reset with tiles := [(0, { halts := [.retirement 0] })], clusters := [(0, { moving := some planned })] }
theorem test_may_rest : restingState.halted 0 = true ∧ (restingState.tile 0).atRest = false ∧ (restingState.tile 0).fnQueue = []
    ∧ (∀ e ∈ (restingState.tile 0).ctxs, e.2.assigned = true → e.2.inRepx = false) ∧ (∀ j x, fget restingState.jobs j = some x → x.ending = none)
    ∧ restingState.coreUp (innkeeper 0) = true ∧ (restingState.cluster 0).moving = some planned ∧ planned.record = none ∧ planned.moves ≠ [] ∧ (∀ k, k ≠ 0 → (restingState.cluster k).moving = none)
    ∧ (restingState.clusters.map (·.1)).Nodup ∧ (∀ h ∈ planned.halted, h = 0 ∨ (restingState.tile h).atRest = true) ∧ restingState.lacking planned = [] :=
  ⟨rfl, rfl, rfl, (fun _ h => nomatch h), (fun _ _ h => nomatch h), rfl, rfl, rfl, by decide,
    fun k hk => by rw [show restingState.cluster k = {} from by cases k with | zero => exact absurd rfl hk | succ n => rfl], by decide, by decide,
    by unfold State.lacking; exact if_neg (Nat.not_lt_zero _)⟩
/-- Job 7 of one tile holds a reserve row, which the planned retirement takes back. -/
def lentPlan : Moving := { planned with action := 5, lent := 0 }
def lentState : State :=
  { State.reset with
    tiles := [(0, { halts := [.retirement 0] })], clusters := [(0, { moving := some lentPlan })],
    mesh := { State.reset.mesh with lentRows := 1, lentTo := some 3 }, jobs := [(7, { guest := 3, x0 := 5, x1 := 5, y0 := 5, y1 := 5, lentRows := 1 })] }
set_option maxRecDepth 20000 in
theorem test_lent_row_lacks : 5 + 64 * 5 ∈ lentState.lacking lentPlan ∧ (lentState.tile (5 + 64 * 5)).atRest = false := by
  refine ⟨?_, rfl⟩
  have h : (lentPlan.after (lentState.busyReserve lentPlan.what.tile) lentState.mesh).lentRows < lentState.mesh.lentRows :=
    Nat.lt_of_le_of_lt (Mesh.fit_lentRows_le 5 _ _ _) (by decide)
  unfold State.lacking
  rw [if_pos h]
  exact List.mem_dedup.mpr (List.mem_filter.mpr ⟨by decide, by decide⟩)
def restingAlone : State := { State.reset with tiles := [(0, { halts := [.safeHold] })] }
theorem test_may_rest_alone : restingAlone.halted 0 = true ∧ restingAlone.mesh.closing = []
    ∧ (∀ c, c < 16 → ∀ m, (restingAlone.cluster c).moving = some m → m.record ≠ none ∨ ∃ h ∈ m.halted, h ≠ 0 ∧ (restingAlone.tile h).atRest = false) :=
  ⟨rfl, rfl, fun _ _ _ h => nomatch h⟩
def beginState : State := { State.reset with clusters := [(0, { queue := [{ tile := 0, cause := 2 }] })] }
theorem test_retirement_may_begin : (beginState.cluster 0).queue = [{ tile := 0, cause := 2 }] ∧ (beginState.cluster 0).moving = none
    ∧ beginState.inService = true ∧ beginState.coreUp (innkeeper 0) = true ∧ beginState.mesh.isRetired 0 = false ∧ (beginState.tile 0).atRest = false ∧ beginState.mesh.retired = [] ∧ 0 / 64 % 18 ≤ 16 :=
  ⟨rfl, rfl, rfl, rfl, rfl, rfl, rfl, by decide⟩
def beganRetired : State := { beginState with mesh := { retired := [0] } }
theorem test_retired_already : beganRetired.mesh.isRetired 0 = true ∧ beganRetired.inService = true := ⟨rfl, rfl⟩
def imageState : State :=
  { State.reset with clusters := [(0, { moving := some { planned with moves := [(64, 128), (0, 64)], record := some 1 } })] }
theorem test_image_may_move : imageState.coreUp (innkeeper 0) = true ∧ imageState.power.tclkStopped = false
    ∧ (imageState.cluster 0).moving = some { planned with moves := [(64, 128), (0, 64)], record := some 1 } := ⟨rfl, rfl, rfl⟩
def recordState (c : FMap Cluster) : State :=
  { State.reset with clusters := c, firm := { State.reset.firm with recordQueue := [(true, { seq := 1 })] } }
theorem test_record_waits : (recordState []).coreUp doorkeeper = true ∧ (recordState []).firm.recordQueue = (true, { seq := 1 }) :: []
    ∧ ((recordState []).flash true).state = 1 ∧ (∀ c, c < 16 → ((recordState []).cluster c).moving = none)
    ∧ (recordState []).inService = true ∧ (recordState []).firm.stepDone = false ∧ (recordState []).firm.activation = none
    ∧ (recordState []).firm.meshNext = none := ⟨rfl, rfl, rfl, (fun _ _ => rfl), rfl, rfl, rfl, rfl⟩
def lastWrite : Moving := { planned with moves := [], record := some 1 }
def afterLast : Mesh := lastWrite.after ((recordState [(0, { moving := some lastWrite })]).busyReserve 0) State.reset.mesh
def shifted : Mesh := { State.reset.mesh.without 0 true with lentTo := none }
theorem lastWrite_fitted :
    lastWrite.fitted ((recordState [(0, { moving := some lastWrite })]).busyReserve 0) State.reset.mesh = (shifted, [], []) :=
  Mesh.fit_settled shifted 4 ((recordState [(0, { moving := some lastWrite })]).busyReserve 0) [(0, 0)] (fun c hc => by
    rw [List.mem_singleton.mp hc]; decide)
theorem afterLast_eq : afterLast = shifted := congrArg (·.1) lastWrite_fitted
theorem test_switch_waits : ((recordState [(0, { moving := some lastWrite })]).cluster 0).moving = some lastWrite ∧ lastWrite.moves = []
    ∧ lastWrite.allCloses ((recordState [(0, { moving := some lastWrite })]).busyReserve 0) State.reset.mesh = []
    ∧ (recordState [(0, { moving := some lastWrite })]).recorded lastWrite = true
    ∧ afterLast.lentRows = State.reset.mesh.lentRows
    ∧ (∀ x ∈ lastWrite.allCoords State.reset.mesh, State.reset.mesh.physicalOf x.1 x.2 ≠ afterLast.physicalOf x.1 x.2
      ∧ afterLast.physicalOf x.1 x.2 ≠ lastWrite.what.tile ∧ afterLast.isRetired (afterLast.physicalOf x.1 x.2) = false
      ∧ ∀ y ∈ lastWrite.allCoords State.reset.mesh, afterLast.physicalOf x.1 x.2 = afterLast.physicalOf y.1 y.2 → x = y) := by
  rw [afterLast_eq]
  refine ⟨rfl, rfl, ?_, ?_, rfl, by decide⟩
  · unfold Moving.allCloses
    rw [lastWrite_fitted]
    rfl
  · have h : lastWrite.after ((recordState [(0, { moving := some lastWrite })]).busyReserve 0) State.reset.mesh = shifted := afterLast_eq
    show (lastWrite.allCoords State.reset.mesh).all (fun c => fget (recordState [(0, { moving := some lastWrite })]).firm.record.standIns (logicalIndex c.1 c.2)
      == fget (lastWrite.after ((recordState [(0, { moving := some lastWrite })]).busyReserve 0) State.reset.mesh).standIns (logicalIndex c.1 c.2)) = true
    rw [h]
    rfl

/-! ## Witnesses: ledgers and messages -/

/-- Slot 3 holds a request that core 0 has begun: opcode, guest and payload. -/
def asking (op guest : Nat) (body : List Byte) (s : State) : State :=
  { s with firm := { s.firm with
    cores := [(0, { begun := some 3 })],
    holes := [(3, { busy := true, bytes := (([1, 2] ++ leBytes 2 op ++ leBytes 2 body.length ++ [1, 0] ++ leBytes 4 77 ++ [0, 0] ++ leBytes 2 guest
      ++ zeros 16 ++ body).zipIdx.map fun (b, i) => (i, b)) })] } }
/-- Guest 5 of room 0, with a grant, a stack pool, a cellar pool and the live ledger 7. -/
def stackPool5 : Pool := { base := 0, length := 0x1000000, cellar := false, layers := 1, heads := 1, width := 64, fmt := 0, freeDirs := [0], freeRuns := [0x20000, 0x40000] }
def guest5 : Guest := { rooms := [0], grants := [{ base := 0, length := 0x2000000 }], pools := [(0, stackPool5), (1, { stackPool5 with base := 0x1000000, freeDirs := [], freeRuns := [0x1020000] })] }
def ledger7 : Ledger := { guest := 5, pool := 0, dir := 0, layers := 1, heads := 1, width := 64, fmt := 0, tokens := 1, runs := [(0, { addr := 0x60000, pool := 0 })] }
def ledgerState (l : Ledger := ledger7) (ts : FMap Tile := []) (m : Mem := {}) : State :=
  { State.reset with guests := [(5, guest5)], ledgers := { live := [(7, l)] }, tiles := ts, mem := m }
def streamOp (append : Bool) (gen block : Nat) : StreamOp :=
  { ctx := 2, ledger := 7, generation := gen, append, block, pair := 0, fmt := 0, width := 64, base := 0x10000, scaleBase := 0x20000, stride := 0x2000, scaleStride := 0x100 }
def engineOn (o : StreamOp) (words : FMap TWord := []) : FMap Tile := [(0, { words, streams := [o], ctxs := [(2, { streaming := true })] })]
theorem test_stale_stream : EngineEnds (ledgerState ledger7 (engineOn (streamOp false 1 0))) 0 (streamOp false 1 0) []
    ∧ ((ledgerState ledger7 (engineOn (streamOp false 1 0))).generation 7).toNat ≠ 1 := ⟨⟨rfl, fun _ => rfl, rfl, by rintro l ⟨⟩; rfl⟩, by decide⟩
theorem test_stream_of_absent_block : EngineEnds (ledgerState ledger7 (engineOn (streamOp false 0 9))) 0 (streamOp false 0 9) [] ∧ min 32 (1 - 32 * 9) = 0 :=
  ⟨⟨rfl, fun _ => rfl, rfl, by rintro l ⟨⟩; rfl⟩, by decide⟩
def writtenRun : Mem := { written := [(0x60000 / 64, 0xFF), (0x60000 / 64 + 1, 0xFF), (0x70000 / 64, 0xFF)] }
theorem test_stream_of_one_token : EngineEnds (ledgerState ledger7 (engineOn (streamOp false 0 0)) writtenRun) 0 (streamOp false 0 0) []
    ∧ keyAddr 0x60000 64 0 0 = 0x60000 ∧ scaleAddr 0x60000 1 64 0 0 = 0x70000 ∧ min 32 (1 - 32 * 0) = 1
    ∧ (ledgerState ledger7 [] writtenRun).rangeStatus 0x60000 128 = .ok ∧ (ledgerState ledger7 [] writtenRun).rangeStatus 0x70000 4 = .ok
    ∧ (ledgerState ledger7 [] writtenRun).guestMem 5 0x60000 128 = true ∧ (ledgerState ledger7 [] writtenRun).guestMem 5 0x70000 4 = true :=
  ⟨⟨rfl, fun _ => rfl, rfl, by rintro l ⟨⟩; rfl⟩, by decide, by decide, by decide, by decide, by decide, by decide, by decide⟩
/-- The words of one token's key, scales and value. -/
def tokenWords : FMap TWord :=
  ((List.range 8).map fun i => (0x2000 + i, (⟨.pack, 0⟩ : TWord))) ++ ((List.range 8).map fun i => (0x2400 + i, ⟨.pack, 0⟩))
    ++ [(0x4000, ⟨.pack, 0⟩), (0x4020, ⟨.pack, 0⟩)]
theorem test_append_of_one_token : EngineEnds (ledgerState ledger7 (engineOn (streamOp true 0 0) tokenWords)) 0 (streamOp true 0 0) []
    ∧ fget ledger7.runs (ledger7.tokens / 32) = some { addr := 0x60000, pool := 0 }
    ∧ ∀ x ∈ [(0x10000, 64), (0x20000, 2), (0x12000, 64), (0x20100, 2)], ∀ w ∈ wordsIn x.1 x.2,
        (((ledgerState ledger7 (engineOn (streamOp true 0 0) tokenWords)).tile 0).word w).tag = .pack
        ∧ ((ledgerState ledger7 (engineOn (streamOp true 0 0) tokenWords)).tile 0).bad w = false
        ∧ w / 8 ∉ ((ledgerState ledger7 (engineOn (streamOp true 0 0) tokenWords)).tile 0).soft :=
  ⟨⟨rfl, fun _ => rfl, rfl, by rintro l ⟨⟩; rfl⟩, rfl, by decide⟩
def barrierState (running : Bool) : State :=
  { ledgerState { ledger7 with marks := [0] } [(0, { ctxs := [(2, { assigned := true, job := 3, atStep := true })] })] with
    jobs := [(3, { guest := 5 })], guests := [(5, { guest5 with barrier := running })] }
theorem test_barrier_complete : (barrierState false).guest? 5 = some { guest5 with barrier := false } ∧ (barrierState false).coreUp steward = true
    ∧ (barrierState false).barrierGroup 5 = [(0, 2)] ∧ ((barrierState false).ctx 0 2).atStep = true ∧ ((barrierState false).ctx 0 2).streaming = false
    ∧ ((barrierState false).ledgers.live.map (·.1)).Nodup := ⟨rfl, rfl, by decide, rfl, rfl, by decide⟩
theorem test_barrier_release : (barrierState true).guest? 5 = some { guest5 with barrier := true } ∧ guest5.barrierWait = false
    ∧ (barrierState true).coreUp steward = true ∧ Undisturbed (barrierState true) 3 :=
  ⟨rfl, rfl, rfl, rfl, rfl, rfl, (fun _ h => nomatch h), (fun _ h => nomatch h), by decide, by decide⟩
def movingLedger : Ledger := { ledger7 with moveTo := some false, runs := [(0, { addr := 0x60000, pool := 1, moving := true, fresh := some (0, 0x20000) })] }
theorem test_move_ends : (ledgerState movingLedger).ledger? 7 = some movingLedger ∧ fget (guest5.pools) 0 = some stackPool5 ∧ stackPool5.cellar = false
    ∧ (∀ e ∈ (ledgerState movingLedger).ledgers.live, e.2.guest = 5 → e.2.full = false) ∧ (ledgerState movingLedger).Sound
    ∧ (∀ i, i < 16 → ((ledgerState movingLedger).stack i).merge = []) ∧ 0x20000 + movingLedger.runBytes ≤ 0x60000 :=
  ⟨rfl, rfl, rfl, by decide, rfl, fun _ _ => rfl, by decide⟩
def heldMove : State := { ledgerState movingLedger with power := { State.reset.power with stages := [1] } }
theorem test_move_held : heldMove.movesHeld 5 = true ∧ heldMove.timedGuest 5 = false ∧ heldMove.Sound
    ∧ heldMove.rangeReady 0x20000 movingLedger.runBytes = true ∧ heldMove.unfilledIn 0x60000 movingLedger.runBytes = false
    ∧ heldMove.pendingIn 0x60000 movingLedger.runBytes = false ∧ heldMove.mem.reach (0x60000 + 5) = .served (0x60000 + 5)
    ∧ heldMove.mem.writeReach (0x20000 + 5) = .served (0x20000 + 5) ∧ heldMove.mem.mirror (0x20000 + 5) = none ∧ (0x20000 + 5) / 64 ≠ (0 + 8 * 0) / 64 :=
  ⟨rfl, rfl, rfl, by decide, by decide, by decide, by decide, by decide, by decide, by decide⟩
theorem test_export_ends : (ledgerState { ledger7 with exportTo := some 0x80000 }).ledger? 7 = some { ledger7 with exportTo := some 0x80000 }
    ∧ ∀ i, i < (ledger7.tokens + 31) / 32 → ∃ r, fget ledger7.runs i = some r := ⟨rfl, fun i hi => by match i, hi with | 0, _ => exact ⟨_, rfl⟩⟩
def importing (m : Mem := {}) : State :=
  { ledgerState ledger7 [] m with guests := [(5, { guest5 with imports := [{ source := 0x80000, pool := 0, x := 0, y := 0, addr := 0x100, seq := 9 }] })] }
set_option maxRecDepth 20000 in
theorem test_import_fails : importing.stackPool 5 0 = some stackPool5 ∧ (parseForm (importing.memBytes 0x80000 64)).good = false
    ∧ ((((importing.modGuest 5 fun x => { x with imports := [] }).memRead 0x80000 64).2.2).memRead 0x81000 0).2.2.firm.events.length < 256 :=
  ⟨rfl, by decide, by decide⟩
/-- The form of an empty ledger: its header and the digest of no bytes. -/
def emptyForm : Mem := { cells := ([(0, 0x55), (1, 0x4C), (2, 0x4C), (3, 0x47), (4, 1), (8, 1), (10, 1)] : List (Nat × Byte)).map (fun e => (0x80000 + e.1, e.2))
    ++ ((sha256 []).zipIdx.map fun (b, i) => (0x80020 + i, b)).filter (·.2 != 0), written := [(0x80000 / 64, 0xFF)] }
set_option maxRecDepth 20000 in
theorem test_import_counts : (parseForm ((importing emptyForm).memBytes 0x80000 64)).good = true ∧ (parseForm ((importing emptyForm).memBytes 0x80000 64)).spans = 0
    ∧ (parseForm ((importing emptyForm).memBytes 0x80000 64)).tokens = 0 ∧ ((importing emptyForm).rawBytes 0x81000 0).2 = true
    ∧ (importing emptyForm).ledgerRoom 5 = true ∧ (importing emptyForm).freeLedgerNo = some 0 ∧ stackPool5.freeDirs = 0 :: [] :=
  ⟨by decide, by decide, by decide, by decide, by decide, by decide, rfl⟩
set_option maxRecDepth 20000 in
theorem test_pool_message : Begun (asking 0x0401 5 (leBytes 8 0x1000000 ++ leBytes 8 0x1000000 ++ [1, 0, 1, 0, 0, 0, 1, 0] ++ zeros 8)
    { ledgerState with guests := [(5, { guest5 with pools := [] })] }) 3 0 ledgerPoolBlock none := ⟨rfl, rfl, rfl, rfl, by decide⟩
theorem test_create_message : Begun (asking 0x0402 5 ([0, 0, 0, 0] ++ leBytes 4 0x100 ++ zeros 8) ledgerState) 3 0 ledgerCreateBlock none
    ∧ ledgerState.freeLedgerNo = some 0 := ⟨⟨rfl, rfl, rfl, rfl, by decide⟩, by decide⟩
theorem test_delete_message : Begun (asking 0x0403 5 (leBytes 8 (7 + 5 * 2 ^ 32)) ledgerState) 3 0 ledgerDeleteBlock none
    ∧ ledgerState.ledgerOf (7 + 5 * 2 ^ 32) 5 = some 7 := ⟨⟨rfl, rfl, rfl, rfl, by decide⟩, by decide⟩
theorem test_move_message : Begun (asking 0x0404 5 (leBytes 8 (7 + 5 * 2 ^ 32) ++ zeros 8) ledgerState) 3 0 ledgerMoveBlock none := ⟨rfl, rfl, rfl, rfl, by decide⟩
theorem test_query_message : Begun (asking 0x0405 5 (leBytes 8 (7 + 5 * 2 ^ 32)) ledgerState) 3 0 ledgerQueryBlock none := ⟨rfl, rfl, rfl, rfl, by decide⟩
theorem test_idle_message : Begun (asking 0x0406 5 (leBytes 4 9 ++ zeros 4) ledgerState) 3 0 ledgerIdleBlock none := ⟨rfl, rfl, rfl, rfl, by decide⟩
theorem test_export_message : Begun (asking 0x0407 5 (leBytes 8 (7 + 5 * 2 ^ 32) ++ leBytes 8 0x80000) ledgerState) 3 0 ledgerExportBlock none :=
  ⟨rfl, rfl, rfl, rfl, by decide⟩
set_option maxRecDepth 20000 in
theorem test_import_message : Begun (asking 0x0408 5 (leBytes 8 0x80000 ++ [0, 0, 0, 0] ++ leBytes 4 0x100) { ledgerState ledger7 [] emptyForm with
    guests := [(5, guest5)] }) 3 0 ledgerImportBlock none := ⟨rfl, rfl, rfl, rfl, by decide⟩

/-! ## Witnesses: jobs and passports -/

def launchBody : List Byte := leBytes 8 0x1000 ++ leBytes 4 16 ++ leBytes 4 0 ++ leBytes 4 0 ++ [0, 0, 1, 0, 1, 0, 0, 0] ++ leBytes 4 0x8000 ++ zeros 16
  ++ [0] ++ zeros 15 ++ zeros 112 ++ zeros 16
set_option maxRecDepth 20000 in
theorem test_launch_message : Begun (asking 0x0301 5 launchBody ledgerState) 3 0 jobLaunchBlock none
    ∧ asked (asking 0x0301 5 launchBody ledgerState) 3 25 1 = 0 ∧ asked (asking 0x0301 5 launchBody ledgerState) 3 48 1 = 0
    ∧ asked (asking 0x0301 5 launchBody ledgerState) 3 22 1 = 1 ∧ asked (asking 0x0301 5 launchBody ledgerState) 3 23 1 = 0
    ∧ ledgerState.phys 0 0 ≠ ledgerState.phys 1 0 := ⟨⟨rfl, rfl, rfl, rfl, by decide⟩, by decide, by decide, by decide, by decide, by decide⟩
def jobState (j : Job) : State := { ledgerState with jobs := [(3, j)] }
theorem test_epoch_waits : ((jobState { guest := 5, started := false }).jobs.map (·.1)).Nodup := by decide
/-- A timed launch waits for the epoch edge in slot 3, which core 0 serves. -/
def timedLaunch : State := { asking 0x0301 5 [] ledgerState with jobs := [(3, { guest := 5, timed := true, started := false, answer := some 3 })] }
theorem test_epoch_answers : (timedLaunch.jobs.map (·.1)).Nodup ∧ fget timedLaunch.jobs 3 = some { guest := 5, timed := true, started := false, answer := some 3 }
    ∧ timedLaunch.beganBy 3 = some 0 ∧ (timedLaunch.hole 3).num 2 2 = 0x0301
    ∧ ∀ m y, m ≠ 3 → fget timedLaunch.jobs m = some y → y.answer ≠ some 3 :=
  ⟨by decide, rfl, by decide, by decide, fun m y hm h => by
    rw [show fget timedLaunch.jobs m = none from by simp [timedLaunch, fget, Ne.symm hm]] at h; cases h⟩
theorem test_limit : fget (jobState { guest := 5, timed := true }).jobs 3 = some { guest := 5, timed := true } := rfl
def drawState (w : TWord) : State :=
  { jobState { guest := 5, drawOffset := 0x8000 } with
    tiles := [(0, { ctxs := [(1, { assigned := true, job := 3 })], draws := [{ ctx := 1, job := 3, w0 := w, w1 := intW 0, w2 := intW 0 }] })] }
theorem test_draw_waits (w : TWord) : ((drawState w).tile 0).draws = [{ ctx := 1, job := 3, w0 := w, w1 := intW 0, w2 := intW 0 }]
    ∧ (drawState w).power.tclkStopped = false
    ∧ (drawState w).halted 0 = false ∧ fget (drawState w).jobs 3 = some { guest := 5, drawOffset := 0x8000 } := ⟨rfl, rfl, rfl, rfl⟩
theorem test_draw_counts : (intW (2 * 2 ^ 32)).data.toNat / 2 ^ 32 % 64 = 2 ∧ (intW (61 * 2 ^ 32)).data.toNat / 2 ^ 32 % 64 = 61 := by decide
theorem test_job_end_message : Begun (asking 0x0302 5 (leBytes 4 3 ++ zeros 4) (jobState { guest := 5 })) 3 0 jobEndBlock none
    ∧ fget (asking 0x0302 5 (leBytes 4 3 ++ zeros 4) (jobState { guest := 5 })).jobs 3 = some { guest := 5 }
    ∧ (0 ∈ (jobState { guest := 5 }).jobTiles { guest := 5 }) ∧ ((jobState { guest := 5 }).tile 0).atRest = false := ⟨⟨rfl, rfl, rfl, rfl, by decide⟩, rfl, by decide, rfl⟩
def passportState (d : FMap DigestSlot) (v : List Sealing) : State :=
  { jobState { guest := 5 } with
    guests := [(5, { guest5 with digests := d, seals := v })],
    mem := { written := [(0x1000 / 64, 0xFF)] },
    firm := { State.reset.firm with session := some { minor := 2, map := 0xFFF } } }
/-- A request while a session has granted every feature. -/
def sessioned (s : State) : State := { s with firm := { s.firm with session := some { minor := 2, map := 0xFFF } } }
theorem test_digest_message : Begun (sessioned (asking 0x0310 5 ([0, 2, 1, 0, 0, 0, 0, 0] ++ leBytes 8 0x1000 ++ leBytes 8 64 ++ zeros 8) (passportState [] []))) 3 0
    passportDigestBlock none := ⟨rfl, rfl, rfl, rfl, by decide⟩
theorem test_seal_message : Begun (sessioned (asking 0x0311 5 (leBytes 4 3 ++ [0, 1, 2, 0] ++ leBytes 8 0x1000 ++ leBytes 8 64 ++ leBytes 8 0x2000)
    (passportState [(0, { full := true }), (1, { full := true, mode := 1 }), (2, { full := true })] []))) 3 0 passportSealBlock none := ⟨rfl, rfl, rfl, rfl, by decide⟩
theorem test_digest_ends : (passportState [(2, { filling := true, regions := [(0x1000, 64, 0)] })] []).guest? 5
      = some { guest5 with digests := [(2, { filling := true, regions := [(0x1000, 64, 0)] })], seals := [] }
    ∧ ((passportState [(2, { filling := true, regions := [(0x1000, 64, 0)] })] []).digestSlot 5 2).filling = true
    ∧ (passportState [(2, { filling := true, regions := [(0x1000, 64, 0)] })] []).rangeStatus 0x1000 64 = .ok
    ∧ (passportState [] []).guestMem 5 0x1000 64 = true ∧ (passportState [] []).mem.twoSymbol = [] := ⟨rfl, rfl, by decide, by decide, rfl⟩
theorem test_digest_copies : ((passportState [(2, { filling := true, regions := [(0x1000, 64, 0x2000)] })] []).digestSlot 5 2).regions = [(0x1000, 64, 0x2000)]
    ∧ (passportState [(2, { filling := true, regions := [(0x1000, 64, 0x2000)] })] []).rangeStatus 0x1000 64 = .ok
    ∧ (passportState [] []).guestMem 5 0x2000 64 = true ∧ (passportState [] []).guestMem 5 0x4000000 64 = false := ⟨rfl, by decide, by decide, by decide⟩
def seal0 : Sealing := { job := 3, program := 0, weights := 1, inputs := 2, result := 0x1000, resultLen := 64, record := 0x2000, level := 0, flags := 0, profile := 0, seq := 4 }
theorem test_seal_ends : (passportState [] [seal0]).guest? 5 = some { guest5 with digests := [], seals := [seal0] }
    ∧ fget (passportState [] [seal0]).jobs 3 = some { guest := 5 } ∧ (passportState [] [seal0]).rangeStatus 0x1000 64 = .ok
    ∧ (passportState [] [seal0]).guestMem 5 0x1000 64 = true ∧ (passportState [] [seal0]).guestMem 5 0x2000 64 = true
    ∧ (passportState [] [seal0]).firm.events.length < 200 := ⟨rfl, rfl, by decide, by decide, by decide, by decide⟩

/-! ## Witnesses: memory and cellars -/

theorem merges_ok_of_none (s : State) (h : ∀ k, k < 16 → (s.stack k).merge = []) : MergesOk s := fun k hk => by
  rw [h k hk]; exact ⟨List.nodup_nil, fun _ h => nomatch h⟩
theorem test_fnd_read : (State.reset.router (State.reset.mesh.basePhys 0 0)).hasRoom (bufKey .north 3 true) { kind := 8, cls := 3, payload := [{}, {}, {}, {}] } = true
    ∧ State.reset.fndSlot { kind := 6, cls := 3, fw := true, units := 1 } 32 = none ∧ pktFixed { kind := 6, cls := 3, fw := true, units := 1 } 32 = false := by decide
theorem test_fnd_read_slot : State.reset.fndSlot { kind := 6, fw := true, units := 1, paddr := tileBase + 64 } 32 = some (0, 64)
    ∧ State.reset.fndSlot { kind := 6, cls := 3, fw := true, units := 1, paddr := tileBase + 64 } 32 = some (0, 64) := by decide
theorem test_fnd_read_fixed : pktFixed { kind := 6, fw := true, core := steward, units := 1, paddr := fixedArea } 32 = true
    ∧ pktFixed { kind := 7, cls := 3, fw := true, paddr := 0xBFFF780000 } 32 = true ∧ State.reset.fndSlot { kind := 7, cls := 3, fw := true, paddr := 0xBFFF780000 } 32 = none := by decide
theorem test_fnd_read_denied : State.reset.owner 0 0 = none ∧ State.reset.power.tclkStopped = false := by decide
theorem test_fnd_write : MergesOk State.reset ∧ State.reset.Sound ∧ BackingsHoled State.reset.mem ∧ pktFixed { kind := 7, fw := true, paddr := 0x1000 } 32 = false ∧ WritesNow State.reset .firmware 0x1000 32
    ∧ ∀ i, i < 8 * 4 → State.reset.wordStatus (0x1000 + i) = .ok ∨ State.reset.wordStatus (0x1000 + i) = .unwritten :=
  ⟨merges_ok_of_none _ fun _ _ => rfl, rfl, (fun e h => absurd (show e ∈ ([] : FMap Region) from h) List.not_mem_nil), by decide, ⟨(fun w h => absurd (show w ∈ ([] : List Waiting) from h) List.not_mem_nil), fun _ _ => State.marked_unsaved _ (fun e h => absurd (show e ∈ ([] : FMap Job) from h) List.not_mem_nil) _⟩, by decide⟩
theorem test_fnd_write_waits : ({ State.reset with jobs := [(1, { guest := 5, save := some { kind := 0, marks := [0] } })] } : State).marked 0 = true ∧ pagesOf 0x1000 32 = [0] := by decide
theorem test_stacks_on : State.reset.stacksOn = true ∧ State.reset.scrubs = true ∧ (State.reset.stack 0).owed = [] ∧ (State.reset.stack 0).repairQueue = []
    ∧ (State.reset.stack 0).scrubLine < stackLines := ⟨rfl, rfl, rfl, rfl, by decide⟩
def mergeState : State := { State.reset with mem := { stackCtl := [(0, { merge := [{ line := 0, bytes := [(3, 7)] }] })] } }
theorem test_merge_open : mergeState.Sound ∧ MergesOk mergeState ∧ mergeState.stacksOn = true ∧ ∃ e ∈ (mergeState.stack 0).merge, e.line = 0 := by
  refine ⟨rfl, fun k hk => ?_, rfl, ⟨_, List.mem_singleton.mpr rfl, rfl⟩⟩
  match k with
  | 0 => exact ⟨by decide, fun e he => by rw [List.mem_singleton.mp (show e ∈ [({ line := 0, bytes := [(3, 7)] } : MergeEntry)] from he)]; decide⟩
  | k + 1 => exact ⟨List.nodup_nil, fun _ h => nomatch h⟩
/-- A state whose first line of stack memory has an error pattern. -/
def wrongState (pattern : List (BitVec 16)) : State := { State.reset with mem := { wrong := [(0, pattern)], written := [(0, 0xFF)] } }
set_option maxRecDepth 20000 in
theorem test_scrub_two : (0 : Nat) ∈ (wrongState (addSymbols (oneWrong 0 1) (oneWrong 1 1))).mem.twoSymbol := by decide
set_option maxRecDepth 20000 in
theorem test_scrub_one : (wrongState (oneWrong 35 1)).mem.servedAt (lineOf 0 0) = some 0 ∧ (0 : Nat) ∈ (wrongState (oneWrong 35 1)).mem.oneSymbol
    ∧ (0 : Nat) ∉ (wrongState (oneWrong 35 1)).mem.twoSymbol ∧ (wrongState (oneWrong 35 1)).scrubs = true := by decide
def retiringState : State := { State.reset with mem := { retiring := some { pc := 0, seq := 4 } } }
theorem test_pc_retires : retiringState.mem.retiring = some { pc := 0, seq := 4 } ∧ retiringState.timedRuns = false ∧ retiringState.stacksOn = true
    ∧ MergesOk retiringState ∧ TablesOk retiringState.mem := ⟨rfl, rfl, rfl, merges_ok_of_none _ fun _ _ => rfl, List.nodup_nil, fun _ h => nomatch h⟩
theorem test_retire_pc_message : Begun (asking 0x0501 0xFFFF (zeros 8 ++ leBytes 8 (giveUpBase 1)) State.reset) 3 0 memRetirePcBlock none := ⟨rfl, rfl, rfl, rfl, by decide⟩
def cellarState (r : Region) (c : Cellar) : State :=
  { State.reset with mem := { regions := [(0, r)], cellars := [(0, c)] }, hosts := { State.reset.hosts with ports := [(0, { present := true, state := .on, linkUp := true })] } }
theorem test_region_fills : (cellarState { device := some 0 } { present := true }).fills = true ∧ (cellarState { device := some 0 } { present := true }).Sound
    ∧ fget (cellarState { device := some 0 } { present := true }).mem.regions 0 = some { device := some 0 }
    ∧ ∀ e ∈ (cellarState { device := some 0 } { present := true }).mem.regions, e.2.device = some 0 → e.2.filled = false → e.2.held = [] ∧ (e.1 = 0 ∨ 0 < e.2.devRegion) :=
  ⟨rfl, rfl, rfl, fun e he => by rw [List.mem_singleton.mp (show e ∈ [(0, ({ device := some 0 } : Region))] from he)]; exact fun _ _ => ⟨rfl, .inl rfl⟩⟩
theorem test_region_held : ({ device := some 0, held := [(cellarBase + 8, .bytes [1, 2])] } : Region).held = [(cellarBase + 8, .bytes [1, 2])]
    ∧ ({ device := some 0, held := [(cellarBase + 8, .zeros 2)] } : Region).held = [(cellarBase + 8, .zeros 2)]
    ∧ ((cellarState { device := some 0, held := [(cellarBase + 8, .bytes [1, 2])] } { present := true }).cellar 0).releasing = false := ⟨rfl, rfl, rfl⟩
theorem test_cellar_release_message : Begun (asking 0x0502 0xFFFF (zeros 8 ++ leBytes 8 0x40000000 ++ leBytes 8 0x40000000)
    (cellarState { device := some 0, filled := true, written := true } { present := true, capacity := 1 })) 3 0 cellarReleaseBlock none := ⟨rfl, rfl, rfl, rfl, by decide⟩
def evacuating (a : Nat) : State := cellarState { device := some 0, filled := true, written := true } { present := true, releasing := true, targets := [(0, a)] }
theorem test_evacuates (a : Nat) : ((evacuating a).cellar 0).releasing = true ∧ (evacuating a).stage = 0 ∧ (evacuating a).firm.mstate ≠ .auxOnly
    ∧ (evacuating a).evacRuns 0 = [] ∧ ((evacuating a).mem.regions.map (·.1)).Nodup
    ∧ ((evacuating a).cellar 0).switched = 0 ∧ ((evacuating a).cellar 0).copied = 0 ∧ ((evacuating a).cellar 0).targets = [(0, a)]
    ∧ fget (evacuating a).mem.regions 0 = some { device := some 0, filled := true, written := true } ∧ (evacuating a).Sound :=
  ⟨rfl, rfl, (fun h => nomatch h), rfl, List.nodup_singleton 0, rfl, rfl, rfl, rfl, rfl⟩
theorem test_evacuates_to : 0x40000000 + 2 ^ 30 ≤ stackTop ∧ 0x40000000 % 2 ^ 30 = 0 := by decide
def evacuatingBeside : State :=
  { evacuating (regionAddr 1024) with mem := { (evacuating (regionAddr 1024)).mem with
      regions := [(0, { device := some 0, filled := true, written := true }), (1024, { device := some 1, filled := true, hole := true })] } }
theorem test_evacuates_to_a_device : regionAddr 1024 % 2 ^ 30 = 0 ∧ fget evacuatingBeside.mem.regions 1024 = some { device := some 1, filled := true, hole := true }
    ∧ (evacuatingBeside.cellar 0).targets = [(0, regionAddr 1024)] := ⟨by decide, rfl, rfl⟩
theorem test_media_event : ((cellarState {} { present := true }).cellar 0).present = true ∧ (cellarState {} { present := true }).firm.events.length < 256 := ⟨rfl, by decide⟩

/-! ## Witnesses: starts and cores -/

theorem test_cold_restart : State.reset.firm.mstate = .ready ∧ (0xC01D0001 : BitVec 32).getLsbD 0 = true ∧ (0xC01D0001 : BitVec 32).toNat / 65536 = 0xC01D
    ∧ (0x00010001 : BitVec 32).toNat / 65536 ≠ 0xC01D := ⟨rfl, by decide, by decide, by decide⟩
def withFirm (f : Firm) : State := { State.reset with firm := f }
theorem test_restart_accepted : (withFirm { restart := some true }).firm.mstate = .ready ∧ (withFirm { restart := some true }).firm.restart = some true
    ∧ (withFirm { restart := some false }).firm.restart = some false ∧ ((withFirm { restart := some true }).core doorkeeper).run ≠ .out :=
  ⟨rfl, rfl, rfl, by decide⟩
theorem test_no_image : (withFirm { mstate := .coldStart, startStep := 1, flashA := { image := none }, flashB := { image := none } }).selectImage = none
    ∧ (withFirm { mstate := .coldStart, startStep := 1 }).stage < 3 := ⟨rfl, by decide⟩
theorem test_image_selected : (withFirm { mstate := .coldStart, startStep := 1 }).selectImage = some (false, {}) := rfl
theorem test_last_step : (withFirm { mstate := .coldStart, startStep := 8 }).conditions = false ∧ (withFirm { mstate := .coldStart, startStep := 8 }).stage = 0
    ∧ ((withFirm { mstate := .coldStart, startStep := 2 }).core 5).run ≠ .out
    ∧ ((withFirm { mstate := .coldStart, startStep := 2 }).core 5).run ≠ .swapping := ⟨rfl, rfl, by decide, by decide⟩
def shedState (st : Nat) (f : Firm) : State := { State.reset with firm := f, power := { State.reset.power with stages := [st] } }
theorem test_step_waits : 3 ≤ (shedState 3 { mstate := .coldStart, startStep := 4 }).stage ∧ (shedState 3 { mstate := .coldStart, startStep := 4 }).firm.stepDone = false := by decide
theorem test_step_waits_for_mesh : (withFirm { mstate := .coldStart, startStep := 4, meshNext := some ({}, 3) }).firm.meshNext = some ({}, 3) := rfl
def warmLast : State := { withFirm { mstate := .warmStart, startStep := 5 } with mesh := { closed := [4], halts := [.start] } }
theorem test_warm_last : warmLast.firm.mstate = .warmStart ∧ warmLast.stage = 0 ∧ warmLast.mesh.closed ≠ []
    ∧ ∀ e ∈ warmLast.ledgers.live, e.2.moveTo = none := ⟨rfl, rfl, by decide, fun _ h => nomatch h⟩
theorem test_warm_held : (withFirm { mstate := .warmStart, startHeld := true, startStep := 1, stepDone := true }).firm.startHeld = true
    ∧ (withFirm { mstate := .warmStart, startHeld := true, startStep := 1, stepDone := true }).stage < 3 := by decide
def coreState (c : Nat) (k : Core) : State := withFirm { aon := 200000, cores := [(c, k)], holes := [(3, { busy := true })] }
theorem test_watchdog : ((coreState 5 { begun := some 3 }).core 5).run = .running ∧ (coreState 5 { begun := some 3 }).corePowered 5 = true
    ∧ ((coreState 5 { begun := some 3 }).core 5).watchdog + 100000 ≤ (coreState 5 { begun := some 3 }).firm.aon
    ∧ (coreState 5 { watchdog := 150000 }).firm.aon < ((coreState 5 { watchdog := 150000 }).core 5).watchdog + 100000 := by decide
theorem test_restarting : ((coreState 2 { run := .restarting }).core 2).run = .restarting ∧ ((coreState 2 { run := .restarting }).core 2).fails < 2
    ∧ 2 ≤ ((coreState 2 { run := .restarting, fails := 2 }).core 2).fails ∧ (coreState 2 { run := .restarting }).firm.activation = none := by decide

/-! ## Witnesses: firmware -/

set_option maxRecDepth 20000 in
theorem test_stage_invalid : (withFirm { staging := some (0, 4096, 6, true) }).coreUp doorkeeper = true ∧ (parseImage (zeros 0)).valid 0 = false :=
  ⟨rfl, by decide⟩
theorem may_swap (s : State) (c : Nat) (h : s.firm.cores = []) (hc : s.calm = true) : MaySwap s c := by
  refine ⟨?_, ?_, fun _ => hc⟩
  · simp [State.core, h, fgetD, fget]
  · rw [h]; exact fun _ h => nomatch h
theorem test_activation_waits : MaySwap (withFirm { activation := some { seq := 1 }, staged := some {} }) 3
    ∧ (withFirm { activation := some { seq := 1 }, staged := some {} }).calm = true := ⟨may_swap _ _ rfl rfl, rfl⟩
theorem test_hearth_waits : MaySwap (withFirm { activation := some { seq := 1, started := true, waitHearth := true, next := 1 }, staged := some {} }) 1 := may_swap _ _ rfl rfl
def swapping (c : Nat) : State := withFirm { activation := some { seq := 1, started := true }, staged := some {}, cores := [(c, { run := .swapping })] }
theorem test_swapping : ((swapping 3).core 3).run = .swapping ∧ (swapping 3).settling 3 = false ∧ ((swapping 3).cluster 0).moving = none ∧ ((swapping 1).core 1).run = .swapping
    ∧ (swapping 1).firm.flashB.state = 1 ∧ 3 ∉ ({ seq := 1, started := true } : Activation).swapped := ⟨rfl, rfl, rfl, rfl, rfl, by decide⟩
theorem test_marked : (withFirm { activation := some { seq := 1, marking := some 4 }, staged := some {}, recordQueue := [(true, { seq := 4 })] }).coreUp doorkeeper = true
    ∧ ({ seq := 4 } : Record).seq = 4 := ⟨rfl, rfl⟩
theorem test_next_may_swap : MaySwap { swapping 3 with firm := { (swapping 3).firm with cores := (swapping 3).firm.cores.filter (·.1 != 3) } } (nextSwap 3) :=
  may_swap _ _ rfl rfl
theorem test_hello_message : Begun (asking 0x0001 0xFFFF (leBytes 4 7 ++ zeros 12) State.reset) 3 0 helloBlock none := ⟨rfl, rfl, rfl, rfl, by decide⟩
theorem test_features_message : Begun (sessioned (asking 0x0002 0xFFFF (leBytes 32 0xFFF) State.reset)) 3 0 featuresBlock none := ⟨rfl, rfl, rfl, rfl, by decide⟩
theorem test_status_message : Begun (asking 0x0101 0xFFFF [] State.reset) 3 0 moduleStatusBlock none := ⟨rfl, rfl, rfl, rfl, by decide⟩
theorem test_restart_message : Begun (asking 0x0102 0xFFFF [1, 0, 0, 0] State.reset) 3 0 moduleRestartBlock none := ⟨rfl, rfl, rfl, rfl, by decide⟩
theorem test_stage_message : Begun (asking 0x0E01 0xFFFF (leBytes 8 0x1000 ++ leBytes 4 0x2000 ++ zeros 4) State.reset) 3 0 fwStageBlock none := ⟨rfl, rfl, rfl, rfl, by decide⟩
def stagedState : State := asking 0x0E02 0xFFFF (zeros 4) State.reset
def activating (e : Option Nat) (st : List Nat) : State :=
  { stagedState with
    firm := { stagedState.firm with staged := some {}, session := some { minor := 2, map := 0xFFF } }, power := { State.reset.power with emergencyEnd := e, stages := st } }
theorem test_activate_message : Begun (activating none []) 3 0 fwActivateBlock none ∧ (activating none []).emergency = false := ⟨⟨rfl, rfl, rfl, rfl, by decide⟩, rfl⟩
theorem test_activate_message_waits : Begun (activating none [1]) 3 0 fwActivateBlock none ∧ (activating none [1]).emergency = true := ⟨⟨rfl, rfl, rfl, rfl, by decide⟩, rfl⟩

/-! ## Witnesses: register writes -/

def openState : State := { State.reset with hosts := { State.reset.hosts with links := [(0, { mse := true })] } }
theorem test_bar0_open : Bar0Open openState 0 := ⟨by decide, rfl, rfl⟩
theorem test_link_down : ({ openState with hosts := { openState.hosts with links := [(0, { mse := true }), (1, { up := false })] } } : State).link 1 = { up := false } := rfl
theorem test_sizes : (3 ≠ 4 ∧ 3 ≠ 8) ∧ 0x420002 % 4 ≠ 0 := by decide
theorem test_reset_age_limit_is_written : Writes openState 0 0x420000 9 { openState with mesh := { openState.mesh with ageLimit := 9 } } := rfl

/-! ## Witnesses: power -/

theorem test_stage_enters : State.reset.firm.mstate = .ready ∧ State.reset.power.stages = [] ∧ State.reset.power.throttle = false ∧ State.reset.power.tripped = false
    ∧ State.reset.firm.activation = none := ⟨rfl, rfl, rfl, rfl, rfl⟩
def auxState (p : Power) : State := { State.reset with firm := { mstate := .auxOnly, startStep := 0 }, power := p }
theorem test_aux_only : (auxState {}).firm.mstate = .auxOnly ∧ (auxState {}).power.aux = true ∧ (auxState {}).power.overvolt = false
    ∧ (auxState { overvolt := true }).power.overvolt = true ∧ (auxState { lockS5 := true }).power.lockS5 = true ∧ (auxState { aux := false }).power.main = true :=
  ⟨rfl, rfl, rfl, rfl, rfl, rfl⟩
def shedding (p : Power) : State := { State.reset with firm := { mstate := .shedding }, power := p }
theorem test_stage_leaves : (shedding { stages := [1] }).firm.mstate = .shedding ∧ (shedding { stages := [1] }).power.stages = [1]
    ∧ (shedding { throttle := true }).power.stages = [] ∧ (shedding { throttle := true }).power.throttle = true := ⟨rfl, rfl, rfl, rfl⟩
theorem test_loop : State.reset.coreUp hearth = true ∧ State.reset.power.clamp ≠ .safe ∧ State.reset.power.loopDiv = [4, 5, 6, 8, 16].getD 0 0 := ⟨rfl, by decide, rfl⟩
theorem test_divisor_decided : (shedding { decided := some 5 }).power.decided = some 5 := rfl
theorem test_out_of_lock : (shedding { rootLock := false }).power.rootLock = false ∧ (shedding { rootLock := false }).firm.mstate ≠ .auxOnly := ⟨rfl, by decide⟩
theorem test_no_fallback : (3 : Nat) ∉ State.reset.power.onFallback := by decide
theorem test_profile_message : Begun (asking 0x0C01 0xFFFF (2 :: zeros 7) State.reset) 3 0 powerProfileBlock none := ⟨rfl, rfl, rfl, rfl, by decide⟩

/-! ## Witnesses: interrupts and telemetry -/

def ficState (c : Core) : State := { State.reset with firm := { State.reset.firm with cores := [(4, c)] } }
theorem test_core_up : (ficState {}).coreUp 4 = true ∧ (ficState {}).corePowered 4 = true := by decide
theorem test_claimable : (ficState { pend := 6, enable := 4 }).coreUp 4 = true
    ∧ ((6 : BitVec 64) &&& ~~~0 &&& 4).getLsbD 2 = true ∧ (∀ j, j < 2 → ((6 : BitVec 64) &&& ~~~0 &&& 4).getLsbD j = false) := by decide
theorem test_nothing_claimable : ((ficState {}).core 4).pend &&& ~~~((ficState {}).core 4).act &&& ((ficState {}).core 4).enable = 0 := by decide
theorem test_interrupt_taken : (ficState { pend := 4, enable := 4, mask := false }).coreUp 4 = true
    ∧ ((ficState { pend := 4, enable := 4, mask := false }).core 4).mask = false ∧ (4 : BitVec 64) &&& ~~~0 &&& 4 ≠ 0
    ∧ ((ficState { pend := 4, enable := 4, mask := false }).core 4).ctx.shadow = none := by decide
def irqState (l : Upstream) (i : Irq) : State :=
  { State.reset with guests := [(5, guest5)], hosts := { State.reset.hosts with links := [(0, l)] }, irq := i }
def pendingVector : Vector := { addr := 9, data := 3, mask := false, pending := true }
theorem test_unmasked : (irqState { bme := true } { vectors := [(3, { pendingVector with mask := true })] }).holder (3 / 8) = some 5
    ∧ ((irqState { bme := true } { vectors := [(3, { pendingVector with mask := true })] }).vector 3).pending = true
    ∧ ((irqState { bme := true } {}).link ((irqState { bme := true } {}).guest 5).link).open = true := by decide
theorem test_holdoff_expires : (irqState { bme := true } { timers := [(0, 7)], vectors := [(3, pendingVector)] }).dueVectors 0 = [3]
    ∧ fget (irqState { bme := true } { timers := [(0, 7)] }).irq.timers 0 = some 7 := by decide
theorem test_link_states : ((irqState { d3hot := true } {}).link 0).up = true ∧ ((irqState { d3hot := true } {}).link 0).d3hot = true
    ∧ ((irqState { up := false } {}).link 0).up = false ∧ ((irqState {} {}).link 0).bme = false
    ∧ ((irqState { bme := true, l1 := true } {}).link 0).open = true ∧ ((irqState { bme := true, l1 := true } {}).link 0).l1 = true := by decide
theorem test_exiting : ((irqState { bme := true, l1 := true, exiting := true } { expired := [0], vectors := [(3, pendingVector)] }).link 0).exiting = true
    ∧ (irqState { bme := true, l1 := true, exiting := true } { expired := [0], vectors := [(3, pendingVector)] }).holder 0 = some 5 := by decide
theorem test_pme : ((irqState { d3hot := true, pmeEn := true, pmeStatus := true } {}).link 0).pmeStatus = true := rfl
def ringState (i : Irq) : State := irqState { bme := true } { i with teleRunning := true, teleEntries := 64, telePorts := 1, teleSensorMs := 5, teleQueueUs := 10 }
theorem test_ring_takes : RingTakes (ringState { teleTail := 60 }) 8 ∧ RingTakes (ringState {}) 15
    ∧ ((List.range 32).filter ((ringState {}).irq.telePorts.getLsbD ·)).length = 1 :=
  ⟨⟨rfl, by decide, by decide, by decide, by decide, rfl, rfl⟩, ⟨rfl, by decide, by decide, by decide, by decide, rfl, rfl⟩, by decide⟩
theorem test_ring_full : (ringState { teleUsed := 64 }).irq.teleEntries ≤ (ringState { teleUsed := 64 }).irq.teleUsed := by decide
theorem test_ring_message : Begun (asking 0x0D01 0xFFFF ([0, 3, 64, 0, 1, 0, 0, 0] ++ leBytes 8 0x1000 ++ [5, 0, 10, 0, 0, 0, 0, 0]) State.reset) 3 0 teleRingBlock none
    ∧ Begun (asking 0x0D01 0xFFFF ([1, 3, 64, 0, 1, 0, 0, 0] ++ leBytes 8 0x1000 ++ [5, 0, 10, 0, 0, 0, 0, 0]) (ringState {})) 3 0 teleRingBlock none :=
  ⟨⟨rfl, rfl, rfl, rfl, by decide⟩, rfl, rfl, rfl, rfl, by decide⟩

/-! ## Witnesses: upstream links -/

def linkState (l : Upstream) : State := { State.reset with hosts := { State.reset.hosts with links := [(0, l)] } }
def readOut : Upstream := { bme := true, outstanding := [(7, { tx := .read none 0x1000 8 .other, timeoutMs := 40, got := [1, 2] })] }
theorem test_read_out : ((linkState readOut).link 0).up = true ∧ fget ((linkState readOut).link 0).outstanding 7
      = some { tx := .read none 0x1000 8 .other, timeoutMs := 40, got := [1, 2] } ∧ fget ((linkState readOut).link 0).outstanding 8 = none := ⟨rfl, rfl, rfl⟩
theorem test_quiet_link : ((linkState {}).link 0).outstanding = [] ∧ ((linkState {}).link 0).held = [] ∧ (linkState {}).guests = [] := ⟨rfl, rfl, rfl⟩
theorem test_link_is_down : ((linkState { up := false }).link 0).up = false ∧ (linkState { up := false }).firm.mstate ≠ .auxOnly := ⟨rfl, by decide⟩
theorem test_aspm : ((linkState { aspm := true }).link 0).aspm = true ∧ ((linkState { aspm := true }).link 0).held = [] := ⟨rfl, rfl⟩
def written64 (holes : List (Nat × Nat)) : State := { linkState { mse := true } with mem := { State.reset.mem with written := [(64, 0xFF)], stackHoles := holes } }
theorem test_bar4_open : ((written64 []).link 0).mse = true ∧ (written64 []).rangeStatus 0x1000 64 = .ok
    ∧ (written64 [(0, 0x40000000)]).rangeStatus 0x1000 64 = .hole ∧ ((linkState {}).link 0).mse = false := by decide

/-! ## Witnesses: downstream ports -/

def portState (p : Port) : State := { State.reset with hosts := { State.reset.hosts with ports := [(0, p)] } }
theorem test_plain_port (p : Port) : PlainPort (portState p) 0 ∧ (portState p).port 0 = p := ⟨⟨by decide, rfl, rfl, rfl, (by decide : 0 + 3 ≤ 256)⟩, rfl⟩
/-- The slots of the statement: with nothing in it, off, on, waiting for its button, and on its way into service. -/
theorem test_slots : (∃ p : Port, p.contained = false ∧ p.present = false ∧ p.state = .empty)
    ∧ (∃ p : Port, p.contained = false ∧ p.present = true ∧ p.powerEn = true ∧ p.state = .on)
    ∧ (∃ p : Port, p.contained = false ∧ p.present = true ∧ p.powerEn = false ∧ p.state = .fault)
    ∧ (∃ p : Port, p.state = .buttonWait ∧ p.before = .on) ∧ (∃ p : Port, p.state = .buttonWait ∧ p.before ≠ .on)
    ∧ (∃ p : Port, p.powerEn = true ∧ p.state = .powering ∧ p.powerGood = true ∧ p.perstHigh = true ∧ p.linkUp = true ∧ p.cxl = true)
    ∧ (∃ p : Port, p.powerEn = true ∧ p.state = .frozen ∧ p.releaseSeq ≠ none ∧ p.linkUp = false) :=
  ⟨⟨{}, rfl, rfl, rfl⟩, ⟨{ present := true, powerEn := true, state := .on }, rfl, rfl, rfl, rfl⟩, ⟨{ present := true, state := .fault }, rfl, rfl, rfl, rfl⟩, ⟨{ state := .buttonWait, before := .on }, rfl, rfl⟩,
    ⟨{ state := .buttonWait }, rfl, by decide⟩,
    ⟨{ powerEn := true, state := .powering, powerGood := true, perstHigh := true, linkUp := true, cxl := true }, rfl, rfl, rfl, rfl, rfl, rfl⟩,
    ⟨{ powerEn := true, state := .frozen, releaseSeq := some 4 }, rfl, rfl, by decide, rfl⟩⟩
theorem test_third_trigger : 3 ≤ (([0, 0] : List Nat).filter (fun t => 0 < t + 60 * 25000000) ++ [0]).length := by decide
def peerWindow : Port := { linkUp := true, state := .on, active := [(2, { devBase := 1, length := 1, target := 2, valid := true, read := true, write := true })] }
theorem test_peer_window : ((portState peerWindow).port 0).linkUp = true ∧ mapAddr (4096 * 2 + (0x1000 - 4096 * 1)) = .stack 0x2000
    ∧ (fgetD {} ((portState peerWindow).port 0).active 2).valid = true ∧ (fgetD {} ((portState peerWindow).port 0).active 1).valid = false := by decide
theorem test_port_tag : fget ((portState { linkUp := true, outstanding := [(3, { tx := .read none 0 4 .other, timeoutMs := 40 })] }).port 0).outstanding 3
    = some { tx := .read none 0 4 .other, timeoutMs := 40 } := rfl
theorem test_port_waits : ((portState { linkUp := true, quarantine := [(0, 40)], held := [.read none 0 4 .other] }).port 0).held = [.read none 0 4 .other]
    ∧ mapAddr (tileBase + 64) = .tile 0 64 ∧ (portState {}).mesh.serves 0 ≠ none ∧ (2 : Nat) ^ 63 ≤ 2 ^ 63 := by decide
theorem test_port_config_message : Begun (asking 0x0601 0xFFFF [0, 1, 0, 0, 0, 0, 0, 0] (portState {})) 3 0 portConfigBlock none := ⟨rfl, rfl, rfl, rfl, by decide⟩
theorem test_slot_control_message (a : Byte) (h : a = 0 ∨ a = 3 ∨ a = 4) :
    Begun (asking 0x0602 0xFFFF [0, a, 0, 0, 0, 0, 0, 0] (portState { present := true, state := .off })) 3 0 slotControlBlock none := by
  rcases h with rfl | rfl | rfl <;> exact ⟨rfl, rfl, rfl, rfl, by decide⟩
theorem test_slot_off_message (a : Byte) (h : a = 1 ∨ a = 2) :
    Begun (asking 0x0602 0xFFFF [0, a, 0, 0, 0, 0, 0, 0] (portState { present := true, powerEn := true, state := .requested })) 3 0 slotControlBlock none := by
  rcases h with rfl | rfl <;> exact ⟨rfl, rfl, rfl, rfl, by decide⟩
theorem test_port_release_message : Begun (asking 0x0603 0xFFFF (zeros 8) (portState { contained := true, powerEn := true, state := .frozen })) 3 0 portReleaseBlock none :=
  ⟨rfl, rfl, rfl, rfl, by decide⟩
theorem test_overlay_message : Begun (asking 0x0604 0xFFFF [1, 0, 2, 0, 3, 0, 4, 0] State.reset) 3 0 overlaySetBlock none := ⟨rfl, rfl, rfl, rfl, by decide⟩
def overlayState : State := { State.reset with firm := { State.reset.firm with overlayWrites := [(⟨1, 2, 3, 4⟩, 9)] } }
theorem test_overlay_waits : overlayState.firm.overlayWrites = [(⟨1, 2, 3, 4⟩, 9)] ∧ overlayState.coreUp doorkeeper = true := ⟨rfl, by decide⟩

/-! ## Witnesses: guests, doorbells and logs -/

def roomMap : List Byte := 2 :: zeros 127
set_option maxRecDepth 20000 in
theorem test_guest_create_message : Begun (asking 0x0201 6 (roomMap ++ leBytes 4 77 ++ zeros 4) ledgerState) 3 0 guestCreateBlock none := ⟨rfl, rfl, rfl, rfl, by decide⟩
def guestState (g : Guest) : State := { State.reset with guests := [(5, g)] }
theorem test_guest_sends (op : Nat) (b : List Byte) (h : op = 0x0203 ∨ op = 0x0204 ∨ op = 0x0202) (hb : b = leBytes 8 0x400000 ++ leBytes 8 0x200000) :
    (asking op 5 b (guestState { rooms := [0] })).guest? 5 = some { rooms := [0] } := by
  subst hb; rcases h with rfl | rfl | rfl <;> rfl
theorem test_grant_message : Begun (asking 0x0203 5 (leBytes 8 0x400000 ++ leBytes 8 0x200000) (guestState { rooms := [0] })) 3 0 guestGrantBlock none :=
  ⟨rfl, rfl, rfl, rfl, by decide⟩
theorem test_revoke_message : Begun (asking 0x0204 5 (leBytes 8 0x400000 ++ leBytes 8 0x200000 ++ [1, 0, 0, 0, 0, 0, 0, 0])
    (guestState { rooms := [0], grants := [{ base := 0x400000, length := 0x200000 }] })) 3 0 guestRevokeBlock none := ⟨rfl, rfl, rfl, rfl, by decide⟩
theorem test_destroy_message : Begun (asking 0x0202 5 (zeros 8) (guestState { rooms := [0] })) 3 0 guestDestroyBlock none := ⟨rfl, rfl, rfl, rfl, by decide⟩
theorem test_revoking : (guestState { grants := [{ base := 0, length := 0x200000, revoking := some (true, 7) }] }).guest? 5
    = some { grants := [{ base := 0, length := 0x200000, revoking := some (true, 7) }] } := rfl
theorem test_destroying : (guestState { rooms := [0], destroying := some 7 }).guest? 5 = some { rooms := [0], destroying := some 7 }
    ∧ ((guestState { rooms := [0], destroying := some 7 }).guests.map (·.1)).Nodup := ⟨rfl, by decide⟩
def pairState (p : Pair) : State := { guestState { rooms := [0] } with storage := { State.reset.storage with pairs := [(0, p)] } }
theorem test_bar2_open : (({ guestState { rooms := [0] } with hosts := { State.reset.hosts with links := [(0, { mse := true })] } } : State).link 0).memory = true
    ∧ ((guestState { rooms := [0] }).link 0).memory = false := ⟨rfl, rfl⟩
theorem test_doorbell : ({ rooms := [0] } : Guest).pairNo 5 1 = some 0 ∧ 0 / 4 ∈ ({ rooms := [0] } : Guest).open
    ∧ ((pairState { state := 1, guest := 5, sqSize := 16, cqSize := 16 }).pair 0).state ≠ 0 := by decide
def connState (c : Conn) : State := { guestState { rooms := [0] } with net := { State.reset.net with conns := [(0, c)] } }
theorem test_courier_db : ({ rooms := [0] } : Guest).moduleNo 64 0 = some 0 ∧ ((connState { state := .opened, guest := 5 }).conn 0).state ≠ .closed := by decide
theorem test_parlour : (guestState { rooms := [0] }).guest? 5 = some { rooms := [0] } ∧ ({ rooms := [0] } : Guest).home = some 0
    ∧ (5 : Nat) ∉ (guestState {}).hosts.parlour ∧ (guestState {}).guest? 6 = none ∧ (guestState {}).holder 0 = none
    ∧ (guestState { rooms := [0] }).holder 0 = some 5 := ⟨rfl, by decide, by decide, rfl, by decide, by decide⟩
theorem test_log_start_message : Begun (sessioned (asking 0x0210 5 (zeros 8 ++ leBytes 8 16 ++ leBytes 8 0x1000 ++ leBytes 8 0x2000) (guestState { rooms := [0] }))) 3 0
    logStartBlock none := ⟨rfl, rfl, rfl, rfl, by decide⟩
def log16 : DirtyLog := { base := 0, pages := 16, mapA := 0x1000, mapB := 0x2000 }
def logState (l : DirtyLog) (u : Upstream) : State :=
  { guestState { rooms := [0], log := some l } with hosts := { State.reset.hosts with links := [(0, u)] } }
theorem test_fence_message (stop : Bool) : Begun (asking (if stop then 0x0212 else 0x0211) 5 (zeros 8) (logState log16 { bme := true })) 3 0
    (fenceBlock (if stop then 0x0212 else 0x0211) stop) none := by cases stop <;> exact ⟨rfl, rfl, rfl, rfl, by decide⟩
theorem test_fence_link : ((logState log16 { bme := true }).link 0).open = true ∧ freeTag 2048 ((logState log16 { bme := true }).link 0).outstanding
    ((logState log16 { bme := true }).link 0).quarantine ≠ none :=
  ⟨rfl, fun h => absurd (List.find?_eq_none.mp h 0 (by simp)) (by decide)⟩
theorem test_fence_read (second : Bool) : ((logState { log16 with fence := some (false, 3), stage := if second then 2 else 0 }
      { bme := true, outstanding := [(7, { tx := .read (if second then none else some 0) 0 0 (.fence 5 second), timeoutMs := 40 })] }).guest? 5)
      = some { rooms := [0], log := some { log16 with fence := some (false, 3), stage := if second then 2 else 0 } } := rfl
theorem test_log_word : ({ log16 with words := [{ mapB := false, word := 3 }] } : DirtyLog).words = { mapB := false, word := 3 } :: []
    ∧ ({ log16 with words := [{ mapB := false, word := 3 }] } : DirtyLog).fence = none := ⟨rfl, rfl⟩
theorem test_fence_finished : ({ log16 with fence := some (true, 3), stage := 3 } : DirtyLog).stage = 3 := rfl
theorem test_logged_post : (({ logState log16 {} with storage := { State.reset.storage with
      pairs := [(0, { state := 1, guest := 5, sqSize := 16, cqSize := 16, cqBase := 0x3000, toPost := [{ cid := 1 }] })] } } : State).pair 0).cqFree = true := by decide
theorem test_bar2_link : TakesBar2 ({ guestState { rooms := [0] } with hosts := { State.reset.hosts with links := [(1, { mse := true })] } } : State) 1 := by
  unfold TakesBar2; decide
theorem test_served_range : ServedRange (guestState {}) 0x400000 64 := ⟨rfl, rfl, fun i h => ⟨0x400000 + i, by revert i; decide, by omega⟩, by decide⟩
theorem test_unfilled_revoke : ({ guestState {} with mem := { State.reset.mem with regions := [(regionKey 0 0, { device := some 0 })] } } : State).unfilledIn 0x100000000000 64 = true := by
  decide
theorem test_revoke_due : (guestState {}).porter.waits = [] ∧ (∀ e ∈ (guestState {}).jobs, e.2.save = none)
    ∧ ¬ ((guestState {}).unfilledIn 0x400000 64 = true ∧ (true = true ∨ (guestState {}).pendingIn 0x400000 64 = true)) := by decide
theorem test_room_empty : ∀ k ∈ ({ rooms := [0] } : Guest).rooms, (∀ j, j < 4 → ((guestState { rooms := [0] }).pair (4 * k + j)).state = 0)
    ∧ ∀ j, j < 64 → ((guestState { rooms := [0] }).conn (64 * k + j)).state = .closed := by decide
theorem test_closing_conn : ((connState { state := .error, guest := 5, closing := [7] }).conn 0).closing ≠ [] ∧ ((connState { state := .opened }).conn 0).closing = [] := by decide
theorem test_guest_info : leNat (((guestState { rooms := [0, 3], closedRooms := [0] }).bar2Read 5 0xB008 8).getD []) = 5 + 2 ^ 10 + 3 * 2 ^ 32 + 2 ^ 42 := by decide

/-! ## Witnesses: storage -/

def ns1 : Namespace := { extents := [{ remote := false, port := 0, conn := 0, backNsid := 1, start := 100, count := 50 }] }
/-- Guest 5 with an open link, pair m, and namespace 1 on the drive of port 0. -/
def storeState (m : Nat) (p : Pair) (l : Upstream := { bme := true }) : State :=
  { State.reset with
    guests := [(5, { rooms := [0] })],
    hosts := { State.reset.hosts with links := [(0, l)], ports := [(0, { present := true, state := .on, linkUp := true })] },
    storage := { State.reset.storage with pairs := [(m, { p with state := 1, guest := 5, sqSize := 16, cqSize := 16 })], namespaces := [(512 * 5 + 1, ns1)] } }
theorem test_host_takes (m : Nat) (p : Pair) : HostTakes (storeState m p) { rooms := [0] } :=
  ⟨rfl, rfl, rfl, fun h => List.find?_eq_none.mp h 0 (by simp) rfl⟩
theorem test_fetchable : (storeState 0 { tail := 3 }).fetchable 5 = [1] ∧ ({ rooms := [0] } : Guest).pairNo 5 1 = some 0 ∧ ({ rooms := [0] } : Guest).localPair 0 = 1
    ∧ (storeState 0 { tail := 3 }).guest? 5 = some { rooms := [0] } := by decide
theorem test_entry_out : ((storeState 0 { fetching := true } { bme := true, outstanding := [(7, { tx := .read (some 0) 0 64 (.sqFetch 0), timeoutMs := 40 })] }).pair 0).fetching = true
    ∧ ((storeState 0 { fetching := true }).pair 0).cmd? 9 = none := ⟨rfl, rfl⟩
theorem test_posts : ((storeState 0 { toPost := [{ cid := 4 }] }).pair 0).toPost = [{ cid := 4 }]
    ∧ ((storeState 0 {}).pair 0).cqTail + ((storeState 0 {}).pair 0).cqSize - ((storeState 0 {}).pair 0).cqHead = 16 := ⟨rfl, rfl⟩
theorem test_closing_room : ({ storeState 0 {} with mesh := { State.reset.mesh with emptying := [(0, 5)] } } : State).mesh.emptying = [(0 / 4, 5)]
    ∧ (∀ j, j < 4 → 4 * (0 / 4) + j ≠ 0 → ((storeState 0 {}).pair (4 * (0 / 4) + j)).state = 0) ∧ ∀ j, j < 64 → ((storeState 0 {}).conn (64 * (0 / 4) + j)).state = .closed := by decide
theorem test_list_out : ((storeState 0 { cmds := [{ entry := [], cid := 9, need := 3, pages := [0] }] }).pair 0).cmd? 9 = some { entry := [], cid := 9, need := 3, pages := [0] }
    ∧ (leBytes 8 0x1000 ++ leBytes 8 0x2008).length / 8 = 3 - 1 ∧ field (leBytes 8 0x1000 ++ leBytes 8 0x2008) 8 8 % 4096 ≠ 0 := by decide
theorem test_drained : ({ state := 4, reset := true } : Pair).cmds = [] ∧ ({ state := 4, reset := true } : Pair).toPost = [] := ⟨rfl, rfl⟩
theorem test_ns_deleting : ({ storeState 0 {} with storage := { (storeState 0 {}).storage with namespaces := [(2561, { ns1 with deleting := some 7 })] } } : State).ns? 5 1
    = some { ns1 with deleting := some 7 } := by decide
def nsRequest : List Byte := leBytes 4 2 ++ [1, 0, 255, 255] ++ zeros 8 ++ ([0, 0, 0, 0] ++ leBytes 4 1 ++ leBytes 8 10 ++ leBytes 8 20 ++ zeros 8)
/-- What a drive reports is the part's (Config.driveNamespace), so the witness names a drive that reports 200 blocks of the right format. -/
theorem test_ns_create_message (h : Config.driveNamespace 0 1 = (true, 200)) :
    Begun (asking 0x0701 5 nsRequest (storeState 0 {})) 3 0 nsCreateBlock none := by
  have e : (((asking 0x0701 5 nsRequest (storeState 0 {})).hole 3).req 3).extent (asking 0x0701 5 nsRequest (storeState 0 {})) 0
      = { remote := false, port := 0, conn := 0, backNsid := 1, start := 10, count := 20 } := by decide
  have n : (((asking 0x0701 5 nsRequest (storeState 0 {})).hole 3).req 3).f 4 1 = 1 := by decide
  refine ⟨rfl, rfl, rfl, rfl, ?_⟩
  have b : nsCreateBlock.bad (((asking 0x0701 5 nsRequest (storeState 0 {})).hole 3).req 3) (asking 0x0701 5 nsRequest (storeState 0 {})) = false := by
    simp only [nsCreateBlock, n, List.range_one, List.map_cons, List.map_nil, List.any_cons, List.any_nil, e, Extent.backing, h]
    decide
  unfold ReqBlock.check
  rw [b]
  decide
theorem test_ns_delete_message : Begun (asking 0x0702 5 (leBytes 4 1 ++ zeros 4) (storeState 0 {})) 3 0 nsDeleteBlock none := ⟨rfl, rfl, rfl, rfl, by decide⟩
theorem test_queue_create_message : Begun (asking 0x0703 5 ([2, 0, 16, 0, 16, 0, 1, 0] ++ leBytes 8 0x1000 ++ leBytes 8 0x2000 ++ [1, 0, 0, 0, 0, 0, 0, 0]) (storeState 0 {})) 3 0
    queueCreateBlock none ∧ ({ rooms := [0] } : Guest).pairNo 5 2 = some 1 ∧ ({ rooms := [0] } : Guest).moduleNo 8 1 = some 1 := ⟨⟨rfl, rfl, rfl, rfl, by decide⟩, by decide, by decide⟩
theorem test_queue_delete_message : Begun (asking 0x0704 5 [1, 0, 1, 0, 0, 0, 0, 0] (storeState 0 {})) 3 0 queueDeleteBlock none := ⟨rfl, rfl, rfl, rfl, by decide⟩
def cmdOf (op : Nat) (dw10 : Nat := 0) (dw12 : Nat := 0) : Cmd :=
  { entry := [BitVec.ofNat 8 op, 0, 9, 0, 1, 0, 0, 0] ++ zeros 16 ++ leBytes 8 0x5000 ++ zeros 8 ++ leBytes 8 dw10 ++ leBytes 4 dw12 ++ zeros 12, cid := 9 }
theorem test_admin_starts (op : Nat) (h : op = 2 ∨ op = 6 ∨ op = 8 ∨ op = 9 ∨ op = 10 ∨ op = 12) (d : Nat) (hd : d = 0 ∨ d = 1 ∨ d = 2 ∨ d = 7 ∨ d = 11 ∨ d = 4) :
    Starts (storeState 4101 { cmds := [cmdOf op d] }) 4101 9 op { rooms := [0] } (cmdOf op d) := by
  rcases h with rfl | rfl | rfl | rfl | rfl | rfl <;> rcases hd with rfl | rfl | rfl | rfl | rfl | rfl <;> exact ⟨rfl, by decide, rfl, by decide, rfl, by decide, by decide, rfl⟩
theorem test_io_starts (op : Nat) (h : op = 0 ∨ op = 1 ∨ op = 2 ∨ op = 8 ∨ op = 9) :
    Starts (storeState 0 { cmds := [cmdOf op] }) 0 9 op { rooms := [0] } (cmdOf op) ∧ Reaches (storeState 0 { cmds := [cmdOf op] }) 0 (cmdOf op) ns1
      ∧ (cmdOf op).nlb = 1 ∧ (cmdOf op).slba + (cmdOf op).nlb ≤ ns1.size ∧ (cmdOf op).prp1 % 4096 = 0 := by
  rcases h with rfl | rfl | rfl | rfl | rfl <;>
    exact ⟨⟨rfl, by decide, rfl, by decide, rfl, by decide, by decide, rfl⟩, ⟨by decide, rfl, rfl, rfl, by decide, by decide⟩, by decide, by decide, by decide⟩
theorem test_data_out : ({ cmdOf 1 with started := true, need := 1 } : Cmd).got = [] ∧ ({ cmdOf 1 with started := true, need := 1 } : Cmd).need = 1 := ⟨rfl, rfl⟩
theorem test_part_out : ((storeState 0 { cmds := [{ cmdOf 2 with started := true, sent := true, pages := [0x5000], parts := [{ blocks := 1 }] }] }).pair 0).cmd? 9
    = some { cmdOf 2 with started := true, sent := true, pages := [0x5000], parts := [{ blocks := 1 }] } := by decide

/-! ## Witnesses: frames -/

def netState (p : NetPort) (n : Net := {}) : State :=
  { State.reset with net := { n with ports := [(0, p)] }, hosts := { State.reset.hosts with links := [(0, { bme := true })] } }
theorem test_frame_bad : (netState { linkUp := true }).netPort 0 = { linkUp := true } ∧ (zeros 40).length + 4 < 64 := ⟨rfl, by decide⟩
theorem test_frame_plain : (netState { linkUp := true }).courierPort 0 (zeros 60) = none ∧ ¬ (1518 < (zeros 60).length + 4) ∧ etherType (zeros 60) ≠ 0x8808 := by decide
/-- A frame for the courier: IPv6, UDP to 51,812, with a data packet. -/
def courierFrame : List Byte := zeros 12 ++ [0x86, 0xDD] ++ zeros 6 ++ [17] ++ zeros 35 ++ beBytes 2 51812 ++ beBytes 2 48 ++ zeros 2 ++ [0x12] ++ zeros 39
theorem test_courier_frame : (netState { linkUp := true, courierEn := true }).courierPort 0 courierFrame = some 51812 ∧ packetOp (udpPayload courierFrame) = 2 := by decide
def rule0 (act : Nat) : List (BitVec 32) := List.replicate 16 0 ++ [1, 0, BitVec.ofNat 32 act] ++ List.replicate 12 0 ++ [1]
/-- A rule that drops, one for ring 4, and one that spreads over rings 4 and 5. -/
theorem test_rule_hits (act : Nat) (h : act = 0 ∨ act = 1 + 4 * 256 ∨ act = 2 + 4 * 256 + 2 * 65536) : RuleHits (rule0 act) 0 0 (zeros 32) := by
  rcases h with rfl | rfl | rfl <;> exact ⟨by decide, by decide, by decide, by decide⟩
theorem test_rules_listed : (netState { linkUp := true } { rules := [(3, rule0 0)] }).net.rules = [] ++ (3, rule0 0) :: [] ∧ frising [(3, rule0 0)] = true := ⟨rfl, by decide⟩
theorem test_port_enabled : (0 : Nat) < (netState { enabled := true }).netPorts ∧ ((netState { enabled := true }).netPort 0).linkUp = false := ⟨by decide, rfl⟩
theorem test_ring_there : fget (netState {} { rings := [(4, { rxEntries := 16, txEntries := 16 })] }).net.rings 4 = some { rxEntries := 16, txEntries := 16 }
    ∧ (netState {} { rings := [(4, { rxEntries := 16, txEntries := 16 })] }).awaits (.frameRxDesc 4) = false
    ∧ (netState {} { rings := [(4, { rxEntries := 16, txEntries := 16 })] }).awaits (.frameTxDesc 4) = false := ⟨rfl, by decide, by decide⟩
theorem test_frame_read (d : List Byte) : fget (netState {} { rings := [(4, { rxEntries := 16, txEntries := 16, txDesc := some d })], txTail := [(4, 1)] }).net.rings 4
      = some { rxEntries := 16, txEntries := 16, txDesc := some d } ∧ (0 + 1) % 16 = (fgetD (0 : BitVec 16) [(4, 1)] 4).toNat % 16 := ⟨rfl, by decide⟩
theorem test_frame_waits : (netState {} { rings := [(4, { rxEntries := 16, txEntries := 16 })], rxTail := [(4, 3)] }).rxLeft 4 { rxEntries := 16, txEntries := 16 } = 3 := by decide
theorem test_pause_frame : etherType (zeros 12 ++ [0x88, 0x08] ++ zeros 46) = 0x8808 ∧ etherType (zeros 60) ≠ 0x8808 := by decide
theorem test_net_config_message : Begun (asking 0x0801 0xFFFF (1 :: zeros 7) State.reset) 3 0 netConfigBlock none := ⟨rfl, rfl, rfl, rfl, by decide⟩
set_option maxRecDepth 20000 in
theorem test_net_port_message (on : Byte) (h : on = 0 ∨ on = 1) :
    Begun (asking 0x0802 0xFFFF ([0, on, 0, 1] ++ leBytes 2 1518 ++ [0xFF, 0xFF] ++ zeros 24) State.reset) 3 0 netPortSetBlock none := by
  rcases h with rfl | rfl <;> exact ⟨rfl, rfl, rfl, rfl, by decide⟩
set_option maxRecDepth 20000 in
theorem test_net_profile_message : Begun (asking 0x0803 0xFFFF ([1, 22, 38, 16, 54, 56, 20, 0] ++ zeros 32) State.reset) 3 0 netProfileBlock none := ⟨rfl, rfl, rfl, rfl, by decide⟩
theorem test_net_ring_message : Begun (asking 0x0804 0xFFFF ([4, 0, 2, 0, 16, 0, 16, 0] ++ leBytes 8 0x1000 ++ leBytes 8 0x2000) State.reset) 3 0 netRingBlock none :=
  ⟨rfl, rfl, rfl, rfl, by decide⟩
theorem test_net_time_message : Begun (asking 0x0805 0xFFFF ([0, 0, 0, 0] ++ leBytes 4 77) State.reset) 3 0 netTimeBlock none := ⟨rfl, rfl, rfl, rfl, by decide⟩

/-! ## Witnesses: egress -/

def egressState (e : Egress) (up : Bool := true) : State := { State.reset with net := { State.reset.net with ports := [(0, { linkUp := up })] }, traffic := [(0, e)] }
def frame60 (q : Nat) (room : Option Nat) : EgressFrame := { queue := q, room, bytes := zeros 60 }
theorem test_waiting_frame (e : Egress) (h : e.waiting = [frame60 9 (some 3)]) (he : e.frames = []) (hl : e.line = none) (up : Bool) :
    ((egressState e up).egress 0).waiting[0]? = some (frame60 9 (some 3)) ∧ ((egressState e up).netPort 0).linkUp = up ∧ (egressState e up).egress 0 = e
      ∧ e.held.filter (·.queue = 9) = [] := by
  have he' : (egressState e up).egress 0 = e := rfl
  refine ⟨?_, rfl, rfl, ?_⟩
  · rw [he', h]; rfl
  · simp [Egress.held, he, hl]
def policed (peak committed de : Nat) : EgressQueue := { policer := true, polPeak := { size := 100, tokens := peak }, polCommitted := { size := 100, tokens := committed }, deLimit := de }
theorem test_colours : ((policed 0 0 0).polPeak.tokens < 64 * 65536) ∧ (64 * 65536 ≤ (policed (64 * 65536) 0 0).polPeak.tokens)
    ∧ ((policed (64 * 65536) 0 0).deLimit < 0 + 64) ∧ (64 : Nat) ≤ (policed 0 0 0).limit := by decide
theorem test_granted : (egressState { frames := [frame60 75 none], ttGrant := some 3 }).gatePasses 0 75 64 = true
    ∧ ({ frames := [frame60 75 none], ttGrant := some 3 } : Egress).frames.find? (·.queue == 72 + 3) = some (frame60 75 none) := by decide
theorem test_strict_waits : (egressState { frames := [frame60 2 none] }).mayStart 0 (frame60 2 none) = true
    ∧ ({ frames := [frame60 2 none] } : Egress).frames.find? (·.queue == 2) = some (frame60 2 none) := by decide
theorem test_floor_tokens : (egressState { frames := [frame60 9 (some 3)], floorBase := 64 * 65536 }).mayStart 0 (frame60 9 (some 3)) = true
    ∧ (60 + 4) * 65536 ≤ ({ frames := [frame60 9 (some 3)], floorBase := 64 * 65536 } : Egress).floor 3 := by decide
theorem test_weighted_pick : ∃ e', (egressState { frames := [frame60 9 (some 3), frame60 2 none], floorBase := 64 * 65536 }).weightedPick 0 = some (frame60 9 (some 3), e')
    ∧ (egressState {}).stage < 2 := ⟨_, by rfl, by decide⟩
theorem test_second_of_a_connection : ¬ ∀ j x, j < 1 → [{ frame60 72 none with conn := some 5 }, { frame60 72 none with conn := some 5 }][j]? = some x →
    x.conn = none ∨ x.conn ≠ some 5 := fun h => by simpa using h 0 _ (by decide) rfl
theorem test_schedules : ({ tt := { slotNs := 1, flows := [some 3] } } : Egress).tt.flows.length = 1 ∧ ({ gates := { entries := [(1, 32)] } } : Egress).gates.entries.length = 1
    ∧ (0 : Nat) < (egressState {}).netPorts := by decide
set_option maxRecDepth 20000 in
theorem test_traffic_queue_message : Begun (asking 0x0901 0xFFFF ([0, 9, 1, 3] ++ leBytes 4 2000 ++ leBytes 4 1000 ++ zeros 4 ++ leBytes 4 5 ++ leBytes 4 5 ++ leBytes 4 2000 ++ leBytes 4 2000
    ++ leBytes 4 5 ++ leBytes 4 5 ++ leBytes 4 2000 ++ leBytes 4 2000) State.reset) 3 0 trafficQueueBlock none := ⟨rfl, rfl, rfl, rfl, by decide⟩
set_option maxRecDepth 20000 in
theorem test_traffic_port_message : Begun (asking 0x0902 0xFFFF ([0, 0, 0, 0] ++ leBytes 4 5 ++ zeros 64) State.reset) 3 0 trafficPortBlock none := ⟨rfl, rfl, rfl, rfl, by decide⟩
theorem test_timetable_message : Begun (asking 0x0903 0xFFFF ([0, 0, 2, 0] ++ leBytes 4 200 ++ leBytes 4 7 ++ zeros 4 ++ [3, 0xFF]) State.reset) 3 0 trafficTimetableBlock none :=
  ⟨rfl, rfl, rfl, rfl, by decide⟩
theorem test_gates_message : Begun (sessioned (asking 0x0904 0xFFFF ([0, 0, 1, 0] ++ leBytes 4 7 ++ zeros 8 ++ [3, 0, 0, 0] ++ leBytes 4 100) State.reset)) 3 0 trafficGatesBlock none :=
  ⟨rfl, rfl, rfl, rfl, by decide⟩
theorem test_line_busy : ((egressState { line := some (frame60 9 none) }).egress 0).line ≠ none ∧ ((egressState {}).egress 0).line = none := by decide
theorem test_slot_over : ({ tt := { slotNs := 5, flows := [some 3] }, ttStart := -10 } : Egress).ttStart + 5 < (0 : Int) + 40
    ∧ ¬ (0 : Int) + 40 ≤ ({ tt := { slotNs := 5, flows := [some 3] }, ttStart := -10 } : Egress).ttStart + 5 := by decide
theorem test_ring_frame : fget (netState {} { rings := [(4, { rxEntries := 16, txEntries := 16 })] }).net.rings 4 = some { rxEntries := 16, txEntries := 16 }
    ∧ ({ frame60 9 none with ring := some 4 } : EgressFrame).ring = some 4 := ⟨rfl, rfl⟩

/-! ## Witnesses: the courier -/

def conn0 : Conn := { state := .opened, gen := 1, guest := 5, peerConn := 9, peerGen := 2, sendEntries := 16, recvEntries := 16, cqEntries := 32, inflight := 65536, limit := 65536, retries := 3 }
/-- Guest 5 with connection 0, a key of module memory that allows both, and a grant. -/
def courierState (c : Conn) : State :=
  { State.reset with
    guests := [(5, { rooms := [0], grants := [{ base := 0, length := 0x200000 }] })],
    hosts := { State.reset.hosts with links := [(0, { bme := true })] },
    mem := { State.reset.mem with written := [(64, 0xFF)] },
    net := { State.reset.net with conns := [(0, c)], keys := [(3, { tag := 7, guest := 5, kind := 1, read := true, write := true })] } }
/-- A packet for connection 0 of generation 1: its op, flags, MSN, status, bytes of its message, key and data. -/
def packetOf (op flags status msn len key : Nat) (data : List Byte) : List Byte :=
  [BitVec.ofNat 8 (16 + op), BitVec.ofNat 8 flags, 0, 0, 0, 1] ++ beBytes 2 status ++ beBytes 4 msn ++ zeros 8 ++ beBytes 4 len ++ beBytes 8 0x1000 ++ beBytes 4 key ++ zeros 4 ++ data
theorem test_stale_packet : (parseHead (packetOf 2 0 0 0 8 0x7003 (zeros 8))).gen ≠ ((courierState { conn0 with gen := 4 }).conn 0).gen := by decide
set_option maxRecDepth 20000 in
theorem test_write_arrives : Takes (courierState conn0) true (packetOf 2 0 0 0 8 0x7003 (zeros 8)) ∧ parseHead (packetOf 2 0 0 0 8 0x7003 (zeros 8)) = {
      op := 2, conn := 0, gen := 1, msn := 0, length := 8, addr := 0x1000, key := 0x7003 }
    ∧ (courierState conn0).keyAllows 5 0x7003 true 0x1000 8 = some { tag := 7, guest := 5, kind := 1, read := true, write := true }
    ∧ (courierState conn0).keyAllows 5 0x8003 true 0x1000 8 = none ∧ tileRange 0x1000 8 = none
    ∧ (courierState conn0).anchorOf 5 2 8 0x1000 = none ∧ (courierState conn0).tallyBlock 5 (parseHead (packetOf 2 0 0 0 8 0x7003 (zeros 8))) = false ∧ (courierState conn0).trackersUsed < 16384 :=
  ⟨⟨by decide, by decide, by decide, rfl⟩, by decide, by decide, by decide, by decide, by decide, by decide, by decide⟩
set_option maxRecDepth 20000 in
theorem test_repeat_arrives : Takes (courierState { conn0 with complete := [4], dupAcks := [(4, 0)] }) true (packetOf 2 0 0 4 8 0x7003 (zeros 8))
    ∧ ((courierState { conn0 with complete := [4], dupAcks := [(4, 0)] }).conn 0).complete.contains 4 = true
    ∧ (courierState conn0).firm.aon < 0 + 200 ∧ fget conn0.dupAcks 4 = none := ⟨⟨by decide, by decide, by decide, rfl⟩, by decide, by decide, rfl⟩
set_option maxRecDepth 20000 in
theorem test_read_arrives : Takes (courierState conn0) true (packetOf 3 0 0 0 8 0x7003 []) ∧ (courierState conn0).rangeStatus 0x1000 8 = .ok
    ∧ (courierState conn0).keyAllows 5 0x7003 false 0x1000 8 = some { tag := 7, guest := 5, kind := 1, read := true, write := true } := ⟨⟨by decide, by decide, by decide, rfl⟩, by decide, by decide⟩
def flight0 (w : WorkRequest) : InFlight := { wr := { w with op := 2, length := 8 }, msn := 6 }
theorem test_ack_arrives (w : WorkRequest) : ((courierState { conn0 with flights := [flight0 w] }).conn 0).flights.find? (·.msn == 6) = some (flight0 w) := rfl
set_option maxRecDepth 20000 in
theorem test_ack_taken : (courierState conn0).discards true (packetOf 5 1 0 6 0 0 []) = false ∧ (courierState conn0).discards true (packetOf 6 0 1 6 0 0 []) = false
    ∧ (parseHead (packetOf 6 0 1 6 0 0 [])).status ≠ 0 := by decide
theorem test_courier_host : HostTakes (courierState conn0) { rooms := [0], grants := [{ base := 0, length := 0x200000 }] } :=
  ⟨rfl, rfl, rfl, fun h => List.find?_eq_none.mp h 0 (by simp) rfl⟩
theorem test_work_requests : (courierState { conn0 with sendProd := 1 }).awaits (.wrFetch 0 false) = false ∧ 0 % 16 ≠ 1 % 16 ∧ (courierState conn0).storedRequests 5 < 1024 * 1
    ∧ (courierState conn0).storeUsed < 1048576 := by decide
def wr0 : WorkRequest := { op := 2, length := 8, localAddr := 0x1000, localKey := 0x7003 }
theorem test_error_conn : ((courierState { conn0 with state := .error, sendProd := 1, closing := [7] }).conn 0).closing = [7] ∧ (0 + 1) % 16 = 1 % 16
    ∧ ({ conn0 with state := .error, sendProd := 1, closing := [7] } : Conn).nextWr true = none ∧ ({ conn0 with sendProd := 1 } : Conn).nextWr false ≠ none
    ∧ conn0.nextWr false = none ∧ (courierState conn0).mesh.emptying = [] ∧ (courierState conn0).quietHeld 5 = false := by decide
set_option maxRecDepth 20000 in
theorem test_refused_again : (courierState { conn0 with refusedMsns := [(0, 1)] }).discards true (packetOf 2 0 0 0 8 0x7003 (zeros 8)) = false := by decide
theorem test_request_waits : ((courierState { conn0 with sends := [wr0] }).conn 0).mayStart wr0 = true ∧ (courierState { conn0 with sends := [wr0] }).saving 5 = false
    ∧ (courierState { conn0 with sends := [wr0] }).keyAllows 5 0x7003 false 0x1000 8 = some { tag := 7, guest := 5, kind := 1, read := true, write := true } := by decide
theorem test_key_message : Begun (asking 0x0810 5 ([0, 1, 3, 0] ++ zeros 4) (courierState conn0)) 3 0 courierKeyBlock none
    ∧ Begun (asking 0x0810 5 ([1, 0, 0, 0] ++ leBytes 4 0x7003) (courierState conn0)) 3 0 courierKeyBlock none
    ∧ fget (courierState conn0).net.keys 0 = none := ⟨⟨rfl, rfl, rfl, rfl, by decide⟩, ⟨rfl, rfl, rfl, rfl, by decide⟩, rfl⟩
def openState1 : State := let s := courierState conn0
  { s with net := { s.net with ports := [(0, { courierEn := true, maxFrame := 9216 })] } }
set_option maxRecDepth 20000 in
theorem test_open_message : Begun (asking 0x0811 5 ([1, 0, 0, 0] ++ leBytes 4 9 ++ leBytes 4 2 ++ leBytes 2 1 ++ [0, 0] ++ zeros 22 ++ [1, 0] ++ leBytes 4 1000 ++ [3, 0, 0, 0]
      ++ leBytes 4 65536 ++ zeros 4 ++ leBytes 8 0x1000 ++ leBytes 8 0x2000 ++ leBytes 8 0x3000 ++ leBytes 2 16 ++ leBytes 2 16 ++ leBytes 2 32 ++ [0, 0]) openState1) 3 0 courierOpenBlock none
    ∧ ({ rooms := [0] } : Guest).moduleNo 64 1 = some 1 := ⟨⟨rfl, rfl, rfl, rfl, by decide⟩, by decide⟩
theorem test_close_message : Begun (asking 0x0812 5 (zeros 8) (courierState conn0)) 3 0 courierCloseBlock none := ⟨rfl, rfl, rfl, rfl, by decide⟩

/-! ## Witnesses: the cipher -/

def k0 : BitVec 256 × BitVec 256 := (7, 9)
def run0 : CipherRun := {
  guest := 5, mode := 2, unit := 0, slot := 40, localSlot := 0, source := 0x1000, dest := 0x3000, length := 512, aad := 0, aadLen := 0, iv := zeros 16, tagAddr := 0x5000, seq := 6 }
/-- Guest 5 with memory, room 5's slots 40 and 41 holding an XTS pair, slot 42 a GCM key, KEK 0, and engine 0. -/
def cipherState (x : Engine) : State :=
  { guestState { rooms := [5], grants := [{ base := 0, length := 0x200000 }] } with
    mem := { State.reset.mem with written := (List.range 8).map fun i => (64 + i, 0xFF) }
    cipher := { State.reset.cipher with
      slots := [(40, { kind := .xtsLo, bits := 7 }), (41, { kind := .xtsHi, bits := 9 }), (42, { kind := .gcm, bits := 3 })], keks := [(0, 5)], engines := [(0, x)] } }
theorem test_key_identity_message : Begun (asking 0x0A01 0xFFFF [] State.reset) 3 0 keyIdentityBlock none := ⟨rfl, rfl, rfl, rfl, by decide⟩
set_option maxRecDepth 20000 in
set_option exponentiation.threshold 400 in
theorem test_kek_install_message : Begun (asking 0x0A02 0xFFFF (zeros 8 ++ beBytes 48 pGx ++ beBytes 48 pGy) State.reset) 3 0 kekInstallBlock none :=
  ⟨rfl, rfl, rfl, rfl, by decide⟩
theorem test_key_fetch : (cipherState { run := some run0, fetching := true }).slotKey 40 .xtsLo = some k0 ∧ ({ run := some run0, fetching := true } : Engine).needs = some (40, .xtsLo)
    ∧ (cipherState { run := some run0 }).slotKey 44 .xtsLo = none := by decide
theorem test_key_clear_message : Begun (asking 0x0A04 5 (zeros 8) (cipherState {})) 3 0 keyClearBlock none ∧ (cipherState {}).slotHeld 40 = false
    ∧ (cipherState { run := some { run0 with key := some k0 } }).slotHeld 40 = true := ⟨⟨rfl, rfl, rfl, rfl, by decide⟩, by decide, by decide⟩
theorem test_key_load_message : Begun (asking 0x0A03 5 ([4, 0, 2, 0] ++ zeros 76) (cipherState {})) 3 0 keyLoadBlock none := ⟨rfl, rfl, rfl, rfl, by decide⟩
set_option maxRecDepth 20000 in
theorem test_cipher_run_message : Begun (asking 0x0A10 5 ([2, 0, 0, 0, 0, 0, 0, 0] ++ leBytes 8 0x1000 ++ leBytes 8 0x3000 ++ leBytes 8 512 ++ zeros 48) (cipherState {})) 3 0 cipherRunBlock none
    ∧ (cipherState {}).freeEngine = some 0 ∧ NoneWait (cipherState {}) ∧ (cipherState {}).enginesOn = true := ⟨⟨rfl, rfl, rfl, rfl, by decide⟩, rfl, ⟨rfl, rfl⟩, by decide⟩
def keyedRun : State := cipherState { run := some { run0 with key := some k0 } }
set_option maxRecDepth 20000 in
theorem test_run_bytes : keyedRun.goodBytes 5 0x1000 512 = 512 ∧ keyedRun.goodBytes 5 0 0 = 0 ∧ keyedRun.goodBytes 5 0x1000 1024 = 512
    ∧ (cipherState {}).guestMem 5 0x1000 512 = true ∧ (cipherState {}).guestMem 5 0x3000 512 = true := by decide
theorem test_run_notes_none : (keyedRun.memRead 0 0).2.2 = keyedRun := rfl
set_option maxRecDepth 20000 in
theorem test_run_notes_line (i : Nat) (h : i < 8) : keyedRun.noteLine 0x1000 512 (64 + i) = keyedRun := by
  have hr : ∀ i, i < 8 → keyedRun.mem.reach (64 * (64 + i)) = .served (64 * (64 + i)) := by decide
  have hx : ∀ i, i < 8 → mapAddr (64 * (64 + i)) = .stack (64 * (64 + i)) := by decide
  have h2 : ∀ i, i < 8 → keyedRun.mem.twoSymbol.contains (64 * (64 + i) / 64) = false := by decide
  have hp : ∀ i, i < 8 → keyedRun.mem.poison.contains (64 * (64 + i) / 64) = false := by decide
  have h1 : ∀ i, i < 8 → keyedRun.mem.oneSymbol.contains (64 * (64 + i) / 64) = false := by decide
  exact State.noteLine_clean _ _ _ _ _ _ (hr i h) (hx i h) (h2 i h) (hp i h) (h1 i h)
theorem test_run_notes : (keyedRun.memRead 0x1000 512).2.2 = keyedRun := by
  have fold : ∀ l : List Nat, (∀ x ∈ l, keyedRun.noteLine 0x1000 512 x = keyedRun) → l.foldl (fun s x => s.noteLine 0x1000 512 x) keyedRun = keyedRun := by
    intro l
    induction l with
    | nil => exact fun _ => rfl
    | cons x l ih => exact fun h => by rw [List.foldl_cons, h x (.head _)]; exact ih fun y m => h y (.tail _ m)
  have e : (keyedRun.memRead 0x1000 512).2.2 = ((List.range 8).map (64 + ·)).foldl (fun s l => s.noteLine 0x1000 512 l) keyedRun := by
    simp only [State.memRead]
    norm_num
  rw [e]
  exact fold _ fun x m => by
    obtain ⟨i, h, rfl⟩ := List.mem_map.mp m
    exact test_run_notes_line i (List.mem_range.mp h)
def block0 : CipherBlock := { pair := 0, cid := 4, block := 0, tweak := 9, encrypt := true, slot := 40, key := some k0 }
theorem test_block_ends : ((storeState 0 { cmds := [{ entry := [], cid := 4, left := 2 }] }).pair 0).cmd? 4 = some { entry := [], cid := 4, left := 2 } ∧ block0.key = some k0 := ⟨rfl, rfl⟩
theorem test_alarms : (cipherState {}).cipher.active.getLsbD 3 = false
    ∧ ({ cipherState {} with cipher := { (cipherState {}).cipher with active := 8 } } : State).cipher.active.getLsbD 3 = true := by decide
theorem test_clear_waits : ([(3, 40)] : List (Nat × Nat)).find? (·.1 == 3) = some (3, 40) := by decide

/-! ## Witnesses: checkpoints -/

/-- One region of four bytes at address 0x1000, one replica, one dimension, whose table stands at 0x2000. -/
def layout0 : Layout := { area := 0x100000000000, areaLen := 0x4000000, regions := 0x2000, regionCount := 1 }
def ckptState (v : Option Save) (l : Layout := layout0) (cs : List Checkpoint := []) : State :=
  { guestState { rooms := [5] } with
    tiles := [0, 1, 64, 65].map fun p => (p, { atRest := true }), jobs := [(2, { guest := 5, config := some l, save := v })], porter := { checkpoints := cs } }
theorem test_saving (v : Save) : Saving (ckptState (some v)) 2 { guest := 5, config := some layout0, save := some v } v layout0 := ⟨rfl, rfl, rfl⟩
theorem test_start_message : Begun (asking 0x0B02 5 ([2, 0, 0, 0, 1, 1, 0, 0] ++ zeros 8) { ckptState none with firm := { (ckptState none).firm with session := some { minor := 0, map := 0x800 } } }) 3 0 ckptStartBlock none :=
  ⟨rfl, rfl, rfl, rfl, by decide⟩
theorem test_capture_message : Begun (asking 0x0B03 5 ([2, 0, 0, 0] ++ zeros 4) (ckptState (some { kind := 0, quiet := true }))) 3 0 ckptCaptureBlock none := ⟨rfl, rfl, rfl, rfl, by decide⟩
set_option maxRecDepth 20000 in
theorem test_quiet : (ckptState (some { kind := 0 })).jobQuiet { guest := 5 } = true ∧ (ckptState none).coreUp steward = true := by decide
set_option maxRecDepth 20000 in
theorem test_captured : ∀ p ∈ (ckptState none).saveTiles { guest := 5 }, ((ckptState none).tile p).latent = [] ∧ ((ckptState none).tile p).soft = [] ∧ ((ckptState none).tile p).regErrs = [] := by decide
theorem test_no_retirement : (ckptState (some { kind := 0, wanted := true })).retires { guest := 5 } = false
    ∧ ({ ckptState none with tiles := [0, 1, 64, 65].map fun p => (p, { halts := [.retirement 0] }) } : State).retires { guest := 5 } = true := by decide
theorem test_waiting_write : ∀ q ∈ pagesOf 0x30010 8, q = 3 := by decide
theorem test_marks : ([3, 7] : List Nat).filter (· != 3) ≠ [] ∧ [3, 7].min? = some 3 := by decide
theorem test_save_reach : (ckptState (some { kind := 1, packed := true })).porterPending 2 = false
    ∧ (ckptState (some { kind := 1, packed := true })).groupReach 5 { layout0 with modules := 2 } = false := by decide
theorem test_last_page : (packUnits [] [] ((ckptState none).entries 0x2000 1) []).length ≤ areaSlots layout0.areaLen := by decide
def checkpoint0 : Checkpoint := { guest := 5, kind := 0, step := 4, layout := { layout0 with regionCount := 0 }, rooms := [5], job := some { guest := 5 }, complete := true }
theorem test_restore_candidates : (ckptState none layout0 [checkpoint0]).candidates 5 0 checkpoint0.layout = [checkpoint0]
    ∧ (ckptState none layout0 [checkpoint0]).stepComplete checkpoint0 [] = true ∧ (ckptState none layout0 [checkpoint0]).shapeDiffers checkpoint0 checkpoint0.layout = false
    ∧ (ckptState none layout0 [checkpoint0]).shapeDiffers checkpoint0 { checkpoint0.layout with rank := 1 } = true := by decide
theorem test_ran_lately : (ckptState none).ranLately { checkpoint0 with jobNo := 2, conns := [(320, { state := .opened, guest := 5 })] } = true
    ∧ (ckptState none).ranLately checkpoint0 = false := by decide
theorem test_no_candidates : (ckptState none).candidates 5 1 layout0 = [] := rfl
theorem test_drain_room : ¬ ns1.size < 4 + 1025 * 0 ∧ ns1.size < 40 + 1025 * 1 := by decide
theorem test_stripe : unitRank 48 0 82 0 = 36 ∧ unitRank 48 0 82 5 = 41 ∧ stripeShape 48 = (30, 2) := by decide
/-- Guest 5 with memory for a region table and its region, and a cellar area. -/
def layoutState : State := { ckptState none with
  guests := [(5, { rooms := [5], grants := [{ base := 0, length := 0x200000 }, { base := 0x100000000000, length := 0x4000000 }] })],
  mem := { State.reset.mem with cells := [(0x2001, 0x30), (0x2008, 4), (0x2014, 4), (0x2015, 1), (0x2018, 1), (0x2020, 1), (0x2028, 1)], written := [(128, 0xFF), (129, 0xFF)] } }
def layoutBytes : List Byte := leBytes 4 1 ++ zeros 4 ++ leBytes 4 10 ++ zeros 8 ++ leBytes 8 0x100000000000 ++ leBytes 8 0x4000000 ++ zeros 24 ++ leBytes 8 0x2000 ++ leBytes 2 1
set_option maxRecDepth 20000 in
theorem test_config_message : Begun (asking 0x0B01 5 ([2, 0, 0, 0] ++ layoutBytes ++ zeros 46) layoutState) 3 0 ckptConfigBlock none := ⟨rfl, rfl, rfl, rfl, by decide⟩
set_option maxRecDepth 20000 in
theorem test_restore_message : Begun (asking 0x0B04 5 ([1, 0, 0, 0] ++ leBytes 4 4 ++ layoutBytes ++ zeros 18) layoutState) 3 0 ckptRestoreBlock none := ⟨rfl, rfl, rfl, rfl, by decide⟩
theorem test_drain_message : Begun (asking 0x0B05 5 (zeros 12 ++ leBytes 4 1 ++ zeros 8) { ckptState none with storage := { (ckptState none).storage with namespaces := [(512 * 5 + 1, ns1)] } }) 3 0 ckptDrainBlock none :=
  ⟨rfl, rfl, rfl, rfl, by decide⟩

/-! ## Witnesses: service -/

def flashState (a b : BitVec 3) (q : List (Bool × Record) := []) : State := withFirm { State.reset.firm with flashA := { state := a }, flashB := { state := b }, recordQueue := q }
theorem test_buttons : ((flashState 1 2).flash true).state = 2 ∧ ((flashState 1 5).flash true).state = 5 ∧ ((flashState 1 5).flash false).state ≠ 5 := by decide
theorem test_release_message : Begun (asking 0x0E03 0xFFFF ([1] ++ zeros 7) (flashState 1 1)) 3 0 flashReleaseBlock none
    ∧ Begun (asking 0x0E03 0xFFFF ([1] ++ zeros 7) (flashState 1 1 [(true, {})])) 3 0 flashReleaseBlock none ∧ NoneMoves (flashState 1 1) :=
  ⟨⟨rfl, rfl, rfl, rfl, by decide⟩, ⟨rfl, rfl, rfl, rfl, by decide⟩, ⟨fun _ => rfl, rfl, (fun _ h => nomatch h), rfl, (fun h => nomatch h)⟩⟩
theorem test_locate_message : Begun (asking 0x0605 0xFFFF ([2] ++ zeros 7) State.reset) 3 0 serviceLocateBlock none := ⟨rfl, rfl, rfl, rfl, by decide⟩
set_option maxRecDepth 20000 in
theorem test_tile_retire_message : Begun (asking 0x0F10 0xFFFF [5, 0, 1, 0] State.reset) 3 0 tileRetireBlock none ∧ (State.reset.core (innkeeper (clusterOf 5))).run = .running :=
  ⟨⟨rfl, rfl, rfl, rfl, by decide⟩, rfl⟩
theorem test_fill : ((flashState 4 1).flash false).state = 4 ∧ (flashState 4 1).firm.running.valid (flashState 4 1).firm.rollbackFloor = true := by decide
theorem test_present : ((flashState 3 1).flash (0 == 1)).state = 3 ∧ ((flashState 1 1).flash (0 == 1)).state = 1 := ⟨rfl, rfl⟩

end Sys2Proof.Tests
end

section
/-! SUPPORT. Writes to BAR0: where the 4 bytes of a write go, and, register by register, the one field that they change (R9, R10, R345). -/

namespace Sys2Proof.Machine

/-! ## The way of a write to its register -/

/-- A write of 4 bytes carries its value in the low half of the command's 64 bits. -/
@[simp] theorem extractLsb'_setWidth_64 (v : BitVec 32) : (v.setWidth 64).extractLsb' 0 32 = v := by
  apply BitVec.eq_of_toNat_eq
  simp
  omega

/-- A write of 4 aligned bytes below the pigeonholes' slots, in no hole, on a link that takes it, writes one register. -/
theorem State.bar0Write_register (s : State) (link o : Nat) (v : BitVec 32) (hl : link < 2) (hu : (s.link link).up = true)
    (hm : (s.link link).memory = true) (ha : o % 4 = 0) (ho : o < 0x1000000) (hh : s.hole0 o = false) :
    s.bar0Write link o 4 (v.setWidth 64) = s.regWrite link o v := by
  simp [State.bar0Write, hl, hu, hm, ha, hh, show ¬ 0x2000000 ≤ o by omega, show ¬ 0x1000000 ≤ o by omega]

/-- A write that is not of 4 or 8 aligned bytes, or that touches a hole, is an unsupported request (R9, R10, R348). -/
theorem State.bar0Write_unsupported (s : State) (link o size : Nat) (w : BitVec 64) (hl : link < 2) (hu : (s.link link).up = true)
    (hb : (size ≠ 4 ∧ size ≠ 8) ∨ o % size ≠ 0 ∨ s.hole0 o = true) : s.bar0Write link o size w = s.unsupported link false := by
  unfold State.bar0Write
  rw [if_pos ⟨hl, hu⟩, if_pos]
  rcases hb with ⟨h4, h8⟩ | ha | hh
  · simp [h4, h8]
  · simp [ha]
  · simp [hh]

/-- Nothing happens on a link that is down. -/
theorem State.bar0Write_down (s : State) (link o size : Nat) (w : BitVec 64) (hd : (s.link link).up = false) : s.bar0Write link o size w = s := by
  simp [State.bar0Write, hd]

/-- The engines' register blocks but the traffic block have no hole (R345, R484). -/
theorem State.hole0_block (s : State) {o : Nat} (h1 : 0x400000 ≤ o) (h2 : o < 0x500000) (h3 : o / 0x10000 ≠ 0x4A) : s.hole0 o = false := by
  have h4 : ¬ (0x4A0000 ≤ o ∧ o < 0x4B0000) := by omega
  simp [State.hole0, h1, h2]
  omega

/-- Nor do the module state block, the pigeonholes' registers, the MSI-X table and the pigeonholes' slots. -/
theorem State.hole0_below (s : State) {o : Nat} (h : o < 0x10 ∨ 0x1000 ≤ o ∧ o < 0x1200 ∨ 0x20000 ≤ o ∧ o < 0x20400) : s.hole0 o = false := by
  rcases h with h | ⟨h1, h2⟩ | ⟨h1, h2⟩
  · simp [State.hole0, h]; omega
  · simp [State.hole0, h1, h2]; omega
  · simp [State.hole0, h1, h2]; omega

theorem State.hole0_slots (s : State) {o : Nat} (h1 : 0x1000000 ≤ o) (h2 : o < 0x1020000) : s.hole0 o = false := by
  simp [State.hole0, h1, h2]
  omega

/-- A write between 0x400000 and 0x500000 goes to the register block that the offset's higher digits name. -/
theorem State.regWrite_block (s : State) (link : Nat) {b a : Nat} (v : BitVec 32) (hb : b < 16) (ha : a < 0x10000) :
    s.regWrite link (0x400000 + 0x10000 * b + a) v = s.blockWrite b a v := by
  have e1 : (0x400000 + 0x10000 * b + a - 0x400000) / 0x10000 = b := by omega
  have e2 : (0x400000 + 0x10000 * b + a) % 0x10000 = a := by omega
  unfold State.regWrite
  rw [if_neg (by omega), if_neg (by omega), if_neg (by omega), if_pos (by omega), e1, e2]

/-- PH_CTL_n written without GO sets IRQ_EN alone (R50). -/
theorem State.holeWrite_control (s : State) (n : Nat) (v : BitVec 32) (hg : v.getLsbD 0 = false) :
    s.holeWrite n (some v) none = s.modHole n fun x => { x with irqEn := v.getLsbD 1 } := by
  simp only [State.holeWrite, hg, Bool.and_false, Bool.false_and, Bool.false_eq_true, if_false]

/-- PH_STAT_n written clears DONE and DROPPED where it holds 1 (R52). -/
theorem State.holeWrite_status (s : State) (n : Nat) (v : BitVec 32) :
    s.holeWrite n none (some v) = s.modHole n fun x => { x with done := x.done && !v.getLsbD 1, dropped := x.dropped && !v.getLsbD 2 } := by
  simp only [State.holeWrite, Bool.and_false, Bool.false_and, Bool.false_eq_true, if_false]

end Sys2Proof.Machine
end

section
/-! SUPPORT. The registers of BAR0, block by block: what a write of 4 bytes to each of them changes (O38). -/

namespace Sys2Proof.Claims
open Sys2Proof.Machine

theorem exec_registerWrite (link o size : Nat) (w : BitVec 64) (s : State) :
    exec (.registerWrite link o size w) s = .next (s.bar0Write link o size w) := rfl

/-- A value cut to n bits is 0 exactly when the number is 0 modulo 2^n. -/
theorem setWidth_eq_zero_iff {w : Nat} (v : BitVec w) (n : Nat) : v.setWidth n = 0 ↔ v.toNat % 2 ^ n = 0 := by
  simp [BitVec.toNat_eq]

/-- MODULE_CTL takes COLD_RESTART only with the confirmation in its upper half (R49). -/
theorem extractLsb'_upper_eq_iff (v : BitVec 32) : v.extractLsb' 16 16 = 0xC01D ↔ v.toNat / 65536 = 0xC01D := by
  have := v.isLt
  simp [BitVec.toNat_eq, Nat.shiftRight_eq_div_pow]
  omega

section
variable {link : Nat} {v : BitVec 32} {s : State} (h : Bar0Open s link)
include h

theorem writes_register {o : Nat} (ha : o % 4 = 0) (ho : o < 0x1000000) (hh : s.hole0 o = false) : Writes s link o v (s.regWrite link o v) := by
  obtain ⟨hl, hu, hm⟩ := h
  rw [Writes, exec_registerWrite, s.bar0Write_register link o v hl hu hm ha ho hh]

/-- A write to an engine's register block, of whose offsets none is a hole. -/
theorem writes_block {o t} (b a : Nat) (hb : b < 16 ∧ b ≠ 10) (ha : a < 0x10000 ∧ a % 4 = 0) (ho : o = 0x400000 + 0x10000 * b + a)
    (ht : s.blockWrite b a v = t) : Writes s link o v t := by
  subst ho
  rw [← ht, ← s.regWrite_block link v hb.1 ha.1]
  exact writes_register h (by omega) (by omega) (s.hole0_block (by omega) (by omega) (by omega))

/-! ## The mesh block (R234) -/

theorem writes_ageLimit :
    Writes s link 0x420000 v (if v.toNat % 1024 = 0 then s else { s with mesh := { s.mesh with ageLimit := v.setWidth 10 } }) :=
  writes_block h 2 0 (by decide) (by decide) rfl (if_congr (setWidth_eq_zero_iff v 10) rfl rfl)

theorem writes_meshAge {c : Nat} (hc : c < 16) :
    Writes s link (0x420104 + 16 * c) v (s.modCluster c fun k => { k with maxAge := v.setWidth 10 }) := by
  refine writes_block h 2 (0x104 + 16 * c) (by decide) (by omega) (by omega) ?_
  have e : (0x104 + 16 * c - 0x100) / 16 = c := by omega
  simp only [State.blockWrite]
  rw [if_neg (by omega), if_pos (by omega), e]

/-! ## The ledger, determinism and memory blocks (R269, R297, R336) -/

theorem writes_barrierDelay :
    Writes s link 0x430000 v { s with ledgers := { s.ledgers with barrierDelay := BitVec.ofNat 16 (max 4096 (v.toNat % 65536)) } } :=
  writes_block h 3 0 (by decide) (by decide) rfl rfl

theorem writes_rtm : Writes s link 0x440000 v { s with ledgers := { s.ledgers with rtm := v.getLsbD 0 } } :=
  writes_block h 4 0 (by decide) (by decide) rfl rfl

theorem writes_scrubPeriod :
    Writes s link 0x450004 v (if v.toNat % 256 = 0 ∨ 168 < v.toNat % 256 then s else { s with mem := { s.mem with period := v.setWidth 8 } }) :=
  writes_block h 5 4 (by decide) (by decide) rfl
    (if_congr (or_congr (setWidth_eq_zero_iff v 8) (by rw [BitVec.toNat_setWidth])) rfl rfl)

/-! ## The port block (R348, R372, R373) -/

theorem writes_aperture {n : Nat} (hn : n < 2) :
    Writes s link (0x460008 + 16 * n) v (if 704 < v.toNat % 1024 then s else s.modLink n fun l => { l with aperture := v.setWidth 10 }) := by
  refine writes_block h 6 (8 + 16 * n) (by decide) (by omega) (by omega) ?_
  have e : (8 + 16 * n) / 16 = n := by omega
  simp only [State.blockWrite, State.portWrite]
  rw [if_pos (by omega), e, BitVec.toNat_setWidth]

theorem writes_mgrLink : Writes s link 0x460020 v { s with hosts := { s.hosts with mgrLink := v.setWidth 1 } } :=
  writes_block h 6 0x20 (by decide) (by decide) rfl rfl

theorem writes_shadowWindow {n w k : Nat} (hn : n < 8) (hw : w < 16) (hk : k < 8) :
    Writes s link (0x461000 + 0x400 * n + 32 * w + 4 * k) v
      (s.modPort n fun p => if p.commit then { p with shadowLost := true } else { p with shadow := fupd {} p.shadow w fun x => x.put k v }) := by
  refine writes_block h 6 (0x1000 + 0x400 * n + 32 * w + 4 * k) (by decide) (by omega) (by omega) ?_
  have en : (0x1000 + 0x400 * n + 32 * w + 4 * k - 0x1000) / 0x400 = n := by omega
  have ew : (0x1000 + 0x400 * n + 32 * w + 4 * k) % 0x400 / 32 = w := by omega
  have ek : (0x1000 + 0x400 * n + 32 * w + 4 * k) % 32 / 4 = k := by omega
  simp only [State.blockWrite, State.portWrite]
  rw [if_neg (by omega), if_neg (by omega), if_neg (by omega), if_pos (by omega), en, ew, ek]

/-! ## The network and cipher blocks (R433, R460, R505) -/

theorem writes_ruleIndex :
    Writes s link 0x491000 v (s.modNet fun n => { n with ruleIndex := v.setWidth 16, ruleBad := n.ruleBad && !v.getLsbD 16 }) :=
  writes_block h 9 0x1000 (by decide) (by decide) rfl rfl

theorem writes_ruleStaging {k : Nat} (hk : k < 31) :
    Writes s link (0x491080 + 4 * k) v (s.modNet fun n => { n with staging := fset n.staging k v }) := by
  refine writes_block h 9 (0x1080 + 4 * k) (by decide) (by omega) (by omega) ?_
  have e : (0x1080 + 4 * k - 0x1080) / 4 = k := by omega
  simp only [State.blockWrite, State.netWrite]
  rw [if_neg (by omega), if_pos (by omega), e]

theorem writes_courierUdp :
    Writes s link 0x492000 v
      (if v.toNat % 65536 = 0 ∨ v.toNat % 65536 = 4791 then s else s.modNet fun n => { n with courierUdp := v.setWidth 16 }) := by
  have e : v.setWidth 16 = (4791 : BitVec 16) ↔ v.toNat % 65536 = 4791 := by simp [BitVec.toNat_eq]
  exact writes_block h 9 0x2000 (by decide) (by decide) rfl (if_congr (or_congr (setWidth_eq_zero_iff v 16) e) rfl rfl)

theorem writes_cipherAlarm :
    Writes s link 0x4B0004 v { s with cipher := { s.cipher with latched := s.cipher.latched &&& ~~~(v.extractLsb' 8 5) } } :=
  writes_block h 11 4 (by decide) (by decide) rfl rfl

/-! ## The interrupt and telemetry block (R577, R590) -/

theorem writes_inputPeak : Writes s link 0x4E000C v (s.modIrq fun i => { i with peakW := v.extractLsb' 16 16 }) :=
  writes_block h 14 0xC (by decide) (by decide) rfl rfl

theorem writes_tempPeak {k : Nat} (hk : k < 184) :
    Writes s link (0x4E0100 + 4 * k) v (s.modIrq fun i => { i with tempPeaks := fset i.tempPeaks k (v.extractLsb' 16 16) }) := by
  refine writes_block h 14 (0x100 + 4 * k) (by decide) (by omega) (by omega) ?_
  have e : (0x100 + 4 * k - 0x100) / 4 = k := by omega
  simp only [State.blockWrite, State.irqWrite]
  rw [if_neg (by omega), if_neg (by omega), if_pos (by omega), e]

theorem writes_holdoff {k : Nat} (hk : k < 1024) :
    Writes s link (0x4E1000 + 4 * k) v (s.modIrq fun i => { i with holdoff := fset i.holdoff k (v.setWidth 10) }) := by
  refine writes_block h 14 (0x1000 + 4 * k) (by decide) (by omega) (by omega) ?_
  have e : (0x1000 + 4 * k - 0x1000) / 4 = k := by omega
  simp only [State.blockWrite, State.irqWrite]
  rw [if_neg (by omega), if_neg (by omega), if_neg (by omega), if_pos (by omega), e]

/-! ## The MSI-X table and the pigeonholes (R50, R52, R342) -/

theorem writes_msixData {k : Nat} (hk : k < 64) :
    Writes s link (0x20008 + 16 * k) v (s.modLink link fun l => { l with msixData := fset l.msixData k v }) := by
  have hw := writes_register (v := v) h (o := 0x20008 + 16 * k) (by omega) (by omega) (s.hole0_below (by omega))
  have eo : 0x20008 + 16 * k - 0x20000 = 8 + 16 * k := by omega
  have ek : (8 + 16 * k) / 16 = k := by omega
  have ew : (8 + 16 * k) % 16 = 8 := by omega
  unfold State.regWrite at hw
  rw [if_neg (by omega), if_neg (by omega), if_pos (by omega), eo] at hw
  simpa only [Upstream.msixWrite, ek, ew] using hw

/-- PH_CTL_n without GO (R50). -/
theorem writes_holeControl {n : Nat} (hn : n < 32) (hg : v.getLsbD 0 = false) :
    Writes s link (0x1000 + 16 * n) v (s.modHole n fun x => { x with irqEn := v.getLsbD 1 }) := by
  have hw := writes_register (v := v) h (o := 0x1000 + 16 * n) (by omega) (by omega) (s.hole0_below (by omega))
  have e : (0x1000 + 16 * n - 0x1000) / 16 = n := by omega
  unfold State.regWrite at hw
  rwa [if_neg (by omega), if_pos (by omega), if_pos (by omega), e, s.holeWrite_control n v hg] at hw

/-- PH_STAT_n (R52). -/
theorem writes_holeStatus {n : Nat} (hn : n < 32) :
    Writes s link (0x1004 + 16 * n) v (s.modHole n fun x => { x with done := x.done && !v.getLsbD 1, dropped := x.dropped && !v.getLsbD 2 }) := by
  have hw := writes_register (v := v) h (o := 0x1004 + 16 * n) (by omega) (by omega) (s.hole0_below (by omega))
  have e : (0x1004 + 16 * n - 0x1000) / 16 = n := by omega
  unfold State.regWrite at hw
  rwa [if_neg (by omega), if_pos (by omega), if_neg (by omega), if_pos (by omega), e, s.holeWrite_status n v] at hw

/-- The bytes of a slot, which a write while BUSY is 1 leaves (R52). -/
theorem registerWrite_slot {n o : Nat} (hn : n < 32) (ho : o < 4096) (ha : o % 4 = 0) :
    exec (.registerWrite link (0x1000000 + 4096 * n + o) 4 (v.setWidth 64)) s
      = .next (s.modHole n fun x => if x.busy then { x with dropped := true } else x.put o (leBytes 4 v.toNat)) := by
  obtain ⟨hl, hu, hm⟩ := h
  have hh := s.hole0_slots (o := 0x1000000 + 4096 * n + o) (by omega) (by omega)
  have en : (0x1000000 + 4096 * n + o - 0x1000000) / 4096 = n := by omega
  have eo : (0x1000000 + 4096 * n + o) % 4096 = o := by omega
  have ev : (v.setWidth 64).toNat = v.toNat := by simp; omega
  rw [exec_registerWrite]
  unfold State.bar0Write State.slotWrite
  rw [if_pos ⟨hl, hu⟩, if_neg (by simp [hm, hh]; omega), if_neg (by omega), if_pos (by omega), en, eo, ev]

/-! ## Writes that change no register -/

/-- MODULE_CTL without CONFIRM (R49). -/
theorem writes_moduleControl_unconfirmed (hv : v.toNat / 65536 ≠ 0xC01D) : Writes s link 0xC v s := by
  have hw := writes_register (v := v) h (o := 0xC) (by decide) (by decide) (s.hole0_below (by decide))
  have he : s.regWrite link 0xC v = s := by
    show s.moduleWrite v = s
    unfold State.moduleWrite
    exact if_neg fun hc => hv ((extractLsb'_upper_eq_iff v).1 hc.2.1)
  rwa [he] at hw

theorem writes_readOnly : ∀ o ∈ [0x0, 0x4, 0x8, 0x400000, 0x420010, 0x440004, 0x4D0000, 0x4F0000], Writes s link o v s := by
  simp only [List.forall_mem_cons]
  have below : ∀ o < 0xC, o % 4 = 0 → Writes s link o v s := fun o ho ha => by
    have hw := writes_register (v := v) h (o := o) ha (by omega) (s.hole0_below (by omega))
    unfold State.regWrite at hw
    rwa [if_pos (by omega), if_neg (by omega)] at hw
  exact ⟨below _ (by decide) (by decide), below _ (by decide) (by decide), below _ (by decide) (by decide),
    writes_block h 0 0 (by decide) (by decide) rfl rfl, writes_block h 2 0x10 (by decide) (by decide) rfl rfl,
    writes_block h 4 4 (by decide) (by decide) rfl rfl, writes_block h 13 0 (by decide) (by decide) rfl rfl,
    writes_block h 15 0 (by decide) (by decide) rfl rfl, fun _ hn => nomatch hn⟩

/-- A write of another size, misaligned or in a hole is answered as an unsupported request (R9, R10, R348). -/
theorem registerWrite_unsupported {o size : Nat} (w : BitVec 64)
    (hb : (size ≠ 4 ∧ size ≠ 8) ∨ o % size ≠ 0 ∨ o = 0x10 ∨ o = 0x300000) :
    exec (.registerWrite link o size w) s = .next (s.unsupported link false) := by
  obtain ⟨hl, hu, -⟩ := h
  have hh : o = 0x10 ∨ o = 0x300000 → s.hole0 o = true := by rintro (rfl | rfl) <;> rfl
  rw [exec_registerWrite, s.bar0Write_unsupported link o size w hl hu (hb.imp_right (Or.imp_right hh))]

end

/-- Settles O38, register by register: each offset leads to one arm of its block's write, which changes that register's field alone. -/
theorem registerWritesChangeTheirFields : Obligations.RegisterWritesChangeTheirFields := by
  intro link v s h
  refine ⟨writes_ageLimit h, fun _ => writes_meshAge h, writes_barrierDelay h, writes_rtm h, writes_scrubPeriod h, fun _ => writes_aperture h,
    writes_mgrLink h, fun _ _ _ => writes_shadowWindow h, writes_ruleIndex h, fun _ => writes_ruleStaging h, writes_courierUdp h,
    writes_cipherAlarm h, writes_inputPeak h, fun _ => writes_tempPeak h, fun _ => writes_holdoff h, fun _ => writes_msixData h,
    fun _ => writes_holeControl h, fun _ => writes_holeStatus h, ?slot, writes_moduleControl_unconfirmed h, writes_readOnly h, ?unsupported, ?down⟩
  case slot =>
    intro n o hn ho ha
    refine ⟨_, registerWrite_slot h hn ho ha, fun k hk => State.hole_modHole_other s n k _ hk, rfl, ?_⟩
    rw [State.hole_modHole]
    by_cases hb : (s.hole n).busy = true
    · rw [if_pos hb, if_pos hb]
    · rw [if_neg hb, if_neg hb]
      exact ⟨Pigeonhole.get_put_same _ _ _ _ (leBytes_length 4 _).symm, rfl⟩
  case unsupported =>
    intro o size w hb
    refine ⟨_, registerWrite_unsupported h w hb, ?_, fun k hk => State.link_modLink_other s link k _ hk, rfl⟩
    rw [State.unsupported, State.link_modLink]
  case down =>
    intro o size w n hd
    exact ⟨s, by rw [exec_registerWrite, State.bar0Write_down s n o size w hd], rfl⟩

end Sys2Proof.Claims
end

section
/-! SUPPORT. The warm start that begins while the Doorkeeper is being swapped (O34). -/

namespace Sys2Proof.Claims
open Sys2Proof.Machine

/-- RESTART_DELAY_EXPIRE in READY with a warm restart accepted (R46). -/
theorem exec_restartDelayExpire_warm (s : State) (hm : s.firm.mstate = .ready) (hr : s.firm.restart = some true) :
    exec .restartDelayExpire s = .next ((s.modFirm fun f => { f with restart := none }).warmStart false) := by
  show execRestartDelayExpire s = _
  simp [execRestartDelayExpire, hm, hr, done]

/-- A module in READY that has accepted a warm restart, and then an activation, which FW_ACTIVATE does not refuse while the restart's delay
runs; the activation stands at the Doorkeeper's swap (R74). -/
def doorkeeperSwapping : State :=
  { firm :=
      { restart := some true, staged := some {}, activation := some { seq := 1, started := true, next := doorkeeper },
        cores := [(doorkeeper, { run := .swapping })] } }

/-- The swap goes on through the warm start (R76, notes/assumptions/69.md). -/
theorem warmStart_doorkeeperSwapping_run :
    (((doorkeeperSwapping.modFirm fun f => { f with restart := none }).warmStart false).core doorkeeper).run = .swapping := by
  decide

/-- Refutes O34: the statement has the Doorkeeper run as soon as a warm start begins, unless it is out of service, but a Doorkeeper that is
being swapped is swapping still. -/
theorem not_startsFollowTheirSteps : ¬ Obligations.StartsFollowTheirSteps := by
  intro h
  obtain ⟨-, hrestart, -⟩ := h
  obtain ⟨t, ht, -, -, -, -, -, -, -, -, -, hrun, -⟩ := (hrestart doorkeeperSwapping (Or.inl rfl)).2 rfl
  have hruns : (t.core doorkeeper).run = .running := hrun (by decide)
  rw [exec_restartDelayExpire_warm doorkeeperSwapping rfl rfl] at ht
  injection ht with ht
  rw [← ht, warmStart_doorkeeperSwapping_run] at hruns
  exact absurd hruns (by decide)

end Sys2Proof.Claims
end

section
/-! SUPPORT. The results of a stopped context that are still in the function unit when its job ends (O23). -/

namespace Sys2Proof.Claims
open Sys2Proof.Machine

/-- Tile 0 with two contexts of job 1 whose results the function unit holds: context 0 waits with its END for the result at the head of the queue
(R127), and context 1 has stopped on a trap after it asked for its own. -/
def stoppedBesideEnding : State :=
  { tiles := [(0,
      { ctxs :=
          [(0, { assigned := true, job := 1, ready := true, ending := true, pos := 1, queue := [{ due := 8, issued := 0, produced := false, eff := .lanes 1 [] }] }),
           (1, { assigned := true, job := 1, ready := true, stopped := true, pos := 1, queue := [{ due := 8, issued := 0, produced := false, eff := .lanes 1 [] }] })],
        fnQueue := [(0, 0), (1, 0)] })],
    jobs := [(1, { guest := 5 })] }

theorem exec_resultProduced (p : Nat) (s : State) (h : s.power.tclkStopped = false) : exec (.resultProduced p) s = .next (s.produce p) := by
  show execResultProduced p s = _
  simp [execResultProduced, State.tclk, h, done]

/-- The END of its only running context ends the job, which releases the stopped context and takes its result out of the unit (R609). -/
theorem produce_stoppedBesideEnding_fnQueue : ((stoppedBesideEnding.produce 0).tile 0).fnQueue = [] := by
  decide

/-- Refutes O23: where an END waited for the result, the statement has the results of the tile's other contexts stay in the function unit, but the
END may end the job, and with it leaves what the unit held for a stopped context of the same job. -/
theorem not_resultsAndRestPoints : ¬ Obligations.ResultsAndRestPoints := by
  intro h
  obtain ⟨hresult, -⟩ := h
  obtain ⟨-, hend⟩ := hresult 0 0 0 [(1, 0)] stoppedBesideEnding rfl rfl
  obtain ⟨t, ht, -, -, hqueue, -⟩ := hend rfl (by decide)
  rw [exec_resultProduced 0 stoppedBesideEnding rfl] at ht
  injection ht with ht
  rw [← ht, produce_stoppedBesideEnding_fnQueue] at hqueue
  exact absurd hqueue (by decide)

end Sys2Proof.Claims
end

section
/-! SUPPORT. The halts of tiles: what a halt adds to its tile, and that it changes nothing else but the promises it breaks (R136, R280). -/

namespace Sys2Proof.Machine

/-! ## Broken promises -/

/-- Only jobs and the counters of the ledgers differ: all that breaking the promises of jobs can do (R280). -/
def OnlyBreaks (s t : State) : Prop := ∃ j l, t = { s with jobs := j, ledgers := l }

theorem OnlyBreaks.refl (s : State) : OnlyBreaks s s := ⟨s.jobs, s.ledgers, rfl⟩

theorem OnlyBreaks.trans {s t u : State} (h : OnlyBreaks s t) (h' : OnlyBreaks t u) : OnlyBreaks s u := by
  obtain ⟨j, l, rfl⟩ := h
  obtain ⟨j', l', rfl⟩ := h'
  exact ⟨j', l', rfl⟩

theorem OnlyBreaks.foldl {α : Type} {f : State → α → State} (hf : ∀ s a, OnlyBreaks s (f s a)) (l : List α) (s : State) :
    OnlyBreaks s (l.foldl f s) := by
  induction l generalizing s with
  | nil => exact .refl s
  | cons a r ih => exact (hf s a).trans (ih _)

theorem State.breakJob_onlyBreaks (s : State) (j : Nat) : OnlyBreaks s (s.breakJob j) := by
  unfold State.breakJob State.modJob
  cases hj : fget s.jobs j with
  | none => exact .refl s
  | some x =>
    dsimp only
    split
    · exact ⟨_, _, rfl⟩
    · exact .refl s

theorem State.breakTile_onlyBreaks (s : State) (p : Nat) : OnlyBreaks s (s.breakTile p) := OnlyBreaks.foldl State.breakJob_onlyBreaks _ s

theorem State.breakAll_onlyBreaks (s : State) : OnlyBreaks s s.breakAll := 
  OnlyBreaks.foldl (f := fun s (e : Nat × Job) => s.breakJob e.1) (fun s e => s.breakJob_onlyBreaks e.1) _ s

/-! ## Halts -/

/-- A tile with the request of a halt. -/
def Tile.withHalt (t : Tile) (h : Halter) : Tile := if t.halts.contains h then t else { t with halts := t.halts ++ [h] }

@[simp] theorem Tile.withHalt_words (t : Tile) (h : Halter) : (t.withHalt h).words = t.words := by unfold Tile.withHalt; split <;> rfl
@[simp] theorem Tile.withHalt_ctxs (t : Tile) (h : Halter) : (t.withHalt h).ctxs = t.ctxs := by unfold Tile.withHalt; split <;> rfl
@[simp] theorem Tile.withHalt_atRest (t : Tile) (h : Halter) : (t.withHalt h).atRest = t.atRest := by unfold Tile.withHalt; split <;> rfl

theorem Tile.mem_withHalt (t : Tile) (h : Halter) : h ∈ (t.withHalt h).halts := by
  unfold Tile.withHalt
  split
  · rename_i hc; exact List.contains_iff_mem.mp hc
  · simp

theorem Tile.withHalt_withHalt (t : Tile) (h : Halter) : (t.withHalt h).withHalt h = t.withHalt h :=
  if_pos (List.contains_iff_mem.mpr (t.mem_withHalt h))

theorem State.halt_eq (s : State) (p : Nat) (h : Halter) : s.halt p h = (s.modTile p (·.withHalt h)).breakTile p := rfl

theorem State.tile_halt (s : State) (p : Nat) (h : Halter) (q : Nat) :
    (s.halt p h).tile q = if q = p then (s.tile q).withHalt h else s.tile q := by
  obtain ⟨j, l, hb⟩ := (s.modTile p (·.withHalt h)).breakTile_onlyBreaks p
  rw [State.halt_eq, hb]
  show (s.modTile p (·.withHalt h)).tile q = _
  split
  · rename_i hq; rw [hq, State.tile_modTile]
  · rename_i hq; exact State.tile_modTile_other _ _ _ _ hq

/-- Only tiles, jobs and the counters of the ledgers differ: all that halts can do. -/
def OnlyHalts (s t : State) : Prop := ∃ ti j l, t = { s with tiles := ti, jobs := j, ledgers := l }

theorem OnlyHalts.trans {s t u : State} (h : OnlyHalts s t) (h' : OnlyHalts t u) : OnlyHalts s u := by
  obtain ⟨ti, j, l, rfl⟩ := h
  obtain ⟨ti', j', l', rfl⟩ := h'
  exact ⟨ti', j', l', rfl⟩

theorem OnlyBreaks.onlyHalts {s t : State} (h : OnlyBreaks s t) : OnlyHalts s t := by
  obtain ⟨j, l, rfl⟩ := h
  exact ⟨s.tiles, j, l, rfl⟩

theorem State.halt_onlyHalts (s : State) (p : Nat) (h : Halter) : OnlyHalts s (s.halt p h) := by
  obtain ⟨j, l, hb⟩ := (s.modTile p (·.withHalt h)).breakTile_onlyBreaks p
  exact ⟨_, j, l, by rw [State.halt_eq, hb]; rfl⟩

/-- Halts of several tiles with what they break. -/
def State.haltEach (s : State) (ps : List Nat) (h : Halter) : State := (ps.foldl (fun s p => s.halt p h) s).breakAll

theorem State.haltEach_onlyHalts (s : State) (ps : List Nat) (h : Halter) : OnlyHalts s (s.haltEach ps h) := by
  have hfold : OnlyHalts s (ps.foldl (fun s p => s.halt p h) s) := by
    induction ps generalizing s with
    | nil => exact ⟨_, _, _, rfl⟩
    | cons p r ih => exact (s.halt_onlyHalts p h).trans (ih _)
  exact hfold.trans (State.breakAll_onlyBreaks _).onlyHalts

theorem State.tile_haltEach (s : State) (ps : List Nat) (h : Halter) (q : Nat) :
    (s.haltEach ps h).tile q = if q ∈ ps then (s.tile q).withHalt h else s.tile q := by
  obtain ⟨j, l, hb⟩ := (ps.foldl (fun s p => s.halt p h) s).breakAll_onlyBreaks
  have htile : (s.haltEach ps h).tile q = (ps.foldl (fun s p => s.halt p h) s).tile q := by
    unfold State.haltEach
    rw [hb]
    rfl
  rw [htile]
  clear htile hb
  induction ps generalizing s with
  | nil => simp
  | cons p r ih =>
    rw [List.foldl_cons, ih, State.tile_halt]
    by_cases hq : q = p
    · simp [hq, Tile.withHalt_withHalt]
    · simp [hq]

end Sys2Proof.Machine
end

section
/-! SUPPORT. The plan of a retirement (R17, R144, R145): what it names, and the shift of a die column in a mapping without retired tiles. -/

namespace Sys2Proof.Machine

@[simp] theorem State.plan_what (s : State) (r : Retirement) : (s.plan r).what = r := by
  unfold State.plan
  dsimp only
  split <;> rfl

@[simp] theorem State.planHalts_what (s : State) (r : Retirement) : (s.planHalts r).what = r := s.plan_what r

theorem State.retiring_mem_halted (s : State) (r : Retirement) : r.tile ∈ (s.planHalts r).halted := by
  simp [State.planHalts]

theorem State.mover_mem_halted (s : State) (r : Retirement) {e : Nat × Nat} (he : e ∈ (s.planHalts r).moves) : e.1 ∈ (s.planHalts r).halted := by
  have he' : e.1 ∈ (s.plan r).moves.map (·.1) := List.mem_map_of_mem he
  simp only [State.planHalts, List.mem_dedup, List.mem_cons, List.mem_append]
  exact Or.inl (Or.inl (Or.inr he'))

/-- A mapping in which no tile is retired and no reserve row is lent. -/
def Mesh.Whole (m : Mesh) : Prop := m.retired = [] ∧ m.skip = [] ∧ m.standIns = [] ∧ m.lentRows = 0

section shift
variable {m : Mesh} (hm : m.Whole)
include hm

/-- Then a tile above its column's spare serves the coordinate of its row, the spares left out (R16). -/
theorem Mesh.Whole.serves {p : Nat} (hp : p < 54 * 64) (hrow : p / 64 % 18 ≤ 16) :
    m.serves p = some (p % 64, 17 * (p / 64 / 18) + p / 64 % 18) := by
  obtain ⟨-, hskip, hstand, hlent⟩ := hm
  have hne : p / 64 % 18 ≠ 17 := by omega
  have hlt : p / 64 % 18 < 17 := by omega
  have hin : 17 * (p / 64 / 18) + p / 64 % 18 < 64 := by omega
  simp [Mesh.serves, Mesh.baseLogical, Mesh.skipRow, Mesh.standsFor, Mesh.inService, fgetD, fget, tileX, tileY, hskip, hstand, hlent, hne, hlt, hin]

theorem Mesh.Whole.shifts {p : Nat} (hrow : p / 64 % 18 ≤ 16) : m.shifts p = true := by
  obtain ⟨hret, hskip, -, -⟩ := hm
  simp [Mesh.shifts, Mesh.skipRow, Mesh.isRetired, fgetD, fget, tileY, hret, hskip, hrow]

/-- Once a tile's column is shifted, a coordinate from its row on is served one row further down (R16, R17). -/
theorem Mesh.Whole.physicalOf_without {p k : Nat} (hk : k < 17 - p / 64 % 18) :
    (m.without p true).physicalOf (p % 64) (17 * (p / 64 / 18) + (16 - k)) = spareOf p - 64 * k := by
  obtain ⟨-, hskip, hstand, -⟩ := hm
  have hdie : (17 * (p / 64 / 18) + (16 - k)) / 17 = p / 64 / 18 := by omega
  have hlocal : (17 * (p / 64 / 18) + (16 - k)) % 17 = 16 - k := by omega
  have hbelow : ¬ 16 - k < p / 64 % 18 := by omega
  simp [Mesh.physicalOf, Mesh.basePhys, Mesh.without, Mesh.skipRow, dieKeyOf, dieKey, tileX, tileY, physIndex, spareOf, fgetD, fget, fset, hskip, hstand,
    hdie, hlocal, hbelow]
  omega

/-- The movers of a shift with the coordinates that they serve (R145). -/
theorem Mesh.Whole.movers_serve {p : Nat} (hp : p < 54 * 64) (hrow : p / 64 % 18 ≤ 16) :
    (movers p true).filterMap (fun t => (m.serves t).map (t, ·))
      = (List.range (17 - p / 64 % 18)).map fun k => (spareOf p - 64 * (k + 1), (p % 64, 17 * (p / 64 / 18) + (16 - k))) := by
  have hserve : ∀ k ∈ List.range (17 - p / 64 % 18), (m.serves (spareOf p - 64 * (k + 1))).map (spareOf p - 64 * (k + 1), ·)
      = some (spareOf p - 64 * (k + 1), (p % 64, 17 * (p / 64 / 18) + (16 - k))) := by
    intro k hk
    have hk' := List.mem_range.mp hk
    have hspare : spareOf p = (18 * (p / 64 / 18) + 17) * 64 + p % 64 := rfl
    have hrow' : (spareOf p - 64 * (k + 1)) / 64 = 18 * (p / 64 / 18) + (16 - k) := by omega
    have hcol : (spareOf p - 64 * (k + 1)) % 64 = p % 64 := by omega
    rw [hm.serves (by omega) (by omega), hrow', hcol]
    have hdie : (18 * (p / 64 / 18) + (16 - k)) / 18 = p / 64 / 18 := by omega
    have hlocal : (18 * (p / 64 / 18) + (16 - k)) % 18 = 16 - k := by omega
    rw [hdie, hlocal]
    rfl
  simp only [movers, if_true, tileY, List.filterMap_map]
  rw [← List.filterMap_eq_map]
  exact List.filterMap_congr hserve

end shift

/-- In a mapping without retired tiles, the retirement of a tile of the upper three die rows that is no spare shifts its column: each image from
the spare's neighbour up to the retiring tile goes one row down (R17, R145). -/
theorem State.plan_shift (s : State) (r : Retirement) (hm : s.mesh.Whole) (hp : r.tile < 54 * 64) (hrow : r.tile / 64 % 18 ≤ 16) :
    (s.plan r).action = 1 ∧ (s.plan r).closes = []
      ∧ (s.plan r).moves = (List.range (17 - r.tile / 64 % 18)).map fun k => (spareOf r.tile - 64 * (k + 1), spareOf r.tile - 64 * k) := by
  have hspare : spareOf r.tile = (18 * (r.tile / 64 / 18) + 17) * 64 + r.tile % 64 := rfl
  set x := s.mesh.without r.tile true with hx
  set served := (List.range (17 - r.tile / 64 % 18)).map fun k =>
    (spareOf r.tile - 64 * (k + 1), (r.tile % 64, 17 * (r.tile / 64 / 18) + (16 - k))) with hserved
  have hnew : ∀ k, k < 17 - r.tile / 64 % 18 → x.physicalOf (r.tile % 64) (17 * (r.tile / 64 / 18) + (16 - k)) = spareOf r.tile - 64 * k :=
    fun k hk => hm.physicalOf_without hk
  have hfit : ∀ busy, x.fit 5 busy (served.map (·.2)) = (x, [], []) := by
    intro busy
    refine Mesh.fit_settled x 4 busy _ ?_
    intro c hc _
    simp only [hserved, List.map_map, List.mem_map, List.mem_range] at hc
    obtain ⟨k, hk, rfl⟩ := hc
    have hret : x.retired = [r.tile] := by simp [hx, Mesh.without, addTo, hm.1]
    have hne : spareOf r.tile - 64 * k ≠ r.tile := by omega
    simp [Mesh.isRetired, hret, hnew k hk, hne]
  have hmoved : served.filter (fun e => x.inService e.2.2 && !([] : List Nat).contains (logicalIndex e.2.1 e.2.2) && x.physicalOf e.2.1 e.2.2 != e.1)
      = served := by
    rw [List.filter_eq_self]
    intro e he
    simp only [hserved, List.mem_map, List.mem_range] at he
    obtain ⟨k, hk, rfl⟩ := he
    have hin : 17 * (r.tile / 64 / 18) + (16 - k) < 64 := by omega
    have hne : spareOf r.tile - 64 * k ≠ spareOf r.tile - 64 * (k + 1) := by omega
    have hlent : x.lentRows = 0 := hm.2.2.2
    simp [Mesh.inService, hlent, hin, hnew k hk, hne]
  have hplan : s.plan r =
      { what := r, action := 1, shift := true, given := [], lent := x.lentRows, closes := [], coords := served.map (·.2),
        moves := served.map fun e => (e.1, x.physicalOf e.2.1 e.2.2) } := by
    unfold State.plan
    simp only [hm.serves hp hrow, hm.shifts hrow, hm.movers_serve hp hrow, ← hx, ← hserved, hfit, hmoved, if_true]
  rw [hplan]
  refine ⟨rfl, rfl, ?_⟩
  simp only [hserved, List.map_map]
  refine List.map_congr_left fun k hk => ?_
  simp only [Function.comp, hnew k (List.mem_range.mp hk)]

end Sys2Proof.Machine
end

section
/-! SUPPORT. An Innkeeper takes a trigger, and moves an image (R133, R144, R145). -/

namespace Sys2Proof.Machine

/-! ## The trigger at the head of the queue -/

/-- A retirement whose halted tiles are not all at rest points waits. -/
theorem State.askRecord_waits (s : State) (c : Nat) {m : Moving} (hm : (s.cluster c).moving = some m) {h : Nat} (hh : h ∈ m.halted)
    (hrest : (s.tile h).atRest = false) : s.askRecord c = s := by
  have hall : m.halted.all (fun p => (s.tile p).atRest) = false := List.all_eq_false.mpr ⟨h, hh, by simp [hrest]⟩
  simp [State.askRecord, hm, hall]

section trigger
variable {s : State} {c : Nat} {r : Retirement} {rest : List Retirement} (hq : (s.cluster c).queue = r :: rest) (hm : (s.cluster c).moving = none)
  (hup : s.coreUp (innkeeper c) = true)
include hq hm hup

/-- The trigger of a tile that is retired already leaves the queue; a manager's request is reported with ACTION 4 (R144). -/
theorem State.takeTrigger_retired (hret : s.mesh.isRetired r.tile = true) :
    s.takeTrigger c = if r.cause = 0 then
        (s.modCluster c fun k => { k with queue := rest }).raise 0x0F80 (leBytes 2 r.tile ++ [0, 4, 0, 0, 0xFF, 0xFF] ++ zeros 8) 0xFFFF r.seq
      else s.modCluster c fun k => { k with queue := rest } := by
  simp only [State.takeTrigger, hq, hm, hup, State.modCluster_mesh, hret, if_true]

/-- Any other is planned, and the tiles of its plan halt (R145 step 1). -/
theorem State.takeTrigger_halts (hret : s.mesh.isRetired r.tile = false) (hrest : (s.tile r.tile).atRest = false) :
    let k := s.modCluster c fun k => { k with queue := rest }
    s.takeTrigger c = (k.modCluster c fun x => { x with moving := some (k.planHalts r) }).haltEach (k.planHalts r).halted (.retirement c) := by
  intro k
  set m := k.planHalts r with hplan
  set t := (k.modCluster c fun x => { x with moving := some m }).haltEach m.halted (.retirement c) with ht
  have htake : s.takeTrigger c = t.askRecord c := by
    simp only [State.takeTrigger, hq, hm, hup, State.modCluster_mesh, hret, if_true, Bool.false_eq_true, if_false]
    rfl
  have hclusters : t.clusters = (k.modCluster c fun x => { x with moving := some m }).clusters := by
    obtain ⟨ti, j, l, hh⟩ := (k.modCluster c fun x => { x with moving := some m }).haltEach_onlyHalts m.halted (.retirement c)
    rw [ht, hh]
  have hmoving : (t.cluster c).moving = some m := by
    rw [State.cluster, hclusters, ← State.cluster, State.cluster_modCluster]
  have hwaits : (t.tile r.tile).atRest = false := by
    rw [ht, State.tile_haltEach, if_pos (k.retiring_mem_halted r), Tile.withHalt_atRest]
    exact hrest
  rw [htake, t.askRecord_waits c hmoving (k.retiring_mem_halted r) hwaits]

end trigger

/-! ## The reads of an image -/

/-- No retirement in progress differs. -/
def SameMoves (s t : State) : Prop := ∀ c, (t.cluster c).moving = (s.cluster c).moving

theorem SameMoves.refl (s : State) : SameMoves s s := fun _ => rfl

theorem SameMoves.trans {s t u : State} (h : SameMoves s t) (h' : SameMoves t u) : SameMoves s u := fun c => (h' c).trans (h c)

theorem SameMoves.foldl {α : Type} {f : State → α → State} (hf : ∀ s a, SameMoves s (f s a)) (l : List α) (s : State) :
    SameMoves s (l.foldl f s) := by
  induction l generalizing s with
  | nil => exact .refl s
  | cons a r ih => exact (hf s a).trans (ih _)

theorem State.modCluster_sameMoves (s : State) (c : Nat) {f : Cluster → Cluster} (hf : ∀ k, (f k).moving = k.moving) : SameMoves s (s.modCluster c f) := by
  intro d
  by_cases hd : d = c
  · rw [hd, State.cluster_modCluster, hf]
  · rw [State.cluster_modCluster_other _ _ _ _ hd]

theorem State.halt_sameMoves (s : State) (p : Nat) (h : Halter) : SameMoves s (s.halt p h) := by
  obtain ⟨ti, j, l, hh⟩ := s.halt_onlyHalts p h
  rw [hh]
  exact fun _ => rfl

theorem State.queueRetirement_sameMoves (s : State) (r : Retirement) : SameMoves s (s.queueRetirement r) := by
  have hjoin : SameMoves s (s.modCluster (clusterOf r.tile) fun c => { c with queue := c.queue ++ [r] }) := s.modCluster_sameMoves _ fun _ => rfl
  unfold State.queueRetirement
  extract_lets c running joined
  split
  · exact .refl s
  · split
    · exact hjoin
    · exact hjoin.trans (State.halt_sameMoves _ _ _)

theorem State.findBad_sameMoves (s : State) (p a : Nat) : SameMoves s (s.findBad p a) := by
  unfold State.findBad
  split
  · exact .refl s
  · have hcount := (s.modTile p fun t => { t with poison := addTo t.poison (a / 32), latent := t.latent.filter (fun w => w / 4 != a / 32) }).modCluster_sameMoves
      (clusterOf p) (f := fun c => { c with poisoned := satInc c.poisoned }) fun _ => rfl
    exact SameMoves.trans hcount (State.queueRetirement_sameMoves _ _)

theorem State.correct_sameMoves (s : State) (p a : Nat) : SameMoves s (s.correct p a) := by
  unfold State.correct
  extract_lets bank now times s1 s2
  have hcount : SameMoves s s2 := s1.modCluster_sameMoves (clusterOf p) fun _ => rfl
  split
  · exact hcount.trans (State.queueRetirement_sameMoves _ _)
  · exact hcount

theorem State.readFinds_sameMoves (s : State) (p : Nat) (l : List Nat) : SameMoves s (s.readFinds p l) := by
  refine SameMoves.foldl (fun s a => ?_) l s
  dsimp only
  split
  · exact s.findBad_sameMoves p a
  · split
    · exact s.correct_sameMoves p a
    · exact .refl s

theorem State.imageFinds_sameMoves (s : State) (p : Nat) : SameMoves s (s.imageFinds p) := by
  have hread := s.readFinds_sameMoves p (((s.tile p).latent ++ (s.tile p).soft).map (8 * ·))
  unfold State.imageFinds
  dsimp only
  split
  · exact hread
  · exact hread.trans (SameMoves.trans (fun _ => rfl) (State.queueRetirement_sameMoves _ _))

section view
variable {β : Type} {v : View β} {q : (Nat → β) × State} {s : State}

theorem tiles_imageFinds (h : SameTiles v q s) (p : Nat) : SameTiles v q (s.imageFinds p) := by
  have hread := tiles_readFinds h p (((s.tile p).latent ++ (s.tile p).soft).map (8 * ·))
  unfold State.imageFinds
  dsimp only
  split
  · exact hread
  · have hmod := tiles_modTile hread p (f := fun t => { t with regErrs := [] }) fun _ => ⟨rfl, rfl⟩
    exact tiles_queueRetirement hmod { tile := p, cause := 1 }

theorem tiles_moveImage (h : SameTiles v q s) (c : Nat) : SameTiles v q (s.moveImage c) := by
  unfold State.moveImage
  split
  · split
    · exact h
    · extract_lets bad s1 s2
      have h1 : SameTiles v q s1 := by dsimp only [s1]; split <;> exact h
      have h2 : SameTiles v q s2 := by
        dsimp only [s2]
        split
        · exact h1
        · exact tiles_imageFinds h1 _
      exact tiles_modCluster h2 c _
  · exact h

end view

/-- The image at the head of a retirement's list is moved; of the retiring tile's a free bit says whether it could not be read (R145, R147). -/
theorem State.moving_moveImage (s : State) {c : Nat} {m : Moving} {src dst : Nat} {rest : List (Nat × Nat)} (hm : (s.cluster c).moving = some m)
    (hmoves : m.moves = (src, dst) :: rest) :
    ((s.moveImage c).cluster c).moving =
      some { m with moves := rest, unreadable := m.unreadable || (src == m.what.tile && (Config.freeWord s.fresh).getLsbD 0) } := by
  unfold State.moveImage
  simp only [hm, hmoves]
  set bad := src == m.what.tile && (Config.freeWord s.fresh).getLsbD 0
  set s1 : State := if src = m.what.tile then { s with fresh := s.fresh + 1 } else s with hs1
  have h1 : SameMoves s s1 := by rw [hs1]; split <;> exact fun _ => rfl
  have h2 : SameMoves s (if bad then s1 else s1.imageFinds src) := by
    split
    · exact h1
    · exact h1.trans (s1.imageFinds_sameMoves src)
  rw [State.cluster_modCluster]
  simp only [h2 c, hm, Option.map_some]

/-- A retirement with images left to move does not switch. -/
theorem State.trySwitch_moves (s : State) {c : Nat} {m : Moving} (hm : (s.cluster c).moving = some m) (hmoves : m.moves ≠ []) : s.trySwitch c = s := by
  simp only [State.trySwitch, hm]
  split <;> simp [hmoves]

/-- Nor does a cluster without a retirement. -/
theorem State.trySwitch_none (s : State) {c : Nat} (hm : (s.cluster c).moving = none) : s.trySwitch c = s := by
  simp only [State.trySwitch, hm]

end Sys2Proof.Machine
end

section
/-! SUPPORT. The switch of the mapping (R143, R145 steps 4 and 5): where the images go, and that it comes with the last record's write. -/

namespace Sys2Proof.Machine

theorem fget_fmap {α : Type} (m : FMap α) (f : Nat → α → α) (k : Nat) : fget (fmap m f) k = (fget m k).map (f k) := by
  induction m with
  | nil => rfl
  | cons e r ih =>
    simp only [fmap, List.map_cons, fget] at ih ⊢
    split
    · rename_i hk; rw [hk]; rfl
    · exact ih

/-! ## Halts withdrawn -/

/-- A halt of several tiles is withdrawn. -/
def State.unhaltEach (s : State) (ps : List Nat) (h : Halter) : State := ps.foldl (fun s t => s.unhalt t h) s

theorem State.unhaltEach_eq (s : State) (ps : List Nat) (h : Halter) : s.unhaltEach ps h = { s with tiles := (s.unhaltEach ps h).tiles } := by
  induction ps generalizing s with
  | nil => rfl
  | cons p r ih => exact ih (s.unhalt p h)

@[simp] theorem State.unhaltEach_mesh (s : State) (ps : List Nat) (h : Halter) : (s.unhaltEach ps h).mesh = s.mesh := by rw [State.unhaltEach_eq]
@[simp] theorem State.unhaltEach_clusters (s : State) (ps : List Nat) (h : Halter) : (s.unhaltEach ps h).clusters = s.clusters := by
  rw [State.unhaltEach_eq]
@[simp] theorem State.unhaltEach_firm (s : State) (ps : List Nat) (h : Halter) : (s.unhaltEach ps h).firm = s.firm := by rw [State.unhaltEach_eq]

/-- Withdrawn halts leave every view of the contexts and words of the tiles. -/
theorem tiles_unhaltEach {β : Type} {v : View β} {q : (Nat → β) × State} {s : State} (hs : SameTiles v q s) (ps : List Nat) (h : Halter) :
    SameTiles v q (s.unhaltEach ps h) := by
  refine tiles_foldl hs fun s p hs => ?_
  unfold State.unhalt
  exact tiles_modTile hs p fun _ => ⟨rfl, rfl⟩

theorem State.not_mem_halts_unhalt (s : State) (p : Nat) (h : Halter) (q : Nat) (hq : h ∉ (s.tile q).halts ∨ q = p) :
    h ∉ ((s.unhalt p h).tile q).halts := by
  unfold State.unhalt
  by_cases hp : q = p
  · rw [hp, State.tile_modTile]
    simp
  · rw [State.tile_modTile_other _ _ _ _ hp]
    exact hq.resolve_right hp

theorem State.not_mem_halts_unhaltEach (s : State) (ps : List Nat) (h : Halter) (q : Nat) (hq : h ∉ (s.tile q).halts ∨ q ∈ ps) :
    h ∉ ((s.unhaltEach ps h).tile q).halts := by
  induction ps generalizing s with
  | nil => exact hq.resolve_right List.not_mem_nil
  | cons p r ih =>
    refine ih (s.unhalt p h) ?_
    rcases hq with hq | hq
    · exact Or.inl (s.not_mem_halts_unhalt p h q (Or.inl hq))
    · rcases List.mem_cons.mp hq with hq | hq
      · exact Or.inl (s.not_mem_halts_unhalt p h q (Or.inr hq))
      · exact Or.inr hq

/-! ## The images at their new tiles -/

/-- Each target of some moves receives its source's image, as the tiles `o` held them. -/
def State.receiveEach (s : State) (o : Nat → Tile) (moves : List (Nat × Nat)) : State :=
  moves.foldl (fun s e => s.setTile e.2 ((o e.2).receive (o e.1))) s

theorem State.tile_receiveEach_other (s : State) (o : Nat → Tile) (moves : List (Nat × Nat)) {q : Nat} (hq : ∀ e ∈ moves, e.2 ≠ q) :
    (s.receiveEach o moves).tile q = s.tile q := by
  induction moves generalizing s with
  | nil => rfl
  | cons e r ih =>
    obtain ⟨he, hr⟩ := List.forall_mem_cons.mp hq
    exact (ih _ hr).trans (State.tile_setTile_other _ _ _ _ (Ne.symm he))

theorem State.tile_receiveEach (s : State) (o : Nat → Tile) (moves : List (Nat × Nat)) {a b : Nat} (hab : (a, b) ∈ moves)
    (hone : ∀ e ∈ moves, e.2 = b → e.1 = a) : (s.receiveEach o moves).tile b = (o b).receive (o a) := by
  induction moves generalizing s with
  | nil => exact absurd hab List.not_mem_nil
  | cons e r ih =>
    obtain ⟨he, hr⟩ := List.forall_mem_cons.mp hone
    by_cases hmem : (a, b) ∈ r
    · exact ih _ hmem hr
    · have heq : e = (a, b) := ((List.mem_cons.mp hab).resolve_right hmem).symm
      have hlast : ∀ x ∈ r, x.2 ≠ b := fun x hx hb => hmem (by rw [← hr x hx hb, ← hb]; exact hx)
      subst heq
      exact (State.tile_receiveEach_other _ o r hlast).trans (State.tile_setTile _ _ _)

theorem State.carry_eq (s : State) (m : Moving) (moves : List (Nat × Nat)) (hread : m.unreadable = false) :
    s.carry m moves = (s.receiveEach s.tile moves).modTile m.what.tile Tile.vacated := by
  simp only [State.carry, hread, Bool.false_and, Bool.false_eq_true, if_false]
  rfl

theorem State.carry_frame (s : State) (m : Moving) (moves : List (Nat × Nat)) (hread : m.unreadable = false) :
    s.carry m moves = { s with tiles := (s.carry m moves).tiles } := by
  have hreceive : ∀ (moves : List (Nat × Nat)) (u : State) (o : Nat → Tile), u.receiveEach o moves = { u with tiles := (u.receiveEach o moves).tiles } := by
    intro moves
    induction moves with
    | nil => exact fun _ _ => rfl
    | cons e r ih => exact fun u o => ih (u.setTile e.2 _) o
  rw [s.carry_eq m moves hread, hreceive]
  rfl

section carry
variable (s : State) (m : Moving) (moves : List (Nat × Nat)) (hread : m.unreadable = false)
include hread

/-- The only image for a place arrives there (R143). -/
theorem State.tile_carry {a b : Nat} (hab : (a, b) ∈ moves) (hone : ∀ e ∈ moves, e.2 = b → e.1 = a) (hb : b ≠ m.what.tile) :
    (s.carry m moves).tile b = (s.tile b).receive (s.tile a) := by
  rw [s.carry_eq m moves hread, State.tile_modTile_other _ _ _ _ hb, State.tile_receiveEach _ _ _ hab hone]

/-- A place for which there is none keeps its own. -/
theorem State.tile_carry_other {q : Nat} (hq : ∀ e ∈ moves, e.2 ≠ q) (hp : q ≠ m.what.tile) : (s.carry m moves).tile q = s.tile q := by
  rw [s.carry_eq m moves hread, State.tile_modTile_other _ _ _ _ hp, State.tile_receiveEach_other _ _ _ hq]

end carry

/-- The new mapping moves every coordinate to a place of its own that works and is not the retiring tile. -/
def Moving.Spreads (m : Moving) (a b : Mesh) : Prop :=
  ∀ x ∈ m.allCoords a, a.physicalOf x.1 x.2 ≠ b.physicalOf x.1 x.2 ∧ b.physicalOf x.1 x.2 ≠ m.what.tile ∧ b.isRetired (b.physicalOf x.1 x.2) = false
    ∧ ∀ y ∈ m.allCoords a, b.physicalOf x.1 x.2 = b.physicalOf y.1 y.2 → x = y

section spreads
variable {m : Moving} {a b : Mesh} (h : m.Spreads a b)
include h

theorem Moving.Spreads.pairs : m.pairs a b = (m.allCoords a).map fun x => (a.physicalOf x.1 x.2, b.physicalOf x.1 x.2) := by
  unfold Moving.pairs
  rw [List.filter_eq_self]
  intro e he
  obtain ⟨x, hx, rfl⟩ := List.mem_map.mp he
  obtain ⟨hne, -, hret, -⟩ := h x hx
  simp [hne, hret]

/-- Each coordinate's image goes with it. -/
theorem Moving.Spreads.tile_carry (s : State) (hread : m.unreadable = false) {x : Nat × Nat} (hx : x ∈ m.allCoords a) :
    (s.carry m (m.pairs a b)).tile (b.physicalOf x.1 x.2) = (s.tile (b.physicalOf x.1 x.2)).receive (s.tile (a.physicalOf x.1 x.2)) := by
  obtain ⟨-, hplace, -, hinj⟩ := h x hx
  rw [h.pairs]
  refine s.tile_carry m _ hread (List.mem_map.mpr ⟨x, hx, rfl⟩) (fun e he hsame => ?_) hplace
  obtain ⟨y, hy, rfl⟩ := List.mem_map.mp he
  rw [hinj y hy hsame.symm]

/-- A tile that none of them comes to keeps what it holds, but for the retiring tile. -/
theorem Moving.Spreads.tile_carry_other (s : State) (hread : m.unreadable = false) {p : Nat} (hp : p ≠ m.what.tile)
    (hplace : ∀ x ∈ m.allCoords a, b.physicalOf x.1 x.2 ≠ p) : (s.carry m (m.pairs a b)).tile p = s.tile p := by
  rw [h.pairs]
  refine s.tile_carry_other m _ hread (fun e he => ?_) hp
  obtain ⟨y, hy, rfl⟩ := List.mem_map.mp he
  exact hplace y hy

end spreads

/-! ## The switch -/

/-- What the switch leaves of a cluster: the retirement ends in its own, and the others' halted tiles are known by their new places. -/
def Moving.leave (m : Moving) (c : Nat) (moves : List (Nat × Nat)) (i : Nat) (k : Cluster) : Cluster :=
  if i = c then
    { k with moving := none, parked := [], lastTile := BitVec.ofNat 9 (localIndex m.what.tile), lastAction := BitVec.ofNat 4 m.action }
  else { k with moving := k.moving.map fun (o : Moving) => { o with halted := o.halted.map (movedTo moves) } }

/-- The images at their new tiles, under the new mapping, with the halts of the retirement withdrawn. -/
def State.moved (s : State) (c : Nat) (m : Moving) (mesh : Mesh) (moves : List (Nat × Nat)) (routers : FMap Router) : State :=
  ({ s.carry m moves with mesh := mesh, routers := routers, clusters := fmap s.clusters (m.leave c moves) } : State).unhaltEach
    (m.halted ++ moves.map (·.2)) (.retirement c)

/-- A switch with no packet parked, no room to close, no lent row to take back and every image read. -/
theorem State.switch_plain (s : State) (c : Nat) (m : Moving) (hparked : (s.cluster c).parked = [])
    (hcloses : m.allCloses (s.busyReserve m.what.tile) s.mesh = [])
    (hrows : (m.after (s.busyReserve m.what.tile) s.mesh).lentRows = s.mesh.lentRows) (hread : m.unreadable = false) :
    let mesh := m.after (s.busyReserve m.what.tile) s.mesh
    ∃ routers events lost j l, s.switch c m =
      { s.moved c m mesh (m.pairs s.mesh mesh) routers with
        firm := { s.firm with events := events, lostEvents := lost }, jobs := j, ledgers := l } := by
  intro mesh'
  unfold State.switch
  extract_lets p served rows mesh closes moves parked s1 s2 after s3 s4 s5 s6 s7 s8 standIn s9
  have hcarry : s1 = { s with tiles := s1.tiles } := s.carry_frame m moves hread
  have h2 : s2 = { s1 with routers := s2.routers } := by
    dsimp only [s2]
    split <;> rfl
  have h3 : s3 = { s1 with mesh := mesh', routers := s2.routers, clusters := fmap s.clusters (m.leave c moves) } := by
    dsimp only [s3]
    rw [h2, hcarry]
    rfl
  have h4 : s4 = s3 := by
    dsimp only [s4, parked]
    rw [hparked, List.foldl_nil]
  have h5 : s5 = s4 := by
    dsimp only [s5, closes]
    rw [hcloses, List.foldl_nil]
  have h6 : s6 = s.moved c m mesh' moves s2.routers := by
    dsimp only [s6]
    rw [h5, h4, h3]
    rfl
  have h7 : s7 = s6 := by
    have hmesh : s6.mesh.lentRows = rows := by rw [h6, State.moved, State.unhaltEach_mesh]; exact hrows
    dsimp only [s7]
    rw [if_neg (by omega)]
  have h8 : s8 = s7 := by
    dsimp only [s8]
    rw [hread]
    rfl
  have hfirm : s8.firm = s.firm := by
    rw [h8, h7, h6, State.moved, State.unhaltEach_firm]
    show s1.firm = s.firm
    rw [hcarry]
  have h9 : ∃ events lost, s9 = { s8 with firm := { s8.firm with events := events, lostEvents := lost } } := by
    dsimp only [s9, State.raise, State.modFirm]
    split
    · exact ⟨_, _, rfl⟩
    · exact ⟨_, _, rfl⟩
  obtain ⟨events, lost, h9⟩ := h9
  obtain ⟨j, l, hbreak⟩ := s9.breakAll_onlyBreaks
  refine ⟨s2.routers, events, lost, j, l, ?_⟩
  rw [hbreak, h9, hfirm, h8, h7, h6]

section moved
variable (s : State) (c : Nat) (m : Moving) (mesh : Mesh) (moves : List (Nat × Nat)) (routers : FMap Router)

@[simp] theorem State.moved_mesh : (s.moved c m mesh moves routers).mesh = mesh := by simp [State.moved]
@[simp] theorem State.moved_clusters : (s.moved c m mesh moves routers).clusters = fmap s.clusters (m.leave c moves) := by simp [State.moved]

theorem State.cluster_moved (k : Nat) :
    (s.moved c m mesh moves routers).cluster k = ((fget s.clusters k).map (m.leave c moves k)).getD {} := by
  rw [State.cluster, State.moved_clusters, fgetD, fget_fmap]

theorem State.cluster_moved_own (h : (s.cluster c).moving ≠ none) :
    (s.moved c m mesh moves routers).cluster c = m.leave c moves c (s.cluster c) := by
  rw [State.cluster_moved]
  cases hx : fget s.clusters c with
  | none => exact absurd (by rw [State.cluster, fgetD, hx]; rfl) h
  | some x => rw [State.cluster, fgetD, hx]; rfl

theorem State.moving_moved (hothers : ∀ k, k ≠ c → (s.cluster k).moving = none) (k : Nat) :
    ((s.moved c m mesh moves routers).cluster k).moving = none := by
  rw [State.cluster_moved]
  cases hx : fget s.clusters k with
  | none => rfl
  | some x =>
    by_cases hk : k = c
    · simp [Moving.leave, hk]
    · have hnone : x.moving = none := by
        have h := hothers k hk
        rw [State.cluster, fgetD, hx] at h
        exact h
      simp [Moving.leave, hk, hnone]

/-- Contexts and words are those of the images at their places; the halts withdrawn leave them. -/
theorem State.word_moved (p a : Nat) : ((s.moved c m mesh moves routers).tile p).word a = ((s.carry m moves).tile p).word a :=
  State.word_of_tiles (tiles_unhaltEach ⟨fun _ => rfl, rfl⟩ _ _) p a

theorem State.ctx_moved (p n : Nat) : (s.moved c m mesh moves routers).ctx p n = (s.carry m moves).ctx p n :=
  State.ctx_of_tiles (tiles_unhaltEach ⟨fun _ => rfl, rfl⟩ _ _) p n

theorem State.not_mem_halts_moved {h : Nat} (hh : h ∈ m.halted) : Halter.retirement c ∉ ((s.moved c m mesh moves routers).tile h).halts :=
  State.not_mem_halts_unhaltEach _ _ _ _ (Or.inr (List.mem_append_left _ hh))

end moved

/-! ## When it comes -/

/-- The switch comes once the record is written, every image has moved, and step 1 lacks no tile (R145 step 4). -/
theorem State.trySwitch_switches (s : State) {c : Nat} {m : Moving} {q : BitVec 32} (hm : (s.cluster c).moving = some m) (hrec : m.record = some q)
    (hmoves : m.moves = []) (hdone : s.recordDone q = true) (hup : s.coreUp (innkeeper c) = true) (hlack : s.lacking m = [])
    (hwritten : s.recorded m = true) : s.trySwitch c = s.switch c m := by
  simp only [State.trySwitch, hm, hrec, hmoves, hdone, hup, hlack, hwritten, if_true, and_self]

theorem State.foldl_trySwitch_none (l : List Nat) (s : State) (h : ∀ k ∈ l, (s.cluster k).moving = none) : l.foldl State.trySwitch s = s := by
  induction l with
  | nil => rfl
  | cons k r ih =>
    obtain ⟨hk, hr⟩ := List.forall_mem_cons.mp h
    rw [List.foldl_cons, s.trySwitch_none hk]
    exact ih hr

/-- Of sixteen clusters, the one with a retirement tries its switch. -/
theorem State.foldl_trySwitch_one (s : State) {c : Nat} (hc : c < 16) (hothers : ∀ k, k ≠ c → (s.cluster k).moving = none)
    (hafter : ∀ k, ((s.trySwitch c).cluster k).moving = none) : (List.range 16).foldl State.trySwitch s = s.trySwitch c := by
  obtain ⟨before, later, hsplit⟩ := List.append_of_mem (List.mem_range.mpr hc)
  have hnodup : (before ++ c :: later).Nodup := hsplit ▸ List.nodup_range
  have hbefore : ∀ k ∈ before, k ≠ c := fun k hk => (List.nodup_append.mp hnodup).2.2 k hk c List.mem_cons_self
  rw [hsplit, List.foldl_append, List.foldl_cons, State.foldl_trySwitch_none before s fun k hk => hothers k (hbefore k hk)]
  exact State.foldl_trySwitch_none later _ fun k _ => hafter k

/-- All that a plain switch of a cluster's retirement, the only one in progress, waits for has come (R145 step 4). -/
structure State.SwitchReady (s : State) (c : Nat) (m : Moving) : Prop where
  moving : (s.cluster c).moving = some m
  alone : ∀ k, k ≠ c → (s.cluster k).moving = none
  up : s.coreUp (innkeeper c) = true
  moved : m.moves = []
  written : ∃ q, m.record = some q ∧ s.recordDone q = true
  recorded : s.recorded m = true
  read : m.unreadable = false
  parked : (s.cluster c).parked = []
  closes : m.allCloses (s.busyReserve m.what.tile) s.mesh = []
  rows : (m.after (s.busyReserve m.what.tile) s.mesh).lentRows = s.mesh.lentRows

theorem State.SwitchReady.switches {s : State} {c : Nat} {m : Moving} (h : s.SwitchReady c m) (hc : c < 16) :
    let mesh := m.after (s.busyReserve m.what.tile) s.mesh
    ∃ routers events lost j l, (List.range 16).foldl State.trySwitch s =
      { s.moved c m mesh (m.pairs s.mesh mesh) routers with
        firm := { s.firm with events := events, lostEvents := lost }, jobs := j, ledgers := l } := by
  intro mesh
  obtain ⟨q, hrec, hdone⟩ := h.written
  have hlack : s.lacking m = [] := if_neg (Nat.not_lt.mpr h.rows.ge)
  have hswitch := s.trySwitch_switches h.moving hrec h.moved hdone h.up hlack h.recorded
  obtain ⟨routers, events, lost, j, l, hplain⟩ := s.switch_plain c m h.parked h.closes h.rows h.read
  refine ⟨routers, events, lost, j, l, ?_⟩
  rw [← hswitch] at hplain
  rw [s.foldl_trySwitch_one hc h.alone, hplain]
  rw [hplain]
  exact State.moving_moved s c m mesh _ routers h.alone

/-- The write at the head of the queue ends in a device in service (R43). -/
theorem State.popRecord_inService (s : State) {b : Bool} {r : Record} {rest : List (Bool × Record)} (hq : s.firm.recordQueue = (b, r) :: rest)
    (hflash : (s.flash b).state = 1) :
    ∃ fa fb, s.popRecord = { s with firm := { s.firm with flashA := fa, flashB := fb, recordQueue := rest } }
      ∧ s.popRecord.flash b = { s.flash b with record := r, torn := none } ∧ s.popRecord.flash (!b) = s.flash (!b) := by
  set u := s.modFirm fun m => { m with recordQueue := rest } with hu
  set v := u.modFlash b fun d => { d with record := r, torn := none } with hv
  have hserves : (u.flash b).state = 1 := hflash
  have hstays : (v.flash b).state = 1 := by
    cases b
    · exact hflash
    · exact hflash
  have hpop : s.popRecord = v := by
    simp only [State.popRecord, hq, ← hu, if_pos (Or.inl hserves), ← hv]
    exact if_neg (by simp [hstays])
  rw [hpop]
  cases b
  · exact ⟨_, _, rfl, rfl, rfl⟩
  · exact ⟨_, _, rfl, rfl, rfl⟩

/-- What a record's write has held back, with no start and no activation under way: the switches (R145). -/
theorem State.recordsMoved_switches (s : State) {t : State} (hnext : s.firm.meshNext = none) (hact : s.firm.activation = none)
    (hfold : (List.range 16).foldl State.trySwitch s = t) (hserves : t.inService = true) (hstep : t.firm.stepDone = false) : s.recordsMoved = t := by
  have hadopt : s.adoptMesh = s := by simp only [State.adoptMesh, hnext]
  have hcomplete : s.tryComplete = s := by simp only [State.tryComplete, hact]
  have hwarm : ¬ (t.firm.mstate = .warmStart ∧ t.firm.startStep = 4) := by
    rintro ⟨hw, -⟩
    simp [State.inService, hw] at hserves
  simp only [State.recordsMoved, hadopt, hcomplete, hfold, if_neg hwarm, State.resumeStart, hstep, Bool.false_eq_true, false_and, if_false]

end Sys2Proof.Machine
end

section
/-! SUPPORT. The commands of a retirement, clause by clause (O24). -/

namespace Sys2Proof.Claims
open Sys2Proof.Machine

theorem exec_retirementBegin {c : Nat} {s : State} (hc : c < 16) (hs : s.inService = true) :
    exec (.retirementBegin c) s = .next (s.takeTrigger c) := by
  show execRetirementBegin c s = _
  simp only [execRetirementBegin, if_pos hc, State.beginRetirement, if_pos hs, done]

theorem exec_recordWriteDone {s : State} (hup : s.coreUp doorkeeper = true) : exec .recordWriteDone s = .next s.popRecord.recordsMoved := by
  show execRecordWriteDone s = _
  simp only [execRecordWriteDone, if_pos hup, done]

theorem exec_imageMoveDone {c : Nat} {m : Moving} {s : State} (hc : c < 16) (hm : (s.cluster c).moving = some m) (hrec : m.record.isSome = true)
    (hup : s.coreUp (innkeeper c) = true) (hclk : s.power.tclkStopped = false) :
    exec (.imageMoveDone c) s = .next ((s.moveImage c).trySwitch c) := by
  show execImageMoveDone c s = _
  simp [execImageMoveDone, hm, hc, hrec, hup, hclk, done]

/-! ## RETIREMENT_BEGIN -/

section begins
variable {s : State} {c : Nat} {r : Retirement} {rest : List Retirement} (hc : c < 16) (hq : (s.cluster c).queue = r :: rest)
  (hm : (s.cluster c).moving = none) (hs : s.inService = true) (hup : s.coreUp (innkeeper c) = true)
include hc hq hm hs hup

theorem retirementBegin_retired (hret : s.mesh.isRetired r.tile = true) : Gives (.retirementBegin c) s fun t =>
    t.cluster c = { s.cluster c with queue := rest } ∧ (∀ k, k ≠ c → t.cluster k = s.cluster k)
      ∧ (r.cause ≠ 0 → t.firm = s.firm)
      ∧ (r.cause = 0 → s.firm.events.length < 256 → ∃ e, t.firm = { s.firm with events := s.firm.events ++ [e] } ∧ e.opcode = 0x0F80
          ∧ e.seq = r.seq ∧ e.payload.take 4 = leBytes 2 r.tile ++ [0, 4])
      ∧ t = { s with clusters := t.clusters, firm := t.firm } := by
  refine ⟨_, (exec_retirementBegin hc hs).trans (congrArg _ (State.takeTrigger_retired hq hm hup hret)), ?_⟩
  have hown := State.cluster_modCluster s c fun k => { k with queue := rest }
  have hothers := fun k hk => State.cluster_modCluster_other s c k (fun k => { k with queue := rest }) hk
  by_cases hcause : r.cause = 0
  · rw [if_pos hcause]
    refine ⟨hown, hothers, fun h => absurd hcause h, fun _ hroom => ⟨_, if_pos hroom, rfl, rfl, rfl⟩, rfl⟩
  · rw [if_neg hcause]
    exact ⟨hown, hothers, fun _ => rfl, fun h => absurd h hcause, rfl⟩

theorem retirementBegin_halts (hret : s.mesh.isRetired r.tile = false) (hrest : (s.tile r.tile).atRest = false) :
    Gives (.retirementBegin c) s fun t => ∃ m, m.what = r
      ∧ t.cluster c = { s.cluster c with queue := rest, moving := some m } ∧ (∀ k, k ≠ c → t.cluster k = s.cluster k)
      ∧ r.tile ∈ m.halted ∧ (∀ e ∈ m.moves, e.1 ∈ m.halted) ∧ (∀ h ∈ m.halted, Halter.retirement c ∈ (t.tile h).halts)
      ∧ (∀ h, h ∉ m.halted → t.tile h = s.tile h) ∧ (∀ p a, (t.tile p).word a = (s.tile p).word a) ∧ (∀ p n, t.ctx p n = s.ctx p n)
      ∧ t.mesh = s.mesh ∧ t = { s with clusters := t.clusters, tiles := t.tiles, jobs := t.jobs, ledgers := t.ledgers }
      ∧ (s.mesh.retired = [] → s.mesh.skip = [] → s.mesh.standIns = [] → s.mesh.lentRows = 0 → r.tile < 54 * 64 → r.tile / 64 % 18 ≤ 16 →
          let spare := 64 * (18 * (r.tile / 64 / 18) + 17) + r.tile % 64
          m.action = 1 ∧ m.closes = [] ∧ m.moves = (List.range (17 - r.tile / 64 % 18)).map fun k => (spare - 64 * (k + 1), spare - 64 * k)) := by
  refine ⟨_, (exec_retirementBegin hc hs).trans (congrArg _ (State.takeTrigger_halts hq hm hup hret hrest)), ?_⟩
  set k := s.modCluster c fun k => { k with queue := rest } with hk
  set m := k.planHalts r with hplan
  set u := k.modCluster c fun x => { x with moving := some m } with hu
  have htile : ∀ p, (u.haltEach m.halted (.retirement c)).tile p = if p ∈ m.halted then (s.tile p).withHalt (.retirement c) else s.tile p :=
    fun p => State.tile_haltEach u m.halted (.retirement c) p
  obtain ⟨ti, j, l, hshape⟩ := u.haltEach_onlyHalts m.halted (.retirement c)
  have hclusters : ∀ d, (u.haltEach m.halted (.retirement c)).cluster d = u.cluster d := by rw [hshape]; exact fun _ => rfl
  refine ⟨m, k.planHalts_what r, ?_, fun d hd => ?_, k.retiring_mem_halted r, fun e he => k.mover_mem_halted r he, fun h hh => ?_, fun h hh => ?_,
    fun p a => ?_, fun p n => ?_, by rw [hshape]; rfl, by rw [hshape]; rfl, ?_⟩
  · rw [hclusters, hu, State.cluster_modCluster, hk, State.cluster_modCluster]
  · rw [hclusters, hu, State.cluster_modCluster_other _ _ _ _ hd, hk, State.cluster_modCluster_other _ _ _ _ hd]
  · rw [htile, if_pos hh]
    exact Tile.mem_withHalt _ _
  · rw [htile, if_neg hh]
  · rw [htile]
    split <;> simp [Tile.word]
  · rw [State.ctx, htile]
    split <;> simp [State.ctx, Tile.ctx]
  · intro hretired hskip hstand hlent hp hrow spare
    have hspare : spareOf r.tile = spare := by
      dsimp only [spare, spareOf, physIndex, tileX, tileY]
      omega
    rw [← hspare]
    exact k.plan_shift r ⟨hretired, hskip, hstand, hlent⟩ hp hrow

end begins

/-! ## IMAGE_MOVE_DONE -/

theorem imageMoveDone_goes_on {c src dst : Nat} {more : Nat × Nat} {rest : List (Nat × Nat)} {m : Moving} {s : State} (hc : c < 16)
    (hup : s.coreUp (innkeeper c) = true) (hclk : s.power.tclkStopped = false) (hm : (s.cluster c).moving = some m) (hrec : m.record.isSome = true)
    (hmoves : m.moves = (src, dst) :: more :: rest) :
    Gives (.imageMoveDone c) s fun t => (t.cluster c).moving = some { m with
        moves := more :: rest, unreadable := m.unreadable || (src == m.what.tile && (Config.freeWord s.fresh).getLsbD 0) }
      ∧ t.mesh = s.mesh ∧ ∀ p a, (t.tile p).word a = (s.tile p).word a := by
  have hmoved := s.moving_moveImage hm hmoves
  have hwords : SameTiles wordView (fun p => (s.tile p).words, s) (s.moveImage c) := tiles_moveImage ⟨fun _ => rfl, rfl⟩ c
  refine ⟨_, exec_imageMoveDone hc hm hrec hup hclk, ?_⟩
  rw [State.trySwitch_moves _ hmoved (List.cons_ne_nil _ _)]
  exact ⟨hmoved, congrArg Prod.fst hwords.2, State.word_of_tiles hwords⟩

/-! ## RECORD_WRITE_DONE -/

section writes
variable {b : Bool} {r : Record} {rest : List (Bool × Record)} {s : State} (hdoor : s.coreUp doorkeeper = true)
  (hqueue : s.firm.recordQueue = (b, r) :: rest) (hflash : (s.flash b).state = 1) (hs : s.inService = true) (hstep : s.firm.stepDone = false)
  (hact : s.firm.activation = none) (hnext : s.firm.meshNext = none)
include hdoor hqueue hflash hs hstep hact hnext

theorem recordWriteDone_writes (hidle : ∀ c, c < 16 → (s.cluster c).moving = none) : Gives .recordWriteDone s fun t =>
    t.flash b = { s.flash b with record := r, torn := none } ∧ t.flash (!b) = s.flash (!b) ∧ t.firm.recordQueue = rest
      ∧ t = { s with firm := { s.firm with flashA := t.firm.flashA, flashB := t.firm.flashB, recordQueue := t.firm.recordQueue } } := by
  obtain ⟨fa, fb, hpop, hwritten, hother⟩ := s.popRecord_inService hqueue hflash
  have hfold : (List.range 16).foldl State.trySwitch s.popRecord = s.popRecord :=
    State.foldl_trySwitch_none _ _ fun c hc => by rw [hpop]; exact hidle c (List.mem_range.mp hc)
  have hmoved : s.popRecord.recordsMoved = s.popRecord :=
    State.recordsMoved_switches _ (by rw [hpop]; exact hnext) (by rw [hpop]; exact hact) hfold (by rw [hpop]; exact hs) (by rw [hpop]; exact hstep)
  refine ⟨s.popRecord, by rw [exec_recordWriteDone hdoor, hmoved], hwritten, hother, ?_, ?_⟩
  · rw [hpop]
  · rw [hpop]

/-- The write that a retirement with all its images moved waited for brings the switch. -/
theorem recordWriteDone_switches {c : Nat} {m : Moving} (hc : c < 16) (hready : s.popRecord.SwitchReady c m)
    (hspread : m.Spreads s.mesh (m.after (s.busyReserve m.what.tile) s.mesh)) :
    let after := m.after (s.busyReserve m.what.tile) s.mesh
    let old := fun x : Nat × Nat => s.mesh.physicalOf x.1 x.2
    let new := fun x : Nat × Nat => after.physicalOf x.1 x.2
    let coords := m.allCoords s.mesh
    Gives .recordWriteDone s fun t => t.mesh = after
      ∧ (∀ x ∈ coords, ∀ a, (t.tile (new x)).word a = (s.tile (old x)).word a)
      ∧ (∀ x ∈ coords, ∀ n, t.ctx (new x) n = s.ctx (old x) n)
      ∧ (∀ p, p ≠ m.what.tile → (∀ x ∈ coords, new x ≠ p) → ∀ a, (t.tile p).word a = (s.tile p).word a)
      ∧ (t.cluster c).moving = none ∧ (t.cluster c).lastTile.toNat = localIndex m.what.tile % 512 ∧ (t.cluster c).lastAction.toNat = m.action % 16
      ∧ (∀ h ∈ m.halted, Halter.retirement c ∉ (t.tile h).halts)
      ∧ t.flash b = { s.flash b with record := r, torn := none } ∧ t.firm.recordQueue = rest := by
  intro after old new coords
  obtain ⟨fa, fb, hpop, hwritten, -⟩ := s.popRecord_inService hqueue hflash
  obtain ⟨routers, events, lost, j, l, hfold⟩ := hready.switches hc
  have hread := hready.read
  have hown := State.cluster_moved_own s.popRecord c m after (m.pairs s.mesh after) routers (by rw [hready.moving]; exact Option.some_ne_none m)
  rw [hpop] at hfold hown hwritten
  set u : State := { s with firm := { s.firm with flashA := fa, flashB := fb, recordQueue := rest } } with hu
  change (List.range 16).foldl State.trySwitch u = { u.moved c m after (m.pairs s.mesh after) routers with
    firm := { u.firm with events := events, lostEvents := lost }, jobs := j, ledgers := l } at hfold
  set t : State := { u.moved c m after (m.pairs s.mesh after) routers with
    firm := { u.firm with events := events, lostEvents := lost }, jobs := j, ledgers := l }
  have hdone : u.recordsMoved = t := State.recordsMoved_switches u hnext hact hfold hs hstep
  have hcluster : t.cluster c = m.leave c (m.pairs s.mesh after) c (s.cluster c) := hown
  have hword : ∀ p a, (t.tile p).word a = ((u.carry m (m.pairs s.mesh after)).tile p).word a := State.word_moved u c m after _ routers
  have hctx : ∀ p n, t.ctx p n = (u.carry m (m.pairs s.mesh after)).ctx p n := State.ctx_moved u c m after _ routers
  refine ⟨t, by rw [exec_recordWriteDone hdoor, hpop, hdone], State.moved_mesh u c m after _ routers, fun x hx a => ?_, fun x hx n => ?_,
    fun p hp hplace a => ?_, by simp [hcluster, Moving.leave], by simp [hcluster, Moving.leave], by simp [hcluster, Moving.leave],
    fun h hh => State.not_mem_halts_moved u c m after _ routers hh, hwritten, rfl⟩
  · rw [hword, hspread.tile_carry u hread hx]
    rfl
  · rw [hctx, State.ctx, hspread.tile_carry u hread hx]
    rfl
  · rw [hword, hspread.tile_carry_other u hread hp hplace]
    rfl

end writes

/-- Settles O24, command by command: a trigger is answered or its plan halts tiles, an image is carried, and the last record's write brings the switch,
in which each coordinate's image goes to the place that the new mapping gives it. -/
theorem retirementFollowsItsSteps : Obligations.RetirementFollowsItsSteps := by
  refine ⟨?begins, ?moves, ?writes⟩
  case begins =>
    intro c r rest s hc hq hm hs hup
    exact ⟨retirementBegin_retired hc hq hm hs hup, retirementBegin_halts hc hq hm hs hup⟩
  case moves =>
    intro c src dst more rest m s hc hup hclk hm hrec hmoves
    exact imageMoveDone_goes_on hc hup hclk hm hrec hmoves
  case writes =>
    intro b r rest s hdoor hqueue hflash hs hstep hact hnext
    refine ⟨recordWriteDone_writes hdoor hqueue hflash hs hstep hact hnext, ?_⟩
    intro c q m hc hm hothers _ hup hrec hmoves hlast hread hcloses hrecorded hparked after old new coords hrows hspread
    obtain ⟨fa, fb, hpop, -⟩ := s.popRecord_inService hqueue hflash
    have hdone : rest.all (fun e => e.2.seq != q) = true := List.all_eq_true.mpr fun e he => by simpa using hlast e he
    have hready : s.popRecord.SwitchReady c m := by
      rw [hpop]
      exact ⟨hm, hothers, hup, hmoves, ⟨q, hrec, hdone⟩, hrecorded, hread, hparked, hcloses, hrows⟩
    exact recordWriteDone_switches hdoor hqueue hflash hs hstep hact hnext hc hready hspread

end Sys2Proof.Claims
end

section
/-! SUPPORT. A merge buffer that holds bytes of a line outside stack memory (O31). -/

namespace Sys2Proof.Machine

/-- The header that a packet gets leaves what the packet asks for (R217). -/
@[simp] theorem State.stamped_paddr (s : State) (k : Packet) : (s.stamped k).paddr = k.paddr := by
  unfold State.stamped; split <;> rfl
@[simp] theorem State.stamped_payload (s : State) (k : Packet) : (s.stamped k).payload = k.payload := by
  unfold State.stamped; split <;> rfl
@[simp] theorem State.stamped_fw (s : State) (k : Packet) : (s.stamped k).fw = k.fw := by
  unfold State.stamped; split <;> rfl

end Sys2Proof.Machine

namespace Sys2Proof.Claims
open Sys2Proof.Machine

/-- FND_WR_ARRIVE of a firmware write that names neither a tile store nor the fixed tables: it leaves its crossing and writes memory. -/
theorem exec_fndWrArrive_firmware (k : Packet) (s : State) (hk : k.kind = 7) (hfw : k.fw = true) (hclk : s.power.tclkStopped = false)
    (hslot : s.fndSlot (s.stamped k) (k.payload.flatMap fun w => leBytes 8 w.data.toNat).length = none)
    (hfix : pktFixed (s.stamped k) (k.payload.flatMap fun w => leBytes 8 w.data.toNat).length = false) :
    exec (.fndWrArrive k) s
      = .next ((s.takeCrossing k).memWrite k.paddr (k.payload.flatMap fun w => leBytes 8 w.data.toNat) .firmware) := by
  have hslot' : (s.takeCrossing k).fndSlot (s.stamped k) _ = none := hslot
  have hallowed : ∀ n, (s.takeCrossing k).fndAllowed (s.stamped k) n = true := by simp [State.fndAllowed, hfw]
  have hbreaks : ∀ n, (s.takeCrossing k).fndBreaks (s.stamped k) n = s.takeCrossing k := by simp [State.fndBreaks, hfw]
  show execFndWrArrive k s = _
  unfold execFndWrArrive
  rw [if_pos ⟨hk, by simp [hclk]⟩]
  simp only [State.stamped_payload, State.stamped_paddr, State.stamped_fw, hallowed, hslot', hfix, hbreaks, hfw, done, if_true, Bool.false_eq_true, if_false]

/-- A module whose stack 0 has a full merge buffer (R306), the oldest entry of which is a byte of the first line of cellar memory; a device backs
the region of that line. -/
def strayMerge : State :=
  { mem :=
      { stackCtl := [(0, { merge := { line := cellarBase / 64, bytes := [(0, 1)] } :: (List.range 31).map fun i => { line := i + 1 } })],
        regions := [(0, { device := some 0, filled := true })] } }

/-- A word that firmware writes to line 0 of stack memory. -/
def wordToLine0 : Packet := { kind := 7, fw := true, payload := [{ tag := .pack, data := 5 }] }

/-- The predicate speaks of an entry's stack, its line's uniqueness and its bytes, not of where its line lies. -/
theorem mergesOk_strayMerge : MergesOk strayMerge := by
  unfold MergesOk
  decide

theorem reads_strayMerge : reads strayMerge cellarBase = some 0 := by decide

/-- The write needs an entry, and the oldest is written back: to the byte of cellar memory (R306, R307). -/
theorem reads_strayMerge_write :
    reads ((strayMerge.takeCrossing wordToLine0).memWrite 0 (wordToLine0.payload.flatMap fun w => leBytes 8 w.data.toNat) .firmware) cellarBase
      = some 1 := by decide

/-- Refutes O31: the statement has a write leave what every other byte reads, but where its word takes the place of the oldest entry of a full
merge buffer, that entry is written back wherever its line lies, and nothing in the premises holds it to stack memory. -/
theorem not_foundationPacketsReadAndWrite : ¬ Obligations.FoundationPacketsReadAndWrite := by
  intro h
  obtain ⟨-, hwrite⟩ := h wordToLine0 strayMerge rfl
  obtain ⟨hmemory, -⟩ := hwrite rfl
  have hstatus : ∀ i, i < 8 * wordToLine0.payload.length →
      strayMerge.wordStatus (wordToLine0.paddr + i) = .ok ∨ strayMerge.wordStatus (wordToLine0.paddr + i) = .unwritten := by decide
  have hbacked : BackingsHoled strayMerge.mem := by
    intro e he b hb
    rw [List.mem_singleton.mp he] at hb
    exact absurd hb (by simp)
  have hnow : WritesNow strayMerge .firmware 0 8 := ⟨by decide, by decide⟩
  obtain ⟨t, ht, -, hothers, -⟩ := hmemory rfl mergesOk_strayMerge hbacked rfl (Or.inl rfl) (by decide) (by decide) hstatus hnow
  rw [exec_fndWrArrive_firmware wordToLine0 strayMerge rfl rfl rfl (by decide) (by decide)] at ht
  injection ht with ht
  have hsame := hothers cellarBase (Or.inr (by decide))
  rw [← ht, reads_strayMerge] at hsame
  exact absurd (reads_strayMerge_write.symm.trans hsame) (by decide)

end Sys2Proof.Claims
end

section
/-! SUPPORT. Responses: a response writes its slot and raises the slot's interrupt, and does nothing else (R53, R573). -/

namespace Sys2Proof.Machine

/-- Only slots and the links' queues differ: all that responses can do. -/
def OnlyAnswers (s t : State) : Prop := ∃ ho li, t = { s with firm := { s.firm with holes := ho }, hosts := { s.hosts with links := li } }

theorem OnlyAnswers.refl (s : State) : OnlyAnswers s s := ⟨s.firm.holes, s.hosts.links, rfl⟩

theorem OnlyAnswers.trans {s t u : State} (h : OnlyAnswers s t) (h' : OnlyAnswers t u) : OnlyAnswers s u := by
  obtain ⟨ho, li, rfl⟩ := h
  obtain ⟨ho', li', rfl⟩ := h'
  exact ⟨ho', li', rfl⟩

theorem OnlyAnswers.core {s t : State} (h : OnlyAnswers s t) (c : Nat) : t.core c = s.core c := by
  obtain ⟨ho, li, rfl⟩ := h
  rfl

theorem State.respond_onlyAnswers (s : State) (slot : Nat) (st : Status) (p : List Byte) : OnlyAnswers s (s.respond slot st p) := by
  obtain ⟨li, hstate, -, hfirm, -⟩ := s.respond_shape slot st p
  rw [hfirm] at hstate
  exact ⟨_, li, hstate⟩

@[simp] theorem State.core_respond (s : State) (slot : Nat) (st : Status) (p : List Byte) (c : Nat) : (s.respond slot st p).core c = s.core c :=
  (s.respond_onlyAnswers slot st p).core c

theorem State.hole_respond_other (s : State) {slot k : Nat} (st : Status) (p : List Byte) (h : k ≠ slot) : (s.respond slot st p).hole k = s.hole k := by
  obtain ⟨-, -, -, -, hothers, -⟩ := s.respond_shape slot st p
  exact hothers k h

/-- With IRQ_EN 0 the links hear nothing of a response (R50). -/
theorem State.respond_hosts (s : State) (slot : Nat) (st : Status) (p : List Byte) :
    (s.respond slot st p).hosts = { s.hosts with links := (s.respond slot st p).hosts.links }
      ∧ ((s.hole slot).irqEn = false → (s.respond slot st p).hosts = s.hosts) := by
  obtain ⟨li, hstate, hquiet, -⟩ := s.respond_shape slot st p
  rw [hstate]
  exact ⟨rfl, fun hi => by rw [hquiet hi]⟩

@[simp] theorem State.core_finish (s : State) (c : Nat) : (s.finish c).core c = { s.core c with begun := none } := State.core_modCore s c _

theorem State.core_finish_other (s : State) {c k : Nat} (h : k ≠ c) : (s.finish c).core k = s.core k := State.core_modCore_other s c k _ h

theorem State.dispatcherCompletes_onlyAnswers (s : State) (slot : Nat) (st : Status) : OnlyAnswers s (s.dispatcherCompletes slot st) :=
  OnlyAnswers.trans ⟨_, _, rfl⟩ (State.respond_onlyAnswers _ slot st [])

theorem State.hole_dispatcherCompletes_other (s : State) {slot k : Nat} (st : Status) (h : k ≠ slot) :
    (s.dispatcherCompletes slot st).hole k = s.hole k :=
  (State.hole_respond_other _ st [] h).trans (State.hole_modHole_other _ _ _ _ h)

/-- The dispatcher's checks read neither slot nor core but the server's state (R59). -/
theorem State.dispatchCheck_modHole (s : State) (n : Nat) (f : Pigeonhole → Pigeonhole) (h : Pigeonhole) :
    (s.modHole n f).dispatchCheck h = s.dispatchCheck h := rfl

theorem State.serverOf_modHole (s : State) (n : Nat) (f : Pigeonhole → Pigeonhole) (op : Nat) : (s.modHole n f).serverOf op = s.serverOf op := rfl

end Sys2Proof.Machine

namespace Sys2Proof.Claims
open Sys2Proof.Machine

theorem answered_respond (s : State) (slot : Nat) (st : Status) (p : List Byte) : Answered (s.respond slot st p) slot st := by
  obtain ⟨-, -, -, -, -, hanswer, -⟩ := s.respond_shape slot st p
  exact hanswer

theorem answers_respond (s : State) (slot : Nat) (st : Status) {p : List Byte} (hp : p.length < 4064) : Answers (s.respond slot st p) slot st p := by
  obtain ⟨-, -, -, -, -, hanswer, hpayload⟩ := s.respond_shape slot st p
  exact ⟨hanswer, (hpayload hp).2⟩

theorem Answered.of_hole {s t : State} {slot : Nat} {st : Status} (h : Answered s slot st) (he : t.hole slot = s.hole slot) : Answered t slot st := by
  unfold Answered
  rw [he]
  exact h

/-! ## The message commands (R59, R63) -/

/-- Each of the 62 message commands serves its block on its slot. -/
theorem exec_message {i : Instr} {slot : Nat} {b : ReqBlock} (h : messageOf i = some (slot, b)) (s : State) : exec i s = .next (serve b slot s) := by
  unfold messageOf at h
  split at h <;> cases h <;> rfl

section
variable {s : State} {slot core : Nat} {b : ReqBlock}

theorem serve_of_check_none (h : Begun s slot core b none) :
    serve b slot s =
      let a := b.run ((s.hole slot).req slot) s
      if a.later then a.state else (a.state.finish core).respond slot a.status a.payload := by
  obtain ⟨hbegan, hbusy, hop, hup, hcheck⟩ := h
  simp only [serve, hbegan, hbusy, hop, hup, hcheck, beq_self_eq_true, Bool.and_self, if_true]

theorem serve_of_check_some {st : Status} (h : Begun s slot core b (some st)) : serve b slot s = (s.finish core).respond slot st [] := by
  obtain ⟨hbegan, hbusy, hop, hup, hcheck⟩ := h
  simp only [serve, hbegan, hbusy, hop, hup, hcheck, beq_self_eq_true, Bool.and_self, if_true]

end

/-- What the response to a served request adds to the state that its block leaves: the slot, the core's mark and the slot's interrupt. -/
theorem finish_respond_frame (s : State) (slot core : Nat) (st : Status) (p : List Byte) :
    let t := (s.finish core).respond slot st p
    t = { s with firm := { s.firm with holes := t.firm.holes, cores := t.firm.cores }, hosts := t.hosts }
      ∧ (∀ k, k ≠ slot → t.hole k = s.hole k) ∧ (∀ k, k ≠ core → t.core k = s.core k) ∧ t.core core = { s.core core with begun := none } := by
  intro t
  refine ⟨?_, fun k hk => State.hole_respond_other _ st p hk, fun k hk => ?_, ?_⟩
  · obtain ⟨ho, li, h⟩ := (s.finish core).respond_onlyAnswers slot st p
    simp only [t, h]
    rfl
  · rw [State.core_respond, State.core_finish_other _ hk]
  · rw [State.core_respond, State.core_finish]

/-- Settles O7: every message command serves its block, and the response adds what a response adds to the block's effect. -/
theorem messageIsCarriedOutAndAnswered : Obligations.MessageIsCarriedOutAndAnswered := by
  intro i slot core b s hi hbegun a
  refine ⟨_, exec_message hi s, ?_⟩
  rw [serve_of_check_none hbegun]
  dsimp only
  split
  · rfl
  · obtain ⟨hframe, hholes, hcores, hcore⟩ := finish_respond_frame a.state slot core a.status a.payload
    refine ⟨answered_respond _ _ _ _, by rw [hcore], fun hp => ?_, hframe, hholes, hcores⟩
    obtain ⟨-, -, -, -, -, -, hpayload⟩ := (a.state.finish core).respond_shape slot a.status a.payload
    exact hpayload hp

/-! ## The pigeonhole commands (R50 to R60) -/

theorem exec_phGo (slot : Nat) (s : State) : exec (.phGo slot) s = .next (s.go slot) := rfl

section
variable {s : State} {slot : Nat} (hslot : slot < 30)
include hslot

/-- GO on a slot that is BUSY or DONE is discarded (R52). -/
theorem go_of_taken (h : (s.hole slot).busy = true ∨ (s.hole slot).done = true) : s.go slot = s.modHole slot fun h => { h with dropped := true } := by
  have hor : ((s.hole slot).busy || (s.hole slot).done) = true := by simpa using h
  simp only [State.go, if_neg (Nat.not_le.mpr hslot), hor, if_true]

variable (hbusy : (s.hole slot).busy = false) (hdone : (s.hole slot).done = false)
include hbusy hdone

theorem go_of_check_some {st : Status} (h : s.dispatchCheck (s.hole slot) = some st) :
    s.go slot = (s.modHole slot fun h => { h with busy := true, server := 0xFF }).dispatcherCompletes slot st := by
  simp only [State.go, if_neg (Nat.not_le.mpr hslot), hbusy, hdone, Bool.or_self, Bool.false_eq_true, if_false, State.dispatchCheck_modHole, h]

theorem go_of_check_none {core : Nat} (h : s.dispatchCheck (s.hole slot) = none) (hserver : s.serverOf ((s.hole slot).num 2 2) = some core) :
    s.go slot =
      ((((s.modHole slot fun h => { h with busy := true, server := 0xFF }).modHole slot fun h => { h with server := BitVec.ofNat 8 core }).modCore core
        fun k => { k with queue := k.queue ++ [slot] }).fire core 0) := by
  simp only [State.go, if_neg (Nat.not_le.mpr hslot), hbusy, hdone, Bool.or_self, Bool.false_eq_true, if_false, State.dispatchCheck_modHole, h,
    State.serverOf_modHole, hserver]

end

/-- Settles O8: the response is all that a failed check does, whether the core or the dispatcher finds it. -/
theorem failedCheckHasNoSideEffects : Obligations.FailedCheckHasNoSideEffects := by
  refine ⟨?core, ?dispatcher⟩
  case core =>
    intro i slot core b st s hi hbegun
    refine ⟨_, exec_message hi s, ?_⟩
    rw [serve_of_check_some hbegun]
    obtain ⟨hframe, hholes, hcores, hcore⟩ := finish_respond_frame s slot core st []
    obtain ⟨hlinks, hquiet⟩ := (s.finish core).respond_hosts slot st []
    exact ⟨answered_respond _ _ _ _, hframe, hholes, hcores, hcore, hlinks, hquiet⟩
  case dispatcher =>
    intro slot st s hslot hbusy hdone hcheck
    refine ⟨_, exec_phGo slot s, ?_⟩
    rw [go_of_check_some hslot hbusy hdone hcheck]
    set u := s.modHole slot fun h => { h with busy := true, server := 0xFF } with hu
    set v := u.modHole slot fun h => { h with server := 0xFF } with hv
    obtain ⟨hlinks, hquiet⟩ := v.respond_hosts slot st []
    refine ⟨answered_respond v slot st [], ?_, fun k hk => ?_, hlinks, fun hirq => hquiet ?_⟩
    · obtain ⟨ho, li, h⟩ := v.respond_onlyAnswers slot st []
      rw [State.dispatcherCompletes, ← hv, h]
      rfl
    · rw [State.hole_dispatcherCompletes_other _ st hk, hu, State.hole_modHole_other _ _ _ _ hk]
    · rw [hv, State.hole_modHole, hu, State.hole_modHole]
      exact hirq

/-- Joining a core's queue with its source 0 fired (R34, R567). -/
theorem core_enqueued (s : State) (core slot : Nat) :
    let k := ((s.modCore core fun k => { k with queue := k.queue ++ [slot] }).fire core 0).core core
    k.queue = (s.core core).queue ++ [slot] ∧ k.pend.getLsbD 0 = true := by
  simp [State.fire, Core.wake]

theorem exec_requestBegin {s : State} {core slot : Nat} {r : List Nat} (hq : (s.core core).queue = slot :: r) (hup : s.coreUp core = true)
    (hfree : (s.core core).begun = none) :
    exec (.requestBegin core) s = .next (s.modCore core fun k => { k with queue := r, begun := some slot }) := by
  show execRequestBegin core s = _
  simp [execRequestBegin, hq, hup, hfree, done]

/-- The bytes that EVENT_POST writes into a slot (R57, R58). -/
def eventBytes (s : State) (e : Event) : List Byte :=
  [3, BitVec.ofNat 8 (match s.firm.session with | some x => x.minor | none => 0)] ++ leBytes 2 e.opcode ++ leBytes 2 e.payload.length
    ++ leBytes 2 (2 + if s.firm.lostEvents then 4 else 0) ++ leBytes 4 e.seq ++ leBytes 2 e.status ++ leBytes 2 e.guest ++ leBytes 8 e.time ++ zeros 8 ++ e.payload

/-- The state once the oldest event is written into a slot, before the slot's interrupt. -/
def posted (s : State) (slot : Nat) (e : Event) (r : List Event) : State :=
  (s.modFirm fun f => { f with events := r, lostEvents := false }).modHole slot fun h => { (h.put 0 (eventBytes s e)) with done := true }

section
variable {s : State} {slot : Nat} {e : Event} {r : List Event} (hslot : slot = 30 ∨ slot = 31) (hevents : s.firm.events = e :: r)
include hslot hevents

theorem exec_eventPost_taken (h : (s.hole slot).done = true) : exec (.eventPost slot) s = .next s := by
  show execEventPost slot s = _
  simp [execEventPost, hslot, hevents, h, done]

theorem exec_eventPost_free (h : (s.hole slot).done = false) : exec (.eventPost slot) s = .next ((posted s slot e r).holeDone slot) := by
  show execEventPost slot s = _
  simp only [execEventPost, if_pos hslot, hevents, h, Bool.false_eq_true, if_false, done]
  rfl

end

theorem posted_fields (s : State) (slot : Nat) (e : Event) (r : List Event) :
    let h := (posted s slot e r).hole slot
    h.done = true ∧ h.get 2 2 = leBytes 2 e.opcode ∧ h.get 16 8 = leBytes 8 e.time
      ∧ h.get 6 2 = leBytes 2 (2 + if s.firm.lostEvents then 4 else 0) := by
  have hhole : (posted s slot e r).hole slot = { ((s.hole slot).put 0 (eventBytes s e)) with done := true } := State.hole_modHole _ _ _
  have hlength : 24 ≤ (eventBytes s e).length := by
    simp only [eventBytes, List.length_append, leBytes_length, zeros, List.length_replicate, List.length_cons, List.length_nil]
    omega
  have hfield : ∀ o n, o + n ≤ 24 → ((posted s slot e r).hole slot).get o n = ((eventBytes s e).drop o).take n := by
    intro o n hn
    rw [hhole]
    exact Pigeonhole.get_put_in _ _ _ _ _ (Nat.zero_le _) (by omega)
  refine ⟨by rw [hhole], ?_, ?_, ?_⟩
  · rw [hfield _ _ (by decide)]; rfl
  · rw [hfield _ _ (by decide)]; rfl
  · rw [hfield _ _ (by decide)]; rfl

/-- Settles O9, command by command. -/
theorem pigeonholeCommandsFollowTheirRules : Obligations.PigeonholeCommandsFollowTheirRules := by
  refine ⟨?taken, ?free, ?begins, ?clear, ?post⟩
  case taken =>
    intro slot s hslot h
    exact ⟨_, exec_phGo slot s, go_of_taken hslot h⟩
  case free =>
    intro slot core s hslot hbusy hdone hcheck hserver
    refine ⟨_, exec_phGo slot s, ?_⟩
    rw [go_of_check_none hslot hbusy hdone hcheck hserver]
    set v := (s.modHole slot fun h => { h with busy := true, server := 0xFF }).modHole slot fun h => { h with server := BitVec.ofNat 8 core } with hv
    obtain ⟨hqueue, hpend⟩ := core_enqueued v core slot
    have hhole : v.hole slot = { s.hole slot with busy := true, server := BitVec.ofNat 8 core } := by rw [hv, State.hole_modHole, State.hole_modHole]
    refine ⟨congrArg Pigeonhole.busy hhole, congrArg Pigeonhole.server hhole, hqueue, hpend, rfl, fun k hk => ?_, fun k hk => ?_⟩
    · show v.hole k = s.hole k
      rw [hv, State.hole_modHole_other _ _ _ _ hk, State.hole_modHole_other _ _ _ _ hk]
    · rw [State.fire, State.core_modCore_other _ _ _ _ hk, State.core_modCore_other _ _ _ _ hk]
      rfl
  case begins =>
    intro core slot r s hq hup hfree
    exact ⟨_, exec_requestBegin hq hup hfree, State.core_modCore _ _ _, rfl, fun k hk => State.core_modCore_other _ _ _ _ hk⟩
  case clear =>
    intro slot s hslot
    exact ⟨_, if_pos hslot, rfl⟩
  case post =>
    intro slot e r s hslot hevents
    cases hd : (s.hole slot).done with
    | true => exact ⟨s, exec_eventPost_taken hslot hevents hd, rfl⟩
    | false =>
      refine ⟨_, exec_eventPost_free hslot hevents hd, ?_⟩
      obtain ⟨li, hli, -⟩ := (posted s slot e r).holeDone_shape slot
      rw [hli]
      obtain ⟨hdone, hop, htime, hflags⟩ := posted_fields s slot e r
      exact ⟨rfl, rfl, hdone, hop, htime, hflags, rfl, fun k hk => State.hole_modHole_other _ _ _ _ hk⟩

end Sys2Proof.Claims
end

section
/-! SUPPORT. A step without a command: one AON cycle, and what an error that arises in it leaves as it is (O2). -/

namespace Sys2Proof.Machine

/-! ## The cycle -/

/-- An AON cycle as one update of both times (R53, R444, R477). -/
theorem State.aonCycle_eq (s : State) :
    s.aonCycle = { s with
      firm := { s.firm with aon := s.firm.aon + 1 },
      net := { s.net with
        time := if s.net.timeFrac + 1 < 25 then s.net.time else s.net.time + 1,
        timeFrac := if s.net.timeFrac + 1 < 25 then s.net.timeFrac + 1 else 0, timeNs := 0 } } := by
  unfold State.aonCycle
  by_cases h : s.net.timeFrac + 1 < 25 <;> simp [State.modNet, State.modFirm, h]

/-- Courier time begins again at 0 with the cycle after its last value. -/
theorem courierTime_wraps_iff (f : Nat) (v : BitVec 32) :
    (if f + 1 < 25 then v else v + 1).toNat < v.toNat ↔ ¬ (f + 1 < 25 ∨ v.toNat + 1 < 2 ^ 32) := by
  have hv := v.isLt
  by_cases h : f + 1 < 25
  · simp [h]
  · rw [if_neg h, BitVec.toNat_add]
    simp
    omega

/-- The clock's tick repositions gates and timetables with the cycle in which courier time begins again (R479). -/
theorem State.clockTick_eq (s : State) :
    s.clockTick = if s.net.timeFrac + 1 < 25 ∨ s.net.time.toNat + 1 < 2 ^ 32 then s.aonCycle else s.aonCycle.reposition := by
  have hwraps : s.aonCycle.net.time.toNat < s.net.time.toNat ↔ ¬ (s.net.timeFrac + 1 < 25 ∨ s.net.time.toNat + 1 < 2 ^ 32) := by
    rw [s.aonCycle_eq]
    exact courierTime_wraps_iff _ _
  unfold State.clockTick
  simp only [hwraps, ite_not]

theorem State.clockTick_mem (s : State) : s.clockTick.mem = s.mem := by
  rw [s.clockTick_eq]
  split <;> rfl

theorem State.clockTick_aon (s : State) : s.clockTick.firm.aon = s.firm.aon + 1 := by
  rw [s.clockTick_eq]
  split <;> rfl

theorem State.evacTick_idle (s : State) {d : Nat} (h : (s.cellar d).releasing = false) : s.evacTick d = s := by
  simp [State.evacTick, State.evacuating, h]

theorem State.foldl_evacTick_idle (l : List Nat) (s : State) (h : ∀ d ∈ l, (s.cellar d).releasing = false) : l.foldl State.evacTick s = s := by
  induction l with
  | nil => rfl
  | cons d r ih =>
    obtain ⟨hd, hr⟩ := List.forall_mem_cons.mp h
    rw [List.foldl_cons, s.evacTick_idle hd]
    exact ih hr

section
variable {s : State} (h : ∀ d, d < 8 → (s.cellar d).releasing = false)
include h

theorem State.foldl_evacTick_clockTick : (List.range 8).foldl State.evacTick s.clockTick = s.clockTick :=
  State.foldl_evacTick_idle _ _ fun d hd => by
    rw [State.cellar, s.clockTick_mem]
    exact h d (List.mem_range.mp hd)

/-- With no device being released, the cycle and the error that arises in it are all. -/
theorem State.idle_of_upset {e : Upset} (he : Config.upset (s.firm.aon + 1) = some e) : s.idle = s.clockTick.upset e := by
  simp only [State.idle, State.foldl_evacTick_clockTick h, s.clockTick_aon, he]

theorem State.idle_of_no_upset (he : Config.upset (s.firm.aon + 1) = none) : s.idle = s.clockTick := by
  simp only [State.idle, State.foldl_evacTick_clockTick h, s.clockTick_aon, he]

end

/-! ## Errors that arise -/

/-- What no error that arises changes (notes/assumptions/83.md). -/
def SameButErrors (s t : State) : Prop :=
  t.firm.aon = s.firm.aon ∧ t.net = s.net ∧ t.guests = s.guests ∧ t.pending = s.pending ∧ ∀ l, (t.link l).up = (s.link l).up

theorem SameButErrors.refl (s : State) : SameButErrors s s := ⟨rfl, rfl, rfl, rfl, fun _ => rfl⟩

theorem State.queueRetirement_sameButErrors (s : State) (r : Retirement) : SameButErrors s (s.queueRetirement r) := by
  unfold State.queueRetirement
  extract_lets k running t
  split
  · exact .refl s
  · split
    · exact ⟨rfl, rfl, rfl, rfl, fun _ => rfl⟩
    · obtain ⟨ti, j, l, h⟩ := t.halt_onlyHalts r.tile (.retirement (clusterOf r.tile))
      rw [h]
      exact ⟨rfl, rfl, rfl, rfl, fun _ => rfl⟩

theorem State.up_modLink (s : State) (n : Nat) (f : Upstream → Upstream) (hf : ∀ l, (f l).up = l.up) (k : Nat) :
    ((s.modLink n f).link k).up = (s.link k).up := by
  by_cases hk : k = n
  · rw [hk, State.link_modLink, hf]
  · rw [State.link_modLink_other _ _ _ _ hk]

theorem State.linkUpset_sameButErrors (s : State) (n bit : Nat) (correctable : Bool) : SameButErrors s (s.linkUpset n bit correctable) := by
  unfold State.linkUpset
  extract_lets b
  split
  · split
    · exact .refl s
    · exact ⟨rfl, rfl, rfl, rfl, State.up_modLink s n _ fun l => by split <;> rfl⟩
  · split
    · exact ⟨rfl, rfl, rfl, rfl, fun _ => rfl⟩
    · exact .refl s

theorem State.upset_sameButErrors (s : State) (e : Upset) : SameButErrors s (s.upset e) := by
  cases e with
  | router p =>
    simp only [State.upset]
    split
    · exact s.queueRetirement_sameButErrors _
    · exact .refl s
  | link n bit correctable => exact s.linkUpset_sameButErrors n bit correctable
  | store p w double => simp only [State.upset]; split <;> exact ⟨rfl, rfl, rfl, rfl, fun _ => rfl⟩
  | register p n r => simp only [State.upset]; split <;> exact ⟨rfl, rfl, rfl, rfl, fun _ => rfl⟩
  | symbol l i flip => simp only [State.upset]; split <;> exact ⟨rfl, rfl, rfl, rfl, fun _ => rfl⟩
  | sram w => simp only [State.upset]; split <;> exact ⟨rfl, rfl, rfl, rfl, fun _ => rfl⟩
  | cellar l failed => simp only [State.upset]; split <;> exact ⟨rfl, rfl, rfl, rfl, fun _ => rfl⟩

end Sys2Proof.Machine

namespace Sys2Proof.Claims
open Sys2Proof.Machine

theorem step_of_idle {s : State} (h : s.pending = []) : step s = .next s.idle := by
  simp only [step, h, done]

/-- Settles O2: with no device being released the idle step is the clock's tick and the error that arises in it; with one, the pieces of its
evacuation keep the queue. -/
theorem idleStepIsOneAonCycle : Obligations.IdleStepIsOneAonCycle := by
  refine ⟨?cycle, ?releasing⟩
  case cycle =>
    intro s hpending hcellars t u
    have htick : s.clockTick = u := by rw [s.clockTick_eq, s.aonCycle_eq]
    have hsame : SameButErrors { s with firm := t.firm, net := t.net } u := by
      dsimp only [u]
      split <;> exact ⟨rfl, rfl, rfl, rfl, fun _ => rfl⟩
    refine ⟨?_, fun e => ?_⟩
    · rw [step_of_idle hpending]
      cases he : Config.upset (s.firm.aon + 1) with
      | none => exact congrArg _ ((State.idle_of_no_upset hcellars he).trans htick)
      | some e => exact congrArg _ ((State.idle_of_upset hcellars he).trans (congrArg (·.upset e) htick))
    · obtain ⟨haon, hnet, hguests, hqueue, hup⟩ := u.upset_sameButErrors e
      obtain ⟨haon', hnet', hguests', hqueue', hup'⟩ := hsame
      exact ⟨haon.trans haon', hnet.trans hnet', hguests.trans hguests', (hqueue.trans hqueue').trans hpending, fun l => (hup l).trans (hup' l)⟩
  case releasing =>
    intro s hpending hsound
    exact ⟨_, step_of_idle hpending, (keeps_idle ⟨hpending, hsound⟩).pending⟩

end Sys2Proof.Claims
end

section
/-! SUPPORT. What the firing of a source and the drop of a core's requests change; the entry of stage S4 with a line beyond correction in the merge
buffer, the state that shows that SHEDDING need not end in the READY it was entered from (O39). -/

namespace Sys2Proof.Machine

/-! ## Sources and requests of a core -/

/-- Only the table of firmware cores differs. -/
def OnlyCores (s t : State) : Prop := ∃ c, t = { s with firm := { s.firm with cores := c } }

theorem OnlyCores.refl (s : State) : OnlyCores s s := ⟨s.firm.cores, rfl⟩

theorem OnlyCores.trans {s t u : State} (h : OnlyCores s t) (h' : OnlyCores t u) : OnlyCores s u := by
  obtain ⟨c, rfl⟩ := h
  obtain ⟨c', rfl⟩ := h'
  exact ⟨c', rfl⟩

theorem State.fireAll_onlyCores (s : State) (source : Nat) : OnlyCores s (s.fireAll source) := by
  unfold State.fireAll
  generalize List.range 19 = l
  induction l generalizing s with
  | nil => exact .refl s
  | cons c r ih =>
    refine OnlyCores.trans ?_ (ih _)
    dsimp only
    split
    · exact ⟨_, rfl⟩
    · exact .refl s

theorem State.foldl_dispatcherCompletes_onlyAnswers (l : List Nat) (st : Status) (s : State) :
    OnlyAnswers s (l.foldl (fun s n => s.dispatcherCompletes n st) s) := by
  induction l generalizing s with
  | nil => exact .refl s
  | cons n r ih => exact OnlyAnswers.trans (s.dispatcherCompletes_onlyAnswers n st) (ih _)

/-- Dropped requests are answered, and the core forgets them. -/
theorem State.dropRequests_onlyAnswers (s : State) (c : Nat) :
    OnlyAnswers (s.modCore c fun k => { k with queue := [], begun := none }) (s.dropRequests c) := by
  unfold State.dropRequests
  refine OnlyAnswers.trans ?_ (State.foldl_dispatcherCompletes_onlyAnswers _ _ _)
  cases (s.core c).begun with
  | none => exact .refl _
  | some n => exact State.respond_onlyAnswers _ n .faulted []

/-! ## Events and records (R56, R67) -/

/-- Only the backlog of events differs. -/
def OnlyEvents (s t : State) : Prop := ∃ ev lost, t = { s with firm := { s.firm with events := ev, lostEvents := lost } }

theorem State.raise_onlyEvents (s : State) (op : Nat) (p : List Byte) (g n st : Nat) : OnlyEvents s (s.raise op p g n st) := by
  simp only [State.raise, State.modFirm]
  split
  · exact ⟨_, _, rfl⟩
  · exact ⟨_, true, rfl⟩

/-! ## The merge buffer (R307, R313) -/

/-- R313: without a spare row the pseudo-channel of the line becomes failing. -/
theorem State.repairRow_of_no_spare (s : State) (line : Nat)
    (h : fgetD (Config.spareRows (Config.bankOf (s.mem.rowAt line))) (s.stack (s.mem.pcAt line / 64)).spares
      (s.mem.pcAt line % 64 + 64 * Config.bankOf (s.mem.rowAt line)) = 0) :
    s.repairRow line = s.markFailing (s.mem.pcAt line) := by
  unfold State.repairRow
  exact if_pos h

/-- What a write-back leaves of a line beyond correction, after the repair of its row (R307). -/
def State.writeBackPoison (s : State) (k line : Nat) : State :=
  let s := s.modMem fun m => { m with poison := addTo m.poison line, wrong := fdel m.wrong line }
  let s := s.modStack k fun c => { c with uncorrectable := satInc c.uncorrectable }
  s.memEvent 7 k (s.mem.pcAt line % 64) 0 (64 * line)

theorem State.writeBack_of_twoSymbol (s : State) (e : MergeEntry) (h : s.mem.twoSymbol.contains e.line = true) :
    s.writeBack e =
      ((s.modStack (s.mem.stackAt e.line) fun c => { c with merge := c.merge.filter (·.line != e.line) }).repairRow e.line).writeBackPoison
        (s.mem.stackAt e.line) e.line := by
  have hu : (s.modStack (s.mem.stackAt e.line) fun c => { c with merge := c.merge.filter (·.line != e.line) }).mem.twoSymbol.contains e.line = true := h
  unfold State.writeBack State.writeBackPoison
  dsimp only
  rw [if_pos (Bool.or_eq_true_iff.mpr (.inl hu)), if_pos hu]

theorem State.stateEvent_onlyEvents (s : State) (old : MState) (cause core : Nat) : OnlyEvents s (s.stateEvent old cause core) :=
  s.raise_onlyEvents ..

/-! ## What S4 finds idle (R548) -/

theorem State.netLink_of_down (s : State) {p : Nat} (h : (s.netPort p).linkUp = false) : s.netLink p false = s := by
  unfold State.netLink
  exact if_pos h

theorem State.foldl_netLink_of_down (l : List Nat) (s : State) (h : ∀ p, (s.netPort p).linkUp = false) :
    l.foldl (fun s p => if p = 0 then s else s.netLink p false) s = s := by
  induction l with
  | nil => rfl
  | cons p r ih => rw [List.foldl_cons, s.netLink_of_down (h p), ite_self, ih]

theorem State.stopEngines_idle (s : State) (h : s.cipher.engines = []) : s.stopEngines = s.modCipher fun c => { c with engines := [], waiting := [] } := by
  rw [State.stopEngines, h]
  rfl

theorem State.interruptStorage_idle (s : State) (h : s.storage.pairs = []) :
    s.interruptStorage = { s with guests := fmap s.guests fun _ g => { g with aers := [] } } := by
  rw [State.interruptStorage, h]
  rfl

theorem State.interruptCourier_idle (s : State) (h : s.net.conns = []) : s.interruptCourier = s := by
  rw [State.interruptCourier, h]
  rfl

theorem State.foldl_writeBack_of_no_merge (l : List Nat) (s : State) (h : ∀ k, (s.stack k).merge = []) :
    l.foldl (fun s k => ((s.stack k).merge.filter fun _ => true).foldl State.writeBack s) s = s := by
  induction l with
  | nil => rfl
  | cons k r ih => simpa [h k] using ih

end Sys2Proof.Machine

namespace Sys2Proof.Claims
open Sys2Proof.Machine

/-- Line 0, of stack 0, has two wrong symbols and waits in the merge buffer; its bank has no spare row left, and sixteen other pseudo-channels are
failing. None of this keeps a module from READY (R47). -/
def seventeenthFailing : State :=
  { firm := { mstate := .ready, cores := (List.range 19).map fun c => (c, { run := .running }) }
    mem :=
      { wrong := [(0, [1, 1])], failing := (List.range 16).map (· + 1),
        stackCtl := [(0, { merge := [{ line := 0 }], spares := [(64 * Config.bankOf (Config.rowOf 0), 0)] })] } }

/-- Its memory once the merge buffer no longer holds the line. -/
def seventeenthFailing.dropped : Mem :=
  { seventeenthFailing.mem with stackCtl := [(0, { spares := [(64 * Config.bankOf (Config.rowOf 0), 0)] })] }

theorem dropped_spares (s : State) (h : s.mem = seventeenthFailing.dropped) :
    fgetD (Config.spareRows (Config.bankOf (s.mem.rowAt 0))) (s.stack 0).spares (64 * Config.bankOf (s.mem.rowAt 0)) = 0 := by
  have hrow : s.mem.rowAt 0 = Config.rowOf 0 := by
    rw [h]
    exact congrArg Config.rowOf (by decide)
  have hstack : s.stack 0 = { spares := [(64 * Config.bankOf (Config.rowOf 0), 0)] } := by
    rw [State.stack, h]
    rfl
  rw [hrow, hstack]
  simp [fgetD, fget]

/-- The write-back of the line makes its pseudo-channel the seventeenth that fails, whatever else holds of the module (R313, R321). -/
theorem writeBack_seventeenthFailing (s : State) (h : s.mem = seventeenthFailing.mem) :
    s.writeBack { line := 0 } = (State.markFailing { s with mem := seventeenthFailing.dropped } 0).writeBackPoison 0 0 := by
  have hbad : s.mem.twoSymbol.contains 0 = true := by rw [h]; decide
  have hstack : s.mem.stackAt 0 = 0 := by rw [h]; decide
  have hdrop : (s.modStack 0 fun c => { c with merge := c.merge.filter (·.line != 0) }) = { s with mem := seventeenthFailing.dropped } := by
    unfold State.modStack State.modMem
    rw [h]
    rfl
  have hpc : seventeenthFailing.dropped.pcAt 0 = 0 := by decide
  have hrepair : State.repairRow { s with mem := seventeenthFailing.dropped } 0 = State.markFailing { s with mem := seventeenthFailing.dropped } 0 := by
    rw [State.repairRow_of_no_spare] <;> dsimp only <;> rw [hpc]
    rw [Nat.zero_mod, Nat.zero_add, Nat.zero_div]
    exact dropped_spares { s with mem := seventeenthFailing.dropped } rfl
  rw [State.writeBack_of_twoSymbol _ _ hbad, hstack, hdrop, hrepair]


/-- Its memory with the line poisoned and its pseudo-channel fenced. -/
def seventeenthFailing.flushed : Mem :=
  { seventeenthFailing.mem with
    wrong := [], poison := [0], fenced := true, failing := addTo seventeenthFailing.mem.failing 0,
    stackCtl := [(0, { uncorrectable := 1, spares := [(64 * Config.bankOf (Config.rowOf 0), 0)] })] }

theorem markFailing_dropped (s : State) :
    State.markFailing { s with mem := seventeenthFailing.dropped } 0 =
      ((State.degrade { s with mem := { seventeenthFailing.dropped with fenced := true, failing := addTo seventeenthFailing.dropped.failing 0 } }).writeRecord
        fun r => { r with failing := addTo r.failing 0 }).memEvent 8 0 0 0 0 := rfl

/-- The state differs in its memory, which is `m`, and in its firmware, which is DEGRADED. -/
def DegradedWith (m : Mem) (s t : State) : Prop := ∃ f, t = { s with mem := m, firm := f } ∧ f.mstate = .degraded

theorem DegradedWith.raise {m : Mem} {s t : State} (h : DegradedWith m s t) (op : Nat) (p : List Byte) (g n st : Nat) :
    DegradedWith m s (t.raise op p g n st) := by
  obtain ⟨ev, lost, ht⟩ := t.raise_onlyEvents op p g n st
  obtain ⟨f, rfl, hf⟩ := h
  exact ⟨_, ht, hf⟩

theorem DegradedWith.writeRecord {m : Mem} {s t : State} (h : DegradedWith m s t) (r : Record → Record) : DegradedWith m s (t.writeRecord r) := by
  obtain ⟨f, rfl, hf⟩ := h
  exact ⟨_, rfl, hf⟩

theorem DegradedWith.modMem {m : Mem} {s t : State} (h : DegradedWith m s t) (g : Mem → Mem) : DegradedWith (g m) s (t.modMem g) := by
  obtain ⟨f, rfl, hf⟩ := h
  exact ⟨f, rfl, hf⟩

theorem DegradedWith.of_degrade (s : State) (m : Mem) (h : s.firm.mstate = .ready) : DegradedWith m s (State.degrade { s with mem := m }) := by
  simp only [State.degrade, h]
  exact DegradedWith.raise ⟨_, rfl, rfl⟩ ..

theorem writeBack_seventeenthFailing_degrades (s : State) (hmem : s.mem = seventeenthFailing.mem) (hready : s.firm.mstate = .ready) :
    DegradedWith seventeenthFailing.flushed s (s.writeBack { line := 0 }) := by
  rw [writeBack_seventeenthFailing s hmem, markFailing_dropped]
  exact ((((DegradedWith.of_degrade s _ hready).writeRecord _).raise ..).modMem _ |>.modMem _).raise ..

/-- The flush before S4 leaves the module DEGRADED (R47). -/
theorem flushMerges_seventeenthFailing (s : State) (hmem : s.mem = seventeenthFailing.mem) (hready : s.firm.mstate = .ready) :
    DegradedWith seventeenthFailing.flushed s (s.flushMerges fun _ => false) := by
  obtain ⟨f, hback, hstate⟩ := writeBack_seventeenthFailing_degrades s hmem hready
  refine ⟨f, ?_, hstate⟩
  have hzero : ((s.stack 0).merge.filter fun _ => true) = [{ line := 0 }] := by
    rw [State.stack, hmem]
    rfl
  have hempty : ∀ k, (State.stack { s with mem := seventeenthFailing.flushed, firm := f } k).merge = [] := by
    intro k
    by_cases hk : k = 0
    · rw [hk]
      rfl
    · simp [State.stack, seventeenthFailing.flushed, fgetD, fget, Ne.symm hk]
  have hrange : List.range 16 = 0 :: List.range' 1 15 := rfl
  simp only [State.flushMerges, Bool.not_false]
  rw [hrange, List.foldl_cons, hzero, List.foldl_cons, List.foldl_nil, hback]
  exact State.foldl_writeBack_of_no_merge _ _ hempty

/-- With no network link, engine, storage command or connection in use, S4 leaves the module's state as the flush does. -/
theorem enterS4_seventeenthFailing (s : State) (hmem : s.mem = seventeenthFailing.mem) (hready : s.firm.mstate = .ready) (hnet : s.net = {})
    (hcipher : s.cipher = {}) (hstorage : s.storage = {}) :
    s.enterS4.firm.mstate = .degraded ∧ s.enterS4.power = { s.power with tclkStopped := true } := by
  obtain ⟨f, hflush, hf⟩ := flushMerges_seventeenthFailing (s.modPower fun p => { p with tclkStopped := true }) hmem hready
  unfold State.enterS4
  dsimp only
  rw [hflush, State.foldl_netLink_of_down _ _ fun p => by simp only [State.netPort, State.modPower, hnet]; rfl]
  obtain ⟨ho, li, hdrop⟩ := State.dropRequests_onlyAnswers (State.modHosts
    { s.modPower fun p => { p with tclkStopped := true } with mem := seventeenthFailing.flushed, firm := f } fun h =>
    { h with links := fmap h.links fun _ l => { l with l1 := l.up }, ports := fmap h.ports fun _ p => { p with l1 := p.linkUp } }) steward
  rw [hdrop, State.stopEngines_idle, State.interruptStorage_idle, State.interruptCourier_idle]
  · exact ⟨hf, rfl⟩
  · exact congrArg Net.conns hnet
  · exact congrArg Storage.pairs hstorage
  · exact congrArg Cipher.engines hcipher

end Sys2Proof.Claims

namespace Sys2Proof.Machine

/-- The entry of S4 from a module without stages that is DEGRADED by then. -/
theorem State.stageChanged_entersS4 {s u : State} (hstage : s.stage = 4) (hu : (s.decideDivisor.fireAll 1).breakAll = u) (ha : u.firm.activation = none)
    (hd : ((u.haltAll .stage3).holdPairs true).enterS4.firm.mstate = .degraded) :
    s.stageChanged 0 1 = ((u.haltAll .stage3).holdPairs true).enterS4.enterShedding 1 := by
  unfold State.stageChanged
  simp [hstage, hu, ha, hd]

theorem State.enterShedding_of_degraded {s : State} (hstage : s.stage = 4) (hd : s.firm.mstate = .degraded) :
    (s.enterShedding 1).firm.shedFrom = .degraded := by
  obtain ⟨ev, lost, h⟩ := (s.modFirm fun f => { f with mstate := .shedding, shedFrom := .degraded }).stateEvent_onlyEvents .degraded 1 0xFF
  have hevent : s.enterShedding 1 = (s.modFirm fun f => { f with mstate := .shedding, shedFrom := .degraded }).stateEvent .degraded 1 := by
    unfold State.enterShedding
    rw [hd, hstage]
    exact if_pos ⟨by decide, .inr rfl⟩
  rw [hevent, h]
  rfl

end Sys2Proof.Machine

namespace Sys2Proof.Claims
open Sys2Proof.Machine

/-- The same module as stage 4 is noted, with what its cores hear of it (R547). -/
def seventeenthFailing.told (c : FMap Core) : State :=
  let s := (seventeenthFailing.modPower (·.enter 4)).decideDivisor
  { s with firm := { s.firm with cores := c } }

theorem shedEnter_seventeenthFailing : (seventeenthFailing.shedEnter 4).firm.shedFrom = .degraded := by
  have hold : seventeenthFailing.stage = 0 := by decide
  have hstage : (seventeenthFailing.modPower (·.enter 4)).stage = 4 := by decide
  obtain ⟨c, hfire⟩ := (seventeenthFailing.modPower (·.enter 4)).decideDivisor.fireAll_onlyCores 1
  have hbreak : ((seventeenthFailing.modPower (·.enter 4)).decideDivisor.fireAll 1).breakAll = seventeenthFailing.told c := congrArg State.breakAll hfire
  obtain ⟨hd, hp⟩ := enterS4_seventeenthFailing (((seventeenthFailing.told c).haltAll .stage3).holdPairs true) rfl rfl rfl rfl rfl
  have hshed : seventeenthFailing.shedEnter 4 = (seventeenthFailing.modPower (·.enter 4)).stageChanged seventeenthFailing.stage 1 := by
    unfold State.shedEnter
    rw [if_neg (by decide)]
    exact if_neg (by decide)
  rw [hshed, hold, State.stageChanged_entersS4 hstage hbreak rfl hd]
  refine State.enterShedding_of_degraded ?_ hd
  rw [State.stage, hp]
  rfl

/-- Refutes O39: the second clause says that SHEDDING entered from READY with stage 4 ends in READY. The entry of S4 flushes the merge buffer; an error
beyond correction found there, in a bank without spare rows, makes one more pseudo-channel failing than the sixteen that can be retired, which is
fenced: the module is DEGRADED before it is SHEDDING, and SHEDDING will end in that (R47, R321, R548). -/
theorem not_suppliesFollowTheirRules : ¬ Obligations.SuppliesFollowTheirRules := by
  rintro ⟨-, hshed, -⟩
  obtain ⟨t, hexec, -, -, -, hfrom, -⟩ := hshed 4 seventeenthFailing (by decide) (by decide) rfl rfl rfl rfl rfl
  have ht : seventeenthFailing.shedEnter 4 = t := Host.Outcome.next.inj hexec
  rw [← ht, shedEnter_seventeenthFailing] at hfrom
  exact absurd hfrom (by decide)

end Sys2Proof.Claims
end

section
/-! SUPPORT. A core table that lists one core twice: the state that shows that the next swap need not begin (O36). -/

namespace Sys2Proof.Claims
open Sys2Proof.Machine

/-- The Steward's swap ends and the Doorkeeper is next, but the table of cores names the Steward twice. -/
def stewardTwice : State :=
  { firm :=
      { mstate := .ready, cores := [(doorkeeper, { run := .running }), (steward, { run := .swapping }), (steward, { run := .swapping })],
        activation := some { seq := 0, started := true, next := steward }, staged := some (parseImage []) } }

/-- Refutes O36: the statement is about every state, also one whose table lists a core twice, and its third clause asks every entry except all those of
the core that goes over whether it is busy. Only the first of the two entries goes over; the second still stands as being swapped, so that the next
swap waits (R74). -/
theorem not_activationFollowsItsOrder : ¬ Obligations.ActivationFollowsItsOrder := by
  rintro ⟨-, -, hdone, -⟩
  obtain ⟨t, hexec, -, hnext, -⟩ := hdone steward { seq := 0, started := true, next := steward } (parseImage []) stewardTwice
    (by decide) rfl rfl (by decide) (by decide) rfl rfl (by decide)
  have ht : stewardTwice.swapDone steward = t := Host.Outcome.next.inj hexec
  obtain ⟨-, hrun, -⟩ := hnext (by decide) ⟨rfl, by decide, by decide⟩
  have hwaits : ((stewardTwice.swapDone steward).core doorkeeper).run ≠ .swapping := by decide
  rw [ht] at hwaits
  exact hwaits hrun

end Sys2Proof.Claims
end

section
/-! SUPPORT. The beginning of a swap (R74, R75), and the session, status, restart and firmware messages (O37). -/

namespace Sys2Proof.Machine

theorem OnlyHalts.refl (s : State) : OnlyHalts s s := ⟨s.tiles, s.jobs, s.ledgers, rfl⟩

theorem OnlyHalts.foldl {α : Type} {f : State → α → State} (hf : ∀ s a, OnlyHalts s (f s a)) (l : List α) (s : State) : OnlyHalts s (l.foldl f s) := by
  induction l generalizing s with
  | nil => exact .refl s
  | cons a r ih => exact (hf s a).trans (ih _)

theorem OnlyHalts.core {s t : State} (h : OnlyHalts s t) (c : Nat) : t.core c = s.core c := by
  obtain ⟨ti, j, l, rfl⟩ := h
  rfl

/-- The swap of a core other than the Hearth changes that core, and halts what waits for a retirement of its cluster (R74, R75). -/
theorem State.startSwap_onlyHalts (s : State) {c : Nat} (hc : c ≠ hearth) (i : Image) :
    OnlyHalts (s.modCore c fun k => { k with run := .swapping, shadow := sramOf (i.section c) }) (s.startSwap c i) := by
  unfold State.startSwap
  extract_lets u v w
  have hv : OnlyHalts u v := by
    dsimp only [v]
    split
    · exact .refl u
    · exact OnlyHalts.foldl (fun s r => s.halt_onlyHalts _ _) _ u
  have hw : w = v := if_neg fun h => hc h.1
  obtain ⟨j, l, hbreak⟩ := State.breakAll_onlyBreaks { w with jobs := fmap w.jobs fun _ j => if j.live then { j with activated := true } else j }
  rw [hbreak, hw]
  exact hv.trans ⟨_, _, _, rfl⟩

theorem State.coresBusy_eq_false {s : State} (h : ∀ e ∈ s.firm.cores, e.2.run ≠ .swapping ∧ e.2.run ≠ .restarting) : s.coresBusy = false := by
  unfold State.coresBusy
  rw [List.any_eq_false]
  intro e he
  obtain ⟨hs, hr⟩ := h e he
  simp [hs, hr]

/-- With no core busy and the next core running, its swap begins (R74). -/
theorem State.beginSwap_starts {s : State} {a : Activation} {i : Image} (ha : s.firm.activation = some a) (hi : s.firm.staged = some i)
    (hstarted : a.started = true) (hmark : a.marking = none) (hbusy : s.coresBusy = false) (hrun : (s.core a.next).run = .running) (hc : a.next ≠ hearth) :
    s.beginSwap = s.startSwap a.next i := by
  unfold State.beginSwap State.swapFuel
  simp [ha, hi, hstarted, hmark, hbusy, hrun, hc]

/-- The state with an activation noted and reported. -/
def State.activating (s : State) (a : Activation) (ev : List Event) (lost : Bool) : State :=
  { s with firm := { s.firm with activation := some a, events := ev, lostEvents := lost } }

end Sys2Proof.Machine

namespace Sys2Proof.Claims
open Sys2Proof.Machine

/-- A message that answers at once leaves its block's effect and the response. -/
theorem gives_message {i : Instr} {slot core : Nat} {b : ReqBlock} {s : State} {P : State → Prop} (hi : messageOf i = some (slot, b))
    (h : Begun s slot core b none) (hnow : (b.run ((s.hole slot).req slot) s).later = false)
    (hP : P (((b.run ((s.hole slot).req slot) s).state.finish core).respond slot (b.run ((s.hole slot).req slot) s).status
      (b.run ((s.hole slot).req slot) s).payload)) : Gives i s P := by
  refine ⟨_, exec_message hi s, ?_⟩
  rw [serve_of_check_none h]
  simpa [hnow] using hP

/-- What a response leaves of the firmware's state but the slots and the cores. -/
theorem firm_finish_respond (s : State) (slot core : Nat) (st : Status) (p : List Byte) :
    ∃ ho cs, ((s.finish core).respond slot st p).firm = { s.firm with holes := ho, cores := cs } := by
  obtain ⟨ho, li, h⟩ := (s.finish core).respond_onlyAnswers slot st p
  exact ⟨ho, _, congrArg State.firm h⟩

/-- FEATURES grants the twelve features that exist (R69). -/
theorem toNat_granted (n : Nat) : (BitVec.ofNat 256 n &&& 0xFFF).toNat = n % 4096 := by
  have hmask : (0xFFF : BitVec 256).toNat = 2 ^ 12 - 1 := by decide
  rw [BitVec.toNat_and, hmask, Nat.and_two_pow_sub_one_eq_mod, BitVec.toNat_ofNat, Nat.mod_mod_of_dvd _ (by decide)]

section
variable {s : State} {slot core : Nat}

/-- FW_ACTIVATE in an emergency notes the activation, which waits (R73). -/
theorem fwActivate_waits (h : s.emergency = true) :
    fwActivateBlock.run ((s.hole slot).req slot) s
      = deferred (s.modFirm fun f => { f with activation := some { seq := ((s.hole slot).req slot).seq, started := false } }) [1, 0, 0, 0] := by
  simp [fwActivateBlock, h]

/-- Without one the activation and its first swap begin (R73, R74). -/
theorem fwActivate_starts {i : Image} (h : s.emergency = false) (hi : s.firm.staged = some i) (hswap : MaySwap s 3) :
    ∃ ev lost t, fwActivateBlock.run ((s.hole slot).req slot) s = deferred t [0, 0, 0, 0]
      ∧ OnlyHalts ((s.activating { seq := ((s.hole slot).req slot).seq, started := true } ev lost).modCore 3 fun k =>
        { k with run := .swapping, shadow := sramOf (i.section 3) }) t := by
  obtain ⟨hrun, hfree, -⟩ := hswap
  set a : Activation := { seq := ((s.hole slot).req slot).seq, started := true } with ha
  obtain ⟨ev, lost, hevent⟩ : OnlyEvents _ ((s.modFirm fun f => { f with activation := some a }).fwEvent 2 0xFF i.release a.seq) := State.raise_onlyEvents ..
  have hstate : (s.modFirm fun f => { f with activation := some a }).fwEvent 2 0xFF i.release a.seq = s.activating a ev lost := hevent
  have hbegins : (s.activating a ev lost).beginSwap = (s.activating a ev lost).startSwap 3 i :=
    State.beginSwap_starts (a := a) rfl hi rfl rfl (State.coresBusy_eq_false hfree) hrun (show 3 ≠ hearth by decide)
  refine ⟨ev, lost, (s.activating a ev lost).startSwap 3 i, ?_, State.startSwap_onlyHalts _ (by decide) i⟩
  rw [← hbegins, ← hstate]
  simp [fwActivateBlock, h, ha, State.modFirm, hi]

end

/-- Settles O37, message by message: each answers at once, and the response leaves the firmware's state as the block set it. -/
theorem firmwareMessagesTakeEffect : Obligations.FirmwareMessagesTakeEffect := by
  intro slot core s f seq
  refine ⟨?hello, ?features, ?status, ?restart, ?stage, ?activate⟩
  case hello =>
    intro hb
    refine gives_message rfl hb rfl ?_
    obtain ⟨ho, cs, hfirm⟩ := firm_finish_respond _ slot core _ _
    rw [hfirm]
    exact ⟨rfl, rfl, answers_respond _ _ _ (by simp [helloBlock, partName, leBytes_length, zeros])⟩
  case features =>
    intro x hx hb
    refine gives_message rfl hb rfl ?_
    obtain ⟨ho, cs, hfirm⟩ := firm_finish_respond _ slot core _ _
    rw [hfirm, ← toNat_granted]
    exact ⟨congrArg (Option.map _) hx, answers_respond _ _ _ (by simp [featuresBlock, leBytes_length])⟩
  case status =>
    intro hb
    refine gives_message rfl hb rfl ⟨answers_respond _ _ _ (by simp [moduleStatusBlock, leBytes_length, zeros]), ?_⟩
    exact (finish_respond_frame s slot core _ _).1
  case restart =>
    intro hb
    refine gives_message rfl hb rfl ?_
    obtain ⟨ho, cs, hfirm⟩ := firm_finish_respond _ slot core _ _
    rw [hfirm]
    refine ⟨?_, rfl, answers_respond _ _ _ (by simp [moduleRestartBlock])⟩
    show s.firm.restart.or _ = _
    cases s.firm.restart <;> rfl
  case stage =>
    intro hb
    refine gives_message rfl hb rfl ?_
    obtain ⟨ho, cs, hfirm⟩ := firm_finish_respond _ slot core _ _
    rw [hfirm]
    exact ⟨rfl, rfl, rfl, rfl, answers_respond _ _ _ (by simp [fwStageBlock, deferred])⟩
  case activate =>
    intro i hi hb
    refine gives_message rfl hb rfl ⟨fun hwait => ?_, fun hstart hswap hcore => ?_⟩
    · rw [fwActivate_waits hwait]
      obtain ⟨ho, cs, hfirm⟩ := firm_finish_respond (s.modFirm fun f => { f with activation := some { seq, started := false } }) slot core .deferred [1, 0, 0, 0]
      obtain ⟨-, -, hcores, -⟩ := finish_respond_frame (s.modFirm fun f => { f with activation := some { seq, started := false } }) slot core .deferred [1, 0, 0, 0]
      exact ⟨congrArg Firm.activation hfirm, hcores, answers_respond _ _ _ (by simp [deferred])⟩
    · obtain ⟨ev, lost, t, hreply, hhalts⟩ := fwActivate_starts (slot := slot) hstart hi hswap
      rw [hreply]
      obtain ⟨ho, cs, hfirm⟩ := firm_finish_respond t slot core .deferred [0, 0, 0, 0]
      obtain ⟨-, -, hcores, -⟩ := finish_respond_frame t slot core .deferred [0, 0, 0, 0]
      have hthree : ((t.finish core).respond slot .deferred [0, 0, 0, 0]).core 3 = { s.core 3 with run := .swapping, shadow := sramOf (i.section 3) } := by
        rw [hcores 3 hcore.symm, hhalts.core, State.core_modCore]
        rfl
      have hactivation : t.firm.activation = some { seq, started := true } := by
        obtain ⟨ti, j, l, rfl⟩ := hhalts
        rfl
      exact ⟨(congrArg Firm.activation hfirm).trans hactivation, ⟨congrArg Core.run hthree, congrArg Core.shadow hthree, by rw [deferred, hthree], nofun⟩,
        answers_respond _ _ _ (by simp [deferred])⟩

end Sys2Proof.Claims
end

section
/-! SUPPORT. What the return of an Innkeeper and the closing of rooms leave of the firmware cores, of an activation, and of the halts that a crash of a core
has left (R75, R81, R84): the chain of operations from the memory up to the switch of a retirement. -/

namespace Sys2Proof.Machine

/-- Which tiles stand halted by the crash of which core, in a table of tiles as in q. -/
def SameCrashes (q : State) (ti : FMap Tile) : Prop := ∀ c p, Halter.crash c ∈ (fgetD {} ti p).halts ↔ Halter.crash c ∈ (q.tile p).halts

/-- What the operations that follow the return or the end of a core leave alone: the table of firmware cores, the activation, and which tiles stand
halted by the crash of which core. -/
def SameCrew (q s : State) : Prop := s.firm.cores = q.firm.cores ∧ s.firm.activation = q.firm.activation ∧ SameCrashes q s.tiles

/-- An update of a tile that keeps its crash halts, a halt that is no crash, and an update of the firmware that keeps cores and activation. -/
def KeepsCrashes (f : Tile → Tile) : Prop := ∀ x c, Halter.crash c ∈ (f x).halts ↔ Halter.crash c ∈ x.halts
def NoCrash (h : Halter) : Prop := ∀ c, h ≠ .crash c
def KeepsCores (f : Firm → Firm) : Prop := ∀ m, (f m).cores = m.cores ∧ (f m).activation = m.activation

theorem keepsCrashes_of {f : Tile → Tile} (h : ∀ x, (f x).halts = x.halts) : KeepsCrashes f := fun x c => by rw [h x]
theorem noCrash_retirement (k : Nat) : NoCrash (.retirement k) := nofun
theorem noCrash_porter (j : Nat) : NoCrash (.porter j) := nofun
theorem noCrash_jobEnd (j : Nat) : NoCrash (.jobEnd j) := nofun
theorem keepsCores_of {f : Firm → Firm} (hc : ∀ m, (f m).cores = m.cores) (ha : ∀ m, (f m).activation = m.activation) : KeepsCores f :=
  fun m => ⟨hc m, ha m⟩

/-- The same of the state that an operation's result carries. -/
def CrewSnd {α : Type} (q : State) (p : α × State) : Prop := SameCrew q p.2
def CrewFst {α : Type} (q : State) (p : State × α) : Prop := SameCrew q p.1
def CrewThird {α β : Type} (q : State) (p : α × β × State) : Prop := SameCrew q p.2.2
def CrewOpt (q : State) (o : Option State) : Prop := ∀ t, o = some t → SameCrew q t

theorem SameCrew.refl (s : State) : SameCrew s s := ⟨rfl, rfl, fun _ _ => Iff.rfl⟩

section crew
variable {q s t : State}

theorem SameCrew.cores (h : SameCrew q s) : s.firm.cores = q.firm.cores := h.1
theorem SameCrew.activation (h : SameCrew q s) : s.firm.activation = q.firm.activation := h.2.1
theorem SameCrew.crash (h : SameCrew q s) : SameCrashes q s.tiles := h.2.2
theorem SameCrew.core (h : SameCrew q s) (c : Nat) : s.core c = q.core c := by rw [State.core, h.cores, State.core]

theorem crewFst_mk {α : Type} {a : α} (h : SameCrew q s) : CrewFst q (s, a) := h
theorem crewFst_fst {α : Type} {p : State × α} (h : CrewFst q p) : SameCrew q p.1 := h
theorem crewSnd_mk {α : Type} {a : α} (h : SameCrew q s) : CrewSnd q (a, s) := h
theorem crewThird_mk {α β : Type} {a : α} {b : β} (h : SameCrew q s) : CrewThird q (a, b, s) := h
theorem crewSnd_of {α : Type} {p : α × State} {a : α} (e : p = (a, t)) (h : CrewSnd q p) : SameCrew q t := by subst e; exact h
theorem crewSnd_snd {α : Type} {p : α × State} (h : CrewSnd q p) : SameCrew q p.2 := h
theorem crewThird_snd {α β : Type} {p : α × β × State} (h : CrewThird q p) : SameCrew q p.2.2 := h
theorem crewOpt_none : CrewOpt q none := fun _ e => by cases e
theorem crewOpt_some (h : SameCrew q s) : CrewOpt q (some s) := fun _ e => by cases e; exact h
theorem crewOpt_of {o : Option State} (e : o = some t) (h : CrewOpt q o) : SameCrew q t := h t e

/-! ## The accessors -/

/-- A state written out, from its firmware and its tiles. -/
theorem crew_mk {f : Firm} {m : Mesh} {ti : FMap Tile} {ro : FMap Router} {le : FMap LinkErr} {cl : FMap Cluster} {jo : FMap Job}
    {ld : Ledgers} {me : Mem} {ho : Hosts} {gu : FMap Guest} {st : Storage} {ne : Net} {tr : FMap Egress} {ci : Cipher} {po : Porter}
    {pw : Power} {ir : Irq} {se : Service} {fr : Nat} {pe : List Instr} (hc : f.cores = q.firm.cores) (ha : f.activation = q.firm.activation)
    (ht : SameCrashes q ti) :
    SameCrew q (State.mk f m ti ro le cl jo ld me ho gu st ne tr ci po pw ir se fr pe) := ⟨hc, ha, ht⟩

theorem crew_foldl {α : Type} {f : State → α → State} {l : List α} (h : SameCrew q s) (hf : ∀ s a, SameCrew q s → SameCrew q (f s a)) :
    SameCrew q (l.foldl f s) := by
  induction l generalizing s with
  | nil => exact h
  | cons a r ih => exact ih (hf s a h)

theorem crewFst_foldl {α β : Type} {f : State × β → α → State × β} {l : List α} {p : State × β} (h : CrewFst q p)
    (hf : ∀ p a, CrewFst q p → CrewFst q (f p a)) : CrewFst q (l.foldl f p) := by
  induction l generalizing p with
  | nil => exact h
  | cons a r ih => exact ih (hf p a h)

theorem crew_modMem (h : SameCrew q s) (a1 : _) : SameCrew q (State.modMem s a1) := h

theorem crew_modFirm (h : SameCrew q s) {f : Firm → Firm} (hf : KeepsCores f) :
    SameCrew q (s.modFirm f) :=
  ⟨(hf s.firm).1.trans h.cores, (hf s.firm).2.trans h.activation, h.crash⟩

/-- A tile replaced by one with the crash halts that it had. -/
theorem crew_setTile (h : SameCrew q s) {p : Nat} {x : Tile} (hx : ∀ c, Halter.crash c ∈ x.halts ↔ Halter.crash c ∈ (q.tile p).halts) :
    SameCrew q (s.setTile p x) := by
  refine ⟨h.cores, h.activation, fun c k => ?_⟩
  show Halter.crash c ∈ ((s.setTile p x).tile k).halts ↔ _
  by_cases hk : k = p
  · rw [hk, State.tile_setTile]
    exact hx c
  · rw [State.tile_setTile_other _ _ _ _ hk]
    exact h.crash c k

theorem crew_modTile (h : SameCrew q s) {p : Nat} {f : Tile → Tile} (hf : KeepsCrashes f) :
    SameCrew q (s.modTile p f) := crew_setTile h fun c => (hf _ c).trans (h.crash c p)

theorem crew_modCtx (h : SameCrew q s) (a1 a2 a3 : _) : SameCrew q (State.modCtx s a1 a2 a3) := crew_modTile h (keepsCrashes_of fun _ => rfl)

theorem crew_raise (h : SameCrew q s) (a1 a2 a3 a4 a5 : _) : SameCrew q (State.raise s a1 a2 a3 a4 a5) := by
  obtain ⟨ev, lost, hs⟩ := s.raise_onlyEvents a1 a2 a3 a4 a5
  rw [hs]
  exact h

theorem crew_stateEvent (h : SameCrew q s) (a1 a2 a3 : _) : SameCrew q (State.stateEvent s a1 a2 a3) := crew_raise h ..

theorem crew_writeRecord (h : SameCrew q s) (a1 : _) : SameCrew q (State.writeRecord s a1) := h

theorem crew_degrade (h : SameCrew q s) (a1 : _) : SameCrew q (State.degrade s a1) := by
  unfold State.degrade
  split
  · exact crew_stateEvent (s := s.modFirm _) h ..
  · exact h
  · exact h

theorem crew_unhalt (h : SameCrew q s) (a1 : _) {a2 : Halter} (hh : NoCrash a2) : SameCrew q (State.unhalt s a1 a2) :=
  crew_modTile h fun x c => by simp [(hh c).symm]

theorem crew_withHalt (x : Tile) {a : Halter} (hh : NoCrash a) (c : Nat) :
    Halter.crash c ∈ (x.withHalt a).halts ↔ Halter.crash c ∈ x.halts := by
  unfold Tile.withHalt
  split
  · exact Iff.rfl
  · simp [(hh c).symm]

theorem crew_halt (h : SameCrew q s) (a1 : _) {a2 : Halter} (hh : NoCrash a2) : SameCrew q (State.halt s a1 a2) := by
  have hmod : SameCrew q (s.modTile a1 (·.withHalt a2)) := crew_modTile h fun x c => crew_withHalt x hh c
  obtain ⟨j, l, hb⟩ := (s.modTile a1 (·.withHalt a2)).breakTile_onlyBreaks a1
  rw [State.halt_eq, hb]
  exact hmod

/-! ## Updates of tiles -/

theorem halts_foldl {α : Type} {f : Tile → α → Tile} (hf : ∀ x a, (f x a).halts = x.halts) (l : List α) (x : Tile) :
    (l.foldl f x).halts = x.halts := by
  induction l generalizing x with
  | nil => rfl
  | cons a r ih => exact (ih _).trans (hf x a)

theorem halts_storeBytes (x : Tile) (w : StoreWrite) : (x.storeBytes w).halts = x.halts := by
  unfold Tile.storeBytes
  exact halts_foldl (f := fun t a => t.putWord a _) (fun _ _ => rfl) _ x

theorem keepsCrashes_storeBytes (w : StoreWrite) : KeepsCrashes (·.storeBytes w) := keepsCrashes_of fun x => halts_storeBytes x w

theorem keepsCrashes_release {f : Tile → Tile} (hf : ∀ x, (f x).halts = x.halts) (l : List Nat) :
    KeepsCrashes fun x => l.foldl (fun t i => t.release i) (f x) :=
  keepsCrashes_of fun x => (halts_foldl (f := fun (t : Tile) i => t.release i) (fun _ _ => rfl) _ _).trans (hf x)

theorem keepsCrashes_startCtxs (gone : List Nat) (c : Tile → Nat → Ctx) (l : List Nat) :
    KeepsCrashes fun x => l.foldl (fun t n => t.setCtx n (c t n)) { x with regErrs := x.regErrs.filter fun e => !gone.contains e.1 } :=
  keepsCrashes_of fun _ => halts_foldl (f := fun (t : Tile) n => t.setCtx n (c t n)) (fun _ _ => rfl) _ _

theorem halts_putWords (x : Tile) (a : Nat) (ws : List TWord) : (x.putWords a ws).halts = x.halts := by
  induction ws generalizing x a with
  | nil => rfl
  | cons w r ih => exact ih ..

theorem halts_arrive (x : Tile) (a : Nat) (ws : List TWord) : (x.arrive a ws).halts = x.halts :=
  (halts_foldl (f := fun (t : Tile) i => t.release (a + 8 * i)) (fun _ _ => rfl) _ _).trans (halts_putWords x a ws)

/-- Crash halts belong to the place, and do not go with an image (R147). -/
theorem crash_receive (dst src : Tile) (c : Nat) : Halter.crash c ∈ (dst.receive src).halts ↔ Halter.crash c ∈ dst.halts := by
  simp [Tile.receive]

theorem sameCrashes_fmap (h : SameCrew q s) {f : Nat → Tile → Tile} (hf : ∀ p, KeepsCrashes (f p)) : SameCrashes q (fmap s.tiles f) := by
  intro c p
  rw [← h.crash c p, fgetD, fgetD, fget_fmap]
  cases fget s.tiles p with
  | none => exact Iff.rfl
  | some x => exact hf p x c

/-! ## Updates of other units -/

theorem crew_modCipher (h : SameCrew q s) (a1 : _) : SameCrew q (State.modCipher s a1) := h

theorem crew_modEngine (h : SameCrew q s) (a1 a2 : _) : SameCrew q (State.modEngine s a1 a2) := h

theorem crew_modLink (h : SameCrew q s) (a1 a2 : _) : SameCrew q (State.modLink s a1 a2) := h

theorem crew_modLedgers (h : SameCrew q s) (a1 : _) : SameCrew q (State.modLedgers s a1) := h

theorem crew_modLedger (h : SameCrew q s) (a1 a2 : _) : SameCrew q (State.modLedger s a1 a2) := by
  unfold State.modLedger
  repeat' with_reducible first
    | assumption | apply crew_modLedgers | intro _ | split

theorem crew_modEgress (h : SameCrew q s) (a1 a2 : _) : SameCrew q (State.modEgress s a1 a2) := h

theorem crew_modPair (h : SameCrew q s) (a1 a2 : _) : SameCrew q (State.modPair s a1 a2) := h

theorem crew_modCluster (h : SameCrew q s) (a1 a2 : _) : SameCrew q (State.modCluster s a1 a2) := h

theorem crew_modNet (h : SameCrew q s) (a1 : _) : SameCrew q (State.modNet s a1) := h

theorem crew_modConn (h : SameCrew q s) (a1 a2 : _) : SameCrew q (State.modConn s a1 a2) := h

theorem crew_freeBytes (h : SameCrew q s) (a1 : _) : CrewSnd q (State.freeBytes s a1) := by
  unfold State.freeBytes
  repeat' with_reducible first
    | assumption | intro _ | apply crewFst_mk | apply crewSnd_mk | apply crewThird_mk | apply crew_mk | apply SameCrew.cores
    | apply SameCrew.activation | apply SameCrew.crash

theorem crew_modJob (h : SameCrew q s) (a1 a2 : _) : SameCrew q (State.modJob s a1 a2) := by
  unfold State.modJob
  repeat' with_reducible first
    | assumption | intro _ | split | apply crew_mk | apply SameCrew.cores | apply SameCrew.activation | apply SameCrew.crash

theorem crew_modGuest (h : SameCrew q s) (a1 a2 : _) : SameCrew q (State.modGuest s a1 a2) := by
  unfold State.modGuest
  repeat' with_reducible first
    | assumption | intro _ | split | apply crew_mk | apply SameCrew.cores | apply SameCrew.activation | apply SameCrew.crash

theorem crew_modStack (h : SameCrew q s) (a1 a2 : _) : SameCrew q (State.modStack s a1 a2) := by
  unfold State.modStack
  repeat' with_reducible first
    | assumption | apply crew_modMem

theorem crew_modIrq (h : SameCrew q s) (a1 : _) : SameCrew q (State.modIrq s a1) := h

theorem crew_modMesh (h : SameCrew q s) (a1 : _) : SameCrew q (State.modMesh s a1) := h

theorem crew_breakJob (h : SameCrew q s) (a1 : _) : SameCrew q (State.breakJob s a1) := by
  unfold State.breakJob
  repeat' with_reducible first
    | assumption | apply crew_modLedgers | apply crew_modJob | intro _ | split

theorem crew_queueRetirement (h : SameCrew q s) (a1 : _) : SameCrew q (State.queueRetirement s a1) := by
  unfold State.queueRetirement
  repeat' with_reducible first
    | assumption
    | (extract_lets +onlyGivenNames x; refine (fun (hx : SameCrew q x) => ?_) ?_; clear_value x; rotate_left; subst x)
    | (extract_lets +onlyGivenNames x; clear_value x) | apply crew_modCluster | apply crew_halt | intro _ | split
    | apply noCrash_retirement

/-! ## Words of a tile and the effects of bundles -/

theorem crew_findBad (h : SameCrew q s) (a1 a2 : _) : SameCrew q (State.findBad s a1 a2) := by
  unfold State.findBad
  repeat' with_reducible first
    | assumption
    | (extract_lets +onlyGivenNames x; refine (fun (hx : SameCrew q x) => ?_) ?_; clear_value x; rotate_left; subst x)
    | apply crew_modTile | apply crew_modCluster | apply crew_queueRetirement | intro _ | split
    | exact keepsCrashes_of fun _ => rfl

theorem crew_correct (h : SameCrew q s) (a1 a2 : _) : SameCrew q (State.correct s a1 a2) := by
  unfold State.correct
  repeat' with_reducible first
    | assumption
    | (extract_lets +onlyGivenNames x; refine (fun (hx : SameCrew q x) => ?_) ?_; clear_value x; rotate_left; subst x)
    | (extract_lets +onlyGivenNames x; clear_value x) | apply crew_modTile | apply crew_modCluster | apply crew_queueRetirement
    | intro _ | split | exact keepsCrashes_of fun _ => rfl

theorem crew_readFinds (h : SameCrew q s) (a1 a2 : _) : SameCrew q (State.readFinds s a1 a2) := by
  unfold State.readFinds
  repeat' with_reducible first
    | assumption | (extract_lets +onlyGivenNames x; clear_value x) | apply crew_findBad | apply crew_correct
    | refine crew_foldl ?_ (fun _ _ _ => ?_) | intro _ | split

theorem crew_arriveBytes (h : SameCrew q s) (a1 a2 a3 a4 : _) : SameCrew q (State.arriveBytes s a1 a2 a3 a4) := by
  unfold State.arriveBytes
  repeat' with_reducible first
    | assumption
    | (extract_lets +onlyGivenNames x; refine (fun (hx : SameCrew q x) => ?_) ?_; clear_value x; rotate_left; subst x)
    | (extract_lets +onlyGivenNames x; clear_value x) | apply crew_readFinds | apply crew_modTile
    | exact keepsCrashes_release (halts_storeBytes · _) _

theorem crew_drawRequest (h : SameCrew q s) (a1 a2 : _) : SameCrew q (State.drawRequest s a1 a2) := by
  unfold State.drawRequest
  repeat' with_reducible first
    | assumption | (extract_lets +onlyGivenNames x; clear_value x) | apply crew_modTile | apply crew_modLedgers | intro _ | split
    | exact keepsCrashes_of fun _ => rfl

theorem crew_breakAll (h : SameCrew q s) : SameCrew q (State.breakAll s) := by
  unfold State.breakAll
  repeat' with_reducible first
    | assumption | apply crew_breakJob | refine crew_foldl ?_ (fun _ _ _ => ?_)

theorem crew_watchFires (h : SameCrew q s) (a1 a2 : _) : SameCrew q (State.watchFires s a1 a2) := by
  unfold State.watchFires
  repeat' with_reducible first
    | assumption | apply crew_modNet | intro _ | split

theorem crew_applyStore (h : SameCrew q s) (a1 a2 : _) : SameCrew q (State.applyStore s a1 a2) := by
  unfold State.applyStore
  repeat' with_reducible first
    | assumption
    | (extract_lets +onlyGivenNames x; refine (fun (hx : SameCrew q x) => ?_) ?_; clear_value x; rotate_left; subst x)
    | apply crew_readFinds | apply crew_modTile | apply crew_watchFires | apply crew_drawRequest
    | refine crew_foldl ?_ (fun _ _ _ => ?_) | intro _ | split | apply keepsCrashes_storeBytes
    | exact keepsCrashes_of fun _ => rfl

theorem crew_applyEffect (h : SameCrew q s) (a1 a2 a3 : _) : SameCrew q (State.applyEffect s a1 a2 a3) := by
  unfold State.applyEffect
  repeat' with_reducible first
    | assumption | apply crew_applyStore | apply crew_modCtx | apply crew_modTile | exact keepsCrashes_of fun _ => rfl

theorem crew_commitDue (h : SameCrew q s) (a0 a2 a3 : _) : SameCrew q (State.commitDue a0 s a2 a3) := by
  induction a0 generalizing s a2 a3 with
  | zero => exact h
  | succ f ih =>
    unfold State.commitDue
    repeat' with_reducible first
      | assumption | apply ih | (extract_lets +onlyGivenNames x; clear_value x) | apply crew_applyEffect | apply crew_modCtx
      | intro _ | split

theorem crew_commitAll (h : SameCrew q s) (a1 a2 : _) : SameCrew q (State.commitAll s a1 a2) := by
  unfold State.commitAll
  repeat' with_reducible first
    | assumption | (extract_lets +onlyGivenNames x; clear_value x) | apply crew_applyEffect | apply crew_modCtx
    | refine crew_foldl ?_ (fun _ _ _ => ?_)

theorem crew_arrive (h : SameCrew q s) (a1 a2 a3 : _) : SameCrew q (State.arrive s a1 a2 a3) :=
  crew_modTile h (keepsCrashes_of fun x => halts_arrive x a2 a3)

/-! ## Memory -/

theorem crew_storeRange (h : SameCrew q s) (a1 a2 a3 a4 a5 : _) : SameCrew q (State.storeRange s a1 a2 a3 a4 a5) := by
  unfold State.storeRange
  repeat' with_reducible first
    | assumption
    | (extract_lets +onlyGivenNames x; refine (fun (hx : SameCrew q x) => ?_) ?_; clear_value x; rotate_left; subst x)
    | apply crew_modMem | apply crew_modStack | refine crew_foldl ?_ (fun _ _ _ => ?_) | intro _ | split

theorem crew_copyPlace (h : SameCrew q s) (a1 a2 a3 : _) : SameCrew q (State.copyPlace s a1 a2 a3) := by
  unfold State.copyPlace
  repeat' with_reducible first
    | assumption | (extract_lets +onlyGivenNames x; clear_value x) | apply crew_storeRange

theorem crew_memEvent (h : SameCrew q s) (a1 a2 a3 a4 a5 : _) : SameCrew q (State.memEvent s a1 a2 a3 a4 a5) := crew_raise h ..

theorem crew_markFailing (h : SameCrew q s) (a1 : _) : SameCrew q (State.markFailing s a1) := by
  unfold State.markFailing
  repeat' with_reducible first
    | assumption | apply crew_memEvent | apply crew_writeRecord | apply crew_degrade | apply crew_modMem | intro _ | split

theorem crew_repairRow (h : SameCrew q s) (a1 : _) : SameCrew q (State.repairRow s a1) := by
  unfold State.repairRow
  repeat' with_reducible first
    | assumption | dsimp -zeta only
    | (extract_lets +onlyGivenNames x; refine (fun (hx : SameCrew q x) => ?_) ?_; clear_value x; rotate_left; subst x)
    | (extract_lets +onlyGivenNames x; subst x) | apply crew_markFailing | apply crew_modMem | apply crew_modStack
    | apply crew_writeRecord | apply crew_memEvent | refine crew_foldl ?_ (fun _ _ _ => ?_) | intro _ | split

theorem crew_noteCorrected (h : SameCrew q s) (a1 : _) : SameCrew q (State.noteCorrected s a1) := by
  unfold State.noteCorrected
  repeat' with_reducible first
    | assumption
    | (extract_lets +onlyGivenNames x; refine (fun (hx : SameCrew q x) => ?_) ?_; clear_value x; rotate_left; subst x)
    | (extract_lets +onlyGivenNames x; clear_value x) | apply crew_modStack | apply crew_markFailing | intro _ | split

theorem crew_noteStack (h : SameCrew q s) (a1 a2 : _) : SameCrew q (State.noteStack s a1 a2) := by
  unfold State.noteStack
  repeat' with_reducible first
    | assumption | dsimp -zeta only | (extract_lets +onlyGivenNames x; subst x) | apply crew_modStack | apply crew_repairRow
    | apply crew_noteCorrected | intro _ | split

theorem crew_cellarError (h : SameCrew q s) (a1 : _) : SameCrew q (State.cellarError s a1) := by
  unfold State.cellarError
  repeat' with_reducible first
    | assumption | apply crew_modMem | intro _ | split

theorem crew_noteLine (h : SameCrew q s) (a1 a2 a3 : _) : SameCrew q (State.noteLine s a1 a2 a3) := by
  unfold State.noteLine
  repeat' with_reducible first
    | assumption | apply crew_noteStack | apply crew_cellarError | intro _ | split

theorem crew_memRead (h : SameCrew q s) (a1 a2 : _) : CrewThird q (State.memRead s a1 a2) := by
  unfold State.memRead
  repeat' with_reducible first
    | assumption | (extract_lets +onlyGivenNames x; clear_value x) | apply crew_noteLine | refine crew_foldl ?_ (fun _ _ _ => ?_)
    | intro _ | split | apply crewFst_mk | apply crewSnd_mk | apply crewThird_mk

theorem crew_bothPlaces (h : SameCrew q s) (a1 a2 a3 : _) (h3 : ∀ c s, SameCrew q s → SameCrew q (a3 c s)) :
    SameCrew q (State.bothPlaces s a1 a2 a3) := by
  unfold State.bothPlaces
  repeat' with_reducible first
    | assumption
    | (extract_lets +onlyGivenNames x; refine (fun (hx : SameCrew q x) => ?_) ?_; clear_value x; rotate_left; subst x)
    | apply crew_modMem | intro _ | split | apply h3

theorem crew_zeroPiece (h : SameCrew q s) (a1 a2 : _) : SameCrew q (State.zeroPiece s a1 a2) := by
  unfold State.zeroPiece
  repeat' with_reducible first
    | assumption | apply crew_bothPlaces | apply crew_storeRange | apply crew_modMem | intro _ | split

theorem crew_zeroRange (h : SameCrew q s) (a1 a2 : _) : SameCrew q (State.zeroRange s a1 a2) := by
  unfold State.zeroRange
  repeat' with_reducible first
    | assumption | apply crew_zeroPiece | refine crew_foldl ?_ (fun _ _ _ => ?_)

theorem crew_askAheads (h : SameCrew q s) (a1 : _) : SameCrew q (State.askAheads s a1) := by
  unfold State.askAheads
  repeat' with_reducible first
    | assumption | (extract_lets +onlyGivenNames x; clear_value x) | refine crew_foldl ?_ (fun _ _ _ => ?_) | intro _ | split
    | apply crew_mk | apply SameCrew.cores | apply SameCrew.activation | apply SameCrew.crash

theorem crew_storeLine (h : SameCrew q s) (a1 a2 : _) : SameCrew q (State.storeLine s a1 a2) := by
  unfold State.storeLine
  repeat' with_reducible first
    | assumption
    | (extract_lets +onlyGivenNames x; refine (fun (hx : SameCrew q x) => ?_) ?_; clear_value x; rotate_left; subst x)
    | apply crew_modMem | apply crew_modStack

theorem crew_writeBack (h : SameCrew q s) (a1 : _) : SameCrew q (State.writeBack s a1) := by
  unfold State.writeBack
  repeat' with_reducible first
    | assumption
    | (extract_lets +onlyGivenNames x; refine (fun (hx : SameCrew q x) => ?_) ?_; clear_value x; rotate_left; subst x)
    | (extract_lets +onlyGivenNames x; clear_value x) | apply crew_modStack | apply crew_repairRow | apply crew_modMem
    | apply crew_memEvent | apply crew_noteCorrected | refine crew_foldl ?_ (fun _ _ _ => ?_) | intro _ | split

theorem crew_mergeWrite (h : SameCrew q s) (a1 a2 a3 : _) : SameCrew q (State.mergeWrite s a1 a2 a3) := by
  unfold State.mergeWrite
  repeat' with_reducible first
    | assumption
    | (extract_lets +onlyGivenNames x; refine (fun (hx : SameCrew q x) => ?_) ?_; clear_value x; rotate_left; subst x)
    | (extract_lets +onlyGivenNames x; clear_value x) | apply crew_storeLine | apply crew_modStack | apply crew_writeBack
    | intro _ | split

theorem crew_storeAt (h : SameCrew q s) (a1 a2 : _) : SameCrew q (State.storeAt s a1 a2) := by
  unfold State.storeAt
  repeat' with_reducible first
    | assumption | apply crew_storeLine | apply crew_mergeWrite | apply crew_modMem | intro _ | split

theorem crew_writePiece (h : SameCrew q s) (a1 a2 : _) : SameCrew q (State.writePiece s a1 a2) := by
  unfold State.writePiece
  repeat' with_reducible first
    | assumption | apply crew_bothPlaces | apply crew_storeAt | apply crew_modMem | intro _ | split

theorem crew_writeFuel (h : SameCrew q s) (a0 a2 a3 : _) : SameCrew q (State.writeFuel a0 s a2 a3) := by
  induction a0 generalizing s a2 a3 with
  | zero => exact h
  | succ f ih =>
    unfold State.writeFuel
    repeat' with_reducible first
      | assumption | apply ih | (extract_lets +onlyGivenNames x; clear_value x) | apply crew_writePiece | intro _ | split

theorem crew_rawWrite (h : SameCrew q s) (a1 a2 : _) : SameCrew q (State.rawWrite s a1 a2) := by
  unfold State.rawWrite
  repeat' with_reducible first
    | assumption | apply crew_writeFuel

theorem crew_writeNow (h : SameCrew q s) (a1 a2 : _) : SameCrew q (State.writeNow s a1 a2) := by
  unfold State.writeNow
  repeat' with_reducible first
    | assumption | apply crew_rawWrite | apply crew_zeroRange | intro _ | split

theorem crew_copyPiece (h : SameCrew q s) (a1 a2 a3 : _) : SameCrew q (State.copyPiece s a1 a2 a3) := by
  unfold State.copyPiece
  repeat' with_reducible first
    | assumption | apply crew_bothPlaces | apply crew_copyPlace | apply crew_storeRange | apply crew_modMem | intro _ | split

theorem crew_memCopy (h : SameCrew q s) (a1 a2 a3 : _) : SameCrew q (State.memCopy s a1 a2 a3) := by
  unfold State.memCopy
  repeat' with_reducible first
    | assumption | dsimp -zeta only | apply crew_copyPiece | refine crew_foldl ?_ (fun _ _ _ => ?_)

theorem crew_putData (h : SameCrew q s) (a1 a2 a3 : _) : SameCrew q (State.putData s a1 a2 a3) := by
  unfold State.putData
  repeat' with_reducible first
    | assumption
    | (extract_lets +onlyGivenNames x; refine (fun (hx : SameCrew q x) => ?_) ?_; clear_value x; rotate_left; subst x)
    | (extract_lets +onlyGivenNames x; clear_value x) | apply crew_askAheads | apply crew_writeNow | intro _ | split
    | apply crew_mk | apply SameCrew.cores | apply SameCrew.activation | apply SameCrew.crash

theorem crew_settleWaits (h : SameCrew q s) : SameCrew q (State.settleWaits s) := by
  unfold State.settleWaits
  repeat' with_reducible first
    | assumption
    | (extract_lets +onlyGivenNames x; refine (fun (hx : SameCrew q x) => ?_) ?_; clear_value x; rotate_left; subst x)
    | (extract_lets +onlyGivenNames x; clear_value x) | apply crew_putData | refine crew_foldl ?_ (fun _ _ _ => ?_) | intro _
    | apply crew_mk | apply SameCrew.cores | apply SameCrew.activation | apply SameCrew.crash

theorem crew_memZero (h : SameCrew q s) (a1 a2 : _) : SameCrew q (State.memZero s a1 a2) := by
  unfold State.memZero
  repeat' with_reducible first
    | assumption | apply crew_putData

theorem crew_memWrite (h : SameCrew q s) (a1 a2 a3 : _) : SameCrew q (State.memWrite s a1 a2 a3) := by
  unfold State.memWrite
  repeat' with_reducible first
    | assumption | apply crew_putData

/-! ## Ledgers and jobs -/

theorem crew_setRun (h : SameCrew q s) (a1 a2 a3 : _) : SameCrew q (State.setRun s a1 a2 a3) := by
  unfold State.setRun
  repeat' with_reducible first
    | assumption
    | (extract_lets +onlyGivenNames x; refine (fun (hx : SameCrew q x) => ?_) ?_; clear_value x; rotate_left; subst x)
    | apply crew_modLedger | apply crew_memWrite | intro _ | split

theorem crew_ledgerEvent (h : SameCrew q s) (a1 a2 a3 a4 a5 a6 a7 : _) :
    SameCrew q (State.ledgerEvent s a1 a2 a3 a4 a5 a6 a7) := crew_raise h ..

theorem crew_endMove (h : SameCrew q s) (a1 a2 : _) : SameCrew q (State.endMove s a1 a2) := by
  unfold State.endMove
  repeat' with_reducible first
    | assumption
    | (extract_lets +onlyGivenNames x; refine (fun (hx : SameCrew q x) => ?_) ?_; clear_value x; rotate_left; subst x)
    | apply crew_modLedger | apply crew_ledgerEvent | intro _ | split

theorem crew_takeRun (h : SameCrew q s) (a1 a2 a3 : _) : SameCrew q (State.takeRun s a1 a2 a3) := by
  unfold State.takeRun
  repeat' with_reducible first
    | assumption | apply crew_modGuest

theorem crew_nextMove (h : SameCrew q s) (a1 : _) : SameCrew q (State.nextMove s a1) := by
  unfold State.nextMove
  repeat' with_reducible first
    | assumption
    | (extract_lets +onlyGivenNames x; refine (fun (hx : SameCrew q x) => ?_) ?_; clear_value x; rotate_left; subst x)
    | (extract_lets +onlyGivenNames x; clear_value x) | apply crew_endMove | apply crew_takeRun | apply crew_setRun | intro _
    | split

theorem crew_startMove (h : SameCrew q s) (a1 a2 a3 : _) : SameCrew q (State.startMove s a1 a2 a3) := by
  unfold State.startMove
  repeat' with_reducible first
    | assumption | apply crew_nextMove | apply crew_modLedger | intro _ | split

theorem crew_nameLedger (h : SameCrew q s) (a1 : _) : SameCrew q (State.nameLedger s a1) := by
  unfold State.nameLedger
  repeat' with_reducible first
    | assumption
    | (extract_lets +onlyGivenNames x; refine (fun (hx : SameCrew q x) => ?_) ?_; clear_value x; rotate_left; subst x)
    | apply crew_modLedger | apply crew_startMove | intro _ | split

theorem crew_releaseJob (h : SameCrew q s) (a1 : _) : SameCrew q (State.releaseJob s a1) :=
  crew_mk h.cores h.activation (sameCrashes_fmap h fun _ x c => by simp)

theorem crew_returnRows (h : SameCrew q s) : SameCrew q (State.returnRows s) := by
  unfold State.returnRows
  repeat' with_reducible first
    | assumption
    | (extract_lets +onlyGivenNames x; refine (fun (hx : SameCrew q x) => ?_) ?_; clear_value x; rotate_left; subst x)
    | (extract_lets +onlyGivenNames x; clear_value x) | apply crew_modMesh | apply crew_breakAll | intro _ | split

theorem crew_jobEvent (h : SameCrew q s) (a1 a2 a3 a4 a5 a6 a7 a8 a9 a10 a11 : _) :
    SameCrew q (State.jobEvent s a1 a2 a3 a4 a5 a6 a7 a8 a9 a10 a11) := crew_raise h ..

theorem crew_endJob (h : SameCrew q s) (a1 a2 a3 : _) : SameCrew q (State.endJob s a1 a2 a3) := by
  unfold State.endJob
  repeat' with_reducible first
    | assumption
    | (extract_lets +onlyGivenNames x; refine (fun (hx : SameCrew q x) => ?_) ?_; clear_value x; rotate_left; subst x)
    | (extract_lets +onlyGivenNames x; clear_value x) | apply crew_releaseJob | apply crew_modNet | apply crew_returnRows
    | apply crew_settleWaits | apply crew_modJob | apply crew_jobEvent | refine crew_foldl ?_ (fun _ _ _ => ?_) | intro _ | split

theorem crew_haltToEnd (h : SameCrew q s) (a1 a2 a3 : _) : SameCrew q (State.haltToEnd s a1 a2 a3) := by
  unfold State.haltToEnd
  repeat' with_reducible first
    | assumption
    | (extract_lets +onlyGivenNames x; refine (fun (hx : SameCrew q x) => ?_) ?_; clear_value x; rotate_left; subst x)
    | apply crew_halt | apply crew_modJob | refine crew_foldl ?_ (fun _ _ _ => ?_) | intro _ | split | apply noCrash_retirement
    | apply noCrash_porter | apply noCrash_jobEnd

/-! ## Packets and anchors -/

theorem crew_send (h : SameCrew q s) (a1 a2 : _) : SameCrew q (State.send s a1 a2) := by
  unfold State.send
  repeat' with_reducible first
    | assumption | (extract_lets +onlyGivenNames x; clear_value x) | apply crew_modTile | exact keepsCrashes_of fun _ => rfl

theorem crew_sendAnchor (h : SameCrew q s) (a1 a2 a3 a4 a5 a6 : _) : SameCrew q (State.sendAnchor s a1 a2 a3 a4 a5 a6) := by
  unfold State.sendAnchor
  repeat' with_reducible first
    | assumption | (extract_lets +onlyGivenNames x; clear_value x) | apply crew_modConn | intro _ | split

theorem crew_spreadAnchor (h : SameCrew q s) (a1 a2 a3 a4 a5 a6 : _) : SameCrew q (State.spreadAnchor s a1 a2 a3 a4 a5 a6) := by
  unfold State.spreadAnchor
  repeat' with_reducible first
    | assumption
    | (extract_lets +onlyGivenNames x; refine (fun (hx : SameCrew q x) => ?_) ?_; clear_value x; rotate_left; subst x)
    | (extract_lets +onlyGivenNames x; clear_value x) | apply crew_modCtx | apply crew_send | apply crew_sendAnchor
    | refine crew_foldl ?_ (fun _ _ _ => ?_) | intro _ | split

theorem crew_endAtRest (h : SameCrew q s) (a1 : _) : SameCrew q (State.endAtRest s a1) := by
  unfold State.endAtRest
  repeat' with_reducible first
    | assumption | (extract_lets +onlyGivenNames x; clear_value x) | apply crew_endJob | intro _ | split

theorem crew_checkJob (h : SameCrew q s) (a1 : _) : SameCrew q (State.checkJob s a1) := by
  unfold State.checkJob
  repeat' with_reducible first
    | assumption | apply crew_endJob | intro _ | split

theorem crew_downgrade (h : SameCrew q s) (a1 : _) : SameCrew q (State.downgrade s a1) := by
  unfold State.downgrade
  repeat' with_reducible first
    | assumption | apply crew_modLedgers | apply crew_modJob | intro _ | split

theorem crew_combine (h : SameCrew q s) (a1 a2 : _) : SameCrew q (State.combine s a1 a2) := by
  unfold State.combine
  repeat' with_reducible first
    | assumption
    | (extract_lets +onlyGivenNames x; refine (fun (hx : SameCrew q x) => ?_) ?_; clear_value x; rotate_left; subst x)
    | (extract_lets +onlyGivenNames x; clear_value x) | apply crew_modCtx | apply crew_send | apply crew_sendAnchor
    | apply crew_spreadAnchor | intro _ | split

theorem crew_endCtx (h : SameCrew q s) (a1 a2 a3 : _) : SameCrew q (State.endCtx s a1 a2 a3) := by
  unfold State.endCtx
  repeat' with_reducible first
    | assumption | apply crew_checkJob | apply crew_modTile | apply crew_modCtx | apply crew_commitAll
    | exact keepsCrashes_of fun _ => rfl

theorem crew_regFinds (h : SameCrew q s) (a1 a2 a3 : _) : SameCrew q (State.regFinds s a1 a2 a3) := by
  unfold State.regFinds
  repeat' with_reducible first
    | assumption
    | (extract_lets +onlyGivenNames x; refine (fun (hx : SameCrew q x) => ?_) ?_; clear_value x; rotate_left; subst x)
    | (extract_lets +onlyGivenNames x; clear_value x) | apply crew_modTile | apply crew_queueRetirement | intro _ | split
    | exact keepsCrashes_of fun _ => rfl

theorem crew_bundleFinds (h : SameCrew q s) (a1 a2 a3 a4 : _) : SameCrew q (State.bundleFinds s a1 a2 a3 a4) := by
  unfold State.bundleFinds
  repeat' with_reducible first
    | assumption
    | (extract_lets +onlyGivenNames x; refine (fun (hx : SameCrew q x) => ?_) ?_; clear_value x; rotate_left; subst x)
    | (extract_lets +onlyGivenNames x; clear_value x) | apply crew_regFinds | apply crew_findBad | apply crew_correct
    | refine crew_foldl ?_ (fun _ _ _ => ?_) | intro _ | split

theorem crew_takeTrap (h : SameCrew q s) (a1 a2 a3 a4 a5 : _) : SameCrew q (State.takeTrap s a1 a2 a3 a4 a5) := by
  unfold State.takeTrap
  repeat' with_reducible first
    | assumption
    | (extract_lets +onlyGivenNames x; refine (fun (hx : SameCrew q x) => ?_) ?_; clear_value x; rotate_left; subst x)
    | (extract_lets +onlyGivenNames x; clear_value x) | apply crew_modCtx | apply crew_modJob | apply crew_checkJob
    | apply crew_jobEvent | intro _ | split

theorem crew_startExchange (h : SameCrew q s) (a1 a2 a3 a4 a5 : _) : SameCrew q (State.startExchange s a1 a2 a3 a4 a5) := by
  unfold State.startExchange
  repeat' with_reducible first
    | assumption | (extract_lets +onlyGivenNames x; clear_value x) | apply crew_combine | apply crew_modCtx

theorem crew_startStream (h : SameCrew q s) (a1 a2 a3 : _) : SameCrew q (State.startStream s a1 a2 a3) := by
  unfold State.startStream
  repeat' with_reducible first
    | assumption
    | (extract_lets +onlyGivenNames x; refine (fun (hx : SameCrew q x) => ?_) ?_; clear_value x; rotate_left; subst x)
    | apply crew_modCtx | apply crew_modTile | apply crew_nameLedger | exact keepsCrashes_of fun _ => rfl

theorem crew_issueRun (h : SameCrew q s) (a1 a2 a3 a4 : _) : SameCrew q (State.issueRun s a1 a2 a3 a4) := by
  unfold State.issueRun
  repeat' with_reducible first
    | assumption
    | (extract_lets +onlyGivenNames x; refine (fun (hx : SameCrew q x) => ?_) ?_; clear_value x; rotate_left; subst x)
    | (extract_lets +onlyGivenNames x; clear_value x) | apply crew_modCtx | apply crew_modTile | apply crew_send
    | apply crew_startStream | apply crew_downgrade | apply crew_endCtx | apply crew_commitDue | apply crew_takeTrap | intro _
    | split | exact keepsCrashes_of fun _ => rfl

theorem crew_issueNext (h : SameCrew q s) (a1 a2 : _) : SameCrew q (State.issueNext s a1 a2) := by
  unfold State.issueNext
  repeat' with_reducible first
    | assumption
    | (extract_lets +onlyGivenNames x; refine (fun (hx : SameCrew q x) => ?_) ?_; clear_value x; rotate_left; subst x)
    | (extract_lets +onlyGivenNames x; clear_value x) | apply crew_bundleFinds | apply crew_takeTrap | apply crew_modTile
    | apply crew_startExchange | apply crew_issueRun | intro _ | split | exact keepsCrashes_of fun _ => rfl

theorem crew_sendAck (h : SameCrew q s) (a1 a2 : _) : SameCrew q (State.sendAck s a1 a2) := by
  unfold State.sendAck
  repeat' with_reducible first
    | assumption
    | (extract_lets +onlyGivenNames x; refine (fun (hx : SameCrew q x) => ?_) ?_; clear_value x; rotate_left; subst x)
    | (extract_lets +onlyGivenNames x; clear_value x) | apply crew_modTile | apply crew_send | intro _ | split
    | exact keepsCrashes_of fun _ => rfl

theorem crew_countDelivered (h : SameCrew q s) (a1 a2 : _) : SameCrew q (State.countDelivered s a1 a2) := by
  unfold State.countDelivered
  repeat' with_reducible first
    | assumption
    | (extract_lets +onlyGivenNames x; refine (fun (hx : SameCrew q x) => ?_) ?_; clear_value x; rotate_left; subst x)
    | (extract_lets +onlyGivenNames x; clear_value x) | apply crew_modCluster | apply crew_modTile | apply crew_sendAck | intro _
    | split | exact keepsCrashes_of fun _ => rfl

theorem crew_anchorDown (h : SameCrew q s) (a1 a2 a3 a4 : _) : SameCrew q (State.anchorDown s a1 a2 a3 a4) := by
  unfold State.anchorDown
  repeat' with_reducible first
    | assumption
    | (extract_lets +onlyGivenNames x; refine (fun (hx : SameCrew q x) => ?_) ?_; clear_value x; rotate_left; subst x)
    | (extract_lets +onlyGivenNames x; clear_value x) | apply crew_spreadAnchor | apply crew_modCtx | apply crew_issueNext
    | intro _ | split

theorem crew_act (h : SameCrew q s) (a1 a2 : _) : SameCrew q (State.act s a1 a2) := by
  unfold State.act
  repeat' with_reducible first
    | assumption
    | (extract_lets +onlyGivenNames x; refine (fun (hx : SameCrew q x) => ?_) ?_; clear_value x; rotate_left; subst x)
    | (extract_lets +onlyGivenNames x; clear_value x) | apply crew_arrive | apply crew_readFinds | apply crew_send
    | apply crew_modTile | apply crew_combine | apply crew_modCtx | apply crew_anchorDown | intro _ | split
    | exact keepsCrashes_of fun _ => rfl

theorem crew_deliver (h : SameCrew q s) (a1 a2 : _) : SameCrew q (State.deliver s a1 a2) := by
  unfold State.deliver
  repeat' with_reducible first
    | assumption
    | (extract_lets +onlyGivenNames x; refine (fun (hx : SameCrew q x) => ?_) ?_; clear_value x; rotate_left; subst x)
    | apply crew_modCluster | apply crew_send | apply crew_countDelivered | apply crew_act | intro _ | split

/-! ## Interrupts, writes for guests and page logs -/

theorem crew_modVector (h : SameCrew q s) (a1 a2 : _) : SameCrew q (State.modVector s a1 a2) := h

theorem crew_submit (h : SameCrew q s) (a1 a2 : _) : SameCrew q (State.submit s a1 a2) := h

theorem crew_sendGroup (h : SameCrew q s) (a1 : _) : SameCrew q (State.sendGroup s a1) := by
  unfold State.sendGroup
  repeat' with_reducible first
    | assumption | (extract_lets +onlyGivenNames x; clear_value x) | apply crew_submit | apply crew_modVector
    | refine crew_foldl ?_ (fun _ _ _ => ?_) | intro _ | split

theorem crew_expireGroup (h : SameCrew q s) (a1 : _) : SameCrew q (State.expireGroup s a1) := by
  unfold State.expireGroup
  repeat' with_reducible first
    | assumption | dsimp -zeta only
    | (extract_lets +onlyGivenNames x; refine (fun (hx : SameCrew q x) => ?_) ?_; clear_value x; rotate_left; subst x)
    | (extract_lets +onlyGivenNames x; subst x) | apply crew_modIrq | apply crew_modLink | apply crew_sendGroup | intro _ | split

theorem crew_raiseVector (h : SameCrew q s) (a1 : _) : SameCrew q (State.raiseVector s a1) := by
  unfold State.raiseVector
  repeat' with_reducible first
    | assumption
    | (extract_lets +onlyGivenNames x; refine (fun (hx : SameCrew q x) => ?_) ?_; clear_value x; rotate_left; subst x)
    | (extract_lets +onlyGivenNames x; clear_value x) | apply crew_modVector | apply crew_expireGroup | apply crew_modIrq
    | intro _ | split

theorem crew_parlourVector (h : SameCrew q s) (a1 : _) : SameCrew q (State.parlourVector s a1) := by
  unfold State.parlourVector
  repeat' with_reducible first
    | assumption | apply crew_raiseVector | intro _ | split

theorem crew_modLog (h : SameCrew q s) (a1 a2 : _) : SameCrew q (State.modLog s a1 a2) := by
  unfold State.modLog
  repeat' with_reducible first
    | assumption | apply crew_modGuest

theorem crew_writeBackWord (h : SameCrew q s) (a1 a2 : _) : SameCrew q (State.writeBackWord s a1 a2) := by
  unfold State.writeBackWord
  repeat' with_reducible first
    | assumption
    | (extract_lets +onlyGivenNames x; refine (fun (hx : SameCrew q x) => ?_) ?_; clear_value x; rotate_left; subst x)
    | (extract_lets +onlyGivenNames x; clear_value x) | apply crew_modLog | apply crew_submit | intro _ | split

theorem crew_evictWord (h : SameCrew q s) : SameCrew q (State.evictWord s) := by
  unfold State.evictWord
  repeat' with_reducible first
    | assumption | apply crew_writeBackWord | intro _ | split

theorem crew_markPage (h : SameCrew q s) (a1 a2 : _) : SameCrew q (State.markPage s a1 a2) := by
  unfold State.markPage
  repeat' with_reducible first
    | assumption
    | (extract_lets +onlyGivenNames x; refine (fun (hx : SameCrew q x) => ?_) ?_; clear_value x; rotate_left; subst x)
    | (extract_lets +onlyGivenNames x; clear_value x) | apply crew_modLog | apply crew_evictWord | apply crew_submit | intro _
    | split

theorem crew_disown (h : SameCrew q s) (a1 : _) : SameCrew q (State.disown s a1) := h

theorem crew_logWrite (h : SameCrew q s) (a1 a2 a3 : _) : SameCrew q (State.logWrite s a1 a2 a3) := by
  unfold State.logWrite
  repeat' with_reducible first
    | assumption | (extract_lets +onlyGivenNames x; clear_value x) | apply crew_markPage | apply crew_modLog
    | refine crew_foldl ?_ (fun _ _ _ => ?_) | intro _ | split

theorem crew_clearVectors (h : SameCrew q s) (a1 : _) : SameCrew q (State.clearVectors s a1) := by
  unfold State.clearVectors
  repeat' with_reducible first
    | assumption
    | (extract_lets +onlyGivenNames x; refine (fun (hx : SameCrew q x) => ?_) ?_; clear_value x; rotate_left; subst x)
    | apply crew_modIrq | apply crew_modVector | refine crew_foldl ?_ (fun _ _ _ => ?_)

theorem crew_guestWrite (h : SameCrew q s) (a1 a2 a3 : _) : SameCrew q (State.guestWrite s a1 a2 a3) := by
  unfold State.guestWrite
  repeat' with_reducible first
    | assumption | (extract_lets +onlyGivenNames x; clear_value x) | apply crew_logWrite | apply crew_submit

theorem crew_countDrops (h : SameCrew q s) (a1 a2 : _) : SameCrew q (State.countDrops s a1 a2) := h

theorem crew_dropRoom (h : SameCrew q s) (a1 : _) : SameCrew q (State.dropRoom s a1) := by
  unfold State.dropRoom
  repeat' with_reducible first
    | assumption | (extract_lets +onlyGivenNames x; clear_value x) | apply crew_countDrops | apply crew_modEgress
    | refine crew_foldl ?_ (fun _ _ _ => ?_) | intro _ | split

theorem crew_netEvent (h : SameCrew q s) (a1 a2 a3 a4 a5 a6 : _) : SameCrew q (State.netEvent s a1 a2 a3 a4 a5 a6) := crew_raise h ..

/-! ## Connections and storage commands -/

theorem crew_courierEntry (h : SameCrew q s) (a1 a2 a3 a4 a5 a6 : _) : SameCrew q (State.courierEntry s a1 a2 a3 a4 a5 a6) := by
  unfold State.courierEntry
  repeat' with_reducible first
    | assumption
    | (extract_lets +onlyGivenNames x; refine (fun (hx : SameCrew q x) => ?_) ?_; clear_value x; rotate_left; subst x)
    | (extract_lets +onlyGivenNames x; clear_value x) | apply crew_guestWrite | apply crew_modConn | apply crew_raiseVector

theorem crew_endSend (h : SameCrew q s) (a1 a2 a3 a4 a5 : _) : SameCrew q (State.endSend s a1 a2 a3 a4 a5) := by
  unfold State.endSend
  repeat' with_reducible first
    | assumption | apply crew_courierEntry | intro _ | split

theorem crew_closed (h : SameCrew q s) (a1 : _) : SameCrew q (State.closed s a1) := by
  unfold State.closed
  repeat' with_reducible first
    | assumption
    | (extract_lets +onlyGivenNames x; refine (fun (hx : SameCrew q x) => ?_) ?_; clear_value x; rotate_left; subst x)
    | (extract_lets +onlyGivenNames x; clear_value x) | apply crew_disown | apply crew_modConn | apply crew_netEvent
    | refine crew_foldl ?_ (fun _ _ _ => ?_)

theorem crew_flushConn (h : SameCrew q s) (a1 a2 a3 : _) : SameCrew q (State.flushConn s a1 a2 a3) := by
  unfold State.flushConn
  repeat' with_reducible first
    | assumption
    | (extract_lets +onlyGivenNames x; refine (fun (hx : SameCrew q x) => ?_) ?_; clear_value x; rotate_left; subst x)
    | (extract_lets +onlyGivenNames x; clear_value x) | apply crew_modConn | apply crew_endSend | apply crew_courierEntry
    | refine crew_foldl ?_ (fun _ _ _ => ?_) | intro _ | split

theorem crew_modNs (h : SameCrew q s) (a1 a2 a3 : _) : SameCrew q (State.modNs s a1 a2 a3) := h

theorem crew_logError (h : SameCrew q s) (a1 a2 a3 : _) : SameCrew q (State.logError s a1 a2 a3) := by
  unfold State.logError
  repeat' with_reducible first
    | assumption | (extract_lets +onlyGivenNames x; clear_value x) | apply crew_modGuest | intro _ | split

theorem crew_complete (h : SameCrew q s) (a1 a2 a3 a4 : _) : SameCrew q (State.complete s a1 a2 a3 a4) := by
  unfold State.complete
  repeat' with_reducible first
    | assumption
    | (extract_lets +onlyGivenNames x; refine (fun (hx : SameCrew q x) => ?_) ?_; clear_value x; rotate_left; subst x)
    | apply crew_logError | apply crew_modCipher | apply crew_disown | apply crew_modPair

theorem crew_modCmd (h : SameCrew q s) (a1 a2 a3 : _) : SameCrew q (State.modCmd s a1 a2 a3) := h

theorem crew_cipherCmd (h : SameCrew q s) (a1 a2 a3 a4 : _) : SameCrew q (State.cipherCmd s a1 a2 a3 a4) := by
  unfold State.cipherCmd
  repeat' with_reducible first
    | assumption | (extract_lets +onlyGivenNames x; clear_value x) | apply crew_modCipher | apply crew_modCmd | intro _ | split

theorem crew_dataOut (h : SameCrew q s) (a1 a2 a3 : _) : CrewFst q (State.dataOut s a1 a2 a3) := by
  unfold State.dataOut
  refine crewFst_mk ?_
  split
  · exact crewFst_fst (crewFst_foldl (crewFst_mk h) fun _ _ k => crewFst_mk (crew_guestWrite (crewFst_fst k) _ _ _))
  · exact h

theorem crew_finishRead (h : SameCrew q s) (a1 a2 : _) : SameCrew q (State.finishRead s a1 a2) := by
  unfold State.finishRead
  repeat' with_reducible first
    | assumption | (extract_lets +onlyGivenNames x; clear_value x) | apply crew_dataOut | apply crew_complete | intro _ | split
    | apply crewFst_fst

theorem crew_checkParts (h : SameCrew q s) (a1 a2 : _) : SameCrew q (State.checkParts s a1 a2) := by
  unfold State.checkParts
  repeat' with_reducible first
    | assumption
    | (extract_lets +onlyGivenNames x; refine (fun (hx : SameCrew q x) => ?_) ?_; clear_value x; rotate_left; subst x)
    | (extract_lets +onlyGivenNames x; clear_value x) | apply crew_modNs | apply crew_complete | apply crew_modCmd
    | apply crew_cipherCmd | apply crew_finishRead | refine crew_foldl ?_ (fun _ _ _ => ?_) | intro _ | split

theorem crew_partEnds (h : SameCrew q s) (a1 a2 a3 a4 a5 : _) : SameCrew q (State.partEnds s a1 a2 a3 a4 a5) := by
  unfold State.partEnds
  repeat' with_reducible first
    | assumption | (extract_lets +onlyGivenNames x; clear_value x) | apply crew_checkParts | apply crew_modCmd | intro _ | split

theorem crew_dropParts (h : SameCrew q s) (a1 a2 : _) : SameCrew q (State.dropParts s a1 a2) := by
  unfold State.dropParts
  repeat' with_reducible first
    | assumption | apply crew_partEnds | refine crew_foldl ?_ (fun _ _ _ => ?_) | intro _ | split

theorem crew_dropConnParts (h : SameCrew q s) (a1 : _) : SameCrew q (State.dropConnParts s a1) := by
  unfold State.dropConnParts
  repeat' with_reducible first
    | assumption | apply crew_dropParts

theorem crew_settleClose (h : SameCrew q s) (a1 : _) : SameCrew q (State.settleClose s a1) := by
  unfold State.settleClose
  repeat' with_reducible first
    | assumption | (extract_lets +onlyGivenNames x; clear_value x) | apply crew_closed | intro _ | split

theorem crew_closeConn (h : SameCrew q s) (a1 a2 : _) : SameCrew q (State.closeConn s a1 a2) := by
  unfold State.closeConn
  repeat' with_reducible first
    | assumption
    | (extract_lets +onlyGivenNames x; refine (fun (hx : SameCrew q x) => ?_) ?_; clear_value x; rotate_left; subst x)
    | apply crew_modConn | apply crew_settleClose | apply crew_dropConnParts | apply crew_flushConn | intro _ | split

theorem crew_sendParts (h : SameCrew q s) (a1 a2 : _) : SameCrew q (State.sendParts s a1 a2) := by
  unfold State.sendParts
  repeat' with_reducible first
    | assumption | (extract_lets +onlyGivenNames x; clear_value x) | apply crew_modCmd | apply crew_modNs | apply crew_checkParts
    | intro _ | split

theorem crew_blockResult (h : SameCrew q s) (a1 a2 : _) : SameCrew q (State.blockResult s a1 a2) := by
  unfold State.blockResult
  repeat' with_reducible first
    | assumption
    | (extract_lets +onlyGivenNames x; refine (fun (hx : SameCrew q x) => ?_) ?_; clear_value x; rotate_left; subst x)
    | (extract_lets +onlyGivenNames x; clear_value x) | apply crew_complete | apply crew_modCmd | apply crew_sendParts
    | apply crew_finishRead | intro _ | split

/-! ## Cipher runs -/

theorem crew_cipherEvent (h : SameCrew q s) (a1 a2 a3 a4 a5 a6 a7 : _) :
    SameCrew q (State.cipherEvent s a1 a2 a3 a4 a5 a6 a7) := crew_raise h ..

theorem crew_freeUp (h : SameCrew q s) (a1 : _) : SameCrew q (State.freeUp s a1) := h

theorem crew_endRun (h : SameCrew q s) (a1 a2 a3 a4 : _) : SameCrew q (State.endRun s a1 a2 a3 a4) := by
  unfold State.endRun
  repeat' with_reducible first
    | assumption
    | (extract_lets +onlyGivenNames x; refine (fun (hx : SameCrew q x) => ?_) ?_; clear_value x; rotate_left; subst x)
    | apply crew_modCipher | apply crew_cipherEvent | apply crew_freeUp | intro _ | split

theorem crew_cutRun (h : SameCrew q s) (a1 a2 a3 : _) : SameCrew q (State.cutRun s a1 a2 a3) := by
  unfold State.cutRun
  repeat' with_reducible first
    | assumption | apply crew_freeBytes | apply crew_memWrite | apply crew_endRun | intro _ | split | apply crewSnd_snd
    | refine crewSnd_of (by assumption) ?_ | apply crew_mk | apply SameCrew.cores | apply SameCrew.activation
    | apply SameCrew.crash

theorem crew_pumpFuel (h : SameCrew q s) (a0 : _) : SameCrew q (State.pumpFuel a0 s) := by
  induction a0 generalizing s  with
  | zero => exact h
  | succ f ih =>
    unfold State.pumpFuel
    repeat' with_reducible first
      | assumption | apply ih
      | (extract_lets +onlyGivenNames x; refine (fun (hx : SameCrew q x) => ?_) ?_; clear_value x; rotate_left; subst x)
      | apply crew_modCipher | apply crew_modEngine | intro _ | split

theorem crew_clearSlot (h : SameCrew q s) (a1 : _) : SameCrew q (State.clearSlot s a1) := by
  unfold State.clearSlot
  repeat' with_reducible first
    | assumption | (extract_lets +onlyGivenNames x; clear_value x) | apply crew_modCipher

theorem crew_pump (h : SameCrew q s) : SameCrew q (State.pump s) := by
  unfold State.pump
  repeat' with_reducible first
    | assumption | apply crew_pumpFuel

theorem crew_zeroise (h : SameCrew q s) : SameCrew q (State.zeroise s) := by
  unfold State.zeroise
  repeat' with_reducible first
    | assumption
    | (extract_lets +onlyGivenNames x; refine (fun (hx : SameCrew q x) => ?_) ?_; clear_value x; rotate_left; subst x)
    | apply crew_modCipher | apply crew_cutRun | apply crew_blockResult | apply crew_freeUp | apply crew_pump
    | refine crew_foldl ?_ (fun _ _ _ => ?_) | intro _ | split

theorem crew_clearRoomSlots (h : SameCrew q s) (a1 : _) : SameCrew q (State.clearRoomSlots s a1) := by
  unfold State.clearRoomSlots
  repeat' with_reducible first
    | assumption | apply crew_clearSlot | refine crew_foldl ?_ (fun _ _ _ => ?_)

theorem crew_drainPair (h : SameCrew q s) (a1 a2 a3 : _) : SameCrew q (State.drainPair s a1 a2 a3) := by
  unfold State.drainPair
  repeat' with_reducible first
    | assumption
    | (extract_lets +onlyGivenNames x; refine (fun (hx : SameCrew q x) => ?_) ?_; clear_value x; rotate_left; subst x)
    | (extract_lets +onlyGivenNames x; clear_value x) | apply crew_modPair | apply crew_complete | apply crew_disown
    | apply crew_modGuest | refine crew_foldl ?_ (fun _ _ _ => ?_) | intro _ | split

/-! ## Starts of jobs and saves -/

theorem crew_jobBegins (h : SameCrew q s) (a1 : _) : SameCrew q (State.jobBegins s a1) := by
  unfold State.jobBegins
  repeat' with_reducible first
    | assumption
    | (extract_lets +onlyGivenNames x; refine (fun (hx : SameCrew q x) => ?_) ?_; clear_value x; rotate_left; subst x)
    | apply crew_modJob | apply crew_breakJob | intro _ | split

theorem crew_armGroup (h : SameCrew q s) (a1 a2 a3 : _) : SameCrew q (State.armGroup s a1 a2 a3) := by
  unfold State.armGroup
  repeat' with_reducible first
    | assumption | (extract_lets +onlyGivenNames x; clear_value x) | apply crew_modConn | intro _ | split

theorem crew_startJob (h : SameCrew q s) (a1 : _) : SameCrew q (State.startJob s a1) := by
  unfold State.startJob
  repeat' with_reducible first
    | assumption
    | (extract_lets +onlyGivenNames x; refine (fun (hx : SameCrew q x) => ?_) ?_; clear_value x; rotate_left; subst x)
    | (extract_lets +onlyGivenNames x; clear_value x) | apply crew_memRead | apply crew_arriveBytes | apply crew_modTile
    | apply crew_armGroup | apply crew_modJob | apply crew_jobBegins | refine crew_foldl ?_ (fun _ _ _ => ?_) | intro _ | split
    | apply crewThird_snd | exact keepsCrashes_startCtxs ..

theorem crew_fill (h : SameCrew q s) (a1 : _) : CrewSnd q (State.fill s a1) := by
  unfold State.fill
  repeat' with_reducible first
    | assumption | apply crew_freeBytes | intro _ | split | apply crewFst_mk | apply crewSnd_mk | apply crewThird_mk
    | apply crewSnd_snd | refine crewSnd_of (by assumption) ?_

theorem crew_writeShard (h : SameCrew q s) (a1 a2 : _) : SameCrew q (State.writeShard s a1 a2) := by
  unfold State.writeShard
  repeat' with_reducible first
    | assumption | apply crew_fill | apply crew_memWrite | refine crew_foldl ?_ (fun _ _ _ => ?_) | intro _ | split
    | apply crewSnd_snd

theorem crew_unhaltSave (h : SameCrew q s) (a1 a2 : _) : SameCrew q (State.unhaltSave s a1 a2) := by
  unfold State.unhaltSave
  repeat' with_reducible first
    | assumption | apply crew_unhalt | refine crew_foldl ?_ (fun _ _ _ => ?_) | apply noCrash_retirement | apply noCrash_porter

theorem crew_ckptEvent (h : SameCrew q s) (a1 a2 a3 a4 a5 a6 a7 a8 a9 : _) :
    SameCrew q (State.ckptEvent s a1 a2 a3 a4 a5 a6 a7 a8 a9) := crew_raise h ..

theorem crew_endSave (h : SameCrew q s) (a1 a2 : _) : SameCrew q (State.endSave s a1 a2) := by
  unfold State.endSave
  repeat' with_reducible first
    | assumption
    | (extract_lets +onlyGivenNames x; refine (fun (hx : SameCrew q x) => ?_) ?_; clear_value x; rotate_left; subst x)
    | (extract_lets +onlyGivenNames x; clear_value x) | apply crew_unhaltSave | apply crew_settleWaits | apply crew_modJob
    | apply crew_modGuest | apply crew_ckptEvent | intro _ | split | apply crew_mk | apply SameCrew.cores
    | apply SameCrew.activation | apply SameCrew.crash

theorem crew_dropOpen (h : SameCrew q s) (a1 : _) : SameCrew q (State.dropOpen s a1) := by
  unfold State.dropOpen
  repeat' with_reducible first
    | assumption | (extract_lets +onlyGivenNames x; clear_value x) | intro _ | apply crew_mk | apply SameCrew.cores
    | apply SameCrew.activation | apply SameCrew.crash

theorem crew_clearEntries (h : SameCrew q s) (a1 : _) : SameCrew q (State.clearEntries s a1) := by
  unfold State.clearEntries
  repeat' with_reducible first
    | assumption | apply crew_memWrite | refine crew_foldl ?_ (fun _ _ _ => ?_)

theorem crew_writeUnits (h : SameCrew q s) (a1 a2 : _) : CrewOpt q (State.writeUnits s a1 a2) := by
  unfold State.writeUnits
  repeat' with_reducible first
    | assumption
    | (extract_lets +onlyGivenNames x; refine (fun (hx : SameCrew q x) => ?_) ?_; clear_value x; rotate_left; subst x)
    | (extract_lets +onlyGivenNames x; clear_value x) | apply crew_clearEntries | apply crew_memWrite
    | refine crew_foldl ?_ (fun _ _ _ => ?_) | exact crewOpt_none | apply crewOpt_some | intro _ | split | apply crew_mk
    | apply SameCrew.cores | apply SameCrew.activation | apply SameCrew.crash

theorem crew_porterSend (h : SameCrew q s) (a1 a2 a3 a4 a5 a6 : _) : SameCrew q (State.porterSend s a1 a2 a3 a4 a5 a6) := by
  unfold State.porterSend
  repeat' with_reducible first
    | assumption
    | (extract_lets +onlyGivenNames x; refine (fun (hx : SameCrew q x) => ?_) ?_; clear_value x; rotate_left; subst x)
    | (extract_lets +onlyGivenNames x; clear_value x) | apply crew_modConn | intro _ | split | apply crew_mk
    | apply SameCrew.cores | apply SameCrew.activation | apply SameCrew.crash

theorem crew_packSave (h : SameCrew q s) (a1 : _) : SameCrew q (State.packSave s a1) := by
  unfold State.packSave
  repeat' with_reducible first
    | assumption
    | (extract_lets +onlyGivenNames x; refine (fun (hx : SameCrew q x) => ?_) ?_; clear_value x; rotate_left; subst x)
    | (extract_lets +onlyGivenNames x; clear_value x) | apply crew_freeBytes | apply crew_dropOpen | apply crew_writeUnits
    | apply crew_modJob | apply crew_endSave | apply crew_porterSend | refine crew_foldl ?_ (fun _ _ _ => ?_) | exact crewOpt_none
    | apply crewOpt_some | intro _ | split | apply crewSnd_snd | refine crewSnd_of (by assumption) ?_
    | refine crewOpt_of (by assumption) ?_ | apply crew_mk | apply SameCrew.cores | apply SameCrew.activation
    | apply SameCrew.crash

theorem crew_copyPage (h : SameCrew q s) (a1 a2 : _) : SameCrew q (State.copyPage s a1 a2) := by
  unfold State.copyPage
  repeat' with_reducible first
    | assumption | apply crew_packSave | apply crew_settleWaits | apply crew_modJob | intro _ | split

theorem crew_resumeShard (h : SameCrew q s) (a1 a2 a3 : _) : CrewOpt q (State.resumeShard s a1 a2 a3) := by
  unfold State.resumeShard
  repeat' with_reducible first
    | assumption
    | (extract_lets +onlyGivenNames x; refine (fun (hx : SameCrew q x) => ?_) ?_; clear_value x; rotate_left; subst x)
    | (extract_lets +onlyGivenNames x; clear_value x) | apply crew_writeShard | apply crew_releaseJob | apply crew_settleWaits
    | apply crew_modJob | apply crew_startJob | exact crewOpt_none | apply crewOpt_some | intro _ | split

theorem crew_resumeSame (h : SameCrew q s) (a1 : _) : SameCrew q (State.resumeSame s a1) := by
  unfold State.resumeSame
  repeat' with_reducible first
    | assumption | apply crew_resumeShard | apply crew_endJob | exact crewOpt_none | apply crewOpt_some | intro _ | split
    | refine crewOpt_of (by assumption) ?_

theorem crew_serveAheads (h : SameCrew q s) (a1 a2 : _) : SameCrew q (State.serveAheads s a1 a2) := by
  unfold State.serveAheads
  repeat' with_reducible first
    | assumption | (extract_lets +onlyGivenNames x; clear_value x) | apply crew_copyPage | refine crew_foldl ?_ (fun _ _ _ => ?_)

theorem crew_reslice (h : SameCrew q s) (a1 a2 : _) : SameCrew q (State.reslice s a1 a2) := by
  unfold State.reslice
  repeat' with_reducible first
    | assumption | (extract_lets +onlyGivenNames x; clear_value x) | apply crew_resumeShard | apply crew_endJob
    | apply crew_ckptEvent | exact crewOpt_none | apply crewOpt_some | intro _ | split | refine crewOpt_of (by assumption) ?_

theorem crew_guestEvent (h : SameCrew q s) (a1 a2 a3 a4 a5 a6 a7 a8 : _) :
    SameCrew q (State.guestEvent s a1 a2 a3 a4 a5 a6 a7 a8) := crew_raise h ..

/-! ## Rooms -/

theorem crew_finishEmpty (h : SameCrew q s) (a1 a2 : _) : SameCrew q (State.finishEmpty s a1 a2) := by
  unfold State.finishEmpty
  repeat' with_reducible first
    | assumption
    | (extract_lets +onlyGivenNames x; refine (fun (hx : SameCrew q x) => ?_) ?_; clear_value x; rotate_left; subst x)
    | apply crew_modMesh | apply crew_parlourVector | apply crew_guestEvent | intro _ | split

theorem crew_clearRoom (h : SameCrew q s) (a1 a2 : _) : SameCrew q (State.clearRoom s a1 a2) := by
  unfold State.clearRoom
  repeat' with_reducible first
    | assumption
    | (extract_lets +onlyGivenNames x; refine (fun (hx : SameCrew q x) => ?_) ?_; clear_value x; rotate_left; subst x)
    | apply crew_drainPair | apply crew_closeConn | apply crew_dropRoom | apply crew_clearVectors | apply crew_clearRoomSlots
    | apply crew_memZero | refine crew_foldl ?_ (fun _ _ _ => ?_)

theorem crew_finishClose (h : SameCrew q s) (a1 : _) : SameCrew q (State.finishClose s a1) := by
  unfold State.finishClose
  repeat' with_reducible first
    | assumption
    | (extract_lets +onlyGivenNames x; refine (fun (hx : SameCrew q x) => ?_) ?_; clear_value x; rotate_left; subst x)
    | (extract_lets +onlyGivenNames x; clear_value x) | apply crew_modMesh | apply crew_serveAheads | apply crew_modGuest
    | apply crew_memCopy | apply crew_finishEmpty | apply crew_clearRoom | intro _ | split

theorem crew_closeRoom (h : SameCrew q s) (a1 : _) : SameCrew q (State.closeRoom s a1) := by
  unfold State.closeRoom
  repeat' with_reducible first
    | assumption
    | (extract_lets +onlyGivenNames x; refine (fun (hx : SameCrew q x) => ?_) ?_; clear_value x; rotate_left; subst x)
    | (extract_lets +onlyGivenNames x; clear_value x) | apply crew_modMesh | apply crew_modFirm | apply crew_stateEvent
    | apply crew_endSave | apply crew_haltToEnd | apply crew_endAtRest | apply crew_finishClose
    | refine crew_foldl ?_ (fun _ _ _ => ?_) | intro _ | split | apply noCrash_retirement | apply noCrash_porter
    | apply noCrash_jobEnd | exact keepsCores_of (fun _ => rfl) fun _ => rfl

/-! ## The switch of a retirement -/

theorem crew_carry (h : SameCrew q s) (a1 a2 : _) : SameCrew q (State.carry s a1 a2) :=
  crew_modTile (crew_foldl h fun _ e hx => crew_setTile hx fun c => (crash_receive _ _ c).trans (h.crash c e.2)) (keepsCrashes_of fun _ => rfl)

theorem crew_stretch (h : SameCrew q s) (a1 a2 a3 : _) : SameCrew q (State.stretch s a1 a2 a3) := by
  unfold State.stretch
  repeat' with_reducible first
    | assumption
    | (extract_lets +onlyGivenNames x; refine (fun (hx : SameCrew q x) => ?_) ?_; clear_value x; rotate_left; subst x)
    | apply crew_modCluster | apply crew_breakAll | apply crew_halt | refine crew_foldl ?_ (fun _ _ _ => ?_)
    | apply noCrash_retirement

theorem crew_shiftRouters (h : SameCrew q s) (a1 : _) : SameCrew q (State.shiftRouters s a1) := by
  unfold State.shiftRouters
  repeat' with_reducible first
    | assumption | (extract_lets +onlyGivenNames x; clear_value x) | refine crew_foldl ?_ (fun _ _ _ => ?_) | intro _
    | apply crew_mk | apply SameCrew.cores | apply SameCrew.activation | apply SameCrew.crash

theorem crew_resumeLost (h : SameCrew q s) (a1 : _) : SameCrew q (State.resumeLost s a1) := by
  unfold State.resumeLost
  repeat' with_reducible first
    | assumption | apply crew_resumeSame | refine crew_foldl ?_ (fun _ _ _ => ?_)

theorem crew_switch (h : SameCrew q s) (a1 a2 : _) : SameCrew q (State.switch s a1 a2) := by
  unfold State.switch
  repeat' with_reducible first
    | assumption
    | (extract_lets +onlyGivenNames x; refine (fun (hx : SameCrew q x) => ?_) ?_; clear_value x; rotate_left; subst x)
    | (extract_lets +onlyGivenNames x; clear_value x) | apply crew_carry | apply crew_shiftRouters | apply crew_deliver
    | apply crew_closeRoom | apply crew_unhalt | apply crew_reslice | apply crew_resumeLost | apply crew_raise
    | apply crew_breakAll | refine crew_foldl ?_ (fun _ _ _ => ?_) | intro _ | split | apply crew_mk | apply SameCrew.cores
    | apply SameCrew.activation | apply SameCrew.crash | apply noCrash_retirement

theorem crew_writeMap (h : SameCrew q s) (a1 a2 : _) : SameCrew q (State.writeMap s a1 a2) := by
  unfold State.writeMap
  repeat' with_reducible first
    | assumption
    | (extract_lets +onlyGivenNames x; refine (fun (hx : SameCrew q x) => ?_) ?_; clear_value x; rotate_left; subst x)
    | (extract_lets +onlyGivenNames x; clear_value x) | apply crew_writeRecord | apply crew_modCluster

theorem crew_trySwitch (h : SameCrew q s) (a1 : _) : SameCrew q (State.trySwitch s a1) := by
  unfold State.trySwitch
  repeat' with_reducible first
    | assumption
    | (extract_lets +onlyGivenNames x; refine (fun (hx : SameCrew q x) => ?_) ?_; clear_value x; rotate_left; subst x)
    | (extract_lets +onlyGivenNames x; clear_value x) | apply crew_switch | apply crew_writeMap | apply crew_stretch | intro _
    | split

theorem crew_askRecord (h : SameCrew q s) (a1 : _) : SameCrew q (State.askRecord s a1) := by
  unfold State.askRecord
  repeat' with_reducible first
    | assumption
    | (extract_lets +onlyGivenNames x; refine (fun (hx : SameCrew q x) => ?_) ?_; clear_value x; rotate_left; subst x)
    | (extract_lets +onlyGivenNames x; clear_value x) | apply crew_stretch | apply crew_trySwitch | apply crew_writeMap | intro _
    | split

end crew

end Sys2Proof.Machine
end

section
/-! SUPPORT. Crashes and restarts of firmware cores (R36, R81 to R84): what each leaves of cores, tiles, slots and the clamp (O35). -/

namespace Sys2Proof.Machine

/-! ## Dropped requests and the clamp -/

theorem State.hole_foldl_dispatcherCompletes (l : List Nat) (st : Status) (s : State) {k : Nat} (hk : k ∉ l) :
    (l.foldl (fun s n => s.dispatcherCompletes n st) s).hole k = s.hole k := by
  induction l generalizing s with
  | nil => rfl
  | cons n r ih =>
    obtain ⟨hn, hr⟩ := not_or.mp (List.mem_cons.not.mp hk)
    rw [List.foldl_cons, ih _ hr, State.hole_dispatcherCompletes_other _ st hn]

theorem State.core_dropRequests (s : State) (c : Nat) : (s.dropRequests c).core c = { s.core c with queue := [], begun := none } := by
  rw [(s.dropRequests_onlyAnswers c).core, State.core_modCore]

theorem State.setClamp_shape (s : State) (c : Clamp) :
    ∃ pw j l, s.setClamp c = { s with power := pw, jobs := j, ledgers := l } ∧ pw.clamp = c := by
  obtain ⟨j, l, hb⟩ := ((s.modPower fun p => { p with clamp := c, clampRelease := false }).decideDivisor).breakAll_onlyBreaks
  exact ⟨_, j, l, hb, rfl⟩

/-! ## The halts of a cluster -/

theorem State.foldl_halt_onlyHalts (s : State) (ps : List Nat) (h : Halter) : OnlyHalts s (ps.foldl (fun s p => s.halt p h) s) :=
  OnlyHalts.foldl (fun s p => s.halt_onlyHalts p h) ps s

theorem State.tile_foldl_halt (s : State) (ps : List Nat) (h : Halter) (q : Nat) :
    (ps.foldl (fun s p => s.halt p h) s).tile q = if q ∈ ps then (s.tile q).withHalt h else s.tile q := by
  obtain ⟨j, l, hb⟩ := (ps.foldl (fun s p => s.halt p h) s).breakAll_onlyBreaks
  rw [← s.tile_haltEach ps h q, State.haltEach, hb]
  rfl

/-- The work that a crash of a core stops: the tiles of an Innkeeper's cluster, and every promise (R81, R280). -/
def State.stopWork (s : State) (c : Nat) : State := if c < 3 then s.breakAll else (clusterTiles (c - 3)).foldl (fun s p => s.halt p (.crash c)) s

theorem State.stopWork_onlyHalts (s : State) (c : Nat) : OnlyHalts s (s.stopWork c) := by
  unfold State.stopWork
  split
  · exact s.breakAll_onlyBreaks.onlyHalts
  · exact s.foldl_halt_onlyHalts _ _

theorem State.tiles_stopWork {s : State} {c : Nat} (h : c < 3) : (s.stopWork c).tiles = s.tiles := by
  obtain ⟨j, l, hb⟩ := s.breakAll_onlyBreaks
  rw [State.stopWork, if_pos h, hb]

theorem State.tile_stopWork {s : State} {c : Nat} (h : 3 ≤ c) (p : Nat) :
    (s.stopWork c).tile p = if p ∈ clusterTiles (c - 3) then (s.tile p).withHalt (.crash c) else s.tile p := by
  rw [State.stopWork, if_neg (Nat.not_lt.mpr h), State.tile_foldl_halt]

/-- The work that goes on as a core is back: an Innkeeper's tiles lose the halt of its crash (R82). -/
def State.resumeWork (s : State) (c : Nat) : State :=
  if c < 3 then s.breakAll else (clusterTiles (c - 3)).foldl (fun (s : State) p => (s.breakTile p).unhalt p (.crash c)) s

theorem State.unhalt_onlyHalts (s : State) (p : Nat) (h : Halter) : OnlyHalts s (s.unhalt p h) := ⟨_, _, _, rfl⟩

theorem State.resumeWork_onlyHalts (s : State) (c : Nat) : OnlyHalts s (s.resumeWork c) := by
  unfold State.resumeWork
  split
  · exact s.breakAll_onlyBreaks.onlyHalts
  · exact OnlyHalts.foldl (fun s p => (s.breakTile_onlyBreaks p).onlyHalts.trans (State.unhalt_onlyHalts _ p _)) _ s

theorem State.not_mem_halts_foldl_unhalt (s : State) (ps : List Nat) (h : Halter) (q : Nat) (hq : h ∉ (s.tile q).halts ∨ q ∈ ps) :
    h ∉ ((ps.foldl (fun (s : State) p => (s.breakTile p).unhalt p h) s).tile q).halts := by
  induction ps generalizing s with
  | nil => exact hq.resolve_right List.not_mem_nil
  | cons p r ih =>
    obtain ⟨j, l, hb⟩ := s.breakTile_onlyBreaks p
    have htile : (s.breakTile p).tile q = s.tile q := by rw [hb]; rfl
    refine ih _ ?_
    by_cases hp : q ∈ r
    · exact .inr hp
    · refine .inl (State.not_mem_halts_unhalt _ p h q ?_)
      rw [htile]
      exact hq.imp_right fun hm => (List.mem_cons.mp hm).resolve_right hp

theorem State.crash_notMem_resumeWork {s : State} {c p : Nat} (h : 3 ≤ c) (hp : p ∈ clusterTiles (c - 3)) :
    Halter.crash c ∉ ((s.resumeWork c).tile p).halts := by
  rw [State.resumeWork, if_neg (Nat.not_lt.mpr h)]
  exact s.not_mem_halts_foldl_unhalt _ _ p (.inr hp)

/-! ## A crash -/

/-- A core as a crash leaves it. -/
def Core.crashed (k : Core) : Core := ({ k with queue := [], begun := none } : Core).renew .restarting

theorem State.crash_eq {s : State} {c : Nat} (hrun : (s.core c).run = .running) (hpower : s.corePowered c = true) :
    ∃ ev lost, s.crash c =
      let u := (s.dropRequests c).modCore c (·.renew .restarting)
      let v := State.stopWork { u with firm := { u.firm with events := ev, lostEvents := lost } } c
      if c = hearth then v.setClamp .safe else v := by
  obtain ⟨ev, lost, hev⟩ := ((s.dropRequests c).modCore c (·.renew .restarting)).stateEvent_onlyEvents
    ((s.dropRequests c).modCore c (·.renew .restarting)).firm.mstate 2 c
  refine ⟨ev, lost, ?_⟩
  unfold State.crash
  dsimp only
  rw [if_pos ⟨.inl hrun, hpower⟩, hev, hrun]
  rfl

/-- What a crash of a running core leaves of that core, the slots, the tiles and the clamp. -/
theorem State.crash_effect {s : State} {c : Nat} (hrun : (s.core c).run = .running) (hpower : s.corePowered c = true) :
    (s.crash c).core c = (s.core c).crashed ∧ (∀ k, (s.crash c).hole k = (s.dropRequests c).hole k) ∧ (c < 3 → (s.crash c).tiles = s.tiles)
      ∧ (3 ≤ c → ∀ p, (s.crash c).tile p = if p ∈ clusterTiles (c - 3) then (s.tile p).withHalt (.crash c) else s.tile p)
      ∧ (c = hearth → (s.crash c).power.clamp = .safe) := by
  obtain ⟨ev, lost, hcrash⟩ := State.crash_eq hrun hpower
  obtain ⟨ho, li, hdrop⟩ := s.dropRequests_onlyAnswers c
  set u := (s.dropRequests c).modCore c (·.renew .restarting) with hu
  set w : State := { u with firm := { u.firm with events := ev, lostEvents := lost } } with hw
  have hcore : w.core c = (s.core c).crashed := by
    show u.core c = _
    rw [hu, State.core_modCore, State.core_dropRequests]
    rfl
  have hhole : ∀ k, w.hole k = (s.dropRequests c).hole k := fun _ => rfl
  have htiles : w.tiles = s.tiles := by
    show (s.dropRequests c).tiles = _
    rw [hdrop]
    rfl
  have htile : ∀ p, w.tile p = s.tile p := fun p => by rw [State.tile, htiles, State.tile]
  obtain ⟨ti, j, l, hstop⟩ := w.stopWork_onlyHalts c
  obtain ⟨t, ht, hfirm, hsame, hclamp⟩ :
      ∃ t, s.crash c = t ∧ t.firm = w.firm ∧ t.tiles = (w.stopWork c).tiles ∧ (c = hearth → t.power.clamp = .safe) := by
    refine ⟨_, hcrash, ?_⟩
    dsimp only
    split
    · obtain ⟨pw, j', l', hset, hsafe⟩ := (w.stopWork c).setClamp_shape .safe
      rw [hset]
      exact ⟨by rw [hstop], rfl, fun _ => hsafe⟩
    · rename_i hne
      exact ⟨by rw [hstop], rfl, fun h => absurd h hne⟩
  have htile' : ∀ p, t.tile p = (w.stopWork c).tile p := fun p => by rw [State.tile, hsame, State.tile]
  rw [ht]
  refine ⟨?_, fun k => ?_, fun h => ?_, fun h p => ?_, hclamp⟩
  · rw [State.core, hfirm]
    exact hcore
  · rw [State.hole, hfirm]
    exact hhole k
  · rw [hsame, State.tiles_stopWork h, htiles]
  · rw [htile', State.tile_stopWork h, htile]

/-! ## The return of a core -/

theorem State.beginSwap_idle {s : State} (h : s.firm.activation = none) : s.beginSwap = s := by
  unfold State.beginSwap State.swapFuel
  simp [h]

theorem State.tryComplete_idle {s : State} (h : s.firm.activation = none) : s.tryComplete = s := by
  unfold State.tryComplete
  simp [h]

theorem crew_innkeeperBack {q s : State} (h : SameCrew q s) (c : Nat) : SameCrew q (s.innkeeperBack c) := by
  unfold State.innkeeperBack
  split
  · exact h
  · exact crew_trySwitch (crew_askRecord h _) _

/-- A core as its restart leaves it, with code of an image (R84). -/
def Core.restarted (k : Core) (code : FMap TWord) (release : BitVec 32) (now : Nat) : Core :=
  { (k.renew .running) with ctx := { assigned := true, ready := true }, sram := code, shadow := [], release, watchdog := now, fails := 0 }

theorem State.imageOf_idle {s : State} (h : s.firm.activation = none) (c : Nat) : s.imageOf c = s.firm.running := by
  simp [State.imageOf, h]

/-- The Hearth's clamp releases after its first full loop (R83). -/
def State.clampBack (s : State) (c : Nat) : State := if c = hearth then s.modPower fun p => { p with clampRelease := true } else s

theorem State.restartDone_eq {s : State} {c : Nat} (hrun : (s.core c).run = .restarting) (ha : s.firm.activation = none) :
    ∃ ev lost, s.restartDone c =
      let u := (s.loadCore c s.firm.running).modCore c fun k => { k with fails := 0 }
      let v : State := { u with firm := { u.firm with events := ev, lostEvents := lost } }
      ((((v.resumeWork c).clampBack c).innkeeperBack c).beginSwap).tryComplete := by
  obtain ⟨ev, lost, hev⟩ := ((s.loadCore c s.firm.running).modCore c fun k => { k with fails := 0 }).stateEvent_onlyEvents
    ((s.loadCore c s.firm.running).modCore c fun k => { k with fails := 0 }).firm.mstate 3 c
  refine ⟨ev, lost, ?_⟩
  unfold State.restartDone
  dsimp only
  rw [if_pos hrun, State.imageOf_idle ha, hev]
  rfl

/-- What the return of a core leaves, with no activation under way. -/
theorem State.restartDone_effect {s : State} {c : Nat} (hrun : (s.core c).run = .restarting) (ha : s.firm.activation = none) :
    (s.restartDone c).core c = (s.core c).restarted (sramOf (s.firm.running.section c)) s.firm.running.release s.firm.aon
      ∧ (3 ≤ c → ∀ p ∈ clusterTiles (c - 3), Halter.crash c ∉ ((s.restartDone c).tile p).halts)
      ∧ (c = hearth → (s.restartDone c).power.clampRelease = true) := by
  obtain ⟨ev, lost, hdone⟩ := State.restartDone_eq hrun ha
  set u := (s.loadCore c s.firm.running).modCore c fun k => { k with fails := 0 } with hu
  set w : State := { u with firm := { u.firm with events := ev, lostEvents := lost } } with hw
  have hcore : w.core c = (s.core c).restarted (sramOf (s.firm.running.section c)) s.firm.running.release s.firm.aon := by
    show u.core c = _
    rw [hu, State.core_modCore, State.loadCore, State.core_modCore]
    rfl
  obtain ⟨ti, j, l, hresume⟩ := w.resumeWork_onlyHalts c
  set x := (w.resumeWork c).clampBack c with hx
  have hfirm : x.firm = w.firm := by
    rw [hx, State.clampBack, hresume]
    split <;> rfl
  have htile : ∀ p, x.tile p = (w.resumeWork c).tile p := by
    intro p
    rw [hx, State.clampBack]
    split <;> rfl
  have hcrew : SameCrew x (x.innkeeperBack c) := crew_innkeeperBack (.refl x) c
  have hidle : (x.innkeeperBack c).firm.activation = none := by
    rw [hcrew.activation, hfirm]
    exact ha
  have hstate : s.restartDone c = x.innkeeperBack c := by
    rw [hdone]
    dsimp only
    rw [← hx, State.beginSwap_idle hidle, State.tryComplete_idle hidle]
  rw [hstate]
  refine ⟨?_, fun h p hp hmem => ?_, fun h => ?_⟩
  · rw [hcrew.core, State.core, hfirm]
    exact hcore
  · have hback := (hcrew.crash c p).mp hmem
    rw [htile] at hback
    exact State.crash_notMem_resumeWork h hp hback
  · subst h
    rfl

/-! ## The end of a core -/

theorem State.run_fireAll (s : State) (source c : Nat) : ((s.fireAll source).core c).run = (s.core c).run := by
  unfold State.fireAll
  generalize List.range 19 = l
  induction l generalizing s with
  | nil => rfl
  | cons k r ih =>
    rw [List.foldl_cons, ih]
    split
    · unfold State.fire
      by_cases hk : c = k
      · rw [hk, State.core_modCore]
        rfl
      · rw [State.core_modCore_other _ _ _ _ hk]
    · rfl

/-- An alarm leaves every core as it runs (R504). -/
theorem State.run_alarm (s : State) (cause c : Nat) : ((s.alarm cause).core c).run = (s.core c).run := by
  unfold State.alarm
  split
  · rfl
  · dsimp only
    rw [(crew_cipherEvent (crew_zeroise (.refl _)) ..).core, State.run_fireAll]
    rfl

theorem State.foldl_setTile_firm (l : List Nat) (x : Tile) (s : State) : (l.foldl (fun s p => s.setTile p x) s).firm = s.firm := by
  induction l generalizing s with
  | nil => rfl
  | cons p r ih => exact (ih _).trans rfl

/-- A cluster that goes out of service leaves the cores and the activation (R81). -/
theorem State.clusterOut_firm (s : State) (c : Nat) :
    (s.clusterOut c).firm.cores = s.firm.cores ∧ (s.clusterOut c).firm.activation = s.firm.activation := by
  unfold State.clusterOut
  extract_lets tiles u v w x rooms
  clear_value rooms tiles
  have hu : SameCrew s u := by
    dsimp only [u]
    split
    · exact crew_foldl (.refl s) fun _ p h => crew_unhalt h p (noCrash_retirement _)
    · exact .refl s
  have hx : x.firm = u.firm := State.foldl_setTile_firm tiles _ v
  have hclose : SameCrew x (rooms.foldl State.closeRoom x) := crew_foldl (.refl x) fun _ k h => crew_closeRoom h k
  rw [hclose.cores, hclose.activation, hx]
  exact ⟨hu.cores, hu.activation⟩

/-! ### Swaps leave the module's state -/

theorem State.raise_mstate (s : State) (op : Nat) (p : List Byte) (g n st : Nat) : (s.raise op p g n st).firm.mstate = s.firm.mstate := by
  obtain ⟨ev, lost, h⟩ := s.raise_onlyEvents op p g n st
  rw [h]

theorem State.tryComplete_mstate (s : State) : s.tryComplete.firm.mstate = s.firm.mstate := by
  unfold State.tryComplete
  split
  · split
    · split
      · exact (State.raise_mstate ..).trans rfl
      · rfl
    · rfl
  · rfl

theorem State.setClamp_firm (s : State) (c : Clamp) : (s.setClamp c).firm = s.firm := by
  obtain ⟨pw, j, l, h, -⟩ := s.setClamp_shape c
  rw [h]

theorem State.startSwap_mstate (s : State) (c : Nat) (i : Image) : (s.startSwap c i).firm.mstate = s.firm.mstate := by
  unfold State.startSwap
  extract_lets u v w
  have hv : OnlyHalts u v := by
    dsimp only [v]
    split
    · exact .refl u
    · exact OnlyHalts.foldl (fun s r => s.halt_onlyHalts _ _) _ u
  have hw : w.firm = v.firm := by
    dsimp only [w]
    split
    · exact State.setClamp_firm _ _
    · rfl
  obtain ⟨j, l, hbreak⟩ := State.breakAll_onlyBreaks { w with jobs := fmap w.jobs fun _ j => if j.live then { j with activated := true } else j }
  obtain ⟨ti, j', l', hhalts⟩ := hv
  rw [hbreak]
  show w.firm.mstate = _
  rw [hw, hhalts]
  rfl

theorem State.swapFuel_mstate (f : Nat) (s : State) : (s.swapFuel f).firm.mstate = s.firm.mstate := by
  induction f generalizing s with
  | zero => rfl
  | succ f ih =>
    unfold State.swapFuel
    split
    · dsimp only
      split
      · rfl
      · split
        · split
          · exact (State.tryComplete_mstate _).trans rfl
          · exact (ih _).trans rfl
        · split
          · split
            · rfl
            · exact (State.raise_mstate ..).trans rfl
          · exact s.startSwap_mstate _ _
    · rfl

theorem State.degrade_mstate_ne_ready (s : State) (cause : Nat) : (s.degrade cause).firm.mstate ≠ .ready := by
  unfold State.degrade
  split
  · rw [State.stateEvent, State.raise_mstate]
    exact nofun
  · rename_i h
    show s.firm.mstate ≠ _
    rw [h]
    exact nofun
  · rename_i hready _
    exact hready

/-! ### The third failure -/

theorem State.haltAll_shape (s : State) (h : Halter) : (s.haltAll h).firm = s.firm ∧ h ∈ (s.haltAll h).mesh.halts := by
  unfold State.haltAll
  split
  · rename_i hc
    exact ⟨rfl, List.contains_iff_mem.mp hc⟩
  · obtain ⟨j, l, hb⟩ := (s.modMesh fun m => { m with halts := m.halts ++ [h] }).breakAll_onlyBreaks
    rw [hb]
    exact ⟨rfl, List.mem_append_right _ (List.mem_singleton_self h)⟩

/-- R48: SAFE_HOLD, with the cores as they are. -/
theorem State.safeHold_effect (s : State) (cause core : Nat) :
    (s.safeHold cause core).firm.mstate = .safeHold ∧ Halter.safeHold ∈ (s.safeHold cause core).mesh.halts
      ∧ (s.safeHold cause core).firm.cores = s.firm.cores := by
  set u := s.modFirm fun f => { f with mstate := .safeHold, startHeld := false, stepDone := false } with hu
  obtain ⟨ev, lost, hev⟩ := u.stateEvent_onlyEvents s.firm.mstate cause core
  obtain ⟨hfirm, hmem⟩ := (u.stateEvent s.firm.mstate cause core).haltAll_shape .safeHold
  have hstate : s.safeHold cause core = (u.stateEvent s.firm.mstate cause core).haltAll .safeHold := rfl
  rw [hstate]
  rw [hfirm]
  exact ⟨congrArg (·.firm.mstate) hev, hmem, congrArg (·.firm.cores) hev⟩

/-- A third failure of the Hearth or of an Innkeeper leaves the module not READY, and the core out of service unless an activation goes on. -/
theorem State.restartFailed_third {s : State} {c : Nat} (hrun : (s.core c).run = .restarting) (hfails : 2 ≤ (s.core c).fails)
    (hd : c ≠ doorkeeper) (hs : c ≠ steward) :
    (s.firm.activation = none → ((s.restartFailed c).core c).run = .out) ∧ (s.restartFailed c).firm.mstate ≠ .ready := by
  set u := s.modCore c fun k => { k with fails := k.fails + 1, run := .out } with hu
  set v := u.stateEvent u.firm.mstate 4 c with hv
  set w := if c = hearth then v else v.clusterOut c with hw
  have hstate : s.restartFailed c = w.degrade.beginSwap.tryComplete := by
    unfold State.restartFailed
    dsimp only
    rw [if_neg (not_not.mpr hrun), if_neg (Nat.not_lt.mpr hfails), if_neg hd, if_neg hs]
  obtain ⟨ev, lost, hevent⟩ : OnlyEvents u v := u.stateEvent_onlyEvents ..
  have hkept : w.firm.cores = u.firm.cores ∧ w.firm.activation = u.firm.activation := by
    obtain ⟨hcores, hactivation⟩ := v.clusterOut_firm c
    rw [hw]
    split
    · rw [hevent]
      exact ⟨rfl, rfl⟩
    · rw [hcores, hactivation, hevent]
      exact ⟨rfl, rfl⟩
  obtain ⟨hcores, hactivation⟩ := hkept
  have hcrew : SameCrew w w.degrade := crew_degrade (.refl w) _
  rw [hstate]
  refine ⟨fun ha => ?_, ?_⟩
  · have hidle : w.degrade.firm.activation = none := by
      rw [hcrew.activation, hactivation]
      exact ha
    rw [State.beginSwap_idle hidle, State.tryComplete_idle hidle, hcrew.core, State.core, hcores]
    show (u.core c).run = _
    rw [hu, State.core_modCore]
  · rw [State.tryComplete_mstate, State.beginSwap, State.swapFuel_mstate]
    exact w.degrade_mstate_ne_ready _

/-- A third failure of the Doorkeeper or of the Steward is a SAFE_HOLD (R81). -/
theorem State.restartFailed_safeHold {s : State} {c : Nat} (hrun : (s.core c).run = .restarting) (hfails : 2 ≤ (s.core c).fails)
    (hc : c = doorkeeper ∨ c = steward) :
    ((s.restartFailed c).core c).run = .out ∧ (s.restartFailed c).firm.mstate = .safeHold
      ∧ Halter.safeHold ∈ (s.restartFailed c).mesh.halts := by
  set u := s.modCore c fun k => { k with fails := k.fails + 1, run := .out } with hu
  have hout : (u.core c).run = .out := by rw [hu, State.core_modCore]
  obtain ⟨v, hstate, hv⟩ : ∃ v : State, s.restartFailed c = v.safeHold 4 c ∧ (v.core c).run = .out := by
    unfold State.restartFailed
    dsimp only
    rw [if_neg (not_not.mpr hrun), if_neg (Nat.not_lt.mpr hfails)]
    by_cases hd : c = doorkeeper
    · exact ⟨u.alarm 4, if_pos hd, (u.run_alarm 4 c).trans hout⟩
    · exact ⟨u, (if_neg hd).trans (if_pos (hc.resolve_left hd)), hout⟩
  obtain ⟨hmstate, hmem, hcores⟩ := v.safeHold_effect 4 c
  rw [hstate]
  exact ⟨by rw [State.core, hcores]; exact hv, hmstate, hmem⟩

end Sys2Proof.Machine

namespace Sys2Proof.Claims
open Sys2Proof.Machine

theorem exec_watchdogExpire {c : Nat} {s : State} (hc : c < 19) :
    exec (.watchdogExpire c) s
      = .next (if (s.core c).watchdog + (if c = hearth then 50000 else 100000) ≤ s.firm.aon then s.crash c else s) := by
  show execWatchdogExpire c s = _
  simp [execWatchdogExpire, hc, watchdogPeriod, done]

theorem exec_coreRestartDone {c : Nat} {s : State} (hc : c < 19) : exec (.coreRestartDone c) s = .next (s.restartDone c) := by
  show execCoreRestartDone c s = _
  rw [execCoreRestartDone, if_pos hc, done]

theorem exec_coreRestartTimeout {c : Nat} {s : State} (hc : c < 19) : exec (.coreRestartTimeout c) s = .next (s.restartFailed c) := by
  show execCoreRestartTimeout c s = _
  rw [execCoreRestartTimeout, if_pos hc, done]

/-- The request that a core had begun ends FAULTED as the core's requests are dropped, if it does not also wait in the core's queue (R63). -/
theorem answered_dropRequests {s : State} {c k : Nat} (hbegun : (s.core c).begun = some k) (hk : k ∉ (s.core c).queue) :
    Answered (s.dropRequests c) k .faulted := by
  unfold State.dropRequests
  dsimp only
  rw [hbegun]
  exact (answered_respond _ k .faulted []).of_hole (State.hole_foldl_dispatcherCompletes _ _ _ hk)

/-- The first and the second failure only count (R84). -/
theorem restartFailed_counts {s : State} {c : Nat} (hrun : (s.core c).run = .restarting) (hfails : (s.core c).fails < 2) :
    ∃ ev lost, s.restartFailed c =
      { s with firm := { (s.modCore c fun k => { k with fails := k.fails + 1 }).firm with events := ev, lostEvents := lost } } := by
  obtain ⟨ev, lost, hev⟩ := (s.modCore c fun k => { k with fails := k.fails + 1 }).stateEvent_onlyEvents s.firm.mstate 4 c
  refine ⟨ev, lost, ?_⟩
  unfold State.restartFailed
  dsimp only
  rw [if_neg (not_not.mpr hrun), if_pos hfails, hev]
  rfl

/-- Settles O35: a crash, a return and a third failure, each by what it leaves of the core, the tiles and the module's state; what an Innkeeper's
return or the closing of rooms sets going leaves cores and crash halts as they are. -/
theorem coresCrashAndRestart : Obligations.CoresCrashAndRestart := by
  refine ⟨?watchdog, ?restart⟩
  case watchdog =>
    intro c s hc hrun hpower
    refine ⟨fun hearly => ⟨s, ?_, rfl⟩, fun hlate => ⟨s.crash c, ?_, ?_⟩⟩
    · rw [exec_watchdogExpire hc, if_neg (Nat.not_le.mpr hearly)]
    · rw [exec_watchdogExpire hc, if_pos hlate]
    · obtain ⟨hcore, hhole, htiles, htile, hclamp⟩ := State.crash_effect hrun hpower
      rw [hcore]
      refine ⟨rfl, rfl, rfl, rfl, rfl, rfl, fun p a => ?_, fun h p hp => ?_, htiles, hclamp, fun k hbegun hk => ?_⟩
      · by_cases h : c < 3
        · rw [State.tile, htiles h, State.tile]
        · rw [htile (Nat.not_lt.mp h)]
          split
          · simp [Tile.word]
          · rfl
      · rw [htile h, if_pos hp]
        exact Tile.mem_withHalt _ _
      · exact (answered_dropRequests hbegun hk).of_hole (hhole k)
  case restart =>
    intro c s hc hrun
    refine ⟨⟨_, exec_coreRestartDone hc, fun ha => ?_, fun ha => ?_, fun ha => ?_⟩, fun hfails => ⟨_, exec_coreRestartTimeout hc, ?_⟩,
      fun hfails => ⟨_, exec_coreRestartTimeout hc, fun ha => ?_, fun hh => ?_, fun hh => ?_⟩⟩
    · obtain ⟨hcore, -, -⟩ := State.restartDone_effect hrun ha
      rw [hcore]
      exact ⟨rfl, rfl, rfl, rfl, rfl, rfl, rfl⟩
    · obtain ⟨-, hback, -⟩ := State.restartDone_effect hrun ha
      exact hback
    · obtain ⟨-, -, hclamp⟩ := State.restartDone_effect hrun ha
      exact hclamp
    · obtain ⟨ev, lost, hstate⟩ := restartFailed_counts hrun hfails
      rw [hstate]
      exact ⟨s.core_modCore c fun k => { k with fails := k.fails + 1 },
        fun k hk => s.core_modCore_other c k (fun k => { k with fails := k.fails + 1 }) hk, rfl⟩
    · by_cases hh : c = doorkeeper ∨ c = steward
      · exact (State.restartFailed_safeHold hrun hfails hh).1
      · obtain ⟨hd, hs⟩ := not_or.mp hh
        exact (State.restartFailed_third hrun hfails hd hs).1 ha
    · exact (State.restartFailed_safeHold hrun hfails hh).2
    · subst hh
      exact (State.restartFailed_third hrun hfails (by decide) (by decide)).2

end Sys2Proof.Claims
end

section
/-! SUPPORT. What a bundle leaves of its context's tallies, descriptors, predicates and handler, and what its slots give (R163 to R165, R168). -/

namespace Sys2Proof.Machine

/-! ## Tallies, predicates and the handler -/

/-- What a bundle does to its context before its results commit leaves the descriptors, and the tallies but for those of its matrix slot (R176). -/
theorem Ctx.issued_regs (c : Ctx) (b : Bundle) (outs : List SlotOut) :
    ((((c.issued outs).next (ctlOf outs)).streamed outs).anchored c b).t = (outs.findSome? (·.tallies)).getD c.t
      ∧ ((((c.issued outs).next (ctlOf outs)).streamed outs).anchored c b).d = c.d := by
  have hnext (x : Ctx) (ctl : Ctl) : (x.next ctl).t = x.t ∧ (x.next ctl).d = x.d := by
    unfold Ctx.next
    extract_lets seq y
    have hy : y.t = x.t ∧ y.d = x.d := by
      dsimp only [y]
      split
      · split <;> exact ⟨rfl, rfl⟩
      · split <;> exact ⟨rfl, rfl⟩
    clear_value y
    split <;> exact hy
  have hstreamed (x : Ctx) : (x.streamed outs).t = x.t ∧ (x.streamed outs).d = x.d := by
    unfold Ctx.streamed
    split <;> exact ⟨rfl, rfl⟩
  have hanchored (x : Ctx) : (x.anchored c b).t = x.t ∧ (x.anchored c b).d = x.d := by
    unfold Ctx.anchored
    split
    · split <;> exact ⟨rfl, rfl⟩
    · exact ⟨rfl, rfl⟩
  obtain ⟨ht₁, hd₁⟩ := hnext (c.issued outs) (ctlOf outs)
  obtain ⟨ht₂, hd₂⟩ := hstreamed ((c.issued outs).next (ctlOf outs))
  obtain ⟨ht₃, hd₃⟩ := hanchored (((c.issued outs).next (ctlOf outs)).streamed outs)
  exact ⟨ht₃.trans (ht₂.trans ht₁), hd₃.trans (hd₂.trans hd₁)⟩

/-- No result that commits changes a tally. -/
theorem Ctx.applyAll_t (c : Ctx) (l : List Commit) : (c.applyAll l).t = c.t := by
  unfold Ctx.applyAll
  induction l generalizing c with
  | nil => rfl
  | cons q r ih =>
    rw [List.foldl_cons, ih]
    cases q.eff with
    | pred p v =>
      simp only [Ctx.apply]
      split <;> rfl
    | _ => rfl

/-- The tallies after a bundle are those that its matrix slot leaves. -/
theorem Ctx.ran_t (c : Ctx) (b : Bundle) (outs : List SlotOut) (pend : Nat → Bool) :
    (c.ran b outs pend).t = (outs.findSome? (·.tallies)).getD c.t := by
  obtain ⟨q, w, h, hran⟩ := Ctx.ran_apply c b outs pend
  rw [hran]
  exact (Ctx.applyAll_t ..).trans (Ctx.issued_regs c b outs).1

/-- A predicate that the last result to commit writes; p0 is never written (R173). -/
theorem Ctx.ran_pr {c : Ctx} {outs : List SlotOut} {k : Nat} {v : BitVec 64} {l : List (Nat × Bool × Effect)} (b : Bundle) (pend : Nat → Bool)
    (ho : outs.flatMap (·.results) = (0, true, .pred k v) :: l) (hl : ∀ x ∈ l, 1 ≤ x.1)
    (hp : ∀ q ∈ c.queue, q.due ≤ c.pos → q.produced = true) (hk : k ≠ 0) : (c.ran b outs pend).pr k = v := by
  obtain ⟨q, w, h, hran⟩ := Ctx.ran_apply c b outs pend
  obtain ⟨a, ha⟩ := Ctx.ran_commits c outs _ l ho hl hp
  rw [hran, ha, Ctx.applyAll_append]
  simp [Ctx.pr, Ctx.applyAll, resultAt, Ctx.apply, hk]

/-- A handler that the last result to commit sets. -/
theorem Ctx.ran_handler {c : Ctx} {outs : List SlotOut} {v : Option Nat} {l : List (Nat × Bool × Effect)} (b : Bundle) (pend : Nat → Bool)
    (ho : outs.flatMap (·.results) = (0, true, .handler v) :: l) (hl : ∀ x ∈ l, 1 ≤ x.1)
    (hp : ∀ q ∈ c.queue, q.due ≤ c.pos → q.produced = true) : (c.ran b outs pend).handler = v := by
  obtain ⟨q, w, h, hran⟩ := Ctx.ran_apply c b outs pend
  obtain ⟨a, ha⟩ := Ctx.ran_commits c outs _ l ho hl hp
  rw [hran, ha, Ctx.applyAll_append]
  rfl

/-! ## Descriptors -/

/-- What an effect does to descriptor k: it is written whole or in one word, or its cursor is set. -/
def Effect.onDesc (k : Nat) (old : Desc) : Effect → Desc
  | .desc d v => if d = k then v else old
  | .descWord d w v =>
    if d = k then
      if w = 0 then { old with w0 := v } else if w = 1 then { old with w1 := v } else if w = 2 then { old with w2 := v } else { old with w3 := v }
    else old
  | .cursor d n => if d = k then old.withCursor n else old
  | _ => old

/-- An effect that neither writes descriptor k nor sets its cursor. -/
def Effect.LeavesDesc (k : Nat) (e : Effect) : Prop := (∀ v, e ≠ .desc k v) ∧ (∀ w v, e ≠ .descWord k w v) ∧ ∀ n, e ≠ .cursor k n

theorem leavesDesc_sreg (k r : Nat) (w : TWord) : (Effect.sreg r w).LeavesDesc k := ⟨nofun, nofun, nofun⟩
theorem leavesDesc_pred (k p : Nat) (v : BitVec 64) : (Effect.pred p v).LeavesDesc k := ⟨nofun, nofun, nofun⟩
theorem leavesDesc_handler (k : Nat) (h : Option Nat) : (Effect.handler h).LeavesDesc k := ⟨nofun, nofun, nofun⟩
theorem leavesDesc_pend (k a : Nat) : (Effect.pend a).LeavesDesc k := ⟨nofun, nofun, nofun⟩

theorem leavesDesc_cursor {k d : Nat} (h : d ≠ k) (n : Nat) : (Effect.cursor d n).LeavesDesc k :=
  ⟨nofun, nofun, fun _ e => h (Effect.cursor.inj e).1⟩

theorem Effect.LeavesDesc.onDesc {k : Nat} {e : Effect} (h : e.LeavesDesc k) (d : Desc) : e.onDesc k d = d := by
  obtain ⟨hdesc, hword, hcursor⟩ := h
  cases e <;> simp only [Effect.onDesc] <;> rw [if_neg]
  case desc d v => rintro rfl; exact hdesc v rfl
  case descWord d w v => rintro rfl; exact hword w v rfl
  case cursor d n => rintro rfl; exact hcursor n rfl

theorem desc_fset (c : Ctx) (d k : Nat) (x : Desc) : ({ c with d := fset c.d d x } : Ctx).desc k = if d = k then x else c.desc k := by
  unfold Ctx.desc
  split
  · subst k
    exact fgetD_fset_same ..
  · exact fgetD_fset_other _ _ _ (Ne.symm ‹_›)

theorem Ctx.desc_apply (c : Ctx) (e : Effect) (k : Nat) : (c.apply e).desc k = e.onDesc k (c.desc k) := by
  cases e with
  | desc d v => exact desc_fset ..
  | descWord d w v =>
    refine (desc_fset ..).trans ?_
    by_cases h : d = k
    · subst k
      rfl
    · simp [Effect.onDesc, h]
  | cursor d n =>
    refine (desc_fset ..).trans ?_
    by_cases h : d = k
    · subst k
      rfl
    · simp [Effect.onDesc, h]
  | pred p v =>
    simp only [Ctx.apply]
    split <;> rfl
  | _ => rfl

theorem Ctx.applyAll_desc (c : Ctx) (l : List Commit) (k : Nat) : (c.applyAll l).desc k = l.foldl (fun d q => q.eff.onDesc k d) (c.desc k) := by
  unfold Ctx.applyAll
  induction l generalizing c with
  | nil => rfl
  | cons q r ih => rw [List.foldl_cons, List.foldl_cons, ih, Ctx.desc_apply]

/-- The descriptors after a bundle: the effects that commit, in order. -/
theorem Ctx.ran_desc (c : Ctx) (b : Bundle) (outs : List SlotOut) (pend : Nat → Bool) (k : Nat) :
    (c.ran b outs pend).desc k = (c.commits outs).foldl (fun d q => q.eff.onDesc k d) (c.desc k) := by
  obtain ⟨q, w, h, hran⟩ := Ctx.ran_apply c b outs pend
  rw [hran]
  refine (Ctx.applyAll_desc ..).trans ?_
  rw [Ctx.desc, (Ctx.issued_regs c b outs).2, Ctx.desc]

/-- A cursor that is set twice to one value is set once. -/
theorem Desc.withCursor_withCursor (d : Desc) (n : Nat) : (d.withCursor n).withCursor n = d.withCursor n := by
  unfold Desc.withCursor
  congr 1
  apply BitVec.eq_of_toNat_eq
  simp only [BitVec.toNat_ofNat]
  omega

theorem foldl_onDesc_leaves {k : Nat} {l : List Commit} (h : ∀ q ∈ l, q.eff.LeavesDesc k) (d : Desc) :
    l.foldl (fun d q => q.eff.onDesc k d) d = d := by
  induction l with
  | nil => rfl
  | cons q r ih =>
    rw [List.foldl_cons, (h q List.mem_cons_self).onDesc]
    exact ih fun x hx => h x (List.mem_cons_of_mem q hx)

/-- Effects of which one sets the cursor, and any other that touches the descriptor sets it alike. -/
theorem foldl_onDesc_cursor {k n : Nat} {l : List Commit} (h : ∀ q ∈ l, q.eff.LeavesDesc k ∨ q.eff = .cursor k n)
    (hmem : ∃ q ∈ l, q.eff = .cursor k n) (d : Desc) : l.foldl (fun d q => q.eff.onDesc k d) d = d.withCursor n := by
  induction l generalizing d with
  | nil => simp at hmem
  | cons q r ih =>
    have hr : ∀ x ∈ r, x.eff.LeavesDesc k ∨ x.eff = .cursor k n := fun x hx => h x (List.mem_cons_of_mem q hx)
    rw [List.foldl_cons]
    by_cases hlater : ∃ x ∈ r, x.eff = .cursor k n
    · rw [ih hr hlater]
      rcases h q List.mem_cons_self with hq | hq
      · rw [hq.onDesc]
      · rw [hq, Effect.onDesc, if_pos rfl, Desc.withCursor_withCursor]
    · have hleaves : ∀ x ∈ r, x.eff.LeavesDesc k := fun x hx => (hr x hx).resolve_right fun e => hlater ⟨x, hx, e⟩
      obtain ⟨x, hx, he⟩ := hmem
      obtain rfl : x = q := (List.mem_cons.mp hx).resolve_right fun hx => hlater ⟨x, hx, he⟩
      rw [foldl_onDesc_leaves hleaves, he, Effect.onDesc, if_pos rfl]

/-! ## What commits with a bundle -/

/-- What a bundle does at distance 0 besides its results: it advances cursors and makes words PENDING. -/
theorem mem_atIssue {outs : List SlotOut} {r : Nat × Bool × Effect} (h : r ∈ atIssue outs) :
    (∃ a ∈ outs.flatMap (·.adv), r = (0, true, .cursor a.1 a.2)) ∨ ∃ a, r = (0, true, .pend a) := by
  simp only [atIssue, List.mem_append, List.mem_flatMap, List.mem_map] at h ⊢
  rcases h with ⟨o, ho, a, ha, rfl⟩ | ⟨o, ho, a, ha, rfl⟩
  · exact Or.inl ⟨a, ⟨o, ho, ha⟩, rfl⟩
  · exact Or.inr ⟨a, rfl⟩

theorem cursor_mem_atIssue {outs : List SlotOut} {a : Nat × Nat} (h : a ∈ outs.flatMap (·.adv)) : (0, true, .cursor a.1 a.2) ∈ atIssue outs := by
  obtain ⟨o, ho, ha⟩ := List.mem_flatMap.mp h
  exact List.mem_append_left _ (List.mem_flatMap.mpr ⟨o, ho, List.mem_map.mpr ⟨a, ha, rfl⟩⟩)

/-- An entry that commits as a bundle issues was due before, or is the bundle's own at distance 0. -/
theorem Ctx.mem_commits {c : Ctx} {outs : List SlotOut} {q : Commit} (h : q ∈ c.commits outs) :
    (q ∈ c.queue ∧ q.due ≤ c.pos) ∨ ∃ r ∈ atIssue outs ++ outs.flatMap (·.results), r.1 = 0 ∧ q = resultAt c.pos r := by
  have hdue := List.mem_takeWhile_imp h
  have hqueue := List.IsPrefix.mem h (List.takeWhile_prefix _)
  simp only [Bool.and_eq_true, decide_eq_true_eq] at hdue
  have hpos : (c.issued outs).pos = c.pos + 1 := rfl
  rw [Ctx.issued_queue, mem_foldl_insert] at hqueue
  rcases hqueue with hq | ⟨r, hr, rfl⟩
  · exact Or.inl ⟨hq, by omega⟩
  · have hd : (resultAt c.pos r).due = c.pos + r.1 := rfl
    exact Or.inr ⟨r, hr, by omega, rfl⟩

/-- An entry of the queue that stands, with all before it, due and produced. -/
def Standing (pos : Nat) (r : Commit) (q : List Commit) : Prop :=
  ∃ a b, q = a ++ r :: b ∧ ∀ x ∈ a ++ [r], x.due ≤ pos ∧ x.produced = true

theorem standing_insert_self {pos : Nat} {r : Commit} {q : List Commit} (hr : r.due = pos) (hp : r.produced = true)
    (hq : ∀ x ∈ q, x.due ≤ pos → x.produced = true) : Standing pos r (insertCommit q r) := by
  refine ⟨q.takeWhile r.ahead, q.dropWhile r.ahead, rfl, fun x hx => ?_⟩
  rcases List.mem_append.mp hx with hx | hx
  · have hahead := List.mem_takeWhile_imp hx
    have hmem : x ∈ q := List.IsPrefix.mem hx (List.takeWhile_prefix _)
    simp only [Commit.ahead, Bool.or_eq_true, decide_eq_true_eq, Bool.and_eq_true, beq_iff_eq] at hahead
    have hdue : x.due ≤ pos := by omega
    exact ⟨hdue, hq x hmem hdue⟩
  · rw [List.mem_singleton.mp hx]
    exact ⟨hr.le, hp⟩

theorem Standing.insert {pos : Nat} {r c : Commit} {q : List Commit} (h : Standing pos r q) (hc : pos ≤ c.due) : Standing pos r (insertCommit q c) := by
  obtain ⟨a, b, rfl, ha⟩ := h
  have hahead : ∀ x ∈ a ++ [r], c.ahead x = true := by
    intro x hx
    obtain ⟨hdue, hprod⟩ := ha x hx
    simp only [Commit.ahead, hprod, Bool.true_or, Bool.and_true, Bool.or_eq_true, decide_eq_true_eq, beq_iff_eq]
    omega
  have hsplit : a ++ r :: b = (a ++ [r]) ++ b := by simp
  refine ⟨a, b.takeWhile c.ahead ++ c :: b.dropWhile c.ahead, ?_, ha⟩
  rw [insertCommit, hsplit, takeWhile_all_append _ _ _ hahead, dropWhile_all_append _ _ _ hahead]
  simp

theorem Standing.foldl {pos : Nat} {r : Commit} {q : List Commit} (h : Standing pos r q) (l : List (Nat × Bool × Effect)) :
    Standing pos r (l.foldl (fun q r => insertCommit q (resultAt pos r)) q) := by
  induction l generalizing q with
  | nil => exact h
  | cons x t ih => exact ih (h.insert (Nat.le_add_right pos x.1))

/-- What a bundle does at distance 0 commits as it issues, if everything due has been produced (R164). -/
theorem Ctx.resultAt_mem_commits {c : Ctx} {outs : List SlotOut} {r : Nat × Bool × Effect} (hr : r ∈ atIssue outs ++ outs.flatMap (·.results))
    (h0 : r.1 = 0) (hz : ∀ x ∈ outs.flatMap (·.results), x.1 = 0 → x.2.1 = true) (hp : ∀ q ∈ c.queue, q.due ≤ c.pos → q.produced = true) :
    resultAt c.pos r ∈ c.commits outs := by
  have hproduced : ∀ x ∈ atIssue outs ++ outs.flatMap (·.results), x.1 = 0 → x.2.1 = true := by
    intro x hx hx0
    rcases List.mem_append.mp hx with hx | hx
    · exact atIssue_produced outs x hx
    · exact hz x hx hx0
  have hrp := hproduced r hr h0
  obtain ⟨l₁, l₂, hl⟩ := List.append_of_mem hr
  have hstanding : Standing c.pos (resultAt c.pos r) (c.issued outs).queue := by
    rw [Ctx.issued_queue, hl, List.foldl_append, List.foldl_cons]
    refine (standing_insert_self (by rw [resultAt, h0, Nat.add_zero]) hrp fun x hx hdue => ?_).foldl l₂
    rcases (mem_foldl_insert ..).mp hx with hx | ⟨y, hy, rfl⟩
    · exact hp x hx hdue
    · refine hproduced y (hl ▸ List.mem_append_left _ hy) ?_
      have hd : (resultAt c.pos y).due = c.pos + y.1 := rfl
      omega
  obtain ⟨a, t, hq, ha⟩ := hstanding
  have hpos : (c.issued outs).pos = c.pos + 1 := rfl
  have hall : ∀ x ∈ a ++ [resultAt c.pos r], (decide (x.due < (c.issued outs).pos) && x.produced) = true := by
    intro x hx
    obtain ⟨hdue, hprod⟩ := ha x hx
    rw [hprod, hpos, Bool.and_true, decide_eq_true_eq]
    omega
  have hsplit : a ++ resultAt c.pos r :: t = (a ++ [resultAt c.pos r]) ++ t := by simp
  rw [Ctx.commits, Ctx.dueNow, hq, hsplit, takeWhile_all_append _ _ _ hall]
  exact List.mem_append_left _ (List.mem_append_right _ (List.mem_singleton_self _))

/-! ## The slots of a bundle -/

/-- What a slot does: nothing for a NOP, a trap for an illegal pattern, and for an operation what `f` says. -/
def Slot.out {α : Type} (f : α → SlotOut) : Slot α → SlotOut
  | .nop => {}
  | .bad => trapOut [{ num := 0 }]
  | .op o => f o

/-- The trap of an operation that a branch shadow may not hold (R169). -/
def shadowTrap (c : Ctx) (o : SSlot) : List TrapCond := if c.shadow.isSome && o.op.noShadow then [{ num := 0 }] else []

theorem evalSlots_eq (e : Env) (c : Ctx) (b : Bundle) :
    evalSlots e c b = [b.s.out fun o => (evalScalar e c b o).addTraps (shadowTrap c o), b.v.out (evalVector c), b.m.out (evalMatrix e c),
      b.x.out (evalMove e c)] := by
  unfold evalSlots
  refine congrArg₂ _ ?scalar (congrArg₂ _ ?vector (congrArg₂ _ ?matrix (congrArg₂ _ ?move rfl)))
  case scalar => cases b.s <;> rfl
  case vector => cases b.v <;> rfl
  case matrix => cases b.m <;> rfl
  case move => cases b.x <;> rfl

/-- A property of a slot's outcome: it holds of no effect, of a trap, and of every operation. -/
theorem Slot.out_all {α : Type} {P : SlotOut → Prop} {f : α → SlotOut} (hnop : P {}) (hbad : P (trapOut [{ num := 0 }])) (hop : ∀ o, P (f o))
    (sl : Slot α) : P (sl.out f) := by
  cases sl with
  | nop => exact hnop
  | bad => exact hbad
  | op o => exact hop o

/-- Results of which none at distance 0 is still to be produced or touches a descriptor. -/
def Settled (rs : List (Nat × Bool × Effect)) : Prop := ∀ r ∈ rs, r.1 = 0 → r.2.1 = true ∧ ∀ k, r.2.2.LeavesDesc k

theorem settled_nil : Settled [] := nofun

theorem settled_of_distance {rs : List (Nat × Bool × Effect)} (h : ∀ r ∈ rs, 1 ≤ r.1) : Settled rs :=
  fun r hr h0 => absurd h0 (Nat.one_le_iff_ne_zero.mp (h r hr))

theorem settled_one {d : Nat} {e : Effect} (h : ∀ k, e.LeavesDesc k ∨ 1 ≤ d) : Settled [(d, true, e)] := by
  intro r hr hd
  rw [List.mem_singleton.mp hr] at hd ⊢
  exact ⟨rfl, fun k => (h k).resolve_right (by omega)⟩

/-- What a scalar or a vector slot leaves to the others: no tally and no cursor, and no descriptor at once. -/
def SlotOut.Plain (o : SlotOut) : Prop := o.tallies = none ∧ o.adv = [] ∧ Settled o.results

theorem plain_ctl (k : Ctl) : ({ ctl := k } : SlotOut).Plain := ⟨rfl, rfl, settled_nil⟩
theorem plain_trapOut (ts : List TrapCond) : (trapOut ts).Plain := ⟨rfl, rfl, settled_nil⟩
theorem plain_toReg (d : Nat) (rd : BitVec 6) (tag : Tag) (v : BitVec 64) : (toReg d rd tag v).Plain :=
  ⟨rfl, rfl, settled_one fun k => Or.inl (leavesDesc_sreg k _ _)⟩

theorem SlotOut.Plain.addTraps {o : SlotOut} (h : o.Plain) (ts : List TrapCond) : (o.addTraps ts).Plain := h
theorem SlotOut.Plain.addUnits {o : SlotOut} (h : o.Plain) (us : List Nat) : (o.addUnits us).Plain := h

theorem plain_ite {p : Prop} [Decidable p] {o o' : SlotOut} (h : o.Plain) (h' : o'.Plain) : (if p then o else o').Plain := by
  split
  · exact h
  · exact h'

theorem plain_addrResult (e : Env) (rd : BitVec 6) (a : Int) : (addrResult e rd a).Plain := (plain_toReg ..).addTraps _
theorem plain_intOp (c : Ctx) (o : SSlot) (d : Nat) (v : BitVec 64 → BitVec 64 → BitVec 64) : (intOp c o d v).Plain := (plain_toReg ..).addTraps _
theorem plain_floatOp (c : Ctx) (o : SSlot) (v : BitVec 32 → BitVec 32 → BitVec 32) : (floatOp c o v).Plain := (plain_toReg ..).addTraps _
theorem plain_shiftOp (c : Ctx) (o : SSlot) (v : BitVec 64 → Nat → BitVec 64) : (shiftOp c o v).Plain := (plain_toReg ..).addTraps _

theorem plain_evalAdd (e : Env) (c : Ctx) (o : SSlot) : (evalAdd e c o).Plain :=
  plain_ite ((plain_addrResult ..).addTraps _) ((plain_toReg ..).addTraps _)

theorem plain_evalAddi (e : Env) (c : Ctx) (o : SSlot) : (evalAddi e c o).Plain :=
  plain_ite ((plain_addrResult ..).addTraps _) ((plain_toReg ..).addTraps _)

theorem plain_evalSub (e : Env) (c : Ctx) (o : SSlot) : (evalSub e c o).Plain :=
  plain_ite ((plain_addrResult ..).addTraps _) ((plain_toReg ..).addTraps _)

theorem plain_evalRetag (e : Env) (c : Ctx) (o : SSlot) : (evalRetag e c o).Plain := by
  unfold evalRetag
  extract_lets
  split
  · exact plain_trapOut _
  · exact plain_ite ((plain_toReg ..).addTraps _) (plain_ite ((plain_toReg ..).addTraps _) (plain_ite ((plain_toReg ..).addTraps _) (plain_trapOut _)))

theorem plain_evalRdt (c : Ctx) (o : SSlot) : (evalRdt c o).Plain := by
  unfold evalRdt
  extract_lets
  split
  case h_5 => split <;> exact plain_toReg ..
  all_goals exact plain_toReg ..

theorem plain_evalScalar (e : Env) (c : Ctx) (b : Bundle) (o : SSlot) : (evalScalar e c b o).Plain := by
  have hreg (d : Nat) (tag : Tag) (v : BitVec 64) (ts : List TrapCond) : ((toReg d o.rd tag v).addTraps ts).Plain := (plain_toReg ..).addTraps _
  unfold evalScalar
  refine plain_ite (plain_trapOut _) ?_
  cases o.op with
  | add => exact plain_evalAdd e c o
  | addi => exact plain_evalAddi e c o
  | sub => exact plain_evalSub e c o
  | andOp | orOp | xor | min | max | mul => exact plain_intOp ..
  | shl | shr | sar => exact plain_shiftOp ..
  | cmplt | cmpeq => exact hreg ..
  | div | rem => exact (plain_intOp ..).addTraps _
  | fadd | fsub | fmul | fmax | fmin => exact plain_floatOp ..
  | ffma => exact plain_floatOp c o fun x y => fpFma x y (c.f o.rd.toNat)
  | itof | ftoi | mov => exact hreg ..
  | tagof | ldi | dget | pget => exact plain_toReg ..
  | retag => exact plain_evalRetag e c o
  | sld => exact plain_ite (plain_trapOut _) (((plain_toReg ..).addTraps _).addUnits _)
  | sst | markp | dst | sst4 => exact plain_ite (plain_trapOut _) ⟨rfl, rfl, settled_one fun _ => Or.inr (by decide)⟩
  | wait => exact plain_ite (plain_trapOut _) (plain_ctl (.wait (c.ea o 8).toNat))
  | br | step | endOp | brk | wfi => exact plain_ctl _
  | bz | bnz | jmp | repi | repx | rte => exact (plain_ctl _).addTraps _
  | call => exact plain_addrResult e o.rd _
  | seth => exact ⟨rfl, rfl, settled_one fun k => Or.inl (leavesDesc_handler k _)⟩
  | rdt => exact plain_evalRdt c o
  | dput => exact ⟨rfl, rfl, settled_one fun _ => Or.inr (by decide)⟩
  | dld => exact plain_ite (plain_trapOut _) ⟨rfl, rfl, settled_one fun _ => Or.inr (by decide)⟩
  | pput => exact ⟨rfl, rfl, settled_one fun k => Or.inl (leavesDesc_pred k _ _)⟩
  | sld4 => exact plain_ite (plain_trapOut _) (plain_toReg ..)

theorem plain_evalVector (c : Ctx) (o : VSlot) : (evalVector c o).Plain := by
  refine ⟨?_, ?_, settled_of_distance (evalVector_results c o)⟩
  all_goals
    unfold evalVector
    cases o.op <;> rfl

/-! ## Cursors -/

theorem evalStep_adv (e : Env) (c : Ctx) (o : MSlot) (auto : Bool) (clear : Option Int) : (evalStep e c o auto clear).adv = stepAdv c o := by
  unfold evalStep
  extract_lets
  split
  · split <;> rfl
  · rfl

theorem evalMatrix_adv (e : Env) (c : Ctx) (o : MSlot) : ∀ a ∈ (evalMatrix e c o).adv, a.2 = (c.desc a.1).cursor + 1 := by
  have hboth : ∀ a ∈ stepAdv c o, a.2 = (c.desc a.1).cursor + 1 := by
    unfold stepAdv
    split <;> simp
  unfold evalMatrix
  cases o.op with
  | mma | mmacI | mmacR | mmacA => exact (evalStep_adv ..).symm ▸ hboth
  | tclr => exact nofun
  | tget =>
    simp only [evalTget]
    split <;> simp

theorem evalMove_adv (e : Env) (c : Ctx) (o : XSlot) : ∀ a ∈ (evalMove e c o).adv, a.2 = (c.desc a.1).cursor + 1 := by
  unfold evalMove
  cases o.op with
  | vld => simp [evalVld]
  | vst => simp [evalVst]
  | vstmx =>
    simp only [evalVstmx]
    split
    · split <;> exact nofun
    · exact nofun
  | trd => exact nofun
  | tput => simp [evalTput]
  | txmx =>
    simp only [evalTxmx]
    split
    · split <;> simp
    · simp
  | put =>
    simp only [evalPut]
    split <;> simp
  | get =>
    simp only [evalGet]
    split <;> simp
  | astream =>
    simp only [evalAstream]
    split <;> dsimp only <;> split <;> simp

theorem evalMove_tallies (e : Env) (c : Ctx) (o : XSlot) : (evalMove e c o).tallies = none := by
  unfold evalMove
  cases o.op with
  | vld | vst | trd | tput => rfl
  | vstmx | txmx =>
    simp only [evalVstmx, evalTxmx]
    split
    · split <;> rfl
    · rfl
  | put | get | astream =>
    simp only [evalPut, evalGet, evalAstream]
    split <;> rfl

/-! ## A bundle that issues -/

section
variable {e : Env} {c : Ctx} {b : Bundle} {outs : List SlotOut} (h : evalBundle e c = .run b outs)
include h

/-- A bundle's scalar and vector slots, by what they leave to the others, and its matrix and its move slot. -/
theorem evalBundle_outs : ∃ s v : SlotOut, s.Plain ∧ v.Plain ∧ outs = [s, v, b.m.out (evalMatrix e c), b.x.out (evalMove e c)]
    ∧ (b.m.out (evalMatrix e c)).traps = [] ∧ (b.x.out (evalMove e c)).traps = [] := by
  have hnone : ({} : SlotOut).Plain := ⟨rfl, rfl, settled_nil⟩
  obtain ⟨-, -, -, houts, htraps⟩ := evalBundle_slots h
  rw [evalSlots_eq] at houts
  refine ⟨_, _, Slot.out_all hnone (plain_trapOut _) (fun o => (plain_evalScalar e c b o).addTraps _) b.s,
    Slot.out_all hnone (plain_trapOut _) (plain_evalVector c) b.v, houts, htraps _ ?_, htraps _ ?_⟩
  all_goals simp [houts]

/-- The tallies of a bundle are its matrix slot's. -/
theorem evalBundle_tallies {o : MSlot} (ho : b.m = .op o) : outs.findSome? (·.tallies) = (evalMatrix e c o).tallies := by
  obtain ⟨s, v, ⟨hs, -, -⟩, ⟨hv, -, -⟩, rfl, -, -⟩ := evalBundle_outs h
  have hx : (b.x.out (evalMove e c)).tallies = none := Slot.out_all (P := fun o => o.tallies = none) rfl rfl (evalMove_tallies e c) b.x
  have hm : b.m.out (evalMatrix e c) = evalMatrix e c o := by rw [ho, Slot.out]
  simp only [List.findSome?, hs, hv, hx, hm]
  cases (evalMatrix e c o).tallies <;> rfl

theorem evalBundle_matrix {o : MSlot} (ho : b.m = .op o) : evalMatrix e c o ∈ outs ∧ (evalMatrix e c o).traps = [] := by
  obtain ⟨s, v, -, -, rfl, htraps, -⟩ := evalBundle_outs h
  rw [ho] at htraps ⊢
  exact ⟨by simp [Slot.out], htraps⟩

theorem evalBundle_move {o : XSlot} (ho : b.x = .op o) : evalMove e c o ∈ outs ∧ (evalMove e c o).traps = [] := by
  obtain ⟨s, v, -, -, rfl, -, htraps⟩ := evalBundle_outs h
  rw [ho] at htraps ⊢
  exact ⟨by simp [Slot.out], htraps⟩

/-- A bundle that advances a cursor advances it by 1 (R177, R182). -/
theorem evalBundle_adv : ∀ a ∈ outs.flatMap (·.adv), a.2 = (c.desc a.1).cursor + 1 := by
  obtain ⟨s, v, ⟨-, hs, -⟩, ⟨-, hv, -⟩, rfl, -, -⟩ := evalBundle_outs h
  have hnone : ∀ a ∈ ([] : List (Nat × Nat)), a.2 = (c.desc a.1).cursor + 1 := nofun
  have hm := Slot.out_all (P := fun o => ∀ a ∈ o.adv, a.2 = (c.desc a.1).cursor + 1) hnone hnone (evalMatrix_adv e c) b.m
  have hx := Slot.out_all (P := fun o => ∀ a ∈ o.adv, a.2 = (c.desc a.1).cursor + 1) hnone hnone (evalMove_adv e c) b.x
  intro a ha
  simp only [List.flatMap_cons, List.flatMap_nil, hs, hv, List.nil_append, List.append_nil, List.mem_append] at ha
  exact ha.elim (hm a) (hx a)

/-- Of a bundle's results, none at distance 0 is still to be produced or touches a descriptor. -/
theorem evalBundle_settled : Settled (outs.flatMap (·.results)) := by
  obtain ⟨s, v, ⟨-, -, hs⟩, ⟨-, -, hv⟩, rfl, -, -⟩ := evalBundle_outs h
  have hm := Slot.out_all (P := fun o => Settled o.results) settled_nil settled_nil (f := evalMatrix e c)
    (fun o => (evalMatrix_results e c o).symm ▸ settled_nil) b.m
  have hx := Slot.out_all (P := fun o => Settled o.results) settled_nil settled_nil (fun o => settled_of_distance (evalMove_results e c o)) b.x
  intro r hr
  simp only [List.flatMap_cons, List.flatMap_nil, List.append_nil, List.mem_append] at hr
  rcases hr with hr | hr | hr | hr
  · exact hs r hr
  · exact hv r hr
  · exact hm r hr
  · exact hx r hr

/-- Where nothing due touches a descriptor, all that commits with a bundle leaves it but the advances of its cursor. -/
theorem evalBundle_commits {k : Nat} (hfree : Claims.descFree c k) : ∀ q ∈ c.commits outs,
    q.eff.LeavesDesc k ∨ q.eff = .cursor k ((c.desc k).cursor + 1) ∧ ∃ a ∈ outs.flatMap (·.adv), a.1 = k := by
  intro q hq
  rcases Ctx.mem_commits hq with ⟨hmem, hdue⟩ | ⟨r, hr, h0, rfl⟩
  · obtain ⟨-, hleaves⟩ := hfree q hmem hdue
    exact Or.inl hleaves
  rcases List.mem_append.mp hr with hr | hr
  · rcases mem_atIssue hr with ⟨a, ha, rfl⟩ | ⟨a, rfl⟩
    · by_cases hk : a.1 = k
      · refine Or.inr ⟨?_, a, ha, hk⟩
        show Effect.cursor a.1 a.2 = _
        rw [evalBundle_adv h a ha, hk]
      · exact Or.inl (leavesDesc_cursor hk a.2)
    · exact Or.inl (leavesDesc_pend k a)
  · obtain ⟨-, hleaves⟩ := evalBundle_settled h r hr h0
    exact Or.inl (hleaves k)

/-- A bundle that advances a free descriptor's cursor leaves it 1 further (R168). -/
theorem evalBundle_desc_advanced {k : Nat} (pend : Nat → Bool) (hfree : Claims.descFree c k) (ha : ∃ a ∈ outs.flatMap (·.adv), a.1 = k) :
    (c.ran b outs pend).desc k = (c.desc k).withCursor ((c.desc k).cursor + 1) := by
  rw [Ctx.ran_desc]
  refine foldl_onDesc_cursor (fun q hq => (evalBundle_commits h hfree q hq).imp_right And.left) ?_ _
  obtain ⟨a, ha, rfl⟩ := ha
  have hproduced : ∀ q ∈ c.queue, q.due ≤ c.pos → q.produced = true := fun q hq hdue => (hfree q hq hdue).1
  refine ⟨_, Ctx.resultAt_mem_commits (List.mem_append_left _ (cursor_mem_atIssue ha)) rfl (fun x hx h0 => (evalBundle_settled h x hx h0).1)
    hproduced, ?_⟩
  rw [← evalBundle_adv h a ha]
  rfl

/-- A bundle that advances no cursor of a free descriptor leaves it. -/
theorem evalBundle_desc_same {k : Nat} (pend : Nat → Bool) (hfree : Claims.descFree c k) (ha : ∀ a ∈ outs.flatMap (·.adv), a.1 ≠ k) :
    (c.ran b outs pend).desc k = c.desc k := by
  rw [Ctx.ran_desc]
  refine foldl_onDesc_leaves (fun q hq => (evalBundle_commits h hfree q hq).resolve_right ?_) _
  rintro ⟨-, a, hmem, hk⟩
  exact ha a hmem hk

end

end Sys2Proof.Machine
end

section
/-! SUPPORT. The matrix slot: the tallies that a matrix step, TCLR and TGET leave (R97, R98, R114, R119), and the cursors it advances (R176). -/

namespace Sys2Proof.Machine

/-! ## Tables filled entry by entry -/

theorem fgetD_foldl_fset {α : Type} (d : α) (f : Nat → α) (l : List Nat) (m : FMap α) (k : Nat) :
    fgetD d (l.foldl (fun m k => fset m k (f k)) m) k = if k ∈ l then f k else fgetD d m k := by
  induction l generalizing m with
  | nil => simp
  | cons j r ih =>
    rw [List.foldl_cons, ih]
    by_cases hr : k ∈ r
    · simp [hr]
    · by_cases hj : k = j
      · simp [hj]
      · simp [hr, hj, fgetD_fset_other _ _ _ hj]

/-- Entries that are a function of their index, in any order. -/
theorem fgetD_foldl_fset_of_mem {α : Type} (d : α) {f : Nat → α} {l : List (Nat × α)} (hf : ∀ e ∈ l, e.2 = f e.1) {k : Nat}
    (hk : k ∈ l.map (·.1)) (m : FMap α) : fgetD d (l.foldl (fun m e => fset m e.1 e.2) m) k = f k := by
  have hkeys : ∀ m : FMap α, l.foldl (fun m e => fset m e.1 e.2) m = (l.map (·.1)).foldl (fun m k => fset m k (f k)) m := by
    clear hk
    induction l with
    | nil => exact fun _ => rfl
    | cons e r ih =>
      intro m
      rw [List.foldl_cons, List.map_cons, List.foldl_cons, hf e List.mem_cons_self]
      exact ih (fun x hx => hf x (List.mem_cons_of_mem e hx)) _
  rw [hkeys, fgetD_foldl_fset, if_pos hk]

theorem zipIdx_map_range {α : Type} (f : Nat → α) (n : Nat) : ((List.range n).map f).zipIdx = (List.range n).map fun i => (f i, i) := by
  apply List.ext_getElem <;> simp

/-- A field of w bits keeps its number in a wider one. -/
theorem toNat_setWidth_mod {w v : Nat} (x : BitVec w) (h : w ≤ v) : (x.setWidth v).toNat % 2 ^ w = x.toNat := by
  rw [BitVec.toNat_setWidth_of_le h, Nat.mod_eq_of_lt x.isLt]

/-! ## A matrix step -/

/-- Lane 8u + v of a matrix step: its tally, or the cleared one, with every pair of blocks of its two streams (R119). -/
theorem Env.step_lane (e : Env) (c : Ctx) (da db : Desc) (fa fb : ElemFmt) (blocks len : Nat) (clear : Option Int) {u v : Nat} (hu : u < 6)
    (hv : v < 8) :
    fgetD {} (e.step c da db fa fb blocks len clear) (8 * u + v) = Claims.stepLane e c da db fa fb blocks len u v clear := by
  have hpairs (i j : Nat) (t : Tally) :
      (((List.range blocks).map fun k => e.block da fa len i da.cursor k).zip ((List.range blocks).map fun k => e.block db fb len j db.cursor k)).foldl
          (fun t p => blockPair t p.1 p.2) t
        = (List.range blocks).foldl (fun t k => blockPair t (e.block da fa len i da.cursor k) (e.block db fb len j db.cursor k)) t := by
    rw [List.zip_map', List.foldl_map]
  have hindex (i j : Nat) (hj : j < 8) : Claims.stepLane e c da db fa fb blocks len i j clear
      = Claims.stepLane e c da db fa fb blocks len ((8 * i + j) / 8) ((8 * i + j) % 8) clear := by
    rw [show (8 * i + j) / 8 = i by omega, show (8 * i + j) % 8 = j by omega]
  unfold Env.step
  extract_lets as bs lanes
  have hlanes : lanes = (List.range 6).flatMap fun i => (List.range 8).map fun j =>
      (8 * i + j, Claims.stepLane e c da db fa fb blocks len i j clear) := by
    simp only [lanes, as, bs, zipIdx_map_range, List.flatMap_map, List.map_map]
    refine List.flatMap_congr fun i _ => List.map_congr_left fun j _ => ?_
    simp only [Function.comp_apply, hpairs]
    rfl
  rw [hindex u v hv]
  refine fgetD_foldl_fset_of_mem {} (f := fun k => Claims.stepLane e c da db fa fb blocks len (k / 8) (k % 8) clear) (fun x hx => ?_) ?_ c.t
  · simp only [hlanes, List.mem_flatMap, List.mem_map, List.mem_range] at hx
    obtain ⟨i, hi, j, hj, rfl⟩ := hx
    exact hindex i j hj
  · simp only [hlanes, List.mem_map, List.mem_flatMap, List.mem_range]
    exact ⟨_, ⟨u, hu, v, hv, rfl⟩, rfl⟩

/-- The anchor of an MMAC.A: the exchange's combined one, or else the pre-pass's, or else 0 (R98). -/
def Env.autoAnchor (e : Env) (da db : Desc) (fa fb : ElemFmt) (blocks len : Nat) : Int :=
  (match e.anchor with
    | some a => some a
    | none => e.prepass da db fa fb len blocks).getD 0

/-- The tallies that a matrix step of two formats of R120 leaves. -/
theorem evalStep_tallies {e : Env} {c : Ctx} {o : MSlot} {fa fb : ElemFmt} {blocks len : Nat} (hfa : elemOf (c.desc o.da.toNat).fmt = some fa)
    (hfb : elemOf (c.desc o.db.toNat).fmt = some fb) (hpair : pairShape fa fb = some (blocks, len)) (auto : Bool) (clear : Option Int) :
    (evalStep e c o auto clear).tallies = some (e.step c (c.desc o.da.toNat) (c.desc o.db.toNat) fa fb blocks len
      (if auto then some (e.autoAnchor (c.desc o.da.toNat) (c.desc o.db.toNat) fa fb blocks len) else clear)) := by
  unfold Env.autoAnchor
  cases hanchor : e.anchor <;> simp only [evalStep, hfa, hfb, hpair, hanchor]

theorem mem_stepAdv {c : Ctx} {o : MSlot} {d : Nat} (h : d = o.da.toNat ∨ d = o.db.toNat) : ∃ a ∈ stepAdv c o, a.1 = d := by
  unfold stepAdv
  split
  · rename_i hsame
    refine ⟨_, List.mem_singleton_self _, ?_⟩
    rcases h with rfl | rfl
    · rfl
    · rw [hsame]
  · rcases h with rfl | rfl
    · exact ⟨_, List.mem_cons_self, rfl⟩
    · exact ⟨_, List.mem_cons_of_mem _ List.mem_cons_self, rfl⟩

/-! ## TCLR and TGET -/

theorem clearAll_tally (c : Ctx) (a : Int) (k : Nat) : fgetD {} (clearAll c a) k = if k < 48 then Tally.clear a else c.tl k := by
  simp only [clearAll, fgetD_foldl_fset, List.mem_range, Ctx.tl]

/-- A condition of R183 that does not trap does not hold. -/
theorem dtrap_eq_nil {p : Bool} {k v : Nat} (h : dtrap p k v = []) : p = false := by
  cases p with
  | false => rfl
  | true => exact absurd h (List.cons_ne_nil _ _)

/-- A range of at least one byte that reads without a trap: its first word has an accepted tag. -/
theorem Env.readChecks_nil {e : Env} {a n k : Nat} {ok : Tag → Bool} (h : e.readChecks a n k ok = []) (ha : a % 8 = 0) (hn : 0 < n) :
    ok (e.word a).tag = true := by
  unfold Env.readChecks at h
  split at h
  · have hfirst : a ∈ wordsIn a n := by
      rw [wordsIn, if_neg hn.ne', List.mem_map]
      exact ⟨0, List.mem_range.mpr (Nat.succ_pos _), by omega⟩
    have hword := List.flatMap_eq_nil_iff.mp h a hfirst
    obtain ⟨-, -, hok⟩ := tagCheck_nil (List.append_eq_nil_iff.mp hword).2
    exact hok
  · cases dtrap_eq_nil h

/-- A TGET that does not trap reads a wire form from an aligned word tagged TALLY, by the length in its header (R111, R114). -/
theorem evalTget_of_no_trap {e : Env} {c : Ctx} {o : MSlot} (h : (evalTget e c o).traps = []) :
    (evalTget e c o).tallies = some (fset c.t (o.arg.toNat % 64) ((c.tl (o.arg.toNat % 64)).add (tallyOfWire
        ((List.range (wireLength (e.bytesNat (c.desc o.da.toNat).next 4))).map fun j => e.byte ((c.desc o.da.toNat).next + j)))))
      ∧ ∃ a ∈ (evalTget e c o).adv, a.1 = o.da.toNat := by
  simp only [evalTget] at h ⊢
  split at h
  case isTrue hout =>
    simp only [List.append_eq_nil_iff] at h
    obtain ⟨⟨-, haligned⟩, hrange⟩ := h
    have haligned := dtrap_eq_nil haligned
    have hrange := dtrap_eq_nil hrange
    simp only [bne_eq_false_iff_eq, decide_eq_false_iff_not] at haligned hrange
    omega
  case isFalse hin =>
    have hchecks := (List.append_eq_nil_iff.mp h).2
    have htag := Env.readChecks_nil hchecks (by omega) (by unfold wireLength; split <;> omega)
    rw [if_neg hin]
    refine ⟨?_, ⟨_, List.mem_singleton_self _, rfl⟩⟩
    rw [if_pos (beq_iff_eq.mp htag)]

end Sys2Proof.Machine

namespace Sys2Proof.Claims
open Sys2Proof.Machine

/-! ## A command that issues -/

/-- A command of a tile that issues its bundle completes, and leaves in the context that issued what the bundle leaves there. -/
theorem gives_of_issues {i : Instr} {s : State} {x y n : Nat} {cmd : SlotCmd} {b : Bundle} {outs : List SlotOut} {P : State → Prop}
    (hi : exec i s = done (issueAt (.tile x y n) cmd s)) (h : Issues s x y n cmd b outs) (hf : (outs.map (·.ctl)).head? ≠ some .finish)
    (hb : (outs.map (·.ctl)).head? ≠ some .brk)
    (hP : ∀ t pend, t.ctx (s.phys x y) n = (s.ctx (s.phys x y) n).ran b outs pend → P t) : Gives i s P := by
  have hctl {k : Ctl} (hk : (outs.map (·.ctl)).head? ≠ some k) (hne : Ctl.none ≠ k) : ctlOf outs ≠ k := by
    unfold ctlOf
    rw [List.headD_eq_head?_getD]
    cases hh : (outs.map (·.ctl)).head? with
    | none => exact hne
    | some j => exact fun e => hk (hh.trans (congrArg some e))
  obtain ⟨hctx, -, -, -⟩ := tileCommand_leaves (show Issuing s x y n cmd b outs from h) (hctl hf nofun) (hctl hb nofun)
  exact ⟨_, hi, hP _ _ hctx⟩

/-- The bundle of a command that issues, as the context evaluates it. -/
theorem Issues.eval {s : State} {x y n : Nat} {cmd : SlotCmd} {b : Bundle} {outs : List SlotOut} (h : Issues s x y n cmd b outs) :
    evalBundle (s.env (s.phys x y) n) (s.ctx (s.phys x y) n) = .run b outs ∧ b.holds cmd = true := by
  obtain ⟨-, -, hrun, hholds, -, -⟩ := h
  exact ⟨hrun, hholds⟩

/-! ## The matrix operations -/

section
variable {s : State} {x y n : Nat} {o : MSlot} {b : Bundle} {outs : List SlotOut} (h : Issues s x y n (.m o) b outs)
include h

/-- The tallies after a command of the matrix slot, and a cursor that it advances. -/
theorem Issues.matrix_slot (pend : Nat → Bool) :
    (evalMatrix (s.env (s.phys x y) n) (s.ctx (s.phys x y) n) o).traps = []
      ∧ (∀ m, (evalMatrix (s.env (s.phys x y) n) (s.ctx (s.phys x y) n) o).tallies = some m →
          ((s.ctx (s.phys x y) n).ran b outs pend).t = m)
      ∧ ∀ d, (∃ a ∈ (evalMatrix (s.env (s.phys x y) n) (s.ctx (s.phys x y) n) o).adv, a.1 = d) → descFree (s.ctx (s.phys x y) n) d →
          ((s.ctx (s.phys x y) n).ran b outs pend).desc d = ((s.ctx (s.phys x y) n).desc d).withCursor (((s.ctx (s.phys x y) n).desc d).cursor + 1) := by
  obtain ⟨hrun, hholds⟩ := h.eval
  have ho : b.m = .op o := by simpa [Bundle.holds] using hholds
  obtain ⟨hmem, htraps⟩ := evalBundle_matrix hrun ho
  refine ⟨htraps, fun m hm => ?_, fun d hd hfree => ?_⟩
  · rw [Ctx.ran_t, evalBundle_tallies hrun ho, hm]
    rfl
  · obtain ⟨a, ha, rfl⟩ := hd
    exact evalBundle_desc_advanced hrun pend hfree ⟨a, List.mem_flatMap.mpr ⟨_, hmem, ha⟩, rfl⟩

end

/-- Each matrix step has its command issue an operation of the matrix slot on its two descriptors, with an anchor or the auto anchor (R176). -/
theorem matrixStep_slot {e : Env} {c : Ctx} {auto : Int} {i : Instr} {p : Place} {cmd : SlotCmd} {da db : BitVec 4} {clear : Option Int}
    (hi : matrixStep c auto i = some (p, cmd, da, db, clear)) :
    (∀ s, exec i s = done (issueAt p cmd s)) ∧ ∃ o : MSlot, cmd = .m o ∧ o.da = da ∧ o.db = db
      ∧ ∃ isAuto fixed, (evalMatrix e c o).tallies = (evalStep e c o isAuto fixed).tallies ∧ (evalMatrix e c o).adv = stepAdv c o
        ∧ clear = if isAuto then some auto else fixed := by
  unfold matrixStep at hi
  split at hi <;> cases hi
  case h_1 => exact ⟨fun _ => rfl, _, rfl, rfl, rfl, false, none, rfl, evalStep_adv .., rfl⟩
  case h_2 a => exact ⟨fun _ => rfl, _, rfl, rfl, rfl, false, some a.toInt, rfl, evalStep_adv .., rfl⟩
  case h_3 sr =>
    have hsr : (sr.setWidth 11).toNat % 64 = sr.toNat := toNat_setWidth_mod sr (by decide)
    refine ⟨fun _ => rfl, _, rfl, rfl, rfl, false, some (c.i ((sr.setWidth 11).toNat % 64)), rfl, evalStep_adv .., ?_⟩
    rw [hsr]
    rfl
  case h_4 => exact ⟨fun _ => rfl, _, rfl, rfl, rfl, true, none, rfl, evalStep_adv .., rfl⟩

/-- Settles O13: the tallies after a bundle are those of its matrix slot, and what commits with the bundle leaves a free descriptor but for the advance
of its cursor. -/
theorem matrixOperationsChangeTheTallies : Obligations.MatrixOperationsChangeTheTallies := by
  intro i s x y n cmd b outs hissues hf hb p c e
  refine ⟨fun da db clear fa fb blocks len hfa hfb hpair hi => ?step, fun a hi hcmd => ?tclr, fun da k hi hcmd => ?tget⟩
  case step =>
    obtain ⟨hexec, o, rfl, rfl, rfl, isAuto, fixed, htallies, hadv, rfl⟩ := matrixStep_slot (e := e) hi
    refine gives_of_issues (hexec s) hissues hf hb fun t pend ht => ?_
    obtain ⟨-, hleft, hcursor⟩ := hissues.matrix_slot pend
    rw [ht]
    refine ⟨fun u v hu hv => ?_, fun d hd hfree => hcursor d (hadv ▸ mem_stepAdv hd) hfree⟩
    rw [Ctx.tl, hleft _ (htallies.trans (evalStep_tallies hfa hfb hpair isAuto fixed))]
    exact Env.step_lane e c _ _ fa fb blocks len _ hu hv
  case tclr =>
    subst hi hcmd
    refine gives_of_issues rfl hissues hf hb fun t pend ht k => ?_
    obtain ⟨-, hleft, -⟩ := hissues.matrix_slot pend
    rw [ht, Ctx.tl, hleft _ rfl]
    exact clearAll_tally c a.toInt k
  case tget =>
    subst hi hcmd
    refine gives_of_issues rfl hissues hf hb fun t pend ht => ?_
    obtain ⟨htraps, hleft, hcursor⟩ := hissues.matrix_slot pend
    obtain ⟨htallies, hadv⟩ := evalTget_of_no_trap htraps
    rw [ht]
    refine ⟨fun u => ?_, hcursor _ hadv⟩
    have hk : (k.setWidth 11).toNat % 64 = k.toNat := toNat_setWidth_mod k (by decide)
    rw [Ctx.tl, hleft _ htallies]
    dsimp only
    rw [hk]
    split
    · subst u
      exact fgetD_fset_same ..
    · exact fgetD_fset_other _ _ _ ‹_›

end Sys2Proof.Claims
end

section
/-! SUPPORT. Stores, marks, descriptors, predicates, handlers and the move slot: the effects that they queue, with their distances (R164, R170, R177, R178). -/

namespace Sys2Proof.Machine

/-! ## The scalar slot -/

/-- A slot that traps where its address does not serve has its effect where it does not trap. -/
theorem unless_trapOut {bad : List TrapCond} {o : SlotOut} (h : (if bad ≠ [] then trapOut bad else o).traps = []) :
    (if bad ≠ [] then trapOut bad else o) = o := by
  split
  · rename_i hbad
    rw [if_pos hbad] at h
    exact absurd h hbad
  · rfl

section
variable (c : Ctx) (o : SSlot)

theorem evalSst_results {e : Env} (h : (evalSst e c o).traps = []) :
    (evalSst e c o).results = [(1, true, .store [⟨(c.ea o 8).toNat, leBytes 8 (c.sr o.rb.toNat).data.toNat, (c.sr o.rb.toNat).tag⟩])] :=
  congrArg SlotOut.results (unless_trapOut h)

theorem evalMarkp_results {e : Env} (h : (evalMarkp e c o).traps = []) : (evalMarkp e c o).results = [(1, true, .mark (c.ea o 8).toNat)] :=
  congrArg SlotOut.results (unless_trapOut h)

theorem evalDst_results {e : Env} (h : (evalDst e c o).traps = []) :
    let d := c.desc (o.rd.toNat % 16)
    (evalDst e c o).results = [(1, true, .store [⟨(c.ea o 32).toNat,
      leBytes 8 d.w0.toNat ++ leBytes 8 d.w1.toNat ++ leBytes 8 d.w2.toNat ++ leBytes 8 d.w3.toNat, .desc⟩])] := by
  refine (congrArg SlotOut.results (unless_trapOut h)).trans ?_
  simp [List.range_succ_eq_map, Desc.word]

theorem evalDld_results {e : Env} (h : (evalDld e c o).traps = []) :
    (evalDld e c o).results = [(4, true, .desc (o.rd.toNat % 16) ⟨(e.word (c.ea o 32).toNat).data, (e.word ((c.ea o 32).toNat + 8)).data,
      (e.word ((c.ea o 32).toNat + 16)).data, (e.word ((c.ea o 32).toNat + 24)).data⟩)] :=
  congrArg SlotOut.results (unless_trapOut h)

end

/-! ## The move slot -/

theorem evalTrd_results (c : Ctx) (o : XSlot) :
    (evalTrd c o).results = [(5, true, .lanes o.vr.toNat ((List.range 8).map fun k =>
      (8 * (o.n.toNat % 8) + k,
        if 8 ≤ o.dk.toNat then (c.tl (8 * (o.dk.toNat % 8) + k)).toBf16.setWidth 32 else (c.tl (8 * (o.dk.toNat % 8) + k)).toFp32)))] := by
  simp only [evalTrd, zipIdx_map_range, List.map_map]
  rfl

/-- The fields of a TRD's descriptor number: its group, and above it the format (R177). -/
theorem trd_group (g : BitVec 3) (bf16 : Bool) : (g.setWidth 4 + (if bf16 then 8 else 0)).toNat % 8 = g.toNat
    ∧ (8 ≤ (g.setWidth 4 + (if bf16 then 8 else 0)).toNat ↔ bf16 = true) := by
  revert g bf16
  decide

/-- A VSTMX that does not trap stores the two halves of its vector as blocks of an MX format (R178). -/
theorem evalVstmx_results {c : Ctx} {o : XSlot} {f : ElemFmt} (hf : elemOf (c.desc o.dk.toNat).fmt = some f) (h : (evalVstmx c o).traps = []) :
    let d := c.desc o.dk.toNat
    let half := fun h => mxItems f ((if h = 0 then (c.vreg o.vr.toNat).take 32 else (c.vreg o.vr.toNat).drop 32).map itemOf)
    let at' := fun h => d.base + (2 * o.n.toNat + h) * d.stride + d.cursor * d.step
    let scale := fun h => d.scaleBase + (2 * o.n.toNat + h) * d.scaleStride + d.cursor * d.scaleStep
    (evalVstmx c o).results = [(3, true, .store
      [⟨at' 0, (half 0).2, .pack⟩, ⟨scale 0, [(half 0).1], .pack⟩, ⟨at' 1, (half 1).2, .pack⟩, ⟨scale 1, [(half 1).1], .pack⟩])] := by
  simp only [evalVstmx, hf] at h ⊢
  split at h
  · rw [if_pos ‹_›]
    rfl
  · exact absurd (dtrap_eq_nil (List.append_eq_nil_iff.mp h).2) nofun

/-- A TXMX that does not trap stores 32 tallies as one block of an MX format (R108). -/
theorem evalTxmx_results {c : Ctx} {o : XSlot} {f : ElemFmt} (hf : elemOf (c.desc o.dk.toNat).fmt = some f) (h : (evalTxmx c o).traps = []) :
    let d := c.desc o.dk.toNat
    let x := mxExit f ((List.range 32).map fun k => c.tl (16 * (o.n.toNat % 2) + k))
    (evalTxmx c o).results = [(3, true, .store [⟨d.next, x.2, .pack⟩, ⟨d.scaleBase + d.cursor * d.scaleStep, [x.1], .pack⟩])] := by
  simp only [evalTxmx, hf] at h ⊢
  split at h
  · rw [if_pos ‹_›]
    rfl
  · exact absurd (dtrap_eq_nil (List.append_eq_nil_iff.mp h).2) nofun

theorem evalTxmx_adv (c : Ctx) (o : XSlot) : (evalTxmx c o).adv = [(o.dk.toNat, (c.desc o.dk.toNat).cursor + 1)] := by
  simp only [evalTxmx]
  split
  · split <;> rfl
  · rfl

end Sys2Proof.Machine

namespace Sys2Proof.Claims
open Sys2Proof.Machine

/-! ## The commands -/

section
variable {s : State} {x y n : Nat} {b : Bundle} {outs : List SlotOut}

/-- What a command of the scalar slot gives comes first of its bundle's results, and the other slots' have a distance. -/
theorem Issues.scalar_slot {o : SSlot} (h : Issues s x y n (.s o) b outs) :
    (evalScalar (s.env (s.phys x y) n) (s.ctx (s.phys x y) n) b o).traps = []
      ∧ ∃ l, outs.flatMap (·.results) = (evalScalar (s.env (s.phys x y) n) (s.ctx (s.phys x y) n) b o).results ++ l ∧ ∀ r ∈ l, 1 ≤ r.1 := by
  obtain ⟨hrun, hholds⟩ := h.eval
  obtain ⟨htraps, -, -, hresults⟩ := evalBundle_scalar hrun (by simpa [Bundle.holds] using hholds)
  exact ⟨htraps, hresults⟩

/-- What a command of the move slot gives and advances is among what its bundle does. -/
theorem Issues.move_slot {o : XSlot} (h : Issues s x y n (.x o) b outs) :
    (evalMove (s.env (s.phys x y) n) (s.ctx (s.phys x y) n) o).traps = []
      ∧ (∀ r ∈ (evalMove (s.env (s.phys x y) n) (s.ctx (s.phys x y) n) o).results, r ∈ outs.flatMap (·.results))
      ∧ ∀ a ∈ (evalMove (s.env (s.phys x y) n) (s.ctx (s.phys x y) n) o).adv, a ∈ outs.flatMap (·.adv) := by
  obtain ⟨hrun, hholds⟩ := h.eval
  obtain ⟨hmem, htraps⟩ := evalBundle_move hrun (by simpa [Bundle.holds] using hholds)
  exact ⟨htraps, fun r hr => List.mem_flatMap.mpr ⟨_, hmem, hr⟩, fun a ha => List.mem_flatMap.mpr ⟨_, hmem, ha⟩⟩

end

/-- An operation of a tile's scalar slot gives one result. -/
def ScalarGives (c : Ctx) (e : Env) (o : SSlot) (r : Nat × Bool × Effect) : Prop :=
  ∀ b, (evalScalar e c b o).traps = [] → (evalScalar e c b o).results = [r]

/-- The effects of R170's and R177's rows that go through the queue, each as its slot gives it. -/
theorem queuedEffect_slot {c : Ctx} {e : Env} (hcore : e.core = false) {i : Instr} {p : Place} {cmd : SlotCmd} {d : Nat} {eff : Effect}
    {dk : Option (BitVec 4)} (hi : queuedEffect c e i = some (p, cmd, d, eff, dk)) :
    (∀ s, exec i s = done (issueAt p cmd s))
      ∧ ((∃ o, cmd = .s o ∧ dk = none ∧ ScalarGives c e o (d, true, eff))
        ∨ ∃ o, cmd = .x o ∧ 1 ≤ d ∧ (evalMove e c o).results = [(d, true, eff)]
          ∧ ∀ k, dk = some k → (k.toNat, (c.desc k.toNat).cursor + 1) ∈ (evalMove e c o).adv) := by
  have hscalar (o : SSlot) (out : SlotOut) {r : Nat × Bool × Effect} (heval : ∀ b, evalScalar { e with core := false } c b o = out)
      (hr : out.traps = [] → out.results = [r]) : ScalarGives c e o r := by
    intro b h
    rw [show evalScalar e c b o = out by rw [← heval b, ← hcore]] at h ⊢
    exact hr h
  unfold queuedEffect at hi
  split at hi <;> cases hi
  case h_1 ra rb imm =>
    exact ⟨fun _ => rfl, Or.inl ⟨_, rfl, rfl, hscalar _ (evalSst _ c _) (fun _ => rfl) (evalSst_results c _)⟩⟩
  case h_2 ra imm =>
    exact ⟨fun _ => rfl, Or.inl ⟨_, rfl, rfl, hscalar _ (evalMarkp _ c _) (fun _ => rfl) (evalMarkp_results c _)⟩⟩
  case h_3 dk ra imm =>
    refine ⟨fun _ => rfl, Or.inl ⟨_, rfl, rfl, hscalar _ (evalDst _ c _) (fun _ => rfl) fun h => (evalDst_results c _ h).trans ?_⟩⟩
    rw [show (dk.setWidth 6).toNat % 16 = dk.toNat from toNat_setWidth_mod dk (by decide)]
    rfl
  case h_4 dk w rb =>
    refine ⟨fun _ => rfl, Or.inl ⟨_, rfl, rfl, hscalar _ _ (fun _ => rfl) fun _ => ?_⟩⟩
    rw [← show (dk.setWidth 6).toNat % 16 = dk.toNat from toNat_setWidth_mod dk (by decide),
      ← show (w.setWidth 14).toNat % 4 = w.toNat from toNat_setWidth_mod w (by decide)]
  case h_5 dk ra imm =>
    refine ⟨fun _ => rfl, Or.inl ⟨_, rfl, rfl, hscalar _ (evalDld _ c _) (fun _ => rfl) fun h => (evalDld_results c _ h).trans ?_⟩⟩
    rw [show (dk.setWidth 6).toNat % 16 = dk.toNat from toNat_setWidth_mod dk (by decide)]
    rfl
  case h_6 pk ra =>
    refine ⟨fun _ => rfl, Or.inl ⟨_, rfl, rfl, hscalar _ _ (fun _ => rfl) fun _ => ?_⟩⟩
    rw [← show (pk.setWidth 6).toNat % 8 = pk.toNat from toNat_setWidth_mod pk (by decide)]
  case h_7 ra =>
    exact ⟨fun _ => rfl, Or.inl ⟨_, rfl, rfl, hscalar _ (evalSeth c _) (fun _ => rfl) fun _ => rfl⟩⟩
  case h_8 vr dk =>
    refine ⟨fun _ => rfl, Or.inr ⟨_, rfl, by decide, rfl, ?_⟩⟩
    rintro k ⟨⟩
    exact List.mem_singleton_self _
  case h_9 vr dk =>
    refine ⟨fun _ => rfl, Or.inr ⟨_, rfl, by decide, rfl, ?_⟩⟩
    rintro k ⟨⟩
    exact List.mem_singleton_self _
  case h_10 g bf16 vr lb =>
    refine ⟨fun _ => rfl, Or.inr ⟨_, rfl, by decide, (evalTrd_results c _).trans ?_, nofun⟩⟩
    obtain ⟨hgroup, hformat⟩ := trd_group g bf16
    simp only [hgroup, hformat, show (lb.setWidth 8).toNat % 8 = lb.toNat from toNat_setWidth_mod lb (by decide)]
  case h_11 t dk =>
    refine ⟨fun _ => rfl, Or.inr ⟨_, rfl, by decide, ?_, ?_⟩⟩
    · rw [← show (t.setWidth 8).toNat = t.toNat from BitVec.toNat_setWidth_of_le (by decide)]
      rfl
    · rintro k ⟨⟩
      exact List.mem_singleton_self _

/-- The two operations that store MX blocks, each as the move slot gives it where it does not trap. -/
theorem blockEffect_slot {c : Ctx} {f : ElemFmt} {i : Instr} {p : Place} {cmd : SlotCmd} {dk : BitVec 4} {ws : List StoreWrite} {adv : Bool}
    (hf : elemOf (c.desc dk.toNat).fmt = some f) (hi : blockEffect c f i = some (p, cmd, dk, ws, adv)) :
    (∀ s, exec i s = done (issueAt p cmd s)) ∧ ∃ o, cmd = .x o
      ∧ (∀ e, (evalMove e c o).traps = [] → (evalMove e c o).results = [(3, true, .store ws)])
      ∧ ∀ e, adv = true → (dk.toNat, (c.desc dk.toNat).cursor + 1) ∈ (evalMove e c o).adv := by
  unfold blockEffect at hi
  split at hi <;> cases hi
  case h_1 vr n => exact ⟨fun _ => rfl, _, rfl, fun _ h => evalVstmx_results hf h, nofun⟩
  case h_2 h =>
    have hh : (h.setWidth 8).toNat % 2 = h.toNat := toNat_setWidth_mod h (by decide)
    refine ⟨fun _ => rfl, _, rfl, fun e ht => ?_, fun e _ => ?_⟩
    · have hresults := evalTxmx_results (o := { op := .txmx, dk, n := h.setWidth 8 }) hf ht
      rw [hh] at hresults
      exact hresults
    · show _ ∈ (evalTxmx c _).adv
      rw [evalTxmx_adv]
      exact List.mem_singleton_self _

/-- Settles O14: the result of a slot joins the queue at its distance, at distance 0 it is the last to commit, and what commits with the bundle leaves a
free descriptor but for the advance of its cursor. -/
theorem storesAndMovesQueueTheirEffects : Obligations.StoresAndMovesQueueTheirEffects := by
  intro i s x y n cmd b outs hissues hf hb p c
  obtain ⟨hrun, -⟩ := hissues.eval
  refine ⟨fun d eff dk hi => ?queued, fun f dk ws adv hi hfmt => ?block⟩
  case queued =>
    obtain ⟨hexec, ⟨o, rfl, rfl, hgives⟩ | ⟨o, rfl, hd, hresults, hadv⟩⟩ := queuedEffect_slot (e := s.env p n) rfl hi
    · refine gives_of_issues (hexec s) hissues hf hb fun t pend ht => ?_
      obtain ⟨htraps, l, hall, hl⟩ := hissues.scalar_slot
      rw [hgives b htraps] at hall
      rw [ht]
      refine ⟨fun hd => Ctx.ran_waits c b outs pend (d, true, eff) (hall ▸ List.mem_cons_self) hd, fun hd hproduced => ?_, nofun⟩
      subst hd
      refine ⟨fun k v he hk => ?_, fun v he => ?_⟩
      · exact Ctx.ran_pr b pend (he ▸ hall) hl hproduced hk
      · exact Ctx.ran_handler b pend (he ▸ hall) hl hproduced
    · refine gives_of_issues (hexec s) hissues hf hb fun t pend ht => ?_
      obtain ⟨-, hmem, hmemAdv⟩ := hissues.move_slot
      rw [ht]
      refine ⟨fun _ => Ctx.ran_waits c b outs pend (d, true, eff) (hmem _ (hresults ▸ List.mem_singleton_self _)) hd,
        fun h0 => absurd h0 (by omega), fun k hk hfree => ?_⟩
      exact evalBundle_desc_advanced hrun pend hfree ⟨_, hmemAdv _ (hadv k hk), rfl⟩
  case block =>
    obtain ⟨hexec, o, rfl, hresults, hadv⟩ := blockEffect_slot hfmt hi
    refine gives_of_issues (hexec s) hissues hf hb fun t pend ht => ?_
    obtain ⟨htraps, hmem, hmemAdv⟩ := hissues.move_slot
    rw [ht]
    refine ⟨Ctx.ran_waits c b outs pend (3, true, .store ws) (hmem _ (hresults _ htraps ▸ List.mem_singleton_self _)) (by decide : 1 ≤ 3),
      fun hfree hothers => ?_⟩
    cases adv with
    | true => exact evalBundle_desc_advanced hrun pend hfree ⟨_, hmemAdv _ (hadv _ rfl), rfl⟩
    | false => exact evalBundle_desc_same hrun pend hfree fun a ha => (hothers a ha).resolve_right nofun

end Sys2Proof.Claims
end

section
/-! SUPPORT. Promises broken by an event: what breaking the steps of jobs leaves of the table of jobs, and what a retirement trigger adds to its cluster
(R142, R144, R280). -/

namespace Sys2Proof.Machine

/-! ## Broken promises -/

/-- A job whose step meets an event of R280's table. -/
def Job.meetsBreak (x : Job) : Job := if x.live && x.timed && !x.broken then { x with broken := true, everBroken := true } else x

theorem Job.meetsBreak_of_broken {x : Job} (h : x.broken = true) : x.meetsBreak = x := by simp [Job.meetsBreak, h]

theorem Job.broken_meetsBreak {x : Job} (hl : x.live = true) (ht : x.timed = true) : x.meetsBreak.broken = true := by
  unfold Job.meetsBreak
  split
  · rfl
  · simp_all

theorem Job.meetsBreak_meetsBreak (x : Job) : x.meetsBreak.meetsBreak = x.meetsBreak := by
  by_cases h : (x.live && x.timed && !x.broken) = true
  · exact meetsBreak_of_broken (by simp [Job.meetsBreak, h])
  · simp [Job.meetsBreak, h]

theorem State.fget_jobs_breakJob (s : State) (k j : Nat) :
    fget (s.breakJob k).jobs j = if j = k then (fget s.jobs j).map Job.meetsBreak else fget s.jobs j := by
  unfold State.breakJob State.modJob
  cases hk : fget s.jobs k with
  | none =>
    by_cases hj : j = k
    · simp [hj, hk]
    · simp [hj]
  | some x =>
    by_cases hx : (x.live && x.timed && !x.broken) = true
    · by_cases hj : j = k
      · simp [hj, hk, hx, Job.meetsBreak, State.modLedgers]
      · simp [hj, hx, State.modLedgers, fget_fset_other]
    · by_cases hj : j = k
      · simp [hj, hk, hx, Job.meetsBreak]
      · simp [hj, hx]

theorem State.fget_jobs_foldl_breakJob (l : List Nat) (s : State) (j : Nat) :
    fget (l.foldl State.breakJob s).jobs j = if j ∈ l then (fget s.jobs j).map Job.meetsBreak else fget s.jobs j := by
  induction l generalizing s with
  | nil => rfl
  | cons k r ih =>
    rw [List.foldl_cons, ih, State.fget_jobs_breakJob]
    by_cases hj : j = k
    · simp [hj, Function.comp_def, Job.meetsBreak_meetsBreak]
    · simp [hj]

theorem mem_keys_of_fget {α : Type} {m : FMap α} {k : Nat} {a : α} (h : fget m k = some a) : k ∈ m.map (·.1) := by
  induction m with
  | nil => cases h
  | cons e r ih =>
    rw [List.map_cons, List.mem_cons]
    by_cases he : e.1 = k
    · exact .inl he.symm
    · rw [fget, if_neg he] at h
      exact .inr (ih h)

/-- An event that breaks every job's step meets every job of the table. -/
theorem State.fget_jobs_breakAll (s : State) (j : Nat) : fget s.breakAll.jobs j = (fget s.jobs j).map Job.meetsBreak := by
  have hfold : s.breakAll = (s.jobs.map (·.1)).foldl State.breakJob s := List.foldl_map.symm
  rw [hfold, State.fget_jobs_foldl_breakJob]
  cases hj : fget s.jobs j with
  | none => exact ite_self _
  | some x => exact if_pos (mem_keys_of_fget hj)

/-- A job whose promise is broken already stays as it is at a halt. -/
theorem State.fget_jobs_halt_of_broken (s : State) (p : Nat) (h : Halter) {j : Nat} {x : Job} (hj : fget s.jobs j = some x) (hx : x.broken = true) :
    fget (s.halt p h).jobs j = some x := by
  have hmod : fget (s.modTile p (·.withHalt h)).jobs j = some x := hj
  rw [State.halt_eq, State.breakTile, State.fget_jobs_foldl_breakJob, hmod, Option.map_some, Job.meetsBreak_of_broken hx, ite_self]

/-! ## Retirement triggers -/

/-- The triggers that join no queue: of a tile that is retired, or, but for the manager's, of one whose retirement runs or waits (R142, R144). -/
def Retirement.IgnoredBy (r : Retirement) (m : Mesh) (c : Cluster) : Prop :=
  m.isRetired r.tile = true ∨ (r.cause ≠ 0 ∧ ((∃ v, c.moving = some v ∧ v.what.tile = r.tile) ∨ ∃ w ∈ c.queue, w.tile = r.tile))

/-- A cluster with a trigger at the end of its queue. -/
def Cluster.join (r : Retirement) (c : Cluster) : Cluster := { c with queue := c.queue ++ [r] }

/-- A trigger is ignored, or joins the queue of its cluster, where its tile may halt besides (R149). -/
theorem State.queueRetirement_cases (s : State) (r : Retirement) :
    (r.IgnoredBy s.mesh (s.cluster (clusterOf r.tile)) ∧ s.queueRetirement r = s)
      ∨ (¬ r.IgnoredBy s.mesh (s.cluster (clusterOf r.tile)) ∧ (s.queueRetirement r = s.modCluster (clusterOf r.tile) (Cluster.join r)
        ∨ s.queueRetirement r = (s.modCluster (clusterOf r.tile) (Cluster.join r)).halt r.tile (.retirement (clusterOf r.tile)))) := by
  unfold State.queueRetirement
  extract_lets c running joined
  have hrunning : running = true ↔ ∃ v, c.moving = some v ∧ v.what.tile = r.tile := by
    dsimp only [running]
    cases c.moving <;> simp
  have hignored : (s.mesh.isRetired r.tile || (r.cause != 0 && (running || c.queue.any (·.tile == r.tile)))) = true ↔ r.IgnoredBy s.mesh c := by
    simp [Retirement.IgnoredBy, hrunning]
  split
  · rename_i h
    exact .inl ⟨hignored.mp h, rfl⟩
  · rename_i h
    refine .inr ⟨mt hignored.mpr h, ?_⟩
    split
    · exact .inl rfl
    · exact .inr rfl

theorem State.queueRetirement_ignored {s : State} {r : Retirement} (h : r.IgnoredBy s.mesh (s.cluster (clusterOf r.tile))) : s.queueRetirement r = s := by
  rcases s.queueRetirement_cases r with ⟨-, he⟩ | ⟨hn, -⟩
  · exact he
  · exact absurd h hn

theorem State.queueRetirement_joins {s : State} {r : Retirement} (h : ¬ r.IgnoredBy s.mesh (s.cluster (clusterOf r.tile))) :
    OnlyHalts (s.modCluster (clusterOf r.tile) (Cluster.join r)) (s.queueRetirement r) := by
  rcases s.queueRetirement_cases r with ⟨hi, -⟩ | ⟨-, he | he⟩
  · exact absurd hi h
  · rw [he]; exact .refl _
  · rw [he]; exact State.halt_onlyHalts _ _ _

theorem State.fget_jobs_queueRetirement_of_broken (s : State) (r : Retirement) {j : Nat} {x : Job} (hj : fget s.jobs j = some x)
    (hx : x.broken = true) : fget (s.queueRetirement r).jobs j = some x := by
  rcases s.queueRetirement_cases r with ⟨-, he⟩ | ⟨-, he | he⟩
  · rw [he]; exact hj
  · rw [he]; exact hj
  · rw [he]; exact State.fget_jobs_halt_of_broken _ _ _ hj hx

end Sys2Proof.Machine
end

section
/-! SUPPORT. The timers and links of the mesh: an ACK that leaves, an age tick, and a flit that is replayed (R201, R215, R217, R221). -/

namespace Sys2Proof.Machine

/-! ## ACKs -/

/-- Packets that leave a tile that serves a coordinate carry its owner (R217). -/
theorem State.send_of_serves {s : State} {p x y : Nat} (h : s.mesh.serves p = some (x, y)) (ps : List Packet) :
    s.send p ps = s.modTile p fun t => { t with outq := t.outq ++ ps.map (Claims.stamped s x y) } := by
  unfold State.send
  rw [h]
  rfl

/-- The ACK for the packets delivered from a source to a coordinate, by class (R215). -/
def ackPacket (src x y : Nat) (ns : List Nat) : Packet :=
  { dstX := src % 64, dstY := src / 64, srcX := x, srcY := y, kind := 3, cls := 0,
    operand := BitVec.ofNat 32 (ns.getD 0 0 + 256 * ns.getD 1 0 + 65536 * ns.getD 2 0) }

theorem State.sendAck_of_due {s : State} {p src x y : Nat} {ns : List Nat} (hs : s.mesh.serves p = some (x, y))
    (ha : fget (s.tile p).toAck src = some ns) (hn : ns.sum ≠ 0) :
    s.sendAck p src = (s.modTile p fun t => { t with toAck := fdel t.toAck src }).modTile p fun t =>
      { t with outq := t.outq ++ [Claims.stamped s x y (ackPacket src x y ns)] } := by
  unfold State.sendAck
  rw [hs, ha]
  dsimp only
  rw [if_neg hn]
  exact State.send_of_serves (s := s.modTile p _) hs _

/-! ## Age ticks -/

theorem fgetD_fmap {α : Type} {d : α} {f : Nat → α → α} {k : Nat} (hd : f k d = d) (m : FMap α) : fgetD d (fmap m f) k = f k (fgetD d m k) := by
  rw [fgetD, fgetD, fget_fmap]
  cases fget m k with
  | none => exact hd.symm
  | some a => rfl

/-- A packet one age tick older, and a router after the tick of a number: each fourth begins a window (R219, R221). -/
def Packet.older (k : Packet) : Packet := { k with age := min 1023 (k.age + 1) }
def Router.tick (ticks : Nat) (r : Router) : Router :=
  { r with bufs := fmap r.bufs fun _ b => b.map Packet.older, used := if ticks % 4 = 0 then [] else r.used }

theorem Router.tick_default (ticks : Nat) : Router.tick ticks {} = {} := by simp [Router.tick, fmap]

theorem Router.buf_tick (ticks : Nat) (r : Router) (key : Nat) : (r.tick ticks).buf key = (r.buf key).map Packet.older :=
  fgetD_fmap (f := fun _ (b : List Packet) => b.map Packet.older) rfl r.bufs

theorem Router.used_tick (ticks : Nat) (r : Router) (slot : Nat) :
    fgetD 0 (r.tick ticks).used slot = if ticks % 4 = 0 then 0 else fgetD 0 r.used slot := by
  simp only [Router.tick]
  split <;> rfl

/-- The state after an age tick. -/
def State.ageTick (s : State) : State :=
  { s with mesh := { s.mesh with ticks := s.mesh.ticks + 1 }, routers := fmap s.routers fun _ => Router.tick (s.mesh.ticks + 1) }

theorem State.router_ageTick (s : State) (p : Nat) : s.ageTick.router p = (s.router p).tick (s.mesh.ticks + 1) :=
  fgetD_fmap (f := fun _ => Router.tick (s.mesh.ticks + 1)) (Router.tick_default _) s.routers

/-! ## Replays -/

/-- A cluster that counts a replay, or a faulted link (R234). -/
def Cluster.countReplay (c : Cluster) : Cluster := { c with replays := satInc c.replays }
def Cluster.countFault (c : Cluster) : Cluster := { c with linkFaults := satInc c.linkFaults }

/-- The trigger of a faulted link, and when it is ignored (R142, R144). -/
def linkTrigger (hi : Nat) : Retirement := { tile := hi, cause := 3 }

theorem linkTrigger_ignoredBy_iff (hi : Nat) (m : Mesh) (c : Cluster) :
    (linkTrigger hi).IgnoredBy m c ↔ m.isRetired hi = true ∨ (∃ v, c.moving = some v ∧ v.what.tile = hi) ∨ ∃ w ∈ c.queue, w.tile = hi := by
  simp [Retirement.IgnoredBy, linkTrigger]

/-- The replays of a link within the last millisecond, with one now; the bad CRCs of a flit in a row, with one more; whether they fault the link; and
the link's entry after them (R201). -/
def LinkErr.recent (l : LinkErr) (now : Nat) : List Nat := l.times.filter (fun t => now < t + msCycles) ++ [now]
def LinkErr.inRow (l : LinkErr) (dir flit : Nat) : Nat := match fget l.fails dir with | some (f, n) => if f = flit then n + 1 else 1 | none => 1
def LinkErr.faults (l : LinkErr) (now dir flit : Nat) : Bool := decide (64 ≤ (l.recent now).length) || decide (5 ≤ l.inRow dir flit)
def LinkErr.failed (l : LinkErr) (now dir flit : Nat) : LinkErr :=
  { fails := fset l.fails dir (flit, l.inRow dir flit), times := l.recent now, faulted := l.faulted || l.faults now dir flit }

theorem LinkErr.faults_new_iff (l : LinkErr) (now dir flit : Nat) :
    (l.faults now dir flit && !l.faulted) = true ↔ (64 ≤ (l.recent now).length ∨ 5 ≤ l.inRow dir flit) ∧ l.faulted = false := by
  simp [LinkErr.faults]

/-- A replay on the link of a key, with the link's new entry and the higher-index tile that counts it; and a fault of that tile's link (R201). -/
def State.replay (s : State) (key hi : Nat) (e : LinkErr) : State :=
  (({ s with linkErrs := fset s.linkErrs key e } : State).modCluster (clusterOf hi) Cluster.countReplay).breakAll
def State.faultLink (s : State) (hi : Nat) : State := (s.modCluster (clusterOf hi) Cluster.countFault).queueRetirement (linkTrigger hi)

/-- A bad CRC is a replay, and a fault besides where the link faults with it. -/
theorem State.flitFail_eq (s : State) (p q flit : Nat) {l : LinkErr} (hl : fgetD {} s.linkErrs (linkKey p q) = l) :
    s.flitFail p q flit = if (l.faults s.firm.aon (bit (decide (q < p))) flit && !l.faulted) = true
      then (s.replay (linkKey p q) (max p q) (l.failed s.firm.aon (bit (decide (q < p))) flit)).faultLink (max p q)
      else s.replay (linkKey p q) (max p q) (l.failed s.firm.aon (bit (decide (q < p))) flit) := by
  subst hl
  rfl

/-- What every replay does (R201, R234, R280). -/
structure State.Replays (s : State) (key hi : Nat) (e : LinkErr) (t : State) : Prop where
  entry : fget t.linkErrs key = some e
  count : (t.cluster (clusterOf hi)).replays = satInc (s.cluster (clusterOf hi)).replays
  words : ∀ p a, (t.tile p).word a = (s.tile p).word a
  breaks : ∀ j x, fget s.jobs j = some x → x.live = true → x.timed = true → ∃ y, fget t.jobs j = some y ∧ y.broken = true
  frame : t = { s with linkErrs := t.linkErrs, clusters := t.clusters, jobs := t.jobs, ledgers := t.ledgers, tiles := t.tiles }

section replay
variable (s : State) (key hi : Nat) (e : LinkErr)

theorem State.replay_onlyBreaks :
    OnlyBreaks (({ s with linkErrs := fset s.linkErrs key e } : State).modCluster (clusterOf hi) Cluster.countReplay) (s.replay key hi e) :=
  State.breakAll_onlyBreaks _

theorem State.replay_cluster : (s.replay key hi e).cluster (clusterOf hi) = (s.cluster (clusterOf hi)).countReplay := by
  obtain ⟨j, l, h⟩ := s.replay_onlyBreaks key hi e
  rw [h]
  exact State.cluster_modCluster { s with linkErrs := fset s.linkErrs key e } _ _

theorem State.replay_tiles : (s.replay key hi e).tiles = s.tiles := by
  obtain ⟨j, l, h⟩ := s.replay_onlyBreaks key hi e
  rw [h]
  rfl

theorem State.replay_mesh : (s.replay key hi e).mesh = s.mesh := by
  obtain ⟨j, l, h⟩ := s.replay_onlyBreaks key hi e
  rw [h]
  rfl

theorem State.replay_ignoredBy_iff : (linkTrigger hi).IgnoredBy (s.replay key hi e).mesh ((s.replay key hi e).cluster (clusterOf hi))
    ↔ s.mesh.isRetired hi = true ∨ (∃ v, (s.cluster (clusterOf hi)).moving = some v ∧ v.what.tile = hi)
      ∨ ∃ w ∈ (s.cluster (clusterOf hi)).queue, w.tile = hi := by
  rw [State.replay_mesh, State.replay_cluster]
  exact linkTrigger_ignoredBy_iff hi s.mesh (s.cluster (clusterOf hi)).countReplay

theorem State.replay_jobs (j : Nat) : fget (s.replay key hi e).jobs j = (fget s.jobs j).map Job.meetsBreak := State.fget_jobs_breakAll _ j

theorem State.replay_replays : s.Replays key hi e (s.replay key hi e) where
  entry := by
    obtain ⟨j, l, h⟩ := s.replay_onlyBreaks key hi e
    rw [h]
    exact fget_fset_same _ _ _
  count := by rw [State.replay_cluster, Cluster.countReplay]
  words p a := by rw [State.tile, State.replay_tiles, State.tile]
  breaks j x hj hlive htimed := ⟨x.meetsBreak, by rw [State.replay_jobs, hj]; rfl, Job.broken_meetsBreak hlive htimed⟩
  frame := by
    obtain ⟨j, l, h⟩ := s.replay_onlyBreaks key hi e
    rw [h]
    rfl

end replay

section fault
variable (s : State) (hi : Nat)

/-- A fault whose trigger is ignored, or joins the queue (R144). -/
theorem State.faultLink_ignored (h : (linkTrigger hi).IgnoredBy s.mesh (s.cluster (clusterOf hi))) :
    s.faultLink hi = s.modCluster (clusterOf hi) Cluster.countFault :=
  State.queueRetirement_ignored (r := linkTrigger hi) <| by
    rw [linkTrigger, State.cluster_modCluster]
    exact h

theorem State.faultLink_joins (h : ¬ (linkTrigger hi).IgnoredBy s.mesh (s.cluster (clusterOf hi))) :
    OnlyHalts ((s.modCluster (clusterOf hi) Cluster.countFault).modCluster (clusterOf hi) (Cluster.join (linkTrigger hi))) (s.faultLink hi) :=
  State.queueRetirement_joins (r := linkTrigger hi) <| by
    rw [linkTrigger, State.cluster_modCluster]
    exact h

theorem State.faultLink_cluster_ignored (h : (linkTrigger hi).IgnoredBy s.mesh (s.cluster (clusterOf hi))) :
    (s.faultLink hi).cluster (clusterOf hi) = (s.cluster (clusterOf hi)).countFault := by
  rw [s.faultLink_ignored hi h, State.cluster_modCluster]

theorem State.faultLink_cluster_joins (h : ¬ (linkTrigger hi).IgnoredBy s.mesh (s.cluster (clusterOf hi))) :
    (s.faultLink hi).cluster (clusterOf hi) = (s.cluster (clusterOf hi)).countFault.join (linkTrigger hi) := by
  obtain ⟨ti, j, l, hf⟩ := s.faultLink_joins hi h
  rw [hf]
  exact (State.cluster_modCluster (s.modCluster (clusterOf hi) Cluster.countFault) _ _).trans (congrArg _ (State.cluster_modCluster s _ _))

theorem State.faultLink_queue_ignored (h : (linkTrigger hi).IgnoredBy s.mesh (s.cluster (clusterOf hi))) :
    ((s.faultLink hi).cluster (clusterOf hi)).queue = (s.cluster (clusterOf hi)).queue := by
  rw [s.faultLink_cluster_ignored hi h, Cluster.countFault]

theorem State.faultLink_queue_joins (h : ¬ (linkTrigger hi).IgnoredBy s.mesh (s.cluster (clusterOf hi))) :
    ((s.faultLink hi).cluster (clusterOf hi)).queue = (s.cluster (clusterOf hi)).queue ++ [linkTrigger hi] := by
  rw [s.faultLink_cluster_joins hi h, Cluster.join, Cluster.countFault]

/-- A fault changes clusters, tiles, jobs and the counters of the ledgers alone. -/
theorem State.faultLink_frame :
    ∃ cl ti j l, s.faultLink hi = { s with clusters := cl, tiles := ti, jobs := j, ledgers := l } := by
  by_cases h : (linkTrigger hi).IgnoredBy s.mesh (s.cluster (clusterOf hi))
  · exact ⟨_, s.tiles, s.jobs, s.ledgers, s.faultLink_ignored hi h⟩
  · obtain ⟨ti, j, l, hf⟩ := s.faultLink_joins hi h
    exact ⟨_, ti, j, l, hf⟩

theorem State.faultLink_counts : ((s.faultLink hi).cluster (clusterOf hi)).replays = (s.cluster (clusterOf hi)).replays
    ∧ ((s.faultLink hi).cluster (clusterOf hi)).linkFaults = satInc (s.cluster (clusterOf hi)).linkFaults := by
  by_cases h : (linkTrigger hi).IgnoredBy s.mesh (s.cluster (clusterOf hi))
  · rw [s.faultLink_cluster_ignored hi h]; exact ⟨rfl, rfl⟩
  · rw [s.faultLink_cluster_joins hi h]; exact ⟨rfl, rfl⟩

theorem State.word_faultLink (p a : Nat) : ((s.faultLink hi).tile p).word a = (s.tile p).word a :=
  State.word_of_tiles (tiles_queueRetirement (tiles_modCluster ⟨fun _ => rfl, rfl⟩ _ _) _) p a

variable {s}

/-- A fault that follows a replay keeps what the replay did. -/
theorem State.Replays.faultLink {q : State} {key : Nat} {e : LinkErr} (h : q.Replays key hi e s) : q.Replays key hi e (s.faultLink hi) := by
  obtain ⟨cl, ti, j, l, hf⟩ := s.faultLink_frame hi
  exact {
    entry := by rw [hf]; exact h.entry
    count := (s.faultLink_counts hi).1.trans h.count
    words := fun p a => (s.word_faultLink hi p a).trans (h.words p a)
    breaks := fun j x hj hlive htimed => by
      obtain ⟨y, hy, hbroken⟩ := h.breaks j x hj hlive htimed
      exact ⟨y, State.fget_jobs_queueRetirement_of_broken _ _ hy hbroken, hbroken⟩
    frame := by rw [hf, h.frame] }

end fault

end Sys2Proof.Machine

namespace Sys2Proof.Claims
open Sys2Proof.Machine

/-! ## The commands -/

theorem exec_ackTimerExpire {p src : Nat} {s : State} (h : s.power.tclkStopped = false) : exec (.ackTimerExpire p src) s = .next (s.sendAck p src) := by
  show done (s.tclk (·.sendAck p src)) = _
  simp only [State.tclk, h, done, Bool.false_eq_true, if_false]

theorem exec_ageTick {s : State} (h : s.power.tclkStopped = false) : exec .ageTick s = .next s.ageTick := by
  have htick : (s.modMesh fun m => { m with ticks := s.mesh.ticks + 1 }).power.tclkStopped = false := h
  show execAgeTick s = _
  simp only [execAgeTick, State.tclk, htick, done, Bool.false_eq_true, if_false]
  rfl

theorem exec_flitCrcFail {p x y nx ny : Nat} {side : Dir} {s : State} (flit : Nat) (h : s.power.tclkStopped = false)
    (hbase : s.mesh.baseLogical p = some (x, y)) (hn : neighbour x y side = some (nx, ny)) :
    exec (.flitCrcFail p side flit) s = .next (s.flitFail p (s.mesh.basePhys nx ny) flit) := by
  show execFlitCrcFail p side flit s = _
  simp only [execFlitCrcFail, h, hbase, hn, done, Bool.false_eq_true, if_false]

/-- ACK_TIMER_EXPIRE, clause by clause (R215). -/
theorem ackTimerExpire_acknowledges {p src x y : Nat} {ns : List Nat} {s : State} (h : s.power.tclkStopped = false)
    (hs : s.mesh.serves p = some (x, y)) (ha : fget (s.tile p).toAck src = some ns) (hn : ns.sum ≠ 0) :
    Gives (.ackTimerExpire p src) s fun t =>
      t.tile p = { s.tile p with toAck := fdel (s.tile p).toAck src, outq := (s.tile p).outq ++ [stamped s x y (ackPacket src x y ns)] }
      ∧ (∀ q, q ≠ p → t.tile q = s.tile q) ∧ t = { s with tiles := t.tiles } := by
  refine ⟨_, exec_ackTimerExpire h, ?_⟩
  rw [State.sendAck_of_due hs ha hn]
  refine ⟨by simp only [State.tile_modTile], fun q hq => ?_, rfl⟩
  rw [State.tile_modTile_other _ _ _ _ hq, State.tile_modTile_other _ _ _ _ hq]

/-- Settles O22: the ACK, the tick and the replay with its fault, each through the one operation that its command performs. -/
theorem meshTimersAndReplays : Obligations.MeshTimersAndReplays := by
  refine ⟨?ack, ?age, ?crc⟩
  case ack =>
    intro p src x y ns s hclk hserves hdue hsum
    obtain ⟨t, hexec, htile, hothers, hframe⟩ := ackTimerExpire_acknowledges hclk hserves hdue hsum
    refine ⟨t, hexec, ?_, fun o ho => ?_, ?_, hothers, hframe⟩
    · rw [htile]; exact (fget_fdel _ _ _).trans (if_pos rfl)
    · rw [htile]; exact (fget_fdel _ _ _).trans (if_neg ho)
    · rw [htile]; rfl
  case age =>
    intro s hclk
    refine ⟨s.ageTick, exec_ageTick hclk, rfl, fun p key => ?_, fun p slot => ?_, fun p => ?_, rfl⟩
    · rw [State.router_ageTick]; exact Router.buf_tick _ _ _
    · rw [State.router_ageTick]; exact Router.used_tick _ _ _
    · rw [State.router_ageTick]; rfl
  case crc =>
    intro p x y nx ny flit side s hclk hbase hside q hi key dir l times fails
    have hexec := exec_flitCrcFail flit hclk hbase hside
    have hflit : s.flitFail p q flit = if (l.faults s.firm.aon dir flit && !l.faulted) = true
        then (s.replay key hi (l.failed s.firm.aon dir flit)).faultLink hi else s.replay key hi (l.failed s.firm.aon dir flit) :=
      s.flitFail_eq p q flit rfl
    have hentry : l.failed s.firm.aon dir flit
        = { fails := fset l.fails dir (flit, fails), times, faulted := l.faulted || decide (64 ≤ times.length) || decide (5 ≤ fails) } := by
      rw [Bool.or_assoc]
      rfl
    have hnew : (l.faults s.firm.aon dir flit && !l.faulted) = true ↔ (64 ≤ times.length ∨ 5 ≤ fails) ∧ l.faulted = false := l.faults_new_iff ..
    generalize l.failed s.firm.aon dir flit = e at hflit hentry
    have hreplay := s.replay_replays key hi e
    have hcluster := s.replay_cluster key hi e
    by_cases hfault : (64 ≤ times.length ∨ 5 ≤ fails) ∧ l.faulted = false
    · rw [hflit, if_pos (hnew.mpr hfault)] at hexec
      obtain ⟨entry, count, words, breaks, frame⟩ := hreplay.faultLink
      refine ⟨_, hexec, entry.trans (congrArg some hentry), count, words, breaks, ?_, frame⟩
      rw [if_pos hfault]
      refine ⟨by rw [(State.faultLink_counts _ hi).2, hcluster]; rfl, ?_⟩
      have hignored := s.replay_ignoredBy_iff key hi e
      split
      · rename_i h
        rw [State.faultLink_queue_ignored _ hi (hignored.mpr h), hcluster]
        rfl
      · rename_i h
        rw [State.faultLink_queue_joins _ hi (mt hignored.mp h), hcluster]
        rfl
    · rw [hflit, if_neg (mt hnew.mp hfault)] at hexec
      obtain ⟨entry, count, words, breaks, frame⟩ := hreplay
      refine ⟨_, hexec, entry.trans (congrArg some hentry), count, words, breaks, ?_, frame⟩
      rw [if_neg hfault]
      exact ⟨by rw [hcluster]; rfl, by rw [hcluster]; rfl, s.replay_tiles key hi e⟩

end Sys2Proof.Claims
end

section
/-! SUPPORT. Reads and writes of memory: they change memory, what the firmware records and reports, and the writes that the Porter holds, and no other unit
(R302 to R308, R512). -/

namespace Sys2Proof.Machine

/-- Only memory, the firmware's records and events, and the Porter's waiting writes differ. -/
def OnlyMemory (s t : State) : Prop := ∃ m f p, t = { s with mem := m, firm := f, porter := p }

theorem OnlyMemory.refl (s : State) : OnlyMemory s s := ⟨s.mem, s.firm, s.porter, rfl⟩

theorem OnlyMemory.trans {s t u : State} (h : OnlyMemory s t) (h' : OnlyMemory t u) : OnlyMemory s u := by
  obtain ⟨m, f, p, rfl⟩ := h
  obtain ⟨m', f', p', rfl⟩ := h'
  exact ⟨m', f', p', rfl⟩

theorem OnlyMemory.foldl {α : Type} {f : State → α → State} (hf : ∀ s a, OnlyMemory s (f s a)) (l : List α) (s : State) :
    OnlyMemory s (l.foldl f s) := by
  induction l generalizing s with
  | nil => exact .refl s
  | cons a r ih => exact (hf s a).trans (ih _)

theorem State.modMem_onlyMemory (s : State) (f : Mem → Mem) : OnlyMemory s (s.modMem f) := ⟨_, _, _, rfl⟩
theorem State.modFirm_onlyMemory (s : State) (f : Firm → Firm) : OnlyMemory s (s.modFirm f) := ⟨_, _, _, rfl⟩
theorem State.modStack_onlyMemory (s : State) (k : Nat) (f : Stack → Stack) : OnlyMemory s (s.modStack k f) := ⟨_, _, _, rfl⟩
theorem State.raise_onlyMemory (s : State) (op : Nat) (p : List Byte) (g n st : Nat) : OnlyMemory s (s.raise op p g n st) := ⟨_, _, _, rfl⟩
theorem State.memEvent_onlyMemory (s : State) (kind unit pc count a : Nat) : OnlyMemory s (s.memEvent kind unit pc count a) := ⟨_, _, _, rfl⟩
theorem State.writeRecord_onlyMemory (s : State) (f : Record → Record) : OnlyMemory s (s.writeRecord f) := ⟨_, _, _, rfl⟩

theorem State.degrade_onlyMemory (s : State) (cause : Nat) : OnlyMemory s (s.degrade cause) := by
  unfold State.degrade
  split
  · exact ⟨_, _, _, rfl⟩
  · exact s.modFirm_onlyMemory _
  · exact .refl s

/-! ## What reads leave behind -/

theorem State.markFailing_onlyMemory (s : State) (pc : Nat) : OnlyMemory s (s.markFailing pc) := by
  unfold State.markFailing
  split
  · exact .refl s
  split
  · exact (((s.modMem_onlyMemory _).trans (State.degrade_onlyMemory _ _)).trans (State.writeRecord_onlyMemory _ _)).trans (State.memEvent_onlyMemory ..)
  · exact ⟨_, _, _, rfl⟩

theorem State.noteCorrected_onlyMemory (s : State) (line : Nat) : OnlyMemory s (s.noteCorrected line) := by
  unfold State.noteCorrected
  dsimp only
  split
  · exact (s.modStack_onlyMemory _ _).trans (State.markFailing_onlyMemory _ _)
  · exact s.modStack_onlyMemory _ _

theorem State.repairRow_onlyMemory (s : State) (line : Nat) : OnlyMemory s (s.repairRow line) := by
  unfold State.repairRow
  dsimp only
  split
  · exact s.markFailing_onlyMemory _
  · exact ⟨_, _, _, rfl⟩

theorem State.noteStack_onlyMemory (s : State) (line : Nat) (whole : Bool) : OnlyMemory s (s.noteStack line whole) := by
  unfold State.noteStack
  dsimp only
  split
  · exact (s.modStack_onlyMemory _ _).trans (State.repairRow_onlyMemory _ _)
  split
  · exact s.modStack_onlyMemory _ _
  split
  · exact s.noteCorrected_onlyMemory _
  · exact .refl s

theorem State.cellarError_onlyMemory (s : State) (a : Nat) : OnlyMemory s (s.cellarError a) := by
  unfold State.cellarError
  split
  · exact s.modMem_onlyMemory _
  · exact .refl s

theorem State.noteLine_onlyMemory (s : State) (a n line : Nat) : OnlyMemory s (s.noteLine a n line) := by
  unfold State.noteLine
  split
  · split
    · exact s.noteStack_onlyMemory _ _
    · split
      · exact s.cellarError_onlyMemory _
      · exact .refl s
    · exact .refl s
  · exact s.cellarError_onlyMemory _
  · exact .refl s

theorem State.memRead_onlyMemory (s : State) (a n : Nat) : OnlyMemory s (s.memRead a n).2.2 := OnlyMemory.foldl (fun s l => s.noteLine_onlyMemory a n l) _ s

/-! ## Writes -/

theorem State.storeLine_onlyMemory (s : State) (line : Nat) (b : List Byte) : OnlyMemory s (s.storeLine line b) := ⟨_, _, _, rfl⟩

theorem State.writeBack_onlyMemory (s : State) (e : MergeEntry) : OnlyMemory s (s.writeBack e) := by
  have hdrop : OnlyMemory s (s.modStack (s.mem.stackAt e.line) fun c => { c with merge := c.merge.filter (·.line != e.line) }) := s.modStack_onlyMemory _ _
  have hpoison (u : State) (f : Mem → Mem) (k : Nat) (g : Stack → Stack) (pc : Nat) :
      OnlyMemory u (((u.modMem f).modStack k g).memEvent 7 k pc 0 (64 * e.line)) :=
    ((u.modMem_onlyMemory f).trans (State.modStack_onlyMemory _ k g)).trans (State.memEvent_onlyMemory ..)
  unfold State.writeBack
  dsimp only
  split
  · split
    · exact (hdrop.trans (State.repairRow_onlyMemory _ _)).trans (hpoison ..)
    · exact hdrop.trans (hpoison ..)
  · split
    · exact (hdrop.trans (State.noteCorrected_onlyMemory _ _)).trans (State.modMem_onlyMemory _ _)
    · exact hdrop.trans (State.modMem_onlyMemory _ _)

theorem State.mergeWrite_onlyMemory (s : State) (line off : Nat) (b : List Byte) : OnlyMemory s (s.mergeWrite line off b) := by
  unfold State.mergeWrite
  dsimp only
  split
  · split
    · exact s.storeLine_onlyMemory _ _
    · exact s.modStack_onlyMemory _ _
  · split
    · split
      · exact (s.writeBack_onlyMemory _).trans (State.modStack_onlyMemory _ _ _)
      · exact s.modStack_onlyMemory _ _
    · exact s.modStack_onlyMemory _ _

theorem State.storeAt_onlyMemory (s : State) (a : Nat) (b : List Byte) : OnlyMemory s (s.storeAt a b) := by
  unfold State.storeAt
  split
  · split
    · exact s.storeLine_onlyMemory _ _
    · exact s.mergeWrite_onlyMemory _ _ _
  · exact s.modMem_onlyMemory _
  · exact s.modMem_onlyMemory _
  · exact .refl s

theorem State.bothPlaces_onlyMemory (s : State) (a x : Nat) {f : Nat → State → State} (hf : ∀ y s, OnlyMemory s (f y s)) :
    OnlyMemory s (s.bothPlaces a x f) := by
  unfold State.bothPlaces
  dsimp only
  split
  · exact ((hf x s).trans (hf _ _)).trans (State.modMem_onlyMemory _ _)
  · exact (hf x s).trans (State.modMem_onlyMemory _ _)

theorem State.writePiece_onlyMemory (s : State) (a : Nat) (b : List Byte) : OnlyMemory s (s.writePiece a b) := by
  unfold State.writePiece
  split
  · exact s.bothPlaces_onlyMemory _ _ fun y s => s.storeAt_onlyMemory y b
  · exact s.modMem_onlyMemory _
  · exact .refl s

theorem State.writeFuel_onlyMemory (f : Nat) (s : State) (a : Nat) (b : List Byte) : OnlyMemory s (s.writeFuel f a b) := by
  induction f generalizing s a b with
  | zero => exact .refl s
  | succ f ih =>
    unfold State.writeFuel
    split
    · exact .refl s
    · exact (s.writePiece_onlyMemory _ _).trans (ih _ _ _)

theorem State.storeRange_onlyMemory (s : State) (a n : Nat) (cells : List Host.Cell) (w : Nat → Option (BitVec 8)) (bad : List Nat) :
    OnlyMemory s (s.storeRange a n cells w bad) := by
  unfold State.storeRange
  dsimp only
  split
  · exact (s.modMem_onlyMemory _).trans (OnlyMemory.foldl (fun s k => s.modStack_onlyMemory k _) _ _)
  · exact s.modMem_onlyMemory _

theorem State.zeroPiece_onlyMemory (s : State) (a n : Nat) : OnlyMemory s (s.zeroPiece a n) := by
  unfold State.zeroPiece
  split
  · exact s.bothPlaces_onlyMemory _ _ fun y s => s.storeRange_onlyMemory y n _ _ _
  · exact s.modMem_onlyMemory _
  · exact .refl s

theorem State.writeNow_onlyMemory (s : State) (a : Nat) (d : WriteData) : OnlyMemory s (s.writeNow a d) := by
  cases d with
  | bytes b => exact State.writeFuel_onlyMemory _ s a b
  | zeros n => exact OnlyMemory.foldl (fun s (p : Nat × Nat) => s.zeroPiece_onlyMemory p.1 p.2) _ s

/-- A requester's write acts at once or joins those that the Porter holds (R512). -/
theorem State.putData_onlyMemory (s : State) (a : Nat) (d : WriteData) (who : Writer) : OnlyMemory s (s.putData a d who) := by
  unfold State.putData
  dsimp only
  split
  · split
    · exact ⟨_, _, _, rfl⟩
    · exact ⟨_, _, _, rfl⟩
  · exact s.writeNow_onlyMemory a d

theorem State.memWrite_onlyMemory (s : State) (a : Nat) (b : List Byte) (who : Writer) : OnlyMemory s (s.memWrite a b who) := s.putData_onlyMemory a _ who

theorem State.memZero_onlyMemory (s : State) (a n : Nat) : OnlyMemory s (s.memZero a n) := s.putData_onlyMemory a _ _

theorem State.clearTail_onlyMemory (s : State) (a layers heads w : Nat) : OnlyMemory s (s.clearTail a layers heads w) := by
  unfold State.clearTail
  dsimp only
  split
  · exact s.memZero_onlyMemory _ _
  · exact .refl s

end Sys2Proof.Machine
end

section
/-! SUPPORT. The runs of ledgers: what taking, returning and moving runs changes, and what of a ledger it leaves as it was (R255, R257 to R260). -/

namespace Sys2Proof.Machine

/-! ## The tables of ledgers, guests and jobs -/

theorem State.ledger?_modLedger (s : State) (n : Nat) (f : Ledger → Ledger) (m : Nat) :
    (s.modLedger n f).ledger? m = if m = n then (s.ledger? m).map f else s.ledger? m := by
  unfold State.modLedger
  by_cases hm : m = n
  · subst hm
    rw [if_pos rfl]
    cases hl : s.ledger? m with
    | none => exact hl
    | some l => exact fget_fset_same _ _ _
  · rw [if_neg hm]
    cases s.ledger? n with
    | none => rfl
    | some l => exact fget_fset_other _ _ hm

theorem State.modLedger_congr {s : State} {n : Nat} {f g : Ledger → Ledger} (h : ∀ l, s.ledger? n = some l → f l = g l) :
    s.modLedger n f = s.modLedger n g := by
  unfold State.modLedger
  cases hl : s.ledger? n with
  | none => rfl
  | some l => simp only [h l hl]

theorem State.modLedger_frame (s : State) (n : Nat) (f : Ledger → Ledger) : s.modLedger n f = { s with ledgers := (s.modLedger n f).ledgers } := by
  unfold State.modLedger
  split <;> rfl

theorem State.modLedger_generations (s : State) (n : Nat) (f : Ledger → Ledger) : (s.modLedger n f).ledgers.generations = s.ledgers.generations := by
  unfold State.modLedger
  split <;> rfl

theorem State.guest?_modGuest (s : State) (g : Nat) (f : Guest → Guest) (k : Nat) :
    (s.modGuest g f).guest? k = if k = g then (s.guest? k).map f else s.guest? k := by
  unfold State.modGuest State.guest?
  by_cases hk : k = g
  · subst hk
    rw [if_pos rfl]
    cases hx : fget s.guests k with
    | none => simp [hx]
    | some x => simp
  · rw [if_neg hk]
    cases fget s.guests g with
    | none => rfl
    | some x => exact fget_fset_other _ _ hk

theorem State.modGuest_frame (s : State) (g : Nat) (f : Guest → Guest) : s.modGuest g f = { s with guests := (s.modGuest g f).guests } := by
  unfold State.modGuest
  split <;> rfl

/-! ## Books -/

/-- What the runs of a ledger and their moves do not touch of it. -/
def Ledger.books (l : Ledger) : Ledger := { l with runs := [], full := false, demoted := false, moveTo := none, moveSeq := none }

theorem Ledger.tokens_of_books {k l : Ledger} (h : k.books = l.books) : k.tokens = l.tokens := by
  have : k.books.tokens = l.books.tokens := by rw [h]
  exact this

theorem Ledger.marks_of_books {k l : Ledger} (h : k.books = l.books) : k.marks = l.marks := by
  have : k.books.marks = l.books.marks := by rw [h]
  exact this

/-- Only the runs of the ledgers `c` and their moves differ, with the pools of the guests they come from, memory, events, and the ledgers' counters. -/
structure OnlyRuns (c : Nat → Prop) (s t : State) : Prop where
  frame : t = { s with mem := t.mem, firm := t.firm, porter := t.porter, guests := t.guests, ledgers := t.ledgers }
  books : ∀ m, (t.ledger? m).map Ledger.books = (s.ledger? m).map Ledger.books
  others : ∀ m, ¬ c m → t.ledger? m = s.ledger? m
  generations : t.ledgers.generations = s.ledgers.generations
  guests : ∀ g, (t.guest? g).isSome = (s.guest? g).isSome

section
variable {c : Nat → Prop} {s t u : State} {n : Nat}

theorem OnlyRuns.refl (s : State) : OnlyRuns c s s := ⟨rfl, fun _ => rfl, fun _ _ => rfl, rfl, fun _ => rfl⟩

theorem OnlyRuns.symm (h : OnlyRuns c s t) : OnlyRuns c t s where
  frame := by rw [h.frame]
  books m := (h.books m).symm
  others m hm := (h.others m hm).symm
  generations := h.generations.symm
  guests g := (h.guests g).symm

theorem OnlyRuns.trans (h : OnlyRuns c s t) (h' : OnlyRuns c t u) : OnlyRuns c s u where
  frame := by rw [h'.frame, h.frame]
  books m := (h'.books m).trans (h.books m)
  others m hm := (h'.others m hm).trans (h.others m hm)
  generations := h'.generations.trans h.generations
  guests g := (h'.guests g).trans (h.guests g)

theorem OnlyRuns.foldl {α : Type} {f : State → α → State} (l : List α) (hf : ∀ s, ∀ a ∈ l, OnlyRuns c s (f s a)) (s : State) :
    OnlyRuns c s (l.foldl f s) := by
  induction l generalizing s with
  | nil => exact .refl s
  | cons a r ih => exact (hf s a List.mem_cons_self).trans (ih (fun s b hb => hf s b (List.mem_cons_of_mem _ hb)) _)

theorem OnlyMemory.ledger? (h : OnlyMemory s t) (n : Nat) : t.ledger? n = s.ledger? n := by
  obtain ⟨m, f, p, rfl⟩ := h
  rfl

theorem OnlyMemory.onlyRuns (h : OnlyMemory s t) : OnlyRuns c s t := by
  obtain ⟨m, f, p, rfl⟩ := h
  exact ⟨rfl, fun _ => rfl, fun _ _ => rfl, rfl, fun _ => rfl⟩

theorem OnlyRuns.tiles (h : OnlyRuns c s t) : t.tiles = s.tiles := by rw [h.frame]
theorem OnlyRuns.jobs (h : OnlyRuns c s t) : t.jobs = s.jobs := by rw [h.frame]
theorem OnlyRuns.mesh (h : OnlyRuns c s t) : t.mesh = s.mesh := by rw [h.frame]

theorem OnlyRuns.ledger?_none (h : OnlyRuns c s t) (hn : s.ledger? n = none) : t.ledger? n = none := by
  have := h.books n
  rw [hn] at this
  exact Option.map_eq_none_iff.mp this

theorem OnlyRuns.ledger?_some {l : Ledger} (h : OnlyRuns c s t) (hl : s.ledger? n = some l) : ∃ k, t.ledger? n = some k ∧ k.books = l.books := by
  have := h.books n
  rw [hl] at this
  exact Option.map_eq_some_iff.mp this

/-- A guest's record changes. -/
theorem State.modGuest_onlyRuns (s : State) (g : Nat) (f : Guest → Guest) : OnlyRuns c s (s.modGuest g f) := by
  have hl (m : Nat) : (s.modGuest g f).ledger? m = s.ledger? m := by rw [s.modGuest_frame]; rfl
  refine ⟨?_, fun m => by rw [hl], fun m _ => hl m, by rw [s.modGuest_frame], fun k => ?_⟩
  · rw [s.modGuest_frame]
  · rw [s.guest?_modGuest]
    split <;> simp

/-- A change of one ledger that leaves its books. -/
theorem State.modLedger_onlyRuns (s : State) (hc : c n) {f : Ledger → Ledger} (hf : ∀ l, s.ledger? n = some l → (f l).books = l.books) :
    OnlyRuns c s (s.modLedger n f) := by
  refine ⟨?_, fun m => ?_, fun m hm => ?_, s.modLedger_generations n f, fun g => by rw [s.modLedger_frame]; rfl⟩
  · rw [s.modLedger_frame]
  · rw [s.ledger?_modLedger]
    split
    · rename_i hm
      subst hm
      cases hl : s.ledger? m with
      | none => rfl
      | some l => exact congrArg some (hf l hl)
    · rfl
  · have hne : m ≠ n := fun e => hm (e ▸ hc)
    rw [s.ledger?_modLedger, if_neg hne]

/-- The same change of one ledger in two states whose ledgers have the same books. -/
theorem OnlyRuns.modLedger (h : OnlyRuns c s t) (hc : c n) {f : Ledger → Ledger} (hf : ∀ l : Ledger, (f l).books = (f l.books).books) :
    OnlyRuns c (s.modLedger n f) (t.modLedger n f) := by
  refine ⟨?_, fun m => ?_, fun m hm => ?_, ?_, fun g => ?_⟩
  · rw [t.modLedger_frame, s.modLedger_frame, h.frame]
  · rw [t.ledger?_modLedger, s.ledger?_modLedger]
    split
    · cases hl : s.ledger? m with
      | none => rw [h.ledger?_none hl]
      | some l =>
        obtain ⟨k, hk, hb⟩ := h.ledger?_some hl
        rw [hk]
        exact congrArg some (by rw [hf k, hb, ← hf l])
    · exact h.books m
  · have hne : m ≠ n := fun e => hm (e ▸ hc)
    rw [t.ledger?_modLedger, s.ledger?_modLedger, if_neg hne, if_neg hne]
    exact h.others m hm
  · rw [t.modLedger_generations, s.modLedger_generations]
    exact h.generations
  · rw [t.modLedger_frame, s.modLedger_frame]
    exact h.guests g

/-- A change of the ledgers' counters. -/
theorem State.modLedgers_onlyRuns (s : State) {f : Ledgers → Ledgers} (hlive : (f s.ledgers).live = s.ledgers.live)
    (hgens : (f s.ledgers).generations = s.ledgers.generations) : OnlyRuns c s (s.modLedgers f) := by
  have hl (m : Nat) : (s.modLedgers f).ledger? m = s.ledger? m := congrArg (fget · m) hlive
  exact ⟨rfl, fun m => by rw [hl], fun m _ => hl m, hgens, fun _ => rfl⟩

/-! ## Runs taken and returned -/

theorem State.ledgerEvent_onlyRuns (s : State) (kind cause tokens h g q st : Nat) : OnlyRuns c s (s.ledgerEvent kind cause tokens h g q st) :=
  OnlyMemory.onlyRuns (s.raise_onlyMemory ..)

theorem State.takeRun_onlyRuns (s : State) (g pool addr : Nat) : OnlyRuns c s (s.takeRun g pool addr) := s.modGuest_onlyRuns g _

theorem State.giveRun_onlyRuns (s : State) (g pool addr : Nat) : OnlyRuns c s (s.giveRun g pool addr) := s.modGuest_onlyRuns g _

theorem State.clearTail_onlyRuns (s : State) (a layers heads w : Nat) : OnlyRuns c s (s.clearTail a layers heads w) :=
  (s.clearTail_onlyMemory ..).onlyRuns

theorem State.setRun_onlyRuns (s : State) (hc : c n) (span : Nat) (r : Option Run) : OnlyRuns c s (s.setRun n span r) := by
  unfold State.setRun
  split
  · exact .refl s
  · refine .trans ?_ (State.memWrite_onlyMemory ..).onlyRuns
    exact s.modLedger_onlyRuns hc fun _ _ => rfl

theorem State.giveSpan_onlyRuns (s : State) (hc : c n) (span : Nat) (report : Bool) : OnlyRuns c s (s.giveSpan n span report) := by
  have hfull (u : State) (b : Bool) : OnlyRuns c u (u.modLedger n fun l => { l with full := b }) := u.modLedger_onlyRuns hc fun _ _ => rfl
  unfold State.giveSpan
  split
  · exact .refl s
  split
  · exact (((s.takeRun_onlyRuns ..).trans (State.clearTail_onlyRuns ..)).trans (hfull _ _)).trans (State.setRun_onlyRuns _ hc _ _)
  · dsimp only
    split
    · exact (hfull _ _).trans (State.ledgerEvent_onlyRuns ..)
    · exact hfull _ _

/-- Full ledgers that get a run again. -/
theorem State.unfull_onlyRuns (s : State) (g : Nat) : OnlyRuns (fun _ => True) s (s.unfull g) := by
  refine OnlyRuns.foldl _ (fun s e _ => ?_) s
  split
  · split
    · exact s.giveSpan_onlyRuns trivial _ _
    · exact .refl s
  · exact .refl s

/-! ## Moves -/

theorem State.endMove_onlyRuns (s : State) (hc : c n) (failed : Bool) : OnlyRuns c s (s.endMove n failed) := by
  unfold State.endMove
  split
  · exact .refl s
  dsimp only
  split
  · refine .trans ?_ (State.ledgerEvent_onlyRuns ..)
    exact s.modLedger_onlyRuns hc fun _ _ => rfl
  · exact s.modLedger_onlyRuns hc fun _ _ => rfl

theorem State.nextMove_onlyRuns (s : State) (hc : c n) : OnlyRuns c s (s.nextMove n) := by
  unfold State.nextMove
  split
  · exact .refl s
  split
  · exact .refl s
  split
  · exact .refl s
  dsimp only
  split
  · split
    · exact s.endMove_onlyRuns hc _
    · exact .refl s
  · split
    · exact s.endMove_onlyRuns hc _
    · exact (s.takeRun_onlyRuns ..).trans (State.setRun_onlyRuns _ hc _ _)

/-- While moves are held, none goes on (R260, R279). -/
theorem State.nextMove_held {l : Ledger} (s : State) (hl : s.ledger? n = some l) (hheld : s.movesHeld l.guest = true) : s.nextMove n = s := by
  unfold State.nextMove
  simp only [hl, hheld, Bool.true_or, if_true]
  split <;> rfl

theorem State.startMove_onlyRuns (s : State) (hc : c n) (toCellar : Bool) (seq : Option Nat) : OnlyRuns c s (s.startMove n toCellar seq) := by
  unfold State.startMove
  split
  · exact .refl s
  split
  · exact .refl s
  · refine .trans ?_ (State.nextMove_onlyRuns _ hc)
    exact s.modLedger_onlyRuns hc fun _ _ => rfl

/-- A move that begins while moves are held waits, and is marked as asked for. -/
theorem State.startMove_held {l : Ledger} (s : State) (hl : s.ledger? n = some l) (hfree : l.moveTo = none) (hheld : s.movesHeld l.guest = true)
    (toCellar : Bool) (seq : Option Nat) :
    s.startMove n toCellar seq = s.modLedger n fun l => { l with moveTo := some toCellar, moveSeq := seq } := by
  unfold State.startMove
  simp only [hl, hfree, Option.isSome_none, Bool.false_eq_true, if_false]
  refine State.nextMove_held _ (l := { l with moveTo := some toCellar, moveSeq := seq }) ?_ ?_
  · rw [s.ledger?_modLedger, if_pos rfl, hl]
    rfl
  · rw [s.modLedger_frame]
    exact hheld

end

end Sys2Proof.Machine
end

section
/-! SUPPORT. The step barrier: the advance of a guest's ledgers, the step that its jobs complete, and the release of its contexts (O26). -/

namespace Sys2Proof.Machine

/-! ## Tables with each index once -/

theorem mem_of_fget {α : Type} {m : FMap α} {k : Nat} {a : α} (h : fget m k = some a) : (k, a) ∈ m := by
  induction m with
  | nil => cases h
  | cons e r ih =>
    obtain ⟨i, b⟩ := e
    by_cases hi : i = k
    · rw [fget, if_pos hi] at h
      cases h
      rw [hi]
      exact List.mem_cons_self
    · rw [fget, if_neg hi] at h
      exact List.mem_cons_of_mem _ (ih h)

theorem fget_of_mem {α : Type} {m : FMap α} (hm : (m.map (·.1)).Nodup) {k : Nat} {a : α} (h : (k, a) ∈ m) : fget m k = some a := by
  induction m with
  | nil => cases h
  | cons e r ih =>
    obtain ⟨i, b⟩ := e
    obtain ⟨hi, hr⟩ := List.nodup_cons.mp hm
    rcases List.mem_cons.mp h with he | hmem
    · cases he
      rw [fget, if_pos rfl]
    · have hne : i ≠ k := fun e => hi (List.mem_map.mpr ⟨_, hmem, e.symm⟩)
      rw [fget, if_neg hne]
      exact ih hr hmem

/-- The entries of a table after one is written: those that stood there, and the new one. -/
theorem mem_fset {α : Type} {m : FMap α} {k : Nat} {a : α} {e : Nat × α} (h : e ∈ fset m k a) : e = (k, a) ∨ e ∈ m := by
  induction m with
  | nil => exact .inl (List.mem_singleton.mp h)
  | cons x r ih =>
    rw [fset] at h
    split at h
    · exact List.mem_cons.mp h
    split at h
    · exact (List.mem_cons.mp h).imp_right (List.mem_cons_of_mem _)
    · rcases List.mem_cons.mp h with rfl | hr
      · exact .inr List.mem_cons_self
      · exact (ih hr).imp_right (List.mem_cons_of_mem _)

/-! ## The ledger advance (R254) -/

/-- A ledger whose pairs are all marked holds one token more, and no mark. -/
def Ledger.counted (l : Ledger) : Ledger := if l.marks.length = l.pairs ∧ l.pairs ≠ 0 then { l with tokens := l.tokens + 1, marks := [] } else l

/-- IDLE, and the restarts of copies, at a barrier (R257, R258). -/
def Ledger.aged (l : Ledger) : Ledger :=
  { l with idle := if l.named then l.idle else l.idle + 1, named := false, runs := fmap l.runs fun _ r => { r with restarts := 0 } }

/-- What a barrier does to the books of a ledger. -/
def State.stepLedger (s : State) (n : Nat) : State := (s.modLedger n Ledger.counted).modLedger n Ledger.aged

theorem Ledger.aged_books (l : Ledger) : l.aged.books = l.books.aged.books := rfl

theorem Ledger.counted_books (l : Ledger) : l.counted.books = l.books.counted.books := by
  unfold Ledger.counted
  by_cases h : l.marks.length = l.pairs ∧ l.pairs ≠ 0
  · have h' : l.books.marks.length = l.books.pairs ∧ l.books.pairs ≠ 0 := h
    rw [if_pos h, if_pos h']
    rfl
  · have h' : ¬ (l.books.marks.length = l.books.pairs ∧ l.books.pairs ≠ 0) := h
    rw [if_neg h, if_neg h']
    rfl

theorem OnlyRuns.stepLedger {c : Nat → Prop} {s t : State} {n : Nat} (h : OnlyRuns c s t) (hc : c n) : OnlyRuns c (s.stepLedger n) (t.stepLedger n) :=
  (h.modLedger hc Ledger.counted_books).modLedger hc Ledger.aged_books

/-- The advance of one ledger: its books step, and beyond that only runs are given or moved. -/
theorem State.advanceLedger_onlyRuns (s : State) {c : Nat → Prop} {n : Nat} (hc : c n) : OnlyRuns c (s.stepLedger n) (s.advanceLedger n) := by
  unfold State.advanceLedger
  cases hl : s.ledger? n with
  | none =>
    have hnone (u : State) (f : Ledger → Ledger) (hu : u.ledger? n = none) : u.modLedger n f = u := by simp [State.modLedger, hu]
    rw [State.stepLedger, hnone s _ hl, hnone s _ hl]
    exact .refl s
  | some l =>
    dsimp -zeta only
    extract_lets counted partials s1 s2 s3
    have h1 : OnlyRuns c (s.modLedger n Ledger.counted) s1 := by
      by_cases hm : l.marks.length = l.pairs ∧ l.pairs ≠ 0
      · have hcounted : s.modLedger n Ledger.counted = counted := State.modLedger_congr fun k hk => by
          rw [hl] at hk
          cases hk
          exact if_pos hm
        rw [hcounted]
        simp only [s1, if_pos hm]
        split
        · exact State.giveSpan_onlyRuns _ hc _ _
        · exact .refl _
      · have huncounted : OnlyRuns c (s.modLedger n Ledger.counted) s := by
          refine (s.modLedger_onlyRuns hc fun k hk => ?_).symm
          rw [hl] at hk
          cases hk
          exact congrArg Ledger.books (if_neg hm)
        simp only [s1, if_neg hm]
        split
        · exact huncounted
        · have hpartials : OnlyRuns c s partials := s.modLedgers_onlyRuns rfl rfl
          exact huncounted.trans (hpartials.trans (State.ledgerEvent_onlyRuns ..))
    have h2 : OnlyRuns c s1 s2 := by
      simp only [s2]
      split
      · exact State.giveSpan_onlyRuns _ hc _ _
      · exact .refl _
    have h3 : OnlyRuns c (s.stepLedger n) s3 := (h1.trans h2).modLedger hc Ledger.aged_books
    split
    · exact h3.trans (State.startMove_onlyRuns _ hc _ _)
    · exact h3.trans (State.nextMove_onlyRuns _ hc)

/-- The advance of several ledgers, each once. -/
theorem State.foldl_advanceLedger_onlyRuns (l : List (Nat × Ledger)) {c : Nat → Prop} (hc : ∀ e ∈ l, c e.1) {s t : State} (h : OnlyRuns c s t) :
    OnlyRuns c (l.foldl (fun s e => s.stepLedger e.1) s) (l.foldl (fun s e => s.advanceLedger e.1) t) := by
  induction l generalizing s t with
  | nil => exact h
  | cons e r ih =>
    have he : c e.1 := hc e List.mem_cons_self
    exact ih (fun x hx => hc x (List.mem_cons_of_mem _ hx)) ((h.stepLedger he).trans (t.advanceLedger_onlyRuns he))

theorem State.ledger?_stepLedger (s : State) (n m : Nat) :
    (s.stepLedger n).ledger? m = if m = n then (s.ledger? m).map (Ledger.aged ∘ Ledger.counted) else s.ledger? m := by
  rw [State.stepLedger, State.ledger?_modLedger, State.ledger?_modLedger]
  split <;> simp

theorem State.ledger?_foldl_stepLedger (l : List (Nat × Ledger)) (hl : (l.map (·.1)).Nodup) (s : State) (m : Nat) :
    (l.foldl (fun s e => s.stepLedger e.1) s).ledger? m
      = if m ∈ l.map (·.1) then (s.ledger? m).map (Ledger.aged ∘ Ledger.counted) else s.ledger? m := by
  induction l generalizing s with
  | nil => rfl
  | cons e r ih =>
    obtain ⟨he, hr⟩ := List.nodup_cons.mp hl
    rw [List.foldl_cons, ih hr, State.ledger?_stepLedger]
    by_cases hm : m = e.1
    · subst hm
      rw [if_neg he, if_pos rfl]
      exact (if_pos List.mem_cons_self).symm
    · have hmem : m ∈ (e :: r).map (·.1) ↔ m ∈ r.map (·.1) := by
        rw [List.map_cons, List.mem_cons]
        exact or_iff_right hm
      rw [if_neg hm]
      exact if_congr hmem.symm rfl rfl

theorem State.foldl_stepLedger_frame (l : List (Nat × Ledger)) (s : State) :
    ∃ ld, l.foldl (fun s e => s.stepLedger e.1) s = { s with ledgers := ld } := by
  induction l generalizing s with
  | nil => exact ⟨_, rfl⟩
  | cons e r ih =>
    obtain ⟨ld, h⟩ := ih (s.stepLedger e.1)
    refine ⟨ld, ?_⟩
    rw [List.foldl_cons, h, State.stepLedger, State.modLedger_frame, State.modLedger_frame]

/-- What the advance of a guest's ledgers leaves of the state. -/
structure State.Advanced (s : State) (g : Nat) (t : State) : Prop where
  frame : t = { s with mem := t.mem, firm := t.firm, porter := t.porter, guests := t.guests, ledgers := t.ledgers }
  own : ∀ n l, s.ledger? n = some l → l.guest = g → ∃ k, t.ledger? n = some k ∧ k.books = l.counted.aged.books
  others : ∀ n l, s.ledger? n = some l → l.guest ≠ g → t.ledger? n = some l
  guests : ∀ k, (t.guest? k).isSome = (s.guest? k).isSome

theorem State.advance_advanced (s : State) (g : Nat) (hl : (s.ledgers.live.map (·.1)).Nodup) : s.Advanced g (s.advance g) := by
  have hkeys : ((s.ledgers.live.filter (·.2.guest = g)).map (·.1)).Nodup := hl.sublist (List.filter_sublist.map _)
  have hmem (n : Nat) (l : Ledger) (hn : s.ledger? n = some l) : n ∈ (s.ledgers.live.filter (·.2.guest = g)).map (·.1) ↔ l.guest = g := by
    rw [List.mem_map]
    constructor
    · rintro ⟨⟨k, m⟩, hk, rfl⟩
      obtain ⟨hk, hg⟩ := List.mem_filter.mp hk
      have heq : some m = some l := (fget_of_mem hl hk).symm.trans hn
      cases heq
      simpa using hg
    · exact fun hg => ⟨(n, l), List.mem_filter.mpr ⟨mem_of_fget hn, by simpa using hg⟩, rfl⟩
  have h := State.foldl_advanceLedger_onlyRuns (s.ledgers.live.filter (·.2.guest = g)) (c := (· ∈ (s.ledgers.live.filter (·.2.guest = g)).map (·.1)))
    (fun e he => List.mem_map_of_mem he) (OnlyRuns.refl s)
  have hbooks := State.ledger?_foldl_stepLedger _ hkeys s
  obtain ⟨ld, hstep⟩ := State.foldl_stepLedger_frame (s.ledgers.live.filter (·.2.guest = g)) s
  refine ⟨?_, fun n l hn hg => ?_, fun n l hn hg => ?_, fun k => ?_⟩
  · have hframe := h.frame
    rw [hstep] at hframe
    exact hframe
  · obtain ⟨k, hk, hkl⟩ := h.ledger?_some (n := n) (l := l.counted.aged) (by rw [hbooks, if_pos ((hmem n l hn).mpr hg), hn]; rfl)
    exact ⟨k, hk, hkl⟩
  · have hout := mt (hmem n l hn).mp hg
    exact (h.others n hout).trans ((hbooks n).trans (by rw [if_neg hout, hn]))
  · have hguests := h.guests k
    rw [hstep] at hguests
    exact hguests

/-! ## The jobs' steps (R253, R280) -/

/-- A step completes in its own job alone; only a save that it brings about changes a guest. -/
structure State.JobStepped (s : State) (j : Nat) (t : State) : Prop where
  frame : t = { s with jobs := t.jobs, guests := t.guests }
  own : ∀ y, fget s.jobs j = some y → y.save = none → fget t.jobs j = some { y with steps := y.steps + 1 }
  others : ∀ k, k ≠ j → fget t.jobs k = fget s.jobs k
  barrier : ∀ g, (t.guest g).barrier = (s.guest g).barrier

theorem State.fget_modJob (s : State) (j : Nat) (f : Job → Job) (k : Nat) :
    fget (s.modJob j f).jobs k = if k = j then (fget s.jobs k).map f else fget s.jobs k := by
  unfold State.modJob
  by_cases hk : k = j
  · subst hk
    rw [if_pos rfl]
    cases hx : fget s.jobs k with
    | none => simp [hx]
    | some x => simp
  · rw [if_neg hk]
    cases fget s.jobs j with
    | none => rfl
    | some x => exact fget_fset_other _ _ hk

theorem State.modJob_frame (s : State) (j : Nat) (f : Job → Job) : s.modJob j f = { s with jobs := (s.modJob j f).jobs } := by
  unfold State.modJob
  split <;> rfl

theorem State.guest_modGuest_barrier (s : State) (g : Nat) {f : Guest → Guest} (hf : ∀ x, (f x).barrier = x.barrier) (k : Nat) :
    ((s.modGuest g f).guest k).barrier = (s.guest k).barrier := by
  have h := s.guest?_modGuest g f k
  show ((State.guest? _ k).getD {}).barrier = ((s.guest? k).getD {}).barrier
  rw [h]
  split
  · cases s.guest? k with
    | none => rfl
    | some x => exact hf x
  · rfl

theorem State.JobStepped.modGuest {s t : State} {j : Nat} (h : s.JobStepped j t) (g : Nat) {f : Guest → Guest} (hf : ∀ x, (f x).barrier = x.barrier) :
    s.JobStepped j (t.modGuest g f) where
  frame := by rw [t.modGuest_frame, h.frame]
  own := by rw [t.modGuest_frame]; exact h.own
  others := by rw [t.modGuest_frame]; exact h.others
  barrier k := (t.guest_modGuest_barrier g hf k).trans (h.barrier k)

/-- A further change of a job that a save names. -/
theorem State.JobStepped.modJob {s t : State} {j : Nat} (h : s.JobStepped j t) (hsave : ∀ y, fget s.jobs j = some y → y.save ≠ none) (f : Job → Job) :
    s.JobStepped j (t.modJob j f) where
  frame := by rw [t.modJob_frame, h.frame]
  own y hy hn := absurd hn (hsave y hy)
  others k hk := by rw [t.fget_modJob, if_neg hk]; exact h.others k hk
  barrier g := by rw [t.modJob_frame]; exact h.barrier g

theorem State.stepJob_stepped (s : State) (j : Nat) : s.JobStepped j (s.stepJob j) := by
  unfold State.stepJob
  cases hj : fget s.jobs j with
  | none => exact ⟨rfl, (fun y hy => nomatch hj.symm.trans hy), fun _ _ => rfl, fun _ => rfl⟩
  | some x =>
    dsimp -zeta only
    extract_lets n t
    have hcount : s.JobStepped j t := by
      refine ⟨?_, fun y hy _ => ?_, fun k hk => ?_, fun g => ?_⟩
      · simp only [t]
        rw [s.modJob_frame]
      · rw [s.fget_modJob, if_pos rfl, hy]
        cases hj.symm.trans hy
        rfl
      · rw [s.fget_modJob, if_neg hk]
      · simp only [t]
        rw [s.modJob_frame]
        rfl
    split
    · rename_i v l hv hc
      split
      · refine State.JobStepped.modGuest (hcount.modJob (fun y hy => ?_) _) _ fun _ => rfl
        cases hj.symm.trans hy
        rw [hv]
        exact Option.some_ne_none v
      · exact hcount
    · exact hcount

/-- The steps of several jobs, each once. -/
theorem State.foldl_stepJob (l : List Nat) (hl : l.Nodup) (s : State) :
    l.foldl State.stepJob s = { s with jobs := (l.foldl State.stepJob s).jobs, guests := (l.foldl State.stepJob s).guests }
      ∧ (∀ j y, fget s.jobs j = some y → y.save = none →
          fget (l.foldl State.stepJob s).jobs j = some (if j ∈ l then { y with steps := y.steps + 1 } else y))
      ∧ ∀ g, ((l.foldl State.stepJob s).guest g).barrier = (s.guest g).barrier := by
  induction l generalizing s with
  | nil => exact ⟨rfl, fun j y hy _ => hy, fun _ => rfl⟩
  | cons k r ih =>
    obtain ⟨hk, hr⟩ := List.nodup_cons.mp hl
    have hone := s.stepJob_stepped k
    obtain ⟨hframe, hjobs, hbarrier⟩ := ih hr (s.stepJob k)
    refine ⟨?_, fun j y hy hsave => ?_, fun g => (hbarrier g).trans (hone.barrier g)⟩
    · rw [List.foldl_cons, hframe, hone.frame]
    · rw [List.foldl_cons]
      by_cases hj : j = k
      · subst hj
        rw [hjobs j _ (hone.own y hy hsave) hsave, if_neg hk, if_pos List.mem_cons_self]
      · rw [hjobs j y ((hone.others j hj).trans hy) hsave]
        simp [hj]

end Sys2Proof.Machine
end

section
/-! SUPPORT. The release of a barrier: the contexts that leave STEP, and the next step of their jobs (R253, R280); and the two commands (O26). -/

namespace Sys2Proof.Machine

/-! ## The contexts -/

/-- A context is no longer held at STEP. -/
def Ctx.leaveStep (c : Ctx) : Ctx := { c with atStep := false }
def State.leaveStep (s : State) (l : List (Nat × Nat)) : State := l.foldl (fun s e => s.modCtx e.1 e.2 Ctx.leaveStep) s

theorem State.ctx_leaveStep (s : State) (l : List (Nat × Nat)) (p n : Nat) :
    (s.leaveStep l).ctx p n = if (p, n) ∈ l then (s.ctx p n).leaveStep else s.ctx p n := by
  induction l generalizing s with
  | nil => rfl
  | cons e r ih =>
    have hfold : s.leaveStep (e :: r) = (s.modCtx e.1 e.2 Ctx.leaveStep).leaveStep r := rfl
    rw [hfold, ih]
    by_cases he : p = e.1 ∧ n = e.2
    · obtain ⟨rfl, rfl⟩ := he
      rw [State.ctx_modCtx, if_pos List.mem_cons_self]
      split <;> rfl
    · have hmem : (p, n) ∈ e :: r ↔ (p, n) ∈ r := by
        rw [List.mem_cons]
        exact or_iff_right fun h => he ⟨congrArg Prod.fst h, congrArg Prod.snd h⟩
      rw [State.ctx_modCtx_other _ _ _ _ _ _ he]
      exact if_congr hmem.symm rfl rfl

/-- Only contexts of tiles change. -/
theorem State.leaveStep_frame (s : State) (l : List (Nat × Nat)) : s.leaveStep l = { s with tiles := (s.leaveStep l).tiles }
    ∧ ∀ p, ((s.leaveStep l).tile p).words = (s.tile p).words ∧ ((s.leaveStep l).tile p).halts = (s.tile p).halts := by
  induction l generalizing s with
  | nil => exact ⟨rfl, fun _ => ⟨rfl, rfl⟩⟩
  | cons e r ih =>
    obtain ⟨hframe, htiles⟩ := ih (s.modCtx e.1 e.2 Ctx.leaveStep)
    refine ⟨hframe, fun p => ?_⟩
    have hone : ((s.modCtx e.1 e.2 Ctx.leaveStep).tile p).words = (s.tile p).words ∧ ((s.modCtx e.1 e.2 Ctx.leaveStep).tile p).halts = (s.tile p).halts := by
      by_cases hp : p = e.1
      · subst hp
        rw [State.modCtx, State.tile_modTile]
        exact ⟨rfl, rfl⟩
      · rw [State.modCtx, State.tile_modTile_other _ _ _ _ hp]
        exact ⟨rfl, rfl⟩
    exact ⟨(htiles p).1.trans hone.1, (htiles p).2.trans hone.2⟩

/-! ## The next step of a job -/

/-- The jobs of a guest's barrier group. -/
def State.groupJobs (s : State) (g : Nat) : List Nat := ((s.barrierGroup g).map fun e => (s.ctx e.1 e.2).job).dedup

theorem State.nodup_groupJobs (s : State) (g : Nat) : (s.groupJobs g).Nodup := List.nodup_dedup _

theorem State.mem_groupJobs (s : State) (g j : Nat) : j ∈ s.groupJobs g ↔ ∃ e ∈ s.barrierGroup g, (s.ctx e.1 e.2).job = j := by
  rw [State.groupJobs, List.mem_dedup, List.mem_map]

/-- The next step of a job begins unbroken, or broken by what still goes on (R280). -/
def State.beginStep (s : State) (j : Nat) : State :=
  let t := s.modJob j fun x => { x with broken := false }
  if ((fget s.jobs j).map (·.limitPassed)).getD false || t.disturbed j then t.breakJob j else t

theorem State.barrierRelease_eq {s : State} {g : Nat} (hb : (s.guest g).barrier = true) (hw : (s.guest g).barrierWait = false ∨ s.connsQuiet g = true)
    (hup : s.coreUp steward = true) :
    s.barrierRelease g = ((s.groupJobs g).foldl State.beginStep (s.leaveStep (s.barrierGroup g))).modGuest g
      fun x => { x with barrier := false, barrierWait := false } := by
  have hopen : ((s.guest g).barrier && (!(s.guest g).barrierWait || s.connsQuiet g) && s.coreUp steward) = true := by
    rcases hw with h | h <;> simp [hb, hup, h]
  rw [State.barrierRelease, if_pos hopen]
  rfl

theorem State.beginStep_onlyBreaks (s : State) (j : Nat) : OnlyBreaks s (s.beginStep j) := by
  have hmod : OnlyBreaks s (s.modJob j fun x => { x with broken := false }) := by
    rw [s.modJob_frame]
    exact ⟨_, _, rfl⟩
  unfold State.beginStep
  dsimp only
  split
  · exact hmod.trans (State.breakJob_onlyBreaks _ _)
  · exact hmod

theorem State.fget_jobs_beginStep_other (s : State) {j k : Nat} (h : k ≠ j) : fget (s.beginStep j).jobs k = fget s.jobs k := by
  have hmod : fget (s.modJob j fun x => { x with broken := false }).jobs k = fget s.jobs k := by rw [s.fget_modJob, if_neg h]
  unfold State.beginStep
  dsimp only
  split
  · rw [State.fget_jobs_breakJob, if_neg h, hmod]
  · exact hmod

theorem State.modJob_saves (s : State) (j : Nat) {f : Job → Job} (hf : ∀ x, (f x).save = x.save) (h : ∀ e ∈ s.jobs, e.2.save = none) :
    ∀ e ∈ (s.modJob j f).jobs, e.2.save = none := by
  intro e he
  unfold State.modJob at he
  cases hj : fget s.jobs j with
  | none =>
    rw [hj] at he
    exact h e he
  | some x =>
    rw [hj] at he
    rcases mem_fset he with rfl | hmem
    · exact (hf x).trans (h _ (mem_of_fget hj))
    · exact h e hmem

theorem State.beginStep_saves (s : State) (j : Nat) (h : ∀ e ∈ s.jobs, e.2.save = none) : ∀ e ∈ (s.beginStep j).jobs, e.2.save = none := by
  have hmod : ∀ e ∈ (s.modJob j fun x => { x with broken := false }).jobs, e.2.save = none := s.modJob_saves j (fun _ => rfl) h
  unfold State.beginStep
  dsimp only
  split
  · unfold State.breakJob
    split
    · split
      · exact State.modJob_saves (f := fun x => { x with broken := true, everBroken := true }) _ j (fun _ => rfl) hmod
      · exact hmod
    · exact hmod
  · exact hmod

end Sys2Proof.Machine

namespace Sys2Proof.Claims
open Sys2Proof.Machine

theorem Undisturbed.disturbed {s : State} {j : Nat} (h : Undisturbed s j) : s.disturbed j = false := by
  obtain ⟨hstage, hclamp, hhalts, hmoving, hcores, hsaves, htiles⟩ := h
  have hrun (c : Nat) : (s.core c).run = .running := by
    unfold State.core fgetD
    cases hc : fget s.firm.cores c with
    | none => rfl
    | some k => exact hcores _ (mem_of_fget hc)
  have hmine : (match fget s.jobs j with
      | some x => (s.jobTiles x).any fun p => (s.tile p).halts != [] || (s.core (innkeeper (clusterOf p))).run == .restarting
      | none => false) = false := by
    split
    · rename_i x hx
      refine List.any_eq_false.mpr fun p hp => ?_
      simp [htiles x hx p hp, hrun]
    · rfl
  have hclusters : (s.clusters.any (·.2.moving.isSome)) = false := List.any_eq_false.mpr fun e he => by simp [hmoving e he]
  have hup : (s.firm.cores.any fun e => e.2.run == .swapping || (decide (e.1 < 3) && e.2.run != .running)) = false :=
    List.any_eq_false.mpr fun e he => by simp [hcores e he]
  have hsave : (s.jobs.any (·.2.save.isSome)) = false := List.any_eq_false.mpr fun e he => by simp [hsaves e he]
  unfold State.disturbed
  simp only [hstage, hclamp, hhalts, hclusters, hup, hsave, bne_self_eq_false, Bool.false_or]
  exact hmine

theorem Undisturbed.saves {s : State} {j : Nat} (h : Undisturbed s j) : ∀ e ∈ s.jobs, e.2.save = none := by
  obtain ⟨-, -, -, -, -, hsaves, -⟩ := h
  exact hsaves

/-- Whether a job is disturbed does not depend on its promises, nor on the other jobs. -/
theorem Undisturbed.of_onlyBreaks {s t : State} {j : Nat} (h : Undisturbed s j) (ht : OnlyBreaks s t) (hsaves : ∀ e ∈ t.jobs, e.2.save = none)
    (hj : ∀ y, fget t.jobs j = some y → ∃ x, fget s.jobs j = some x ∧ x.coords = y.coords) : Undisturbed t j := by
  obtain ⟨hstage, hclamp, hhalts, hmoving, hcores, -, htiles⟩ := h
  obtain ⟨jo, ld, rfl⟩ := ht
  refine ⟨hstage, hclamp, hhalts, hmoving, hcores, hsaves, fun y hy p hp => ?_⟩
  obtain ⟨x, hx, hxy⟩ := hj y hy
  have hsame : s.jobTiles x = State.jobTiles { s with jobs := jo, ledgers := ld } y := by rw [State.jobTiles, State.jobTiles, hxy]; rfl
  exact htiles x hx p (hsame ▸ hp)

theorem Undisturbed.beginStep_other {s : State} {j k : Nat} (h : Undisturbed s j) (hk : j ≠ k) : Undisturbed (s.beginStep k) j := by
  refine h.of_onlyBreaks (s.beginStep_onlyBreaks k) (s.beginStep_saves k h.saves) fun y hy => ⟨y, ?_, rfl⟩
  rwa [s.fget_jobs_beginStep_other hk] at hy

/-- Where nothing disturbs a job within its limit, its next step is unbroken. -/
theorem fget_jobs_beginStep {s : State} {j : Nat} {y : Job} (h : Undisturbed s j) (hj : fget s.jobs j = some y) (hlimit : y.limitPassed = false) :
    fget (s.beginStep j).jobs j = some { y with broken := false } := by
  have hmod : fget (s.modJob j fun x => { x with broken := false }).jobs j = some { y with broken := false } := by
    rw [s.fget_modJob, if_pos rfl, hj]
    rfl
  have hquiet : Undisturbed (s.modJob j fun x => { x with broken := false }) j := by
    refine h.of_onlyBreaks ?_ (s.modJob_saves j (fun _ => rfl) h.saves) fun x hx => ⟨y, hj, ?_⟩
    · rw [s.modJob_frame]
      exact ⟨_, _, rfl⟩
    · cases hmod.symm.trans hx
      rfl
  have hon : (((fget s.jobs j).map (·.limitPassed)).getD false || (s.modJob j fun x => { x with broken := false }).disturbed j) = false := by
    rw [hquiet.disturbed, hj]
    simp [hlimit]
  unfold State.beginStep
  dsimp only
  rw [hon]
  exact hmod

theorem fget_jobs_foldl_beginStep (l : List Nat) (hl : l.Nodup) {s : State} {j : Nat} {y : Job} (h : Undisturbed s j) (hj : fget s.jobs j = some y)
    (hlimit : y.limitPassed = false) : fget (l.foldl State.beginStep s).jobs j = some (if j ∈ l then { y with broken := false } else y) := by
  have hothers (l : List Nat) (s : State) (hout : j ∉ l) : fget (l.foldl State.beginStep s).jobs j = fget s.jobs j := by
    induction l generalizing s with
    | nil => rfl
    | cons k r ih =>
      obtain ⟨hk, hr⟩ := not_or.mp (mt List.mem_cons.mpr hout)
      exact (ih _ hr).trans (s.fget_jobs_beginStep_other hk)
  induction l generalizing s with
  | nil => exact hj
  | cons k r ih =>
    obtain ⟨hk, hr⟩ := List.nodup_cons.mp hl
    rw [List.foldl_cons]
    by_cases hjk : j = k
    · subst hjk
      rw [hothers r _ hk, fget_jobs_beginStep h hj hlimit, if_pos List.mem_cons_self]
    · rw [ih hr (h.beginStep_other hjk) ((s.fget_jobs_beginStep_other hjk).trans hj)]
      simp [hjk]

/-! ## The commands -/

theorem exec_stepBarrierComplete (g : Nat) (s : State) : exec (.stepBarrierComplete g) s = .next (s.barrierComplete g) := rfl

theorem exec_barrierRelease (g : Nat) (s : State) : exec (.barrierRelease g) s = .next (s.barrierRelease g) := rfl

/-- STEP_BARRIER_COMPLETE of a group whose contexts are all held. -/
theorem barrierComplete_eq {s : State} {g : Nat} (hidle : (s.guest g).barrier = false) (hup : s.coreUp steward = true) (hgroup : s.barrierGroup g ≠ [])
    (hheld : ∀ e ∈ s.barrierGroup g, (s.ctx e.1 e.2).atStep = true ∧ (s.ctx e.1 e.2).streaming = false) :
    s.barrierComplete g = (s.groupJobs g).foldl State.stepJob ((s.advance g).modGuest g fun x => { x with barrier := true }) := by
  have hall : ((s.barrierGroup g).all fun e => (s.ctx e.1 e.2).atStep && !(s.ctx e.1 e.2).streaming) = true :=
    List.all_eq_true.mpr fun e he => by simp [hheld e he]
  unfold State.barrierComplete
  dsimp only
  rw [if_neg (by simp [hgroup, hall, hidle, hup])]
  rfl

theorem guest_of_guest? {s : State} {g : Nat} {x : Guest} (h : s.guest? g = some x) : s.guest g = x := congrArg (fun o : Option Guest => o.getD {}) h

/-- A guest's record after a change. -/
theorem guest_modGuest {s : State} {g : Nat} (h : (s.guest? g).isSome = true) (f : Guest → Guest) : (s.modGuest g f).guest g = f (s.guest g) := by
  obtain ⟨x, hx⟩ := Option.isSome_iff_exists.mp h
  have hset : (s.modGuest g f).guest? g = some (f x) := by rw [State.guest?_modGuest, if_pos rfl, hx]; rfl
  rw [guest_of_guest? hset, guest_of_guest? hx]

/-- The fields of a ledger that a barrier counts in. -/
theorem counted_aged_fields {k l : Ledger} (h : k.books = l.counted.aged.books) :
    (if l.marks.length = l.pairs ∧ l.pairs ≠ 0 then k.tokens = l.tokens + 1 ∧ k.marks = [] else k.tokens = l.tokens ∧ k.marks = l.marks)
      ∧ k.idle = (if l.named then l.idle else l.idle + 1) ∧ k.named = false := by
  have hidle : k.books.idle = l.counted.aged.books.idle := by rw [h]
  have hnamed : k.books.named = l.counted.aged.books.named := by rw [h]
  rw [Ledger.tokens_of_books h, Ledger.marks_of_books h, show k.idle = _ from hidle]
  unfold Ledger.counted
  by_cases hm : l.marks.length = l.pairs ∧ l.pairs ≠ 0
  · rw [if_pos hm, if_pos hm]
    exact ⟨⟨rfl, rfl⟩, rfl, hnamed⟩
  · rw [if_neg hm, if_neg hm]
    exact ⟨⟨rfl, rfl⟩, rfl, hnamed⟩

/-- Settles O26: the advance steps the books of the guest's ledgers, each job of the group steps once, and the release begins each job's next step. -/
theorem stepBarrierAdvancesAndReleases : Obligations.StepBarrierAdvancesAndReleases := by
  refine ⟨?complete, ?release⟩
  case complete =>
    intro g x s hx hidle hup hgroup hheld hkeys
    obtain ⟨hframe, hown, hothers, hguests⟩ := s.advance_advanced g hkeys
    have hlive : ((s.advance g).guest? g).isSome = true := by rw [hguests, hx]; rfl
    refine ⟨_, exec_stepBarrierComplete g s, ?_⟩
    rw [barrierComplete_eq (by rw [guest_of_guest? hx, hidle]) hup hgroup hheld]
    obtain ⟨hstep, hsteps, hbarrier⟩ := State.foldl_stepJob _ (s.nodup_groupJobs g) ((s.advance g).modGuest g fun x => { x with barrier := true })
    have hledger (n : Nat) : ((s.groupJobs g).foldl State.stepJob ((s.advance g).modGuest g fun x => { x with barrier := true })).ledger? n
        = (s.advance g).ledger? n := by
      rw [hstep, State.modGuest_frame]
      rfl
    refine ⟨?_, ?_, fun n l hn hg => ?_, fun n l hn hg => (hledger n).trans (hothers n l hn hg), fun j y hy hsave => ?_⟩
    · rw [hbarrier, guest_modGuest hlive]
    · rw [hstep, State.modGuest_frame, hframe]
    · obtain ⟨k, hk, hbooks⟩ := hown n l hn hg
      exact ⟨k, (hledger n).trans hk, counted_aged_fields hbooks⟩
    · rw [hsteps j y ?_ hsave]
      · exact congrArg some (if_congr (s.mem_groupJobs g j) rfl rfl)
      · rw [State.modGuest_frame, hframe]
        exact hy
  case release =>
    intro g x s hx hrun hwait hup
    have hguest := guest_of_guest? hx
    refine ⟨_, exec_barrierRelease g s, ?_⟩
    rw [State.barrierRelease_eq (by rw [hguest, hrun]) (by rw [hguest]; exact hwait) hup]
    obtain ⟨hleave, htiles⟩ := s.leaveStep_frame (s.barrierGroup g)
    obtain ⟨jo, ld, hbreaks⟩ : OnlyBreaks (s.leaveStep (s.barrierGroup g)) ((s.groupJobs g).foldl State.beginStep (s.leaveStep (s.barrierGroup g))) :=
      OnlyBreaks.foldl State.beginStep_onlyBreaks _ _
    have hlive : (((s.groupJobs g).foldl State.beginStep (s.leaveStep (s.barrierGroup g))).guest? g).isSome = true := by
      rw [hbreaks, hleave]
      exact Option.isSome_iff_exists.mpr ⟨x, hx⟩
    refine ⟨?_, ?_, fun p n => ?_, fun p a => ?_, fun j y hy hlimit hquiet => ?_, ?_⟩
    · rw [guest_modGuest hlive]
    · rw [guest_modGuest hlive]
    · rw [State.modGuest_frame, hbreaks]
      exact s.ctx_leaveStep (s.barrierGroup g) p n
    · rw [State.modGuest_frame, hbreaks]
      exact congrArg (fgetD {} · (a / 8)) (htiles p).1
    · rw [State.modGuest_frame]
      have hquiet' : Undisturbed (s.leaveStep (s.barrierGroup g)) j := by
        obtain ⟨hstage, hclamp, hhalts, hmoving, hcores, hsaves, hrest⟩ := hquiet
        rw [hleave]
        exact ⟨hstage, hclamp, hhalts, hmoving, hcores, hsaves, fun z hz p hp => (htiles p).2.trans (hrest z hz p hp)⟩
      have hy' : fget (s.leaveStep (s.barrierGroup g)).jobs j = some y := by rw [hleave]; exact hy
      refine (fget_jobs_foldl_beginStep _ (s.nodup_groupJobs g) hquiet' hy' hlimit).trans ?_
      exact congrArg some (if_congr (s.mem_groupJobs g j) rfl rfl)
    · rw [State.modGuest_frame, hbreaks, hleave]

end Sys2Proof.Claims
end

section
/-! SUPPORT. Ledgers made and freed, and the delivery of their handles (R264, R265). -/

namespace Sys2Proof.Machine

/-! ## Ledgers made and freed -/

theorem ReqBlock.check_none {b : ReqBlock} {r : Req} {s : State} (h : b.check r s = none) : b.conflict r s = false ∧ b.short r s = false := by
  unfold ReqBlock.check at h
  split at h; · cases h
  split at h; · cases h
  split at h; · cases h
  split at h; · cases h
  rename_i hc
  split at h; · cases h
  rename_i hs
  simp only [Bool.or_eq_true, not_or, Bool.not_eq_true] at hc hs
  exact ⟨hc.2, hs⟩

theorem State.ledgerOf_some {s : State} {h g n : Nat} (hn : s.ledgerOf h g = some n) : ∃ l, s.ledger? n = some l ∧ l.guest = g := by
  unfold State.ledgerOf at hn
  dsimp only at hn
  split at hn
  · rename_i l hl
    split at hn
    · rename_i hok
      cases hn
      exact ⟨l, hl, hok.1⟩
    · cases hn
  · cases hn

theorem State.ledger?_setRun (s : State) (n span : Nat) (r : Run) :
    (s.setRun n span (some r)).ledger? n = (s.ledger? n).map fun l => { l with runs := fset l.runs span r } := by
  unfold State.setRun
  cases hl : s.ledger? n with
  | none => exact hl
  | some l =>
    dsimp only
    rw [(State.memWrite_onlyMemory ..).ledger?, State.ledger?_modLedger, if_pos rfl, hl]

/-- A ledger that a pool's shape and a directory page make, before it has a run. -/
def Pool.blank (p : Pool) (g pool dir : Nat) : Ledger :=
  { guest := g, pool, dir, layers := p.layers, heads := p.heads, width := p.width, fmt := p.fmt, tokens := 0 }

/-- Such a ledger takes a number, and its page and runs leave the pool. -/
def State.addBlank (s : State) (g pool n dir : Nat) (p : Pool) (dirs runs : List Nat) : State :=
  (s.modGuest g fun x => { x with pools := fset x.pools pool { p with freeDirs := dirs, freeRuns := runs } }).modLedgers fun m =>
    { m with live := fset m.live n (p.blank g pool dir) }

/-- The lowest free number is a ledger with one run (R264). -/
theorem State.makeLedger_one {s t : State} {g pool n k : Nat} {p : Pool} (h : s.makeLedger g pool 0 1 = some (k, t)) (hn : s.freeLedgerNo = some n)
    (hp : s.stackPool g pool = some p) :
    k = n ∧ (∃ dir r, t.ledger? n = some { p.blank g pool dir with runs := [(0, r)] }) ∧ (∀ m, m ≠ n → t.ledger? m = s.ledger? m)
      ∧ t.generation n = s.generation n ∧ t.mesh = s.mesh ∧ t.tiles = s.tiles := by
  unfold State.makeLedger at h
  rw [hn, hp] at h
  dsimp only at h
  split at h; swap; · cases h
  rename_i dir dirs hdirs
  split at h; swap; · cases h
  rename_i hruns
  obtain ⟨a, rest, hfree⟩ : ∃ a rest, p.freeRuns = a :: rest := List.exists_cons_of_length_pos hruns
  have htake : (p.freeRuns.take 1).zipIdx = [(a, 0)] := by rw [hfree]; rfl
  have hdrop : p.freeRuns.drop 1 = rest := by rw [hfree]; rfl
  rw [htake, hdrop, List.foldl_cons, List.foldl_nil] at h
  have hmade : (n, (((s.addBlank g pool n dir p dirs rest).memZero dir 65536).clearTail a p.layers p.heads p.width).setRun n 0
      (some { addr := a, pool })) = (k, t) :=
    Option.some.inj h
  cases hmade
  have hclear := ((s.addBlank g pool n dir p dirs rest).memZero_onlyMemory dir 65536).trans (State.clearTail_onlyMemory _ a p.layers p.heads p.width)
  have hset := hclear.onlyRuns.trans (State.setRun_onlyRuns (c := (· = n)) _ rfl 0 (some { addr := a, pool }))
  have hadd (m : Nat) : (s.addBlank g pool n dir p dirs rest).ledger? m = if m = n then some (p.blank g pool dir) else s.ledger? m := by
    rw [State.addBlank, State.modGuest_frame]
    by_cases hm : m = n
    · subst hm
      rw [if_pos rfl]
      exact fget_fset_same _ _ _
    · rw [if_neg hm]
      exact fget_fset_other _ _ hm
  have hrest : (s.addBlank g pool n dir p dirs rest).mesh = s.mesh ∧ (s.addBlank g pool n dir p dirs rest).tiles = s.tiles
      ∧ (s.addBlank g pool n dir p dirs rest).ledgers.generations = s.ledgers.generations := by
    rw [State.addBlank, State.modGuest_frame]
    exact ⟨rfl, rfl, rfl⟩
  obtain ⟨hmesh, htiles, hgens⟩ := hrest
  refine ⟨rfl, ⟨dir, { addr := a, pool }, ?_⟩, fun m hm => ?_, ?_, hset.mesh.trans hmesh, hset.tiles.trans htiles⟩
  · rw [State.ledger?_setRun, hclear.ledger?, hadd, if_pos rfl]
    rfl
  · rw [hset.others m hm, hadd, if_neg hm]
  · rw [State.generation, hset.generations, hgens, State.generation]

theorem State.handle_of_ledger? {s : State} {n : Nat} {l : Ledger} (h : s.ledger? n = some l) : s.handle n = handleOf n (s.generation n) l.guest := by
  rw [State.handle, h]

/-- A tile without the marks of a handle. -/
def Tile.dropHandle (t : Tile) (h : BitVec 64) : Tile := { t with handles := t.handles.filter (· != h) }

/-- A ledger's number is free, its generation one higher, and its handle marks gone (R265). -/
theorem State.freeLedger_freed {s : State} {n : Nat} {l : Ledger} (hl : s.ledger? n = some l) :
    (s.freeLedger n).ledger? n = none ∧ (s.freeLedger n).generation n = s.generation n + 1
      ∧ ∀ p, ((s.freeLedger n).tile p).handles = (s.tile p).handles.filter (· != BitVec.ofNat 64 (s.handle n)) := by
  unfold State.freeLedger
  rw [hl]
  dsimp -zeta only
  extract_lets h s1 s2 s3 s4
  have h1 : OnlyRuns (fun _ => True) s s1 := OnlyRuns.foldl _ (fun s e _ => by
    dsimp only
    split
    · exact (s.giveRun_onlyRuns ..).trans (State.giveRun_onlyRuns ..)
    · exact s.giveRun_onlyRuns ..) s
  have h2 : OnlyRuns (fun _ => True) s s2 := h1.trans (State.modGuest_onlyRuns ..)
  have h4 : OnlyRuns (fun _ => True) s4 (s4.unfull l.guest) := s4.unfull_onlyRuns l.guest
  refine ⟨h4.ledger?_none ?_, ?_, fun p => ?_⟩
  · exact (fget_fdel _ _ _).trans (if_pos rfl)
  · have hgen : s4.generation n = s3.generation n + 1 := fgetD_fupd_same 0 s3.ledgers.generations n (· + 1)
    rw [State.generation, h4.generations, ← State.generation, hgen, State.generation, State.generation]
    exact congrArg (fgetD 0 · n + 1) h2.generations
  · have htile : s3.tile p = (s2.tile p).dropHandle h := fgetD_fmap (d := ({} : Tile)) (f := fun _ t => t.dropHandle h) (k := p) rfl s2.tiles
    rw [State.tile, h4.tiles]
    show (s3.tile p).handles = _
    rw [htile, State.tile, h2.tiles]
    rfl

/-! ## Handles delivered (R264) -/

theorem Tile.word_arrive_one (t : Tile) (a : Nat) (w : TWord) : (t.arrive a [w]).word a = w := fgetD_fset_same _ _ _ _

theorem State.deliverHandle_word (s : State) (n x y a : Nat) :
    ((s.deliverHandle n x y a).tile (s.phys x y)).word a = { tag := .seq, data := BitVec.ofNat 64 (s.handle n) } := by
  rw [State.deliverHandle, State.arrive, State.tile_modTile, Tile.word_arrive_one]

end Sys2Proof.Machine
end

section
/-! SUPPORT. The ledger messages (R263 to R268): what each block does to pools, ledgers and guests, and the message commands (O28). -/

namespace Sys2Proof.Claims
open Sys2Proof.Machine

/-- A message that answers at once: its answer, and a state that differs from its block's in the firmware's and the links' alone. -/
theorem gives_answer {i : Instr} {slot core : Nat} {b : ReqBlock} {s : State} {a : Reply} {P : State → Prop} (hi : messageOf i = some (slot, b))
    (h : Begun s slot core b none) (ha : b.run ((s.hole slot).req slot) s = a) (hnow : a.later = false) (hp : a.payload.length < 4064)
    (hP : ∀ f ho, Answers { a.state with firm := f, hosts := ho } slot a.status a.payload → P { a.state with firm := f, hosts := ho }) : Gives i s P := by
  subst ha
  refine gives_message hi h hnow ?_
  obtain ⟨hframe, -⟩ := finish_respond_frame (b.run ((s.hole slot).req slot) s).state slot core (b.run ((s.hole slot).req slot) s).status
    (b.run ((s.hole slot).req slot) s).payload
  have hans := answers_respond ((b.run ((s.hole slot).req slot) s).state.finish core) slot (b.run ((s.hole slot).req slot) s).status hp
  rw [hframe] at hans ⊢
  exact hP _ _ hans

theorem Begun.check {s : State} {slot core : Nat} {b : ReqBlock} {st : Option Status} (h : Begun s slot core b st) :
    b.check ((s.hole slot).req slot) s = st := by
  obtain ⟨-, -, -, -, hcheck⟩ := h
  exact hcheck

/-! ## What each block does -/

/-- How many runs the region of LEDGER_POOL holds behind its directory pages (R263). -/
def poolRuns (r : Req) : Nat := (r.f 8 8 - 65536 * r.f 22 2) / runSize (r.f 16 2) (r.f 18 2) (widthOf (r.f 20 1))
/-- The pool that LEDGER_POOL describes: its directory pages first, then its runs. -/
def newPool (r : Req) : Pool :=
  { base := r.f 0 8, length := r.f 8 8, cellar := !inStack (r.f 0 8) (r.f 8 8), layers := r.f 16 2, heads := r.f 18 2, width := widthOf (r.f 20 1),
    fmt := r.f 21 1, freeDirs := (List.range (r.f 22 2)).map fun i => r.f 0 8 + 65536 * i,
    freeRuns := (List.range (poolRuns r)).map fun i => r.f 0 8 + 65536 * r.f 22 2 + runSize (r.f 16 2) (r.f 18 2) (widthOf (r.f 20 1)) * i }

theorem ledgerPool_run {r : Req} {s : State} {n : Nat}
    (h : (List.range 16).find? (fun i => (fget (s.guest r.guest).pools i).isNone) = some n) :
    ledgerPoolBlock.run r s = {
      state := s.modGuest r.guest fun g =>
        { g with pools := fset g.pools n (newPool r), idleSteps := if g.poolGiven then g.idleSteps else 0, poolGiven := true },
      payload := leBytes 2 n ++ [0, 0] ++ leBytes 4 (poolRuns r) } := by
  simp only [ledgerPoolBlock, h, Option.getD_some]
  rfl

theorem ledgerCreate_run {r : Req} {s t : State} {n : Nat} (h : s.makeLedger r.guest (r.f 0 2) 0 1 = some (n, t)) :
    ledgerCreateBlock.run r s = { state := t.deliverHandle n (r.f 2 1) (r.f 3 1) (r.f 4 4), payload := leBytes 8 (t.handle n) } := by
  simp only [ledgerCreateBlock, h]

theorem ledgerDelete_run {r : Req} {s : State} {n : Nat} (h : s.ledgerOf (r.f 0 8) r.guest = some n) :
    ledgerDeleteBlock.run r s = if s.ledgerStreams n = 0 then { state := s.freeLedger n }
      else { state := s.modLedger n fun l => { l with deleting := some r.slot }, later := true } := by
  simp only [ledgerDeleteBlock, Req.ledger, h]

theorem ledgerMove_run {r : Req} {s : State} {n : Nat} (h : s.ledgerOf (r.f 0 8) r.guest = some n) :
    ledgerMoveBlock.run r s = deferred (s.startMove n (r.f 8 1 == 1) (some r.seq)) := by
  simp only [ledgerMoveBlock, Req.ledger, h]

theorem ledgerExport_run {r : Req} {s : State} {n : Nat} (h : s.ledgerOf (r.f 0 8) r.guest = some n) :
    ledgerExportBlock.run r s = deferred (s.modLedger n fun l => { l with exportTo := some (r.f 8 8), exportSeq := r.seq }) := by
  simp only [ledgerExportBlock, Req.ledger, h]

theorem ledgerQuery_run {r : Req} {s : State} {n : Nat} {l : Ledger} (h : s.ledgerOf (r.f 0 8) r.guest = some n) (hl : s.ledger? n = some l) :
    ledgerQueryBlock.run r s = {
      state := s,
      payload := leBytes 4 l.tokens ++ leBytes 2 l.marks.length ++ leBytes 1 (s.ledgerState l) ++ [0] ++ leBytes 2 (s.runCounts l).1
        ++ leBytes 2 (s.runCounts l).2 ++ leBytes 4 l.idle } := by
  simp only [ledgerQueryBlock, Req.ledger, h, Option.bind_some, hl]

/-- What the checks of a message let through: a ledger that is to move has no move under way (R266). -/
theorem moveTo_of_check {r : Req} {s : State} {n : Nat} {l : Ledger} (hc : ledgerMoveBlock.check r s = none) (h : s.ledgerOf (r.f 0 8) r.guest = some n)
    (hl : s.ledger? n = some l) : l.moveTo = none := by
  have hfree := (ReqBlock.check_none hc).1
  simp only [ledgerMoveBlock, Req.ledger, h, Option.bind_some, hl, Bool.or_eq_false_iff] at hfree
  exact Option.not_isSome_iff_eq_none.mp (Bool.not_eq_true _ ▸ hfree.1)

theorem makeLedger_of_check {r : Req} {s : State} (hc : ledgerCreateBlock.check r s = none) : ∃ k t, s.makeLedger r.guest (r.f 0 2) 0 1 = some (k, t) := by
  have hmade := (ReqBlock.check_none hc).2
  simp only [ledgerCreateBlock, Bool.or_eq_false_iff, Option.isNone_eq_false_iff] at hmade
  obtain ⟨⟨k, t⟩, h⟩ := Option.isSome_iff_exists.mp hmade.2
  exact ⟨k, t, h⟩

/-- The state that LEDGER_QUERY reports, as a byte. -/
theorem leBytes_ledgerState (s : State) (l : Ledger) :
    leBytes 1 (s.ledgerState l) = [if l.moveTo.isSome then 2 else if l.full then 4 else if (s.runCounts l).1 = 0 ∧ l.runs ≠ [] then 3 else 1] := by
  unfold State.ledgerState
  split
  · rfl
  split
  · rfl
  split <;> rfl

/-! ## The commands -/

/-- Settles O28, message by message: each block's effect on pools, ledgers or guests, which the answer leaves as it is. -/
theorem ledgerMessagesTakeEffect : Obligations.LedgerMessagesTakeEffect := by
  intro slot core s g f seq
  refine ⟨?pool, ?create, ?delete, ?move, ?query, ?idle, ?exportTo, ?imports⟩
  case pool =>
    intro x hx hb n hn hfree hlow
    have hlowest : (List.range 16).find? (fun i => (fget (s.guest g).pools i).isNone) = some n := by
      rw [List.find?_range_eq_some, guest_of_guest? hx, hfree]
      refine ⟨rfl, List.mem_range.mpr hn, fun m hm => ?_⟩
      cases hp : fget x.pools m with
      | none => exact absurd hp (hlow m hm)
      | some p => rfl
    refine gives_answer rfl hb (ledgerPool_run hlowest) rfl (by simp [leBytes_length]) fun fi ho hans => ?_
    have hguest := guest_modGuest (s := s) (g := g) (by rw [hx]; rfl) fun g =>
      { g with pools := fset g.pools n (newPool ((s.hole slot).req slot)), idleSteps := if g.poolGiven then g.idleSteps else 0, poolGiven := true }
    rw [guest_of_guest? hx] at hguest
    refine ⟨?_, fun m hm => ?_, hans⟩
    · exact (congrArg (fun y : Guest => fget y.pools n) hguest).trans (fget_fset_same _ _ _)
    · exact (congrArg (fun y : Guest => fget y.pools m) hguest).trans (fget_fset_other _ _ hm)
  case create =>
    intro n p hb hn hp
    obtain ⟨k, t, hmade⟩ := makeLedger_of_check hb.check
    obtain ⟨rfl, ⟨dir, r, hl⟩, hothers, hgen, hmesh, htiles⟩ := State.makeLedger_one hmade hn hp
    have hhandle : t.handle k = k + (s.generation k).toNat * 2 ^ 16 + g * 2 ^ 32 := by rw [State.handle_of_ledger? hl, hgen]; rfl
    refine gives_answer rfl hb (ledgerCreate_run hmade) rfl (by simp [leBytes_length]) fun fi ho hans => ?_
    refine ⟨⟨_, hl, rfl, rfl, rfl, rfl, rfl, rfl, rfl, rfl, rfl⟩, hothers, hhandle ▸ hans, ?_⟩
    have hword := t.deliverHandle_word k (f 2 1) (f 3 1) (f 4 4)
    rw [hhandle, State.phys, hmesh] at hword
    exact hword
  case delete =>
    intro n hb hn
    obtain ⟨l, hl, -⟩ := State.ledgerOf_some hn
    by_cases hs : s.ledgerStreams n = 0
    · have hrun := (ledgerDelete_run hn).trans (if_pos hs)
      obtain ⟨hnone, hgen, hhandles⟩ := State.freeLedger_freed hl
      refine gives_answer rfl hb hrun rfl (Nat.zero_lt_succ _) fun fi ho hans => ?_
      rw [if_pos hs]
      exact ⟨hnone, hgen, hans, hhandles⟩
    · have hrun := (ledgerDelete_run hn).trans (if_neg hs)
      refine ⟨_, exec_message rfl s, ?_⟩
      rw [serve_of_check_none hb, hrun]
      dsimp only
      rw [if_neg hs, if_pos rfl]
      refine ⟨⟨l, hl, rfl⟩, ?_⟩
      rw [State.modLedger_frame]
      rfl
  case move =>
    intro n l hb hn hl
    have hfree := moveTo_of_check hb.check hn hl
    have hmove := s.startMove_onlyRuns (c := (· = n)) (n := n) rfl (f 8 1 == 1) (some seq)
    obtain ⟨k, hk, hbooks⟩ := hmove.ledger?_some hl
    refine gives_answer rfl hb (ledgerMove_run hn) rfl (Nat.zero_lt_succ _) fun fi ho hans => ?_
    refine ⟨hans, ⟨k, hk, Ledger.tokens_of_books hbooks, Ledger.marks_of_books hbooks, fun hheld => ?_⟩, fun m hm => hmove.others m hm, hmove.tiles⟩
    obtain ⟨m, hm, hg⟩ := State.ledgerOf_some hn
    cases hl.symm.trans hm
    have hstart := s.startMove_held hl hfree (hg ▸ hheld) (f 8 1 == 1) (some seq)
    rw [hstart, State.ledger?_modLedger, if_pos rfl, hl] at hk
    cases hk
    exact ⟨rfl, rfl⟩
  case query =>
    intro n l hb hn hl
    refine gives_answer rfl hb (ledgerQuery_run hn hl) rfl (by simp [leBytes_length]) fun fi ho hans => ?_
    rw [leBytes_ledgerState, List.append_assoc _ _ [0]] at hans
    exact ⟨hans, rfl, rfl, rfl, rfl⟩
  case idle =>
    intro x hx hb
    refine gives_answer (a := { state := s.modGuest g fun g => { g with idleSteps := f 0 4 } }) rfl hb rfl rfl (Nat.zero_lt_succ _) fun fi ho hans => ?_
    have hguest := s.guest?_modGuest g (fun g => { g with idleSteps := f 0 4 }) g
    rw [if_pos rfl, hx] at hguest
    refine ⟨hguest, hans, ?_⟩
    rw [State.modGuest_frame]
  case exportTo =>
    intro n l hb hn hl
    refine gives_answer rfl hb (ledgerExport_run hn) rfl (Nat.zero_lt_succ _) fun fi ho hans => ?_
    have hset (m : Nat) := s.ledger?_modLedger n (fun l => { l with exportTo := some (f 8 8), exportSeq := seq }) m
    refine ⟨?_, hans, fun m hm => (hset m).trans (if_neg hm), ?_⟩
    · exact (hset n).trans (by rw [if_pos rfl, hl]; rfl)
    · show (s.modLedger n _).mem = s.mem
      rw [State.modLedger_frame]
  case imports =>
    intro x hx hb
    obtain ⟨me, fr, po, hread⟩ := s.memRead_onlyMemory (f 0 8) 64
    have hread? : (s.memRead (f 0 8) 64).2.2.guest? g = some x := by rw [hread]; exact hx
    have hguest := (s.memRead (f 0 8) 64).2.2.guest?_modGuest g
      (fun g => { g with imports := g.imports ++ [{ source := f 0 8, pool := f 8 2, x := f 10 1, y := f 11 1, addr := f 12 4, seq }] }) g
    rw [if_pos rfl, hread?] at hguest
    refine gives_answer rfl hb rfl rfl (Nat.zero_lt_succ _) fun fi ho hans => ⟨hguest, hans, ?_⟩
    show ((s.memRead (f 0 8) 64).2.2.modGuest g _).ledgers = s.ledgers
    rw [State.modGuest_frame, hread]

end Sys2Proof.Claims
end

section
/-! SUPPORT. A table of runs that lists one span twice: the state that shows that the span's entry need not name the new run once its copy is done (O27). -/

namespace Sys2Proof.Claims
open Sys2Proof.Machine

theorem exec_runMoveDone {n : Nat} {l : Ledger} {s : State} (span : Nat) (hl : s.ledger? n = some l) :
    exec (.runMoveDone n span) s = .next ((s.runMoveDone n span).unfull l.guest) := by
  show execRunMoveDone n span s = _
  unfold execRunMoveDone
  rw [hl]
  rfl

/-- A stack pool with one free run, and a cellar pool; both of one layer, one head and width 64. -/
def runsPool : Pool := { base := 0, length := 0x60000, cellar := false, layers := 1, heads := 1, width := 64, fmt := 0, freeRuns := [0x40000] }
def homePool : Pool := { runsPool with base := cellarBase, length := 0x40000, cellar := true, freeRuns := [] }

/-- A run whose copy from cellar memory to the stack is done, and the second entry of the same span. -/
def copiedRun : Run := { addr := cellarBase, pool := 1, moving := true, fresh := some (0, 0x20000) }
def twinRun : Run := { addr := cellarBase + 0x20000, pool := 1 }
def twinLedger : Ledger :=
  { guest := 5, pool := 0, dir := 0, layers := 1, heads := 1, width := 64, fmt := 0, tokens := 1, moveTo := some false, runs := [(0, copiedRun), (0, twinRun)] }

/-- Guest 5 moves the runs of ledger 7 to the stack, and the table of its runs lists span 0 twice. -/
def spanTwice : State :=
  { guests := [(5, { rooms := [0], pools := [(0, runsPool), (1, homePool)] })], ledgers := { live := [(7, twinLedger)] },
    mem := { regions := [(0, { device := some 0, filled := true, written := true })] } }

/-- The next move of the ledger takes the second entry and writes it over the first. -/
theorem runMoveDone_spanTwice_runs :
    ((((spanTwice.runMoveDone 7 0).unfull 5).ledger? 7).bind fun k => fget k.runs 0) = some { twinRun with moving := true, fresh := some (0, 0x40000) } := by
  decide

/-- Refutes O27: the statement has the span's entry name the new run after any RUN_MOVE_DONE, but where the table of runs lists the span a second
time, in the tier that the move leaves, the move goes on with that entry at once and the span is moving again. -/
theorem not_ledgerTransfersComplete : ¬ Obligations.LedgerTransfersComplete := by
  intro h
  obtain ⟨hmove, -⟩ := h
  obtain ⟨t, ht, k, hk, hrun, -⟩ := hmove 7 0 0 0x20000 false twinLedger copiedRun runsPool spanTwice rfl rfl rfl rfl rfl rfl rfl
    (by decide) rfl (by decide) (by decide) (by decide)
  rw [exec_runMoveDone 0 (l := twinLedger) rfl] at ht
  injection ht with ht
  have hruns := runMoveDone_spanTwice_runs
  rw [show ((spanTwice.runMoveDone 7 0).unfull 5).ledger? 7 = some k from ht ▸ hk, Option.bind_some, hrun] at hruns
  exact absurd hruns (by decide)

end Sys2Proof.Claims
end
